-- ==== Sys2Proof/Word.lean ====
section
/-!
DEFINITION. The word types of the model: bytes, double words, status codes. Multi-byte values are
little-endian (spec/00_scope.md R9); the functions that read and write them are in Machine/Tab.lean.
-/
namespace Sys2Proof

/-- One byte of device memory or of a message. -/
abbrev Byte := BitVec 8

/-- An IEEE 754 binary32 pattern. -/
abbrev F32 := BitVec 32

/-- A sparse table: keys strictly rising, no entry equal to the value an unlisted key reads as
(see Machine/Tab.lean for the operations and Laws/Tab.lean for what they keep). -/
abbrev Tab (α : Type) := List (Nat × α)

end Sys2Proof
end

