-- ==== Sys2Proof/Syntax.lean ====
section
/-!
DEFINITION. The commands of the block: one constructor of `Instr` per row of spec/opcode_table.json, with the
operands the rule of the row gives the event, and the types those operands are made of.
-/
namespace Sys2Proof

/-- Roles of a dictionary request (spec/03 Table 03-4). -/
inductive Role where
  | host | management | peer | officer
deriving DecidableEq, Repr

/-- A GDP message as received: the header of Table 03-5A and the payload (spec/03 R72). -/
structure GdpMsg where
  version : BitVec 8
  opcode  : BitVec 8
  seq     : BitVec 16
  target  : BitVec 8
  source  : BitVec 8
  flags   : BitVec 8
  sub     : BitVec 8
  index   : BitVec 16
  status  : BitVec 16
  offset  : BitVec 32
  length  : BitVec 16
  payload : List Byte
deriving DecidableEq, Repr

/-- Whether a write was a SIGNED_WRITE, its nonce, and what the security engine's ML-DSA-65 verification
(a published standard; its outcome is the event's operand, log 7) said. -/
inductive Auth where
  | unsigned
  | signed (nonce : BitVec 256) (verifies : Bool)
deriving DecidableEq, Repr

/-- A Causeway packet as it arrives: header of Table 12-2, payload, CRC-32 and whether the FEC found no
uncorrectable codeword (spec/12 R330, R331). -/
structure Packet where
  ptype      : BitVec 4
  vc         : BitVec 4
  dest       : BitVec 8
  src        : BitVec 8
  last       : Bool
  signalValid : Bool
  retry      : Bool
  detour     : Bool
  hops       : BitVec 2
  role       : BitVec 2
  linkSeq    : BitVec 12
  ack        : BitVec 12
  ackValid   : Bool
  nack       : Bool
  creditVc   : BitVec 4
  credits    : BitVec 4
  length     : BitVec 8
  transfer   : BitVec 16
  count      : BitVec 16
  index      : BitVec 16
  address    : BitVec 44
  ownerKind  : BitVec 3
  ownerUnit  : BitVec 8
  sigOp      : BitVec 3
  sigTag     : BitVec 2
  sigCounter : BitVec 17
  sigOperand : BitVec 32
  payload    : List Byte
  crc        : BitVec 32
  fecOk      : Bool
deriving DecidableEq, Repr

/-- The path on which a dictionary request enters the module (spec/03 R70, R75; the test port: spec/18 R467). `packet`: one packet of
TYPE 5 arriving at a port; the message it is a piece of is read from the pieces (spec/12 R330). -/
inductive GdpPath where
  | mailbox
  | management (addr port : Nat) (linkLocal : Bool) (hopLimit : Nat)
  | causeway (origin : Nat) (role : Role) (forwarded : Bool)
  | testPort
  | packet (port : Nat) (pkt : Packet)
deriving DecidableEq, Repr

/-- Who wrote an entry that has a row of its own: the path and SEQUENCE of the message, addressed to this module. -/
structure Origin where
  path : GdpPath
  seq  : BitVec 16
deriving DecidableEq, Repr

/-- Tide Table classes, by their codes (spec/02 Table 02-4). -/
inductive TideClass where
  | af | ts | es | ci | ho | ma
deriving DecidableEq, Repr

/-- An entry of a crossing; one bound for a slotted port names the fabric, the port, its class and, in
class MA, its level of R62 (spec/02 R49, R53, R62). `out`: the crossing, from and to islands, that its transfer writes when
the port moves it (R52). `left`: the slotted port it has come out of; a new entry has left none (R58). -/
structure CrossEntry where
  port  : Option (Nat × Nat)
  cls   : TideClass
  level : Nat
  tag   : Nat
  out   : Option (Nat × Nat) := none
  left  : Option (Nat × Nat) := none
deriving DecidableEq, Repr

/-- Owners of a room (spec/05 R114). -/
inductive Owner where
  | harbour | engine (n : Nat) | feeder | estuary
deriving DecidableEq, Repr

/-- The class of a request at a room (spec/05 Table 05-2). -/
inductive RoomClass where
  | owner | dma
deriving DecidableEq, Repr

/-- A request that reaches a room (spec/05 Table 05-2, R111, R126). A write's bytes carry their byte enables:
a byte that is not enabled is `none`. `lower` is empty in a new request; in one split over two lines it holds what the
lower line gave (R126). `own` marks the line read of a unit's beat, which no command brings: its tag is the unit's number. -/
structure RoomReq where
  requester : Nat
  principal : Option Owner
  cls       : RoomClass
  write     : Bool
  offset    : Nat
  len       : Nat
  data      : List (Option Byte)
  tag       : Nat
  lower     : List Byte
  own       : Bool := false
deriving DecidableEq, Repr

/-- What the check bits say of an access (spec/05 R112, spec/06 R137, R153). -/
inductive Ecc where
  | clean | corrected | uncorrectable
deriving DecidableEq, Repr

/-- Requesters of Cliff accesses (spec/06 Table 06-4). -/
inductive CliffUser where
  | engine (n : Nat) | feeder (k : Nat) | estuary | ingress | harbour
deriving DecidableEq, Repr

/-- A Cliff request: 1 to 8 consecutive 256-byte blocks of one Cliff (spec/06 R143). `part` is the partition
whose Chart the address passes through, or `none` for a DPA of the Harbour. `own` marks a request that a unit's address
generator formed, which no command brings: its tag is the unit's number. -/
structure CliffReq where
  user     : CliffUser
  part     : Option Nat
  write    : Bool
  addr     : Nat
  blocks   : Nat
  data     : List (Option Byte)
  hint     : Nat
  count    : Nat
  tensor   : Nat
  runAhead : Bool
  tag      : Nat
  own      : Bool := false
deriving DecidableEq, Repr

/-- Windows of a gate module (spec/04 Table 04-5). -/
inductive Window where
  | cliff | counter | house | status
deriving DecidableEq, Repr

/-- The link events that reset the host link controller (spec/04 R91). -/
inductive LinkEvent where
  | linkDown | hotReset | secondaryBusReset
deriving DecidableEq, Repr

/-- Who sent a counter operation (spec/11 Table 11-5, PD 0x5010.06): a task of a unit, with the partition
and pass of its list, the host, another module, or the dictionary. -/
inductive CtrSource where
  | task (unit part : Nat)
  | host
  | remote (position : Nat)
  | dictionary
deriving DecidableEq, Repr

/-- Units tested by L4 and by self-tests (spec/15 R402, R409). -/
inductive TestUnit where
  | column (j : Nat) | room (r : Nat) | engine (n : Nat) | stratum (c s : Nat) | port (p : Nat)
deriving DecidableEq, Repr

/-- How a port's training ended (spec/15 R401): trained (partner serial, position, port, lanes that failed),
no signal, or failed training. -/
inductive PortOutcome where
  | trained (serial : BitVec 256) (position port : Nat) (failedLanes : Nat) (cold : Bool)
  | absent
  | failed
deriving DecidableEq, Repr

/-- Why a lane fails in a direction (spec/12 R341): loss of signal or of FEC lock, in ns; uncorrectable codewords within 1 ms;
a pre-FEC bit error ratio averaged over 10 ms, binary32; or the receiving end's report. -/
inductive LaneCause where
  | signalLoss (ns : Nat) | uncorrectable (codewords : Nat) | errorRatio (ratio : BitVec 32) | reported
deriving DecidableEq, Repr

/-- A lane that fails: in the receive direction or not, and why. -/
structure LaneEnd where
  receive : Bool
  cause   : LaneCause
deriving DecidableEq, Repr

/-- Who answers at the far end of a link that trains: the module's serial number and position (spec/12 R343). -/
structure Neighbour where
  serial   : BitVec 256
  position : Nat
deriving DecidableEq, Repr

/-- What the check bits say of a room cycle's access on port A and on port B (spec/05 R112). -/
structure RoomEcc where
  a : Ecc
  b : Ecc
deriving DecidableEq, Repr

/-- A transpose that ends: its wing, and what the check bits of the wing's rooms, 0 to 31, said of its accesses. -/
structure TransposeEnd where
  wing   : Nat
  errors : List (Nat × Ecc)
deriving DecidableEq, Repr

/-- A response of another module: read from the packets that carry it, of which this is one at a port, or given whole (spec/03 R75). -/
inductive GdpArrival where
  | packet (port : Nat) (pkt : Packet)
  | whole (msg : GdpMsg)
deriving DecidableEq, Repr

/-- How an image's transfers ended (spec/16 R430): the partner written whole, the host copy written whole. -/
structure StowOutcome where
  partner     : Bool
  host        : Bool
  unreachable : Bool
deriving DecidableEq, Repr

/-- The commands, in the order of spec/opcode_table.json. -/
inductive Instr where
  -- chapter 01: power
  | powerUp (inputMv : Nat) (pwrgood resetN : Bool) (straps : BitVec 10)
  | harbourBootDone (ok0 ok1 : Bool)
  | supplyWarning (inputMv : Nat) (pwrgood : Bool)
  | supplyWarningClear (inputMv : Nat) (pwrgood : Bool)
  | undervoltageReset (inputMv : Nat)
  | powerDown (o : Origin) (value : BitVec 32)
  | quiesceComplete
  | moduleReset (lowNs : Nat)
  | resetNRelease
  | strapCheck (live : BitVec 10)
  | thermalSample (junctions : Vector Int 8)
  | trippedResetRelease (hottest : Int)
  -- chapter 02: islands and the Tide Table
  | islandLockLoss (island : Nat)
  | crossingEntry (src dst : Nat) (entry : CrossEntry)
  | crossingCredit (src dst : Nat)
  | tideSlot (fabric port : Nat)
  | tideApply (o : Origin) (fabrics : BitVec 8)
  -- chapter 03: the dictionary
  | gdpRead (path : GdpPath) (msg : GdpMsg)
  | dictionaryWrite (path : GdpPath) (msg : GdpMsg)
  | describe (path : GdpPath) (msg : GdpMsg)
  | next (path : GdpPath) (msg : GdpMsg)
  | signedWrite (path : GdpPath) (msg : GdpMsg) (verifies : Bool)
  | gdpResponse (arrival : GdpArrival)
  | gdpForwardTimeout (target : Nat) (seq : BitVec 16)
  | persistentWriteDone (path : GdpPath) (seq : BitVec 16)
  | duplicateCacheExpiry (path : GdpPath) (seq : BitVec 16)
  | longOpStatusRead (o : Origin) (op : Nat) (runStatus : Bool) (offset length : Nat)
  | cancel (o : Origin) (op : Nat) (run : BitVec 32)
  -- chapter 04: the host link
  | linkTrained (width speed flit : Nat)
  | linkDown (event : LinkEvent)
  | functionLevelReset
  | getEventRecords (log : Nat)
  | clearEventRecords (log : Nat) (handles : List Nat)
  | getEventInterruptPolicy
  | setEventInterruptPolicy (modes : List Nat)
  | getFwInfo
  | getTimestamp
  | setTimestamp (value : BitVec 64)
  | getSupportedLogs
  | getLog
  | hostWindowRead (w : Window) (offset size : Nat)
  | hostWindowWrite (w : Window) (offset : Nat) (data : List (Option Byte))
  | windowTimeout (id : Nat)
  | h2dSnoop (line : Nat)
  | bisnpResponse (position line : Nat)
  | mirrorWriteDone (record : Nat)
  | statusPageRefresh
  -- chapter 05: the House
  | roomRequest (room : Nat) (req : RoomReq)
  | roomCycle (room : Nat) (ecc : RoomEcc)
  | roomOwner (o : Origin) (room : Nat) (word : BitVec 64)
  | handoverMarkerReturn (room : Nat) (reader : Bool)
  | tileTranspose (who : Owner) (wing offset elemBytes : Nat)
  | squareTranspose (who : Owner) (wing offset elemBytes q : Nat)
  | transposeDone (done : TransposeEnd)
  | roomWipeDone (room : Nat)
  -- chapter 06: Cliffs, Coves and Charts
  | coveRequest (req : CliffReq) (ecc : Ecc)
  | coveSchedule (cliff stratum : Nat)
  | stratumAccessDone (cliff stratum : Nat) (ecc : Ecc)
  | bankRefresh (cliff stratum bank : Nat)
  | softReplacementDone (cliff stratum bank : Nat)
  | stratumFailure (cliff stratum : Nat)
  | stratumRecalDone (cliff stratum : Nat) (ok : Bool)
  | unpinTensor (o : Origin) (tensor : BitVec 16)
  | unpinDone
  | chartWalkDone (user : CliffUser) (part addr : Nat)
  | repairRowPermanent (o : Origin) (cliff : BitVec 8) (stratum : BitVec 16) (bank : BitVec 8) (row : BitVec 16)
  | repairColumnGroup (o : Origin) (cliff : BitVec 8) (stratum : BitVec 16) (bank : BitVec 8) (group : BitVec 16)
  | repairRetirePages (o : Origin) (cliff : BitVec 8)
  | repairDone (fuseTook : Bool)
  | bulkCopyStart (o : Origin) (source dest length : BitVec 64)
  | bulkCopyDone
  | chartRebuildStart (o : Origin) (part : BitVec 8)
  | chartRebuildBegin
  | chartRebuildDone
  -- chapter 08: the Headland
  | headlandCycle (feedReady drainCredit : Bool)
  | columnFailure (physical : Nat) (check : Nat)
  | columnRemap
  -- chapters 09 and 10: the Tideway engines
  | tidewayBeat (engine : Nat)
  | engineCheckFailure (engine : Nat)
  | mpLoad (o : Origin) (slot : BitVec 8)
  | mpUnload (o : Origin) (slot : BitVec 8)
  | sfnCheck (o : Origin) (input : Bool) (value : BitVec 32)
  | genCheck (o : Origin) (key : Bool) (offset : Nat) (bytes : List Byte)
  -- chapter 11: tasks and counters
  | taskListWrite (o : Origin) (offset : Nat) (bytes : List Byte)
  | taskListStart (o : Origin) (unit part : Nat)
  | taskListStop (o : Origin) (unit part : Nat)
  | headLoad (unit part : Nat)
  | taskRelease (unit : Nat)
  | taskComplete (unit : Nat)
  | counterAdd (src : CtrSource) (counter : Nat) (operand : BitVec 32)
  | counterSubtract (src : CtrSource) (counter : Nat) (operand : BitVec 32)
  | counterSet (src : CtrSource) (counter : Nat) (operand : BitVec 32)
  | arrive (src : CtrSource) (counter : Nat) (tag : BitVec 2)
  | init (src : CtrSource) (counter : Nat) (word : BitVec 64)
  | partitionReset (o : Origin) (part : BitVec 8)
  | partitionPreempt (o : Origin) (part : BitVec 8)
  | preemptComplete (part : Nat)
  -- chapter 12: the Causeway
  | write (port : Nat) (pkt : Packet)
  | read (port : Nat) (pkt : Packet)
  | readResponse (port : Nat) (pkt : Packet)
  | signal (port : Nat) (pkt : Packet)
  | snoop (port : Nat) (pkt : Packet)
  | mirror (port : Nat) (pkt : Packet)
  | ackE2e (port : Nat) (pkt : Packet)
  | linkState (port : Nat) (pkt : Packet)
  | null (port : Nat) (pkt : Packet)
  | linkRetryTimeout (port : Nat)
  | portTransmit (port : Nat)
  | e2eResendTimeout (dest : Nat) (transfer : BitVec 16)
  | laneFailure (port lane : Nat) (how : LaneEnd)
  | portSignalLoss (port : Nat)
  | portSignalReturn (port : Nat)
  | spareConnect (o : Origin) (port : BitVec 8)
  | sparePortTrained (port : Nat) (neighbour : Neighbour)
  | spareWaitExpiry (record : Nat)
  -- chapter 13: the Estuary
  | groupTable (o : Origin) (offset : Nat) (bytes : List Byte)
  | estuarySendBegin
  | partialSum (port : Nat) (pkt : Packet) (adderFails : Nat)
  | result (port : Nat) (pkt : Packet)
  | notice (port : Nat) (pkt : Packet)
  | raise (port : Nat) (pkt : Packet)
  | collectorDeadline (group block : Nat)
  | ownerDeadline (group block : Nat)
  | resultWaitExpiry (group : Nat)
  -- chapter 14: stage sequencers
  | stageStart (o : Origin) (part : BitVec 4)
  | stageStop (o : Origin) (part : BitVec 4)
  | stagePhaseDone (part : Nat)
  | stageEstuaryDone (part : Nat)
  | stageAgreementDone (part : Nat)
  | carryClear (part : Nat)
  | stageUpdateDone (part : Nat)
  -- chapter 15: Landfall and self-test
  | landfallStart (o : Origin)
  | landfallStartCold (o : Origin)
  | landfallStartWarm (o : Origin)
  | conversionTimeout
  | landfallL0Done (notZeroed : BitVec 20)
  | landfallL1Done (unlocked : BitVec 116)
  | stratumTrainingDone (cliff stratum : Nat) (ok cold : Bool) (record : Vector (BitVec 16) 6)
  | portTrainingDone (port : Nat) (outcome : PortOutcome)
  | l4TestDone (unit : TestUnit) (failing : Option (Nat × Nat × Nat))
  | l5WaitExpiry
  | topologyAgreement
  | landfallL6Done
  | selfTestColumns (o : Origin)
  | selfTestEngines (o : Origin) (first count : BitVec 16)
  | selfTestRooms (o : Origin) (first count : BitVec 16)
  | stratumRecalibration (o : Origin) (first count : BitVec 16)
  | roomScrub (o : Origin) (first count : BitVec 16)
  | causewayEyeCheck (o : Origin) (first count : BitVec 16)
  | selfTestBegin
  | selfTestUnitDone (slot : Nat) (failing : Option (Nat × Nat × Nat)) (record : List Byte)
  -- chapter 16: health, stow, restore
  | seaStateUpdate (rippleMv : Nat)
  | stowRequest (o : Origin) (target : BitVec 32)
  | stowStart (o : Origin) (mask : BitVec 16) (whenNext : BitVec 8) (target : BitVec 32)
  | stowImageDone (part : Nat) (outcome : StowOutcome)
  | restoreStart (o : Origin) (part source slot flags : BitVec 8) (forced : BitVec 32)
  | restoreDone
  -- chapter 17: the Strandline
  | strandlineEntry
  | strandlineFlashWrite
  | cursor (o : Origin) (auth : Auth) (entry : BitVec 64)
  | window (o : Origin) (offset length : Nat)
  | softwareEvent (o : Origin) (bytes : List Byte)
  | clear (o : Origin) (auth : Auth) (upTo : BitVec 64)
  | watchList (o : Origin) (offset : Nat) (bytes : List Byte)
  -- chapter 18: life cycle and security
  | lifecycleToProvisioned (o : Origin) (auth : Auth)
  | lifecycleToMission (o : Origin) (auth : Auth)
  | lifecycleToReturn (o : Origin) (auth : Auth)
  | lifecycleToScrapped (o : Origin) (auth : Auth)
  | returnKeyStage (o : Origin) (offset : Nat) (bytes : List Byte) (digestMatches : Bool)
  | fwStage (o : Origin) (offset : Nat) (bytes : List Byte)
  | fwCommit (o : Origin) (value : BitVec 8) (keyMatches verifies : Bool)
  | fwProgramDone
  | minSecurityVersion (o : Origin) (auth : Auth) (value : BitVec 32)
  | measurementExtend (o : Origin) (register : Bool) (digest : List Byte)
  | retiredListClear (o : Origin) (value : BitVec 8)
  | getVersion
  | getCapabilities
  | negotiateAlgorithms (hashOk asymOk : Bool)
  | getDigests
  | getCertificate (slot offset length : Nat)
  | challenge (slot : Nat) (nonce : BitVec 256)
  | getMeasurements (signed : Bool) (block : Nat)
  | idcode
  | debugAccess (msg : GdpMsg)
  | islandHalt (islands : BitVec 128)
  | bypass
  -- the rows the table adds last
  | inputOvervoltage (inputMv : Nat)
  | handoverResponseLimit (room : Nat)
  | d2hCompletion (line : Nat) (bytes : List Byte)
deriving DecidableEq, Repr

end Sys2Proof
end

