-- ==== Sys2Proof/Config.lean ====
section
/-!
DEFINITION. What an implementation fixes and the manual does not give: free values (opaque constants, no
body, so that nothing can be proved of a value), fuses and published algorithms the manual only names.
-/
namespace Sys2Proof.Config

/-- A value the manual leaves open, taken with a fresh number each time (log 4). -/
opaque free : Nat → Nat

/-- The module serial number, fused, 32 bytes (spec/18 R468). -/
opaque serial : BitVec 256

/-- The device identity public key as a number of 1,952 bytes (spec/18 R465). -/
opaque identityKey : Nat

/-- The interface identifier that the module forms from its serial number, 8 bytes (PD 0x1800.02). -/
opaque interfaceId : BitVec 64

/-- The digest of the boot ROM, 64 bytes (spec/18 Table 18-4). -/
opaque romDigest : BitVec 512

/-- The serial number of the stack of Cliff c, 32 bytes (spec/15 R399). -/
opaque stackSerial : Nat → BitVec 256

/-- The position of the gate through which a module that is not a gate reaches the host (spec/04 R101, R105; log 25). -/
opaque gate : Nat

/-- The mask bits the spec does not state, by the draw of the task, the stream and the element's position (spec/07 R183; log 173). -/
opaque openMask : Nat → Nat → Nat → Bool

end Sys2Proof.Config
end

