-- ==== Sys2Proof/Machine/Tab.lean ====
section
/-!
DEFINITION. Sparse tables (reading, writing, clearing a range) and little-endian bytes (spec/00_scope.md R9).
-/
namespace Sys2Proof

/-! ### Sparse tables -/

/-- What key `k` holds; `d` where nothing is listed. -/
def tget {α : Type} (d : α) : Tab α → Nat → α
  | [], _ => d
  | (k', v) :: t, k => if k' = k then v else tget d t k

/-- The table without key `k`. -/
def terase {α : Type} (t : Tab α) (k : Nat) : Tab α := t.filter (fun e => e.1 != k)

/-- Entry `(k, v)` put before the first larger key. -/
def tinsert {α : Type} : Tab α → Nat → α → Tab α
  | [], k, v => [(k, v)]
  | (k', v') :: t, k, v => if k < k' then (k, v) :: (k', v') :: t else (k', v') :: tinsert t k v

/-- Key `k` set to `v`; writing the value an unlisted key reads as removes the entry. -/
def tset {α : Type} [DecidableEq α] (d : α) (t : Tab α) (k : Nat) (v : α) : Tab α :=
  if v = d then terase t k else tinsert (terase t k) k v

/-- Keys from `lo` to `lo + n - 1` back to what an unlisted key reads as. -/
def tclear {α : Type} (t : Tab α) (lo n : Nat) : Tab α := t.filter (fun e => !(decide (lo ≤ e.1) && decide (e.1 < lo + n)))

/-- Consecutive keys from `k` set to the values of a list. -/
def tsetMany {α : Type} [DecidableEq α] (d : α) (t : Tab α) (k : Nat) : List α → Tab α
  | [] => t
  | v :: vs => tsetMany d (tset d t k v) (k + 1) vs

/-- `n` consecutive keys from `k`. -/
def tgetMany {α : Type} (d : α) (t : Tab α) (k n : Nat) : List α := (List.range n).map (fun i => tget d t (k + i))

/-- Every entry's value replaced by a function of its key and value. -/
def tmap {α : Type} [DecidableEq α] (d : α) (f : Nat → α → α) (t : Tab α) : Tab α :=
  t.foldl (fun t e => tset d t e.1 (f e.1 e.2)) []

/-- The canonical form: keys strictly rising, no entry equal to what an unlisted key reads as. -/
def Tab.wf {α : Type} [DecidableEq α] (d : α) : Tab α → Bool
  | [] => true
  | [(_, v)] => v != d
  | (k, v) :: (k', v') :: t => v != d && decide (k < k') && Tab.wf d ((k', v') :: t)

/-! ### Little-endian bytes -/

/-- The number a list of bytes spells, first byte least significant. -/
def leNat : List Byte → Nat
  | [] => 0
  | b :: bs => b.toNat + 256 * leNat bs

/-- The `n` bytes of a number, least significant first. -/
def natLE : Nat → Nat → List Byte
  | 0, _ => []
  | n + 1, v => BitVec.ofNat 8 v :: natLE n (v / 256)

/-- Bits `lo` to `lo + n - 1` of a number. -/
def bits (v lo n : Nat) : Nat := (v >>> lo) % 2 ^ n

/-- A number with bits `lo` to `lo + n - 1` replaced. -/
def setBits (v lo n x : Nat) : Nat := v - ((v >>> lo) % 2 ^ n) <<< lo + (x % 2 ^ n) <<< lo

/-- `n` bytes from offset `lo` of a number of bytes. -/
def byteField (v lo n : Nat) : Nat := bits v (8 * lo) (8 * n)

/-- A number of bytes with `n` bytes from offset `lo` replaced. -/
def setByteField (v lo n x : Nat) : Nat := setBits v (8 * lo) (8 * n) x

/-- Bit `i` of a number. -/
def bitAt (v i : Nat) : Bool := v.testBit i

/-- The `n`-byte field at offset `lo` of a byte list; bytes beyond the list read 0. -/
def listField (bs : List Byte) (lo n : Nat) : Nat := leNat ((bs.drop lo).take n)

/-- A number of `w` bits read in two's complement. -/
def toSigned (w v : Nat) : Int := if v % 2 ^ w < 2 ^ (w - 1) then (v % 2 ^ w : Nat) else (v % 2 ^ w : Nat) - (2 ^ w : Nat)

/-- A signed number as `w` bits of two's complement. -/
def ofSigned (w : Nat) (x : Int) : Nat := (x % (2 ^ w : Nat)).toNat

/-- The number of bits set among the lowest `n`. -/
def popCount (n v : Nat) : Nat := (List.range n).foldl (fun c i => if v.testBit i then c + 1 else c) 0

/-- A list with the element at `i` replaced; unchanged where there is none. -/
def setAt {α : Type} (l : List α) (i : Nat) (v : α) : List α := l.set i v

/-- Bytes `lo` to `hi - 1` of a list replaced by those of another, from its start. -/
def splice (l : List Byte) (lo : Nat) (new : List Byte) : List Byte :=
  l.take lo ++ new ++ l.drop (lo + new.length)

/-! ### CRC-32 of IEEE 802.3 -/

/-- One bit of the reflected CRC-32 (spec/12 R331). -/
def crcBit (c : Nat) : Nat := if c % 2 = 1 then (c / 2) ^^^ 0xEDB88320 else c / 2

/-- Eight bits of it. -/
def crcByte (c : Nat) (b : Byte) : Nat :=
  crcBit (crcBit (crcBit (crcBit (crcBit (crcBit (crcBit (crcBit (c ^^^ b.toNat))))))))

/-- The register after a list of bytes, each byte's computed before the next is taken. -/
def crcFold : List Byte → Nat → Nat
  | [], c => c
  | b :: bs, c =>
    match crcByte c b with
    | 0 => crcFold bs 0
    | n + 1 => crcFold bs (n + 1)

/-- The CRC-32 of IEEE 802.3 of a list of bytes. -/
def crc32 (bs : List Byte) : BitVec 32 := BitVec.ofNat 32 (crcFold bs 0xFFFFFFFF ^^^ 0xFFFFFFFF)

end Sys2Proof
end

