-- ==== Sys2Proof/Machine/Flags.lean ====
section
/-!
DEFINITION. The status codes of the module (spec/03 R89, Table 03-11): one name per code, and which codes are
failures (kind F).
-/
namespace Sys2Proof.Machine

namespace St
abbrev ok : BitVec 16 := 0x0000
abbrev noEntry : BitVec 16 := 0x0001
abbrev accessDenied : BitVec 16 := 0x0002
abbrev locked : BitVec 16 := 0x0003
abbrev typeMismatch : BitVec 16 := 0x0004
abbrev badOffset : BitVec 16 := 0x0005
abbrev invalidValue : BitVec 16 := 0x0006
abbrev badMessage : BitVec 16 := 0x0007
abbrev authFailed : BitVec 16 := 0x0008
abbrev unreachable : BitVec 16 := 0x0009
abbrev timeout : BitVec 16 := 0x000A
abbrev queueFull : BitVec 16 := 0x000B
abbrev busy : BitVec 16 := 0x0100
abbrev conflict : BitVec 16 := 0x0101
abbrev deferred : BitVec 16 := 0x0102
abbrev aborted : BitVec 16 := 0x0103
abbrev pending : BitVec 16 := 0x0104
abbrev partialRun : BitVec 16 := 0x0105
abbrev notQuiescent : BitVec 16 := 0x0200
abbrev tableInvalid : BitVec 16 := 0x0201
abbrev fenced : BitVec 16 := 0x0202
abbrev notOwner : BitVec 16 := 0x0300
abbrev overlap : BitVec 16 := 0x0301
abbrev indexRange : BitVec 16 := 0x0302
abbrev unmapped : BitVec 16 := 0x0303
abbrev permission : BitVec 16 := 0x0304
abbrev suppressed : BitVec 16 := 0x0305
abbrev descriptorInvalid : BitVec 16 := 0x0306
abbrev uncorrectable : BitVec 16 := 0x0307
abbrev retired : BitVec 16 := 0x0308
abbrev sparesExhausted : BitVec 16 := 0x0309
abbrev repairFailed : BitVec 16 := 0x030A
abbrev noSpare : BitVec 16 := 0x030B
abbrev columnLost : BitVec 16 := 0x0400
abbrev degraded : BitVec 16 := 0x0401
abbrev overflow : BitVec 16 := 0x0402
abbrev rowMasked : BitVec 16 := 0x0403
abbrev clamped : BitVec 16 := 0x0404
abbrev microprogramInvalid : BitVec 16 := 0x0405
abbrev broken : BitVec 16 := 0x0500
abbrev saturated : BitVec 16 := 0x0501
abbrev underflow : BitVec 16 := 0x0502
abbrev misuse : BitVec 16 := 0x0503
abbrev discarded : BitVec 16 := 0x0504
abbrev residue : BitVec 16 := 0x0600
abbrev repeated : BitVec 16 := 0x0601
abbrev late : BitVec 16 := 0x0602
abbrev scaleRaised : BitVec 16 := 0x0603
abbrev fp32Fallback : BitVec 16 := 0x0604
abbrev topology : BitVec 16 := 0x0605
abbrev laneSpared : BitVec 16 := 0x0606
abbrev laneReduced : BitVec 16 := 0x0607
abbrev portSpared : BitVec 16 := 0x0608
abbrev detour : BitVec 16 := 0x0609
abbrev voteMissing : BitVec 16 := 0x060A
abbrev stowMismatch : BitVec 16 := 0x0700
abbrev singleFeed : BitVec 16 := 0x0701
abbrev stowIncomplete : BitVec 16 := 0x0702
abbrev warmRejected : BitVec 16 := 0x0703
abbrev lossMismatch : BitVec 16 := 0x0704
abbrev lifecycleDenied : BitVec 16 := 0x0800
abbrev imageInvalid : BitVec 16 := 0x0801
end St

/-- The codes of kind F of Table 03-11: the action did not take place or did not complete. -/
def failureCodes : List (BitVec 16) :=
  [St.noEntry, St.accessDenied, St.locked, St.typeMismatch, St.badOffset, St.invalidValue, St.badMessage, St.authFailed, St.unreachable, St.timeout, St.queueFull, St.busy, St.conflict, St.aborted, St.notQuiescent, St.tableInvalid, St.fenced, St.notOwner, St.overlap, St.indexRange, St.unmapped, St.permission, St.descriptorInvalid, St.uncorrectable, St.repairFailed, St.noSpare, St.columnLost, St.degraded, St.microprogramInvalid, St.broken, St.misuse, St.topology, St.voteMissing, St.stowMismatch, St.stowIncomplete, St.lossMismatch, St.lifecycleDenied, St.imageInvalid]

/-- Whether a code is a failure. -/
def isFailure (c : BitVec 16) : Bool := failureCodes.contains c

end Sys2Proof.Machine
end

