-- ==== Sys2Proof/Machine/Defaults.lean ====
section
/-!
DEFINITION. The entries of the parameter dictionary (spec/03 R64 and the entry table that ends each chapter): their
numbers, the catalogue of their fixed properties, and the defaults that are not zero. An entry's key is
index × 256 + sub-index; its value lives in `State.pd` in units of `unit` bytes (`pdKey`).
-/
namespace Sys2Proof.Machine

/-- The fixed properties of an entry or of `subs` consecutive sub-indices with the same properties: key, type code,
access codes for host, management, installation peer and security officer, lock code, persistent, size in bytes (or
record size), record-addressed, record count, and the model's storage unit in bytes (spec/03 R64, R73). -/
structure EntryInfo where
  key        : Nat
  subs       : Nat
  type       : Nat
  accHost    : Nat
  accMgmt    : Nat
  accPeer    : Nat
  accSO      : Nat
  lock       : Nat
  persistent : Bool
  size       : Nat
  records    : Bool
  count      : Nat
  unit       : Nat
deriving DecidableEq, Repr

namespace Pd
abbrev serial : Nat := 0x100001
abbrev lifeCycle : Nat := 0x100002
abbrev lifecycleRequest : Nat := 0x100003
abbrev jtagIdcode : Nat := 0x100004
abbrev identityKey : Nat := 0x101001
abbrev identityCertificates : Nat := 0x101002
abbrev gdpPort : Nat := 0x180001
abbrev linkLocalAddress : Nat := 0x180002
abbrev plcaNodeId : Nat := 0x180003
abbrev maxPayload : Nat := 0x180004
abbrev requests : Nat := 0x181001
abbrev refused : Nat := 0x181004
abbrev replays : Nat := 0x181005
abbrev authFailures : Nat := 0x181006
abbrev forwarded : Nat := 0x181007
abbrev lastRefusal : Nat := 0x182001
abbrev inputVoltage : Nat := 0x200001
abbrev inputCurrent : Nat := 0x200002
abbrev inputPower : Nat := 0x200003
abbrev supplyFlags : Nat := 0x200004
abbrev inputMin : Nat := 0x200005
abbrev inputRipple : Nat := 0x200006
abbrev blockPower : Nat := 0x201001
abbrev hottestJunction : Nat := 0x202001
abbrev hottestBlock : Nat := 0x202002
abbrev throttleLevel : Nat := 0x202003
abbrev throttleCycles : Nat := 0x202004
abbrev thermalFlags : Nat := 0x202005
abbrev throttleStart : Nat := 0x202008
abbrev blockJunction : Nat := 0x202010
abbrev straps : Nat := 0x203001
abbrev strapsLive : Nat := 0x203002
abbrev strapMismatch : Nat := 0x203003
abbrev sideband : Nat := 0x204001
abbrev alertEnable : Nat := 0x204002
abbrev powerDown : Nat := 0x205001
abbrev powerState : Nat := 0x205002
abbrev islandCount : Nat := 0x240001
abbrev islandLocked : Nat := 0x240002
abbrev islandFenced : Nat := 0x240003
abbrev tideActive : Nat := 0x241001
abbrev tideStaged : Nat := 0x242001
abbrev tideApply : Nat := 0x243001
abbrev tideApplyResult : Nat := 0x243002
abbrev hostToMaint : Nat := 0x244001
abbrev idleSlots : Nat := 0x244011
abbrev maintMin : Nat := 0x245001
abbrev linkState : Nat := 0x300001
abbrev linkWidth : Nat := 0x300002
abbrev linkSpeed : Nat := 0x300003
abbrev flitMode : Nat := 0x300004
abbrev linkDowns : Nat := 0x300005
abbrev gateBays : Nat := 0x300010
abbrev windowRefused : Nat := 0x301001
abbrev windowTimeouts : Nat := 0x301002
abbrev counterRefused : Nat := 0x301003
abbrev snoopEvictions : Nat := 0x301004
abbrev mirrorCoalesced : Nat := 0x301005
abbrev mirrorTable : Nat := 0x302001
abbrev roomCount : Nat := 0x340001
abbrev wingCount : Nat := 0x340002
abbrev roomsFenced : Nat := 0x340003
abbrev arbitrationMode : Nat := 0x340004
abbrev roomOwner : Nat := 0x341001
abbrev notOwnerCount : Nat := 0x342001
abbrev lastNotOwner : Nat := 0x342002
abbrev dmaWaitCycles : Nat := 0x342003
abbrev eccCorrected : Nat := 0x342004
abbrev handovers : Nat := 0x342005
abbrev conflictCounters : Nat := 0x343001
abbrev conflictOccasion : Nat := 0x343002
abbrev cliffCount : Nat := 0x380001
abbrev capacityBacked : Nat := 0x380002
abbrev cliffsFenced : Nat := 0x380003
abbrev retiredCount : Nat := 0x380004
abbrev retiringCount : Nat := 0x380005
abbrev cliffCapacity : Nat := 0x381001
abbrev stratumTraining : Nat := 0x382001
abbrev rowWeakThreshold : Nat := 0x383001
abbrev correctedErrors : Nat := 0x383002
abbrev uncorrectableErrors : Nat := 0x383003
abbrev softReplacements : Nat := 0x383004
abbrev sparesFree : Nat := 0x384001
abbrev fuseMap : Nat := 0x384021
abbrev retiredList : Nat := 0x385001
abbrev unpinTensor : Nat := 0x386001
abbrev coveHits : Nat := 0x386002
abbrev coveMisses : Nat := 0x386003
abbrev coalesced : Nat := 0x386004
abbrev pinDenied : Nat := 0x386005
abbrev noAllocate : Nat := 0x386006
abbrev quotaWaits : Nat := 0x386007
abbrev coveLineState : Nat := 0x387001
abbrev chartBase : Nat := 0x3C0001
abbrev chartActive : Nat := 0x3C1001
abbrev suppressedCount : Nat := 0x3C2001
abbrev unmappedCount : Nat := 0x3C2002
abbrev permissionCount : Nat := 0x3C2003
abbrev chartWalks : Nat := 0x3C2004
abbrev physicalColumns : Nat := 0x400001
abbrev width : Nat := 0x400002
abbrev minWidth : Nat := 0x400003
abbrev poolFree : Nat := 0x400004
abbrev accumulatorSlots : Nat := 0x400005
abbrev columnMap : Nat := 0x401001
abbrev columnState : Nat := 0x401002
abbrev activeCycles : Nat := 0x402001
abbrev freezeFeed : Nat := 0x402002
abbrev freezeDrain : Nat := 0x402003
abbrev swapWait : Nat := 0x402004
abbrev throttleIdle : Nat := 0x402005
abbrev tailCycles : Nat := 0x402006
abbrev tasks : Nat := 0x402007
abbrev reruns : Nat := 0x402008
abbrev columnFailures : Nat := 0x402009
abbrev lastColumnFailure : Nat := 0x402010
abbrev engineCount : Nat := 0x440001
abbrev lanes : Nat := 0x440002
abbrev minEngines : Nat := 0x440003
abbrev enginesFenced : Nat := 0x440004
abbrev rowLatchBytes : Nat := 0x440005
abbrev genCheckKey : Nat := 0x441001
abbrev genCheckCounter : Nat := 0x441002
abbrev genCheckResult : Nat := 0x441003
abbrev busyCycles : Nat := 0x442001
abbrev cliffWait : Nat := 0x442002
abbrev houseWait : Nat := 0x442003
abbrev writeWait : Nat := 0x442004
abbrev hazardWait : Nat := 0x442005
abbrev engineThrottleIdle : Nat := 0x442006
abbrev engineTasks : Nat := 0x442007
abbrev beats : Nat := 0x442008
abbrev clampedRows : Nat := 0x442801
abbrev convertSaturated : Nat := 0x442802
abbrev nanConverted : Nat := 0x442803
abbrev policyActs : Nat := 0x442804
abbrev engineState : Nat := 0x443001
abbrev mpSlots : Nat := 0x480001
abbrev mpStoreBytes : Nat := 0x480002
abbrev mpMaxSteps : Nat := 0x480003
abbrev mpImage : Nat := 0x481001
abbrev mpEngines : Nat := 0x481002
abbrev mpLoad : Nat := 0x481003
abbrev mpUnload : Nat := 0x481004
abbrev mpLastError : Nat := 0x481005
abbrev mpDirectory : Nat := 0x482001
abbrev sfnCheckFunction : Nat := 0x483001
abbrev sfnCheckInput : Nat := 0x483002
abbrev sfnCheckResult : Nat := 0x483003
abbrev substitutions : Nat := 0x484001
abbrev seamClamps : Nat := 0x484002
abbrev maskedRows : Nat := 0x484003
abbrev coefficientFetches : Nat := 0x484004
abbrev counterCount : Nat := 0x500001
abbrev sequencers : Nat := 0x500002
abbrev resolutionSlots : Nat := 0x500003
abbrev counterState : Nat := 0x501001
abbrev saturatedFlags : Nat := 0x501002
abbrev underflowFlags : Nat := 0x501003
abbrev misuseCount : Nat := 0x501004
abbrev brokenCount : Nat := 0x501005
abbrev lastRefusedOp : Nat := 0x501006
abbrev persistentCounters : Nat := 0x501007
abbrev taskLists : Nat := 0x502001
abbrev partitionReset : Nat := 0x503001
abbrev partitionPreempt : Nat := 0x503002
abbrev partitionState : Nat := 0x503003
abbrev tasksReleased : Nat := 0x504001
abbrev tasksFailed : Nat := 0x504002
abbrev specCommitted : Nat := 0x504003
abbrev specDiscarded : Nat := 0x504004
abbrev specRerun : Nat := 0x504005
abbrev portCount : Nat := 0x540001
abbrev lanesPerPort : Nat := 0x540002
abbrev portStatus : Nat := 0x541001
abbrev logicalPorts : Nat := 0x541002
abbrev portTraining : Nat := 0x542001
abbrev linkResends : Nat := 0x543001
abbrev crcErrors : Nat := 0x543002
abbrev fecCorrected : Nat := 0x543003
abbrev fecUncorrectable : Nat := 0x543004
abbrev e2eResends : Nat := 0x543005
abbrev laneFailures : Nat := 0x543006
abbrev transitDiscarded : Nat := 0x543007
abbrev transitPackets : Nat := 0x543008
abbrev laneFailUncorrectable : Nat := 0x543801
abbrev laneFailBer : Nat := 0x543802
abbrev spareRequests : Nat := 0x544001
abbrev spareConnect : Nat := 0x544002
abbrev spareWait : Nat := 0x544003
abbrev routeTable : Nat := 0x545001
abbrev linkMap : Nat := 0x545002
abbrev groupCount : Nat := 0x580001
abbrev bufferBytes : Nat := 0x580002
abbrev blockSlots : Nat := 0x580003
abbrev waitingTasks : Nat := 0x580004
abbrev groupTable : Nat := 0x581001
abbrev lastReduction : Nat := 0x582001
abbrev residueLink : Nat := 0x583001
abbrev residueAdder : Nat := 0x583002
abbrev scaleRaises : Nat := 0x583003
abbrev fp32Blocks : Nat := 0x583004
abbrev lateBlocks : Nat := 0x583005
abbrev repeats : Nat := 0x583006
abbrev staleDiscarded : Nat := 0x583007
abbrev overflowBlocks : Nat := 0x583008
abbrev stageSequencers : Nat := 0x600001
abbrev maxMicroBatches : Nat := 0x600002
abbrev stageTable : Nat := 0x601001
abbrev stageControl : Nat := 0x602001
abbrev lastLoss : Nat := 0x603001
abbrev stepsCompleted : Nat := 0x603002
abbrev stepsSkipped : Nat := 0x603003
abbrev stageFailure : Nat := 0x603004
abbrev landfallMode : Nat := 0x642001
abbrev warmRecord : Nat := 0x642002
abbrev l5Wait : Nat := 0x642003
abbrev warmL5Wait : Nat := 0x642004
abbrev expectedChart : Nat := 0x643001
abbrev ready : Nat := 0x644001
abbrev landfallKind : Nat := 0x644002
abbrev phaseTimes : Nat := 0x644003
abbrev landfallCount : Nat := 0x644004
abbrev fencedSinceReady : Nat := 0x644005
abbrev seaState : Nat := 0x682001
abbrev inputScores : Nat := 0x682002
abbrev inputReadings : Nat := 0x682003
abbrev weights : Nat := 0x682004
abbrev supplyLevel : Nat := 0x682005
abbrev seaStatePeak : Nat := 0x682006
abbrev stowConfig : Nat := 0x683001
abbrev stowReceive : Nat := 0x683002
abbrev stowRequest : Nat := 0x683003
abbrev dataCursor : Nat := 0x684001
abbrev nextCursor : Nat := 0x684002
abbrev keyTable : Nat := 0x684003
abbrev replayCheck : Nat := 0x685001
abbrev lossTolerance : Nat := 0x685002
abbrev stowsCompleted : Nat := 0x686001
abbrev singleFeedStows : Nat := 0x686002
abbrev stowBytes : Nat := 0x686003
abbrev lastStow : Nat := 0x686004
abbrev permanentEntries : Nat := 0x700001
abbrev circulatingEntries : Nat := 0x700002
abbrev nextEntry : Nat := 0x700003
abbrev oldestCirculating : Nat := 0x700004
abbrev permanentFilled : Nat := 0x700005
abbrev unflushed : Nat := 0x700006
abbrev readPolicy : Nat := 0x700801
abbrev watchList : Nat := 0x700802
abbrev cursor : Nat := 0x701001
abbrev window : Nat := 0x701002
abbrev softwareEvent : Nat := 0x702001
abbrev clear : Nat := 0x703001
abbrev overruns : Nat := 0x704001
abbrev entriesMade : Nat := 0x704002
abbrev clears : Nat := 0x704003
abbrev soKey : Nat := 0x740001
abbrev returnKeyStage : Nat := 0x740002
abbrev challenge : Nat := 0x741001
abbrev measurement : Nat := 0x742001
abbrev measurementExtend : Nat := 0x742011
abbrev fwStage : Nat := 0x743001
abbrev fwCommit : Nat := 0x743002
abbrev fwState : Nat := 0x743003
abbrev fwBanks : Nat := 0x743004
abbrev minSecurityVersion : Nat := 0x743005
abbrev retiredListClear : Nat := 0x744001
abbrev landfallStart : Nat := 0x640001
abbrev selfTestStart : Nat := 0x641001
abbrev stowStart : Nat := 0x680001
abbrev restoreStart : Nat := 0x681001
abbrev repairStart : Nat := 0x388001
abbrev bulkCopyStart : Nat := 0x389001
abbrev chartRebuildStart : Nat := 0x3C8001
end Pd

/-! ### The catalogue, in ascending order -/

/-- Entries of the catalogue, part 0. -/
def catalogue0 : List EntryInfo := [
  ⟨0x100001, 1, 7, 1, 1, 1, 1, 0, false, 32, false, 0, 32⟩,
  ⟨0x100002, 1, 0, 1, 1, 1, 1, 0, true, 1, false, 0, 1⟩,
  ⟨0x100003, 1, 0, 4, 4, 0, 4, 0, false, 1, false, 0, 1⟩,
  ⟨0x100004, 1, 2, 1, 1, 1, 1, 0, false, 4, false, 0, 4⟩,
  ⟨0x101001, 1, 7, 1, 1, 1, 1, 0, false, 1952, false, 0, 1952⟩,
  ⟨0x101002, 1, 7, 6, 6, 1, 6, 1, true, 16384, false, 0, 16384⟩,
  ⟨0x180001, 1, 1, 1, 1, 1, 1, 0, false, 2, false, 0, 2⟩,
  ⟨0x180002, 1, 7, 1, 1, 1, 1, 0, false, 16, false, 0, 16⟩,
  ⟨0x180003, 1, 0, 1, 2, 1, 2, 0, true, 1, false, 0, 1⟩,
  ⟨0x180004, 1, 1, 1, 1, 1, 1, 0, false, 2, false, 0, 2⟩,
  ⟨0x181001, 3, 3, 5, 5, 1, 5, 0, false, 8, false, 0, 8⟩,
  ⟨0x181004, 1, 3, 5, 5, 1, 5, 0, false, 8, false, 0, 8⟩,
  ⟨0x181005, 1, 3, 5, 5, 1, 5, 0, false, 8, false, 0, 8⟩,
  ⟨0x181006, 1, 3, 5, 5, 1, 5, 0, false, 8, false, 0, 8⟩,
  ⟨0x181007, 1, 3, 5, 5, 1, 5, 0, false, 8, false, 0, 8⟩,
  ⟨0x182001, 1, 7, 1, 1, 1, 1, 0, false, 24, false, 0, 24⟩,
  ⟨0x200001, 1, 2, 1, 1, 1, 1, 0, false, 4, false, 0, 4⟩,
  ⟨0x200002, 1, 2, 1, 1, 1, 1, 0, false, 4, false, 0, 4⟩,
  ⟨0x200003, 1, 2, 1, 1, 1, 1, 0, false, 4, false, 0, 4⟩,
  ⟨0x200004, 1, 2, 3, 3, 1, 3, 0, false, 4, false, 0, 4⟩,
  ⟨0x200005, 1, 2, 5, 5, 1, 5, 0, false, 4, false, 0, 4⟩,
  ⟨0x200006, 1, 2, 1, 1, 1, 1, 0, false, 4, false, 0, 4⟩,
  ⟨0x201001, 8, 2, 1, 1, 1, 1, 0, false, 4, false, 0, 4⟩,
  ⟨0x202001, 1, 4, 1, 1, 1, 1, 0, false, 4, false, 0, 4⟩,
  ⟨0x202002, 1, 0, 1, 1, 1, 1, 0, false, 1, false, 0, 1⟩,
  ⟨0x202003, 1, 0, 1, 1, 1, 1, 0, false, 1, false, 0, 1⟩,
  ⟨0x202004, 1, 3, 5, 5, 1, 5, 0, false, 8, false, 0, 8⟩,
  ⟨0x202005, 1, 2, 3, 3, 1, 3, 0, false, 4, false, 0, 4⟩,
  ⟨0x202008, 1, 4, 1, 2, 1, 2, 0, false, 4, false, 0, 4⟩,
  ⟨0x202010, 8, 4, 1, 1, 1, 1, 0, false, 4, false, 0, 4⟩,
  ⟨0x203001, 1, 1, 1, 1, 1, 1, 0, false, 2, false, 0, 2⟩,
  ⟨0x203002, 1, 1, 1, 1, 1, 1, 0, false, 2, false, 0, 2⟩,
  ⟨0x203003, 1, 0, 3, 3, 1, 3, 0, false, 1, false, 0, 1⟩,
  ⟨0x204001, 1, 0, 1, 1, 1, 1, 0, false, 1, false, 0, 1⟩,
  ⟨0x204002, 1, 2, 2, 2, 1, 2, 0, false, 4, false, 0, 4⟩,
  ⟨0x205001, 1, 2, 4, 4, 0, 4, 0, false, 4, false, 0, 4⟩,
  ⟨0x205002, 1, 0, 1, 1, 1, 1, 0, false, 1, false, 0, 1⟩,
  ⟨0x240001, 1, 1, 1, 1, 1, 1, 0, false, 2, false, 0, 2⟩,
  ⟨0x240002, 1, 7, 1, 1, 1, 1, 0, false, 16, false, 0, 16⟩,
  ⟨0x240003, 1, 7, 1, 1, 1, 1, 0, false, 16, false, 0, 16⟩]

/-- Entries of the catalogue, part 1. -/
def catalogue1 : List EntryInfo := [
  ⟨0x241001, 4, 7, 1, 1, 1, 1, 0, false, 256, false, 0, 256⟩,
  ⟨0x242001, 4, 7, 2, 2, 1, 2, 0, false, 256, false, 0, 256⟩,
  ⟨0x243001, 1, 0, 4, 4, 0, 4, 0, false, 1, false, 0, 1⟩,
  ⟨0x243002, 1, 2, 1, 1, 1, 1, 0, false, 4, false, 0, 4⟩,
  ⟨0x244001, 4, 3, 5, 5, 1, 5, 0, false, 8, false, 0, 8⟩,
  ⟨0x244011, 4, 3, 5, 5, 1, 5, 0, false, 8, false, 0, 8⟩,
  ⟨0x245001, 1, 1, 1, 1, 1, 1, 0, false, 2, false, 0, 2⟩,
  ⟨0x300001, 1, 0, 1, 1, 1, 1, 0, false, 1, false, 0, 1⟩,
  ⟨0x300002, 1, 0, 1, 1, 1, 1, 0, false, 1, false, 0, 1⟩,
  ⟨0x300003, 1, 0, 1, 1, 1, 1, 0, false, 1, false, 0, 1⟩,
  ⟨0x300004, 1, 0, 1, 1, 1, 1, 0, false, 1, false, 0, 1⟩,
  ⟨0x300005, 1, 3, 5, 5, 1, 5, 0, false, 8, false, 0, 8⟩,
  ⟨0x300010, 1, 0, 1, 2, 1, 2, 0, true, 1, false, 0, 1⟩,
  ⟨0x301001, 1, 3, 5, 5, 1, 5, 0, false, 8, false, 0, 8⟩,
  ⟨0x301002, 1, 3, 5, 5, 1, 5, 0, false, 8, false, 0, 8⟩,
  ⟨0x301003, 1, 3, 5, 5, 1, 5, 0, false, 8, false, 0, 8⟩,
  ⟨0x301004, 1, 3, 5, 5, 1, 5, 0, false, 8, false, 0, 8⟩,
  ⟨0x301005, 1, 3, 5, 5, 1, 5, 0, false, 8, false, 0, 8⟩,
  ⟨0x302001, 1, 7, 2, 2, 1, 2, 0, false, 4096, false, 0, 16⟩,
  ⟨0x340001, 1, 1, 1, 1, 1, 1, 0, false, 2, false, 0, 2⟩,
  ⟨0x340002, 1, 0, 1, 1, 1, 1, 0, false, 1, false, 0, 1⟩,
  ⟨0x340003, 1, 7, 1, 1, 1, 1, 0, false, 192, false, 0, 192⟩,
  ⟨0x340004, 1, 0, 1, 1, 1, 1, 0, false, 1, false, 0, 1⟩,
  ⟨0x341001, 1, 7, 2, 2, 1, 2, 0, false, 12288, false, 0, 8⟩,
  ⟨0x342001, 1, 3, 5, 5, 1, 5, 0, false, 8, false, 0, 8⟩,
  ⟨0x342002, 1, 7, 1, 1, 1, 1, 0, false, 16, false, 0, 16⟩,
  ⟨0x342003, 1, 3, 5, 5, 1, 5, 0, false, 8, false, 0, 8⟩,
  ⟨0x342004, 1, 3, 5, 5, 1, 5, 0, false, 8, false, 0, 8⟩,
  ⟨0x342005, 1, 3, 5, 5, 1, 5, 0, false, 8, false, 0, 8⟩,
  ⟨0x343001, 1, 7, 1, 1, 1, 1, 0, false, 32, true, 1536, 32⟩,
  ⟨0x343002, 1, 0, 1, 1, 1, 1, 0, false, 1, false, 0, 1⟩,
  ⟨0x380001, 1, 0, 1, 1, 1, 1, 0, false, 1, false, 0, 1⟩,
  ⟨0x380002, 1, 3, 1, 1, 1, 1, 0, false, 8, false, 0, 8⟩,
  ⟨0x380003, 1, 2, 1, 1, 1, 1, 0, false, 4, false, 0, 4⟩,
  ⟨0x380004, 1, 2, 1, 1, 1, 1, 0, false, 4, false, 0, 4⟩,
  ⟨0x380005, 1, 2, 1, 1, 1, 1, 0, false, 4, false, 0, 4⟩,
  ⟨0x381001, 20, 3, 1, 1, 1, 1, 0, false, 8, false, 0, 8⟩,
  ⟨0x382001, 1, 7, 1, 1, 1, 1, 0, true, 16, true, 5120, 16⟩,
  ⟨0x383001, 1, 0, 1, 2, 1, 2, 0, false, 1, false, 0, 1⟩,
  ⟨0x383002, 1, 3, 5, 5, 1, 5, 0, false, 8, false, 0, 8⟩]

/-- Entries of the catalogue, part 2. -/
def catalogue2 : List EntryInfo := [
  ⟨0x383003, 1, 3, 5, 5, 1, 5, 0, false, 8, false, 0, 8⟩,
  ⟨0x383004, 1, 3, 5, 5, 1, 5, 0, false, 8, false, 0, 8⟩,
  ⟨0x384001, 20, 7, 1, 1, 1, 1, 0, false, 16384, false, 0, 2⟩,
  ⟨0x384021, 20, 7, 1, 1, 1, 1, 0, false, 8, true, 0, 8⟩,
  ⟨0x385001, 1, 7, 1, 1, 1, 1, 0, true, 8, true, 8192, 8⟩,
  ⟨0x386001, 1, 1, 4, 4, 0, 4, 0, false, 2, false, 0, 2⟩,
  ⟨0x386002, 1, 3, 5, 5, 1, 5, 0, false, 8, false, 0, 8⟩,
  ⟨0x386003, 1, 3, 5, 5, 1, 5, 0, false, 8, false, 0, 8⟩,
  ⟨0x386004, 1, 3, 5, 5, 1, 5, 0, false, 8, false, 0, 8⟩,
  ⟨0x386005, 1, 3, 5, 5, 1, 5, 0, false, 8, false, 0, 8⟩,
  ⟨0x386006, 1, 3, 5, 5, 1, 5, 0, false, 8, false, 0, 8⟩,
  ⟨0x386007, 1, 3, 5, 5, 1, 5, 0, false, 8, false, 0, 8⟩,
  ⟨0x387001, 1, 7, 1, 1, 1, 1, 0, false, 8, true, 1966080, 8⟩,
  ⟨0x388001, 1, 7, 4, 4, 0, 4, 0, false, 8, false, 0, 8⟩,
  ⟨0x388002, 1, 8, 1, 1, 1, 1, 0, false, 8, false, 0, 8⟩,
  ⟨0x388003, 1, 7, 1, 1, 1, 1, 0, false, 16, false, 0, 16⟩,
  ⟨0x388004, 1, 2, 4, 4, 0, 4, 0, false, 4, false, 0, 4⟩,
  ⟨0x388005, 1, 7, 1, 1, 1, 1, 0, false, 8, true, 0, 8⟩,
  ⟨0x388006, 1, 2, 1, 1, 1, 1, 0, false, 4, false, 0, 4⟩,
  ⟨0x389001, 1, 7, 4, 4, 0, 4, 0, false, 24, false, 0, 24⟩,
  ⟨0x389002, 1, 8, 1, 1, 1, 1, 0, false, 8, false, 0, 8⟩,
  ⟨0x389003, 1, 7, 1, 1, 1, 1, 0, false, 16, false, 0, 16⟩,
  ⟨0x389004, 1, 2, 4, 4, 0, 4, 0, false, 4, false, 0, 4⟩,
  ⟨0x389005, 1, 7, 1, 1, 1, 1, 0, false, 8, true, 0, 8⟩,
  ⟨0x389006, 1, 2, 1, 1, 1, 1, 0, false, 4, false, 0, 4⟩,
  ⟨0x3C0001, 16, 3, 2, 2, 1, 2, 0, false, 8, false, 0, 8⟩,
  ⟨0x3C1001, 16, 0, 1, 1, 1, 1, 0, false, 1, false, 0, 1⟩,
  ⟨0x3C2001, 1, 3, 5, 5, 1, 5, 0, false, 8, false, 0, 8⟩,
  ⟨0x3C2002, 1, 3, 5, 5, 1, 5, 0, false, 8, false, 0, 8⟩,
  ⟨0x3C2003, 1, 3, 5, 5, 1, 5, 0, false, 8, false, 0, 8⟩,
  ⟨0x3C2004, 1, 3, 5, 5, 1, 5, 0, false, 8, false, 0, 8⟩,
  ⟨0x3C8001, 1, 7, 4, 4, 0, 4, 0, false, 1, false, 0, 1⟩,
  ⟨0x3C8002, 1, 8, 1, 1, 1, 1, 0, false, 8, false, 0, 8⟩,
  ⟨0x3C8003, 1, 7, 1, 1, 1, 1, 0, false, 16, false, 0, 16⟩,
  ⟨0x3C8004, 1, 2, 4, 4, 0, 4, 0, false, 4, false, 0, 4⟩,
  ⟨0x3C8005, 1, 7, 1, 1, 1, 1, 0, false, 8, true, 0, 8⟩,
  ⟨0x3C8006, 1, 2, 1, 1, 1, 1, 0, false, 4, false, 0, 4⟩,
  ⟨0x400001, 1, 1, 1, 1, 1, 1, 0, false, 2, false, 0, 2⟩,
  ⟨0x400002, 1, 1, 1, 1, 1, 1, 0, false, 2, false, 0, 2⟩,
  ⟨0x400003, 1, 1, 1, 1, 1, 1, 0, false, 2, false, 0, 2⟩]

/-- Entries of the catalogue, part 3. -/
def catalogue3 : List EntryInfo := [
  ⟨0x400004, 1, 1, 1, 1, 1, 1, 0, false, 2, false, 0, 2⟩,
  ⟨0x400005, 1, 1, 1, 1, 1, 1, 0, false, 2, false, 0, 2⟩,
  ⟨0x401001, 1, 7, 1, 1, 1, 1, 0, false, 2048, false, 0, 2⟩,
  ⟨0x401002, 1, 7, 1, 1, 1, 1, 0, false, 1040, false, 0, 1⟩,
  ⟨0x402001, 1, 3, 5, 5, 1, 5, 0, false, 8, false, 0, 8⟩,
  ⟨0x402002, 1, 3, 5, 5, 1, 5, 0, false, 8, false, 0, 8⟩,
  ⟨0x402003, 1, 3, 5, 5, 1, 5, 0, false, 8, false, 0, 8⟩,
  ⟨0x402004, 1, 3, 5, 5, 1, 5, 0, false, 8, false, 0, 8⟩,
  ⟨0x402005, 1, 3, 5, 5, 1, 5, 0, false, 8, false, 0, 8⟩,
  ⟨0x402006, 1, 3, 5, 5, 1, 5, 0, false, 8, false, 0, 8⟩,
  ⟨0x402007, 1, 3, 5, 5, 1, 5, 0, false, 8, false, 0, 8⟩,
  ⟨0x402008, 1, 3, 5, 5, 1, 5, 0, false, 8, false, 0, 8⟩,
  ⟨0x402009, 1, 3, 5, 5, 1, 5, 0, false, 8, false, 0, 8⟩,
  ⟨0x402010, 1, 7, 1, 1, 1, 1, 0, false, 16, false, 0, 16⟩,
  ⟨0x440001, 1, 0, 1, 1, 1, 1, 0, false, 1, false, 0, 1⟩,
  ⟨0x440002, 1, 1, 1, 1, 1, 1, 0, false, 2, false, 0, 2⟩,
  ⟨0x440003, 1, 0, 1, 1, 1, 1, 0, false, 1, false, 0, 1⟩,
  ⟨0x440004, 1, 3, 1, 1, 1, 1, 0, false, 8, false, 0, 8⟩,
  ⟨0x440005, 1, 2, 1, 1, 1, 1, 0, false, 4, false, 0, 4⟩,
  ⟨0x441001, 1, 3, 2, 2, 1, 2, 0, false, 8, false, 0, 8⟩,
  ⟨0x441002, 1, 7, 2, 2, 1, 2, 0, false, 16, false, 0, 16⟩,
  ⟨0x441003, 1, 7, 1, 1, 1, 1, 0, false, 16, false, 0, 16⟩,
  ⟨0x442001, 1, 3, 5, 5, 1, 5, 0, false, 8, false, 0, 8⟩,
  ⟨0x442002, 1, 3, 5, 5, 1, 5, 0, false, 8, false, 0, 8⟩,
  ⟨0x442003, 1, 3, 5, 5, 1, 5, 0, false, 8, false, 0, 8⟩,
  ⟨0x442004, 1, 3, 5, 5, 1, 5, 0, false, 8, false, 0, 8⟩,
  ⟨0x442005, 1, 3, 5, 5, 1, 5, 0, false, 8, false, 0, 8⟩,
  ⟨0x442006, 1, 3, 5, 5, 1, 5, 0, false, 8, false, 0, 8⟩,
  ⟨0x442007, 1, 3, 5, 5, 1, 5, 0, false, 8, false, 0, 8⟩,
  ⟨0x442008, 1, 3, 5, 5, 1, 5, 0, false, 8, false, 0, 8⟩,
  ⟨0x442801, 1, 3, 5, 5, 1, 5, 0, false, 8, false, 0, 8⟩,
  ⟨0x442802, 1, 3, 5, 5, 1, 5, 0, false, 8, false, 0, 8⟩,
  ⟨0x442803, 1, 3, 5, 5, 1, 5, 0, false, 8, false, 0, 8⟩,
  ⟨0x442804, 1, 3, 5, 5, 1, 5, 0, false, 8, false, 0, 8⟩,
  ⟨0x443001, 1, 7, 1, 1, 1, 1, 0, false, 64, false, 0, 1⟩,
  ⟨0x480001, 1, 0, 1, 1, 1, 1, 0, false, 1, false, 0, 1⟩,
  ⟨0x480002, 1, 2, 1, 1, 1, 1, 0, false, 4, false, 0, 4⟩,
  ⟨0x480003, 1, 0, 1, 1, 1, 1, 0, false, 1, false, 0, 1⟩,
  ⟨0x481001, 1, 7, 2, 2, 1, 2, 0, false, 2048, false, 0, 2048⟩,
  ⟨0x481002, 1, 3, 2, 2, 1, 2, 0, false, 8, false, 0, 8⟩]

/-- Entries of the catalogue, part 4. -/
def catalogue4 : List EntryInfo := [
  ⟨0x481003, 1, 0, 4, 4, 0, 4, 0, false, 1, false, 0, 1⟩,
  ⟨0x481004, 1, 0, 4, 4, 0, 4, 0, false, 1, false, 0, 1⟩,
  ⟨0x481005, 1, 7, 1, 1, 1, 1, 0, false, 8, false, 0, 8⟩,
  ⟨0x482001, 1, 7, 1, 1, 1, 1, 0, false, 16, true, 2048, 16⟩,
  ⟨0x483001, 1, 1, 2, 2, 1, 2, 0, false, 2, false, 0, 2⟩,
  ⟨0x483002, 1, 2, 2, 2, 1, 2, 0, false, 4, false, 0, 4⟩,
  ⟨0x483003, 1, 2, 1, 1, 1, 1, 0, false, 4, false, 0, 4⟩,
  ⟨0x484001, 1, 3, 5, 5, 1, 5, 0, false, 8, false, 0, 8⟩,
  ⟨0x484002, 1, 3, 5, 5, 1, 5, 0, false, 8, false, 0, 8⟩,
  ⟨0x484003, 1, 3, 5, 5, 1, 5, 0, false, 8, false, 0, 8⟩,
  ⟨0x484004, 1, 3, 5, 5, 1, 5, 0, false, 8, false, 0, 8⟩,
  ⟨0x500001, 1, 2, 1, 1, 1, 1, 0, false, 4, false, 0, 4⟩,
  ⟨0x500002, 1, 0, 1, 1, 1, 1, 0, false, 1, false, 0, 1⟩,
  ⟨0x500003, 1, 0, 1, 1, 1, 1, 0, false, 1, false, 0, 1⟩,
  ⟨0x501001, 1, 7, 2, 2, 1, 2, 0, false, 1048576, false, 0, 8⟩,
  ⟨0x501002, 1, 7, 3, 3, 1, 3, 0, false, 16384, false, 0, 1⟩,
  ⟨0x501003, 1, 7, 3, 3, 1, 3, 0, false, 16384, false, 0, 1⟩,
  ⟨0x501004, 1, 3, 5, 5, 1, 5, 0, false, 8, false, 0, 8⟩,
  ⟨0x501005, 1, 3, 5, 5, 1, 5, 0, false, 8, false, 0, 8⟩,
  ⟨0x501006, 1, 7, 1, 1, 1, 1, 0, false, 16, false, 0, 16⟩,
  ⟨0x501007, 1, 7, 2, 2, 1, 2, 0, false, 16384, false, 0, 1⟩,
  ⟨0x502001, 1, 7, 2, 2, 1, 2, 0, false, 33792, false, 0, 32⟩,
  ⟨0x503001, 1, 0, 4, 4, 0, 4, 0, false, 1, false, 0, 1⟩,
  ⟨0x503002, 1, 0, 4, 4, 0, 4, 0, false, 1, false, 0, 1⟩,
  ⟨0x503003, 1, 7, 1, 1, 1, 1, 0, false, 16, false, 0, 1⟩,
  ⟨0x504001, 1, 3, 5, 5, 1, 5, 0, false, 8, false, 0, 8⟩,
  ⟨0x504002, 1, 3, 5, 5, 1, 5, 0, false, 8, false, 0, 8⟩,
  ⟨0x504003, 1, 3, 5, 5, 1, 5, 0, false, 8, false, 0, 8⟩,
  ⟨0x504004, 1, 3, 5, 5, 1, 5, 0, false, 8, false, 0, 8⟩,
  ⟨0x504005, 1, 3, 5, 5, 1, 5, 0, false, 8, false, 0, 8⟩,
  ⟨0x540001, 1, 0, 1, 1, 1, 1, 0, false, 1, false, 0, 1⟩,
  ⟨0x540002, 1, 0, 1, 1, 1, 1, 0, false, 1, false, 0, 1⟩,
  ⟨0x541001, 1, 7, 1, 1, 1, 1, 0, false, 320, false, 0, 16⟩,
  ⟨0x541002, 1, 7, 1, 1, 1, 1, 0, false, 18, false, 0, 1⟩,
  ⟨0x542001, 1, 7, 1, 1, 1, 1, 0, true, 16, true, 180, 16⟩,
  ⟨0x543001, 1, 3, 5, 5, 1, 5, 0, false, 8, false, 0, 8⟩,
  ⟨0x543002, 1, 3, 5, 5, 1, 5, 0, false, 8, false, 0, 8⟩,
  ⟨0x543003, 1, 3, 5, 5, 1, 5, 0, false, 8, false, 0, 8⟩,
  ⟨0x543004, 1, 3, 5, 5, 1, 5, 0, false, 8, false, 0, 8⟩,
  ⟨0x543005, 1, 3, 5, 5, 1, 5, 0, false, 8, false, 0, 8⟩]

/-- Entries of the catalogue, part 5. -/
def catalogue5 : List EntryInfo := [
  ⟨0x543006, 1, 3, 5, 5, 1, 5, 0, false, 8, false, 0, 8⟩,
  ⟨0x543007, 1, 3, 5, 5, 1, 5, 0, false, 8, false, 0, 8⟩,
  ⟨0x543008, 1, 3, 5, 5, 1, 5, 0, false, 8, false, 0, 8⟩,
  ⟨0x543801, 1, 2, 1, 2, 1, 2, 0, false, 4, false, 0, 4⟩,
  ⟨0x543802, 1, 5, 1, 2, 1, 2, 0, false, 4, false, 0, 4⟩,
  ⟨0x544001, 1, 7, 1, 1, 1, 1, 0, false, 16, false, 0, 8⟩,
  ⟨0x544002, 1, 0, 1, 4, 0, 4, 0, false, 1, false, 0, 1⟩,
  ⟨0x544003, 1, 2, 1, 2, 1, 2, 0, false, 4, false, 0, 4⟩,
  ⟨0x545001, 1, 7, 1, 1, 1, 1, 0, false, 512, false, 0, 8⟩,
  ⟨0x545002, 1, 7, 1, 1, 1, 1, 0, false, 256, false, 0, 4⟩,
  ⟨0x580001, 1, 0, 1, 1, 1, 1, 0, false, 1, false, 0, 1⟩,
  ⟨0x580002, 1, 2, 1, 1, 1, 1, 0, false, 4, false, 0, 4⟩,
  ⟨0x580003, 1, 2, 1, 1, 1, 1, 0, false, 4, false, 0, 4⟩,
  ⟨0x580004, 1, 0, 1, 1, 1, 1, 0, false, 1, false, 0, 1⟩,
  ⟨0x581001, 1, 7, 2, 2, 2, 2, 0, false, 8192, false, 0, 128⟩,
  ⟨0x582001, 1, 7, 1, 1, 1, 1, 0, false, 32, true, 64, 32⟩,
  ⟨0x583001, 1, 3, 5, 5, 1, 5, 0, false, 8, false, 0, 8⟩,
  ⟨0x583002, 1, 3, 5, 5, 1, 5, 0, false, 8, false, 0, 8⟩,
  ⟨0x583003, 1, 3, 5, 5, 1, 5, 0, false, 8, false, 0, 8⟩,
  ⟨0x583004, 1, 3, 5, 5, 1, 5, 0, false, 8, false, 0, 8⟩,
  ⟨0x583005, 1, 3, 5, 5, 1, 5, 0, false, 8, false, 0, 8⟩,
  ⟨0x583006, 1, 3, 5, 5, 1, 5, 0, false, 8, false, 0, 8⟩,
  ⟨0x583007, 1, 3, 5, 5, 1, 5, 0, false, 8, false, 0, 8⟩,
  ⟨0x583008, 1, 3, 5, 5, 1, 5, 0, false, 8, false, 0, 8⟩,
  ⟨0x600001, 1, 0, 1, 1, 1, 1, 0, false, 1, false, 0, 1⟩,
  ⟨0x600002, 1, 1, 1, 1, 1, 1, 0, false, 2, false, 0, 2⟩,
  ⟨0x601001, 1, 7, 2, 2, 1, 2, 0, false, 2048, false, 0, 128⟩,
  ⟨0x602001, 1, 1, 4, 4, 0, 4, 0, false, 2, false, 0, 2⟩,
  ⟨0x603001, 1, 7, 1, 1, 1, 1, 0, false, 64, false, 0, 4⟩,
  ⟨0x603002, 1, 3, 5, 5, 1, 5, 0, false, 8, false, 0, 8⟩,
  ⟨0x603003, 1, 3, 5, 5, 1, 5, 0, false, 8, false, 0, 8⟩,
  ⟨0x603004, 1, 7, 1, 1, 1, 1, 0, false, 16, false, 0, 16⟩,
  ⟨0x640001, 1, 7, 4, 4, 0, 4, 0, false, 1, false, 0, 1⟩,
  ⟨0x640002, 1, 8, 1, 1, 1, 1, 0, false, 8, false, 0, 8⟩,
  ⟨0x640003, 1, 7, 1, 1, 1, 1, 0, false, 16, false, 0, 16⟩,
  ⟨0x640004, 1, 2, 4, 4, 0, 4, 0, false, 4, false, 0, 4⟩,
  ⟨0x640005, 1, 7, 1, 1, 1, 1, 0, false, 16, true, 0, 16⟩,
  ⟨0x640006, 1, 2, 1, 1, 1, 1, 0, false, 4, false, 0, 4⟩,
  ⟨0x641001, 1, 7, 4, 4, 0, 4, 0, false, 8, false, 0, 8⟩,
  ⟨0x641002, 1, 8, 1, 1, 1, 1, 0, false, 8, false, 0, 8⟩]

/-- Entries of the catalogue, part 6. -/
def catalogue6 : List EntryInfo := [
  ⟨0x641003, 1, 7, 1, 1, 1, 1, 0, false, 16, false, 0, 16⟩,
  ⟨0x641004, 1, 2, 4, 4, 0, 4, 0, false, 4, false, 0, 4⟩,
  ⟨0x641005, 1, 7, 1, 1, 1, 1, 0, false, 16, true, 0, 16⟩,
  ⟨0x641006, 1, 2, 1, 1, 1, 1, 0, false, 4, false, 0, 4⟩,
  ⟨0x642001, 1, 0, 2, 2, 1, 2, 0, true, 1, false, 0, 1⟩,
  ⟨0x642002, 1, 7, 1, 1, 1, 1, 0, true, 1424, false, 0, 1424⟩,
  ⟨0x642003, 1, 2, 1, 2, 1, 2, 0, false, 4, false, 0, 4⟩,
  ⟨0x642004, 1, 2, 1, 2, 1, 2, 0, false, 4, false, 0, 4⟩,
  ⟨0x643001, 1, 7, 1, 2, 1, 2, 0, true, 5120, false, 0, 80⟩,
  ⟨0x644001, 1, 0, 1, 1, 1, 1, 0, false, 1, false, 0, 1⟩,
  ⟨0x644002, 1, 0, 1, 1, 1, 1, 0, false, 1, false, 0, 1⟩,
  ⟨0x644003, 1, 7, 1, 1, 1, 1, 0, false, 28, false, 0, 4⟩,
  ⟨0x644004, 1, 3, 1, 1, 1, 1, 0, true, 8, false, 0, 8⟩,
  ⟨0x644005, 1, 2, 1, 1, 1, 1, 0, false, 4, false, 0, 4⟩,
  ⟨0x680001, 1, 7, 4, 4, 0, 4, 0, false, 8, false, 0, 8⟩,
  ⟨0x680002, 1, 8, 1, 1, 1, 1, 0, false, 8, false, 0, 8⟩,
  ⟨0x680003, 1, 7, 1, 1, 1, 1, 0, false, 16, false, 0, 16⟩,
  ⟨0x680004, 1, 2, 4, 4, 0, 4, 0, false, 4, false, 0, 4⟩,
  ⟨0x680005, 1, 7, 1, 1, 1, 1, 0, false, 16, true, 0, 16⟩,
  ⟨0x680006, 1, 2, 1, 1, 1, 1, 0, false, 4, false, 0, 4⟩,
  ⟨0x681001, 1, 7, 4, 4, 0, 4, 0, false, 8, false, 0, 8⟩,
  ⟨0x681002, 1, 8, 1, 1, 1, 1, 0, false, 8, false, 0, 8⟩,
  ⟨0x681003, 1, 7, 1, 1, 1, 1, 0, false, 16, false, 0, 16⟩,
  ⟨0x681004, 1, 2, 4, 4, 0, 4, 0, false, 4, false, 0, 4⟩,
  ⟨0x681005, 1, 7, 1, 1, 1, 1, 0, false, 16, true, 0, 16⟩,
  ⟨0x681006, 1, 2, 1, 1, 1, 1, 0, false, 4, false, 0, 4⟩,
  ⟨0x682001, 1, 0, 1, 1, 1, 1, 0, false, 1, false, 0, 1⟩,
  ⟨0x682002, 1, 7, 1, 1, 1, 1, 0, false, 8, false, 0, 1⟩,
  ⟨0x682003, 1, 7, 1, 1, 1, 1, 0, false, 32, false, 0, 4⟩,
  ⟨0x682004, 1, 7, 1, 2, 1, 2, 0, true, 32, false, 0, 4⟩,
  ⟨0x682005, 1, 0, 1, 2, 1, 2, 0, true, 1, false, 0, 1⟩,
  ⟨0x682006, 1, 0, 5, 5, 1, 5, 0, false, 1, false, 0, 1⟩,
  ⟨0x683001, 1, 7, 2, 2, 1, 2, 0, true, 4096, false, 0, 256⟩,
  ⟨0x683002, 1, 7, 2, 2, 1, 2, 0, true, 512, false, 0, 32⟩,
  ⟨0x683003, 1, 2, 4, 4, 4, 4, 0, false, 4, false, 0, 4⟩,
  ⟨0x684001, 1, 7, 2, 2, 1, 2, 0, false, 512, false, 0, 32⟩,
  ⟨0x684002, 1, 7, 2, 2, 1, 2, 0, false, 512, false, 0, 32⟩,
  ⟨0x684003, 1, 7, 2, 2, 1, 2, 0, false, 2048, false, 0, 128⟩,
  ⟨0x685001, 1, 7, 1, 1, 1, 1, 0, false, 256, false, 0, 16⟩,
  ⟨0x685002, 1, 5, 1, 2, 1, 2, 0, false, 4, false, 0, 4⟩]

/-- Entries of the catalogue, part 7. -/
def catalogue7 : List EntryInfo := [
  ⟨0x686001, 1, 3, 5, 5, 1, 5, 0, false, 8, false, 0, 8⟩,
  ⟨0x686002, 1, 3, 5, 5, 1, 5, 0, false, 8, false, 0, 8⟩,
  ⟨0x686003, 1, 3, 5, 5, 1, 5, 0, false, 8, false, 0, 8⟩,
  ⟨0x686004, 1, 7, 1, 1, 1, 1, 0, false, 512, false, 0, 32⟩,
  ⟨0x700001, 1, 1, 1, 1, 1, 1, 0, false, 2, false, 0, 2⟩,
  ⟨0x700002, 1, 1, 1, 1, 1, 1, 0, false, 2, false, 0, 2⟩,
  ⟨0x700003, 1, 3, 1, 1, 1, 1, 0, false, 8, false, 0, 8⟩,
  ⟨0x700004, 1, 3, 1, 1, 1, 1, 0, false, 8, false, 0, 8⟩,
  ⟨0x700005, 1, 1, 1, 1, 1, 1, 0, false, 2, false, 0, 2⟩,
  ⟨0x700006, 1, 1, 1, 1, 1, 1, 0, false, 2, false, 0, 2⟩,
  ⟨0x700801, 1, 0, 1, 1, 1, 2, 3, true, 1, false, 0, 1⟩,
  ⟨0x700802, 1, 7, 2, 2, 1, 2, 0, true, 192, false, 0, 4⟩,
  ⟨0x701001, 1, 3, 2, 2, 2, 2, 0, false, 8, false, 0, 8⟩,
  ⟨0x701002, 1, 7, 1, 1, 1, 1, 0, false, 512, false, 0, 512⟩,
  ⟨0x702001, 1, 7, 4, 4, 0, 4, 0, false, 64, false, 0, 64⟩,
  ⟨0x703001, 1, 3, 4, 4, 0, 4, 3, false, 8, false, 0, 8⟩,
  ⟨0x704001, 1, 3, 5, 5, 1, 5, 0, false, 8, false, 0, 8⟩,
  ⟨0x704002, 1, 3, 5, 5, 1, 5, 0, false, 8, false, 0, 8⟩,
  ⟨0x704003, 1, 2, 1, 1, 1, 1, 0, true, 4, false, 0, 4⟩,
  ⟨0x740001, 1, 7, 6, 6, 1, 6, 2, true, 1952, false, 0, 1952⟩,
  ⟨0x740002, 1, 7, 4, 4, 0, 4, 0, false, 1952, false, 0, 1⟩,
  ⟨0x741001, 1, 7, 1, 1, 1, 1, 0, false, 32, false, 0, 32⟩,
  ⟨0x742001, 8, 7, 1, 1, 1, 1, 0, false, 64, false, 0, 64⟩,
  ⟨0x742011, 2, 7, 4, 4, 0, 4, 0, false, 64, false, 0, 64⟩,
  ⟨0x743001, 1, 7, 4, 4, 0, 4, 0, false, 16777216, false, 0, 1⟩,
  ⟨0x743002, 1, 0, 4, 4, 0, 4, 0, false, 1, false, 0, 1⟩,
  ⟨0x743003, 1, 7, 1, 1, 1, 1, 0, false, 16, false, 0, 16⟩,
  ⟨0x743004, 1, 7, 1, 1, 1, 1, 0, false, 160, false, 0, 80⟩,
  ⟨0x743005, 1, 2, 1, 1, 1, 2, 0, true, 4, false, 0, 4⟩,
  ⟨0x744001, 1, 0, 4, 4, 0, 4, 0, false, 1, false, 0, 1⟩]

/-- Every entry of the manual, in ascending order (spec/03 R64, R69 and the entry table that ends each chapter). -/
def catalogue : List EntryInfo := catalogue0 ++ catalogue1 ++ catalogue2 ++ catalogue3 ++ catalogue4 ++ catalogue5 ++ catalogue6 ++ catalogue7

/-- The properties of entry `key`, or none where the manual lists no such entry (spec/03 R64, R69). -/
def entryInfo (key : Nat) : Option EntryInfo :=
  catalogue.find? (fun e => decide (e.key ≤ key) && decide (key < e.key + e.subs))

/-- The place of unit `u` of entry `key` in `State.pd`. -/
def pdKey (key u : Nat) : Nat := key * 16777216 + u

/-! ### Default Tide Tables (spec/02 R56, Table 02-5) -/

/-- The class code of slot `i` of fabric `f`'s default table. -/
def defaultSlot (f i : Nat) : Nat :=
  match f with
  | 1 =>
    let p := i % 16
    if p < 12 then (if p % 2 = 0 then 0 else 1)
    else if p = 12 then 1 else if p = 13 then 2 else if p = 14 then 5
    else if (i / 16) % 2 = 0 then 3 else 4
  | 2 =>
    let p := i % 32
    if p < 28 then (if p % 2 = 0 then 0 else 1) else if p = 28 then 2 else if p = 29 then 3 else if p = 30 then 4 else 5
  | 3 => [2, 2, 1, 2, 2, 1, 2, 4, 2, 2, 1, 2, 2, 1, 2, 5].getD (i % 16) 0
  | _ => if i % 2 = 0 then 4 else 5

/-- The default table of fabric `f`, slot 0 first. -/
def defaultTable (f : Nat) : List Byte := (List.range 256).map (fun i => BitVec.ofNat 8 (defaultSlot f i))

/-! ### Defaults -/

/-- Defaults that are not zero: entry, unit, value. Entries of the manual's tables with their Default column; the rows
marked in log 3 are the model's choice. Every room's ownership word is 0: the Harbour, partition 0 (Table 05-1). -/
def entryDefaults : List (Nat × Nat × Nat) := [
  (Pd.lifeCycle, 0, 1), (Pd.jtagIdcode, 0, 0x0D106C01), (Pd.gdpPort, 0, 41900), (Pd.maxPayload, 0, 4096),
  (Pd.throttleStart, 0, 95000), (Pd.alertEnable, 0, 0x3D), (Pd.islandCount, 0, 116),
  (Pd.tideActive, 0, leNat (defaultTable 1)), (Pd.tideActive + 1, 0, leNat (defaultTable 2)),
  (Pd.tideActive + 2, 0, leNat (defaultTable 3)), (Pd.tideActive + 3, 0, leNat (defaultTable 4)),
  (Pd.tideStaged, 0, leNat (defaultTable 1)), (Pd.tideStaged + 1, 0, leNat (defaultTable 2)),
  (Pd.tideStaged + 2, 0, leNat (defaultTable 3)), (Pd.tideStaged + 3, 0, leNat (defaultTable 4)),
  (Pd.maintMin, 0, 8), (Pd.gateBays, 0, 4), (Pd.roomCount, 0, 1536), (Pd.wingCount, 0, 48),
  (Pd.cliffCount, 0, 20), (Pd.rowWeakThreshold, 0, 4), (Pd.physicalColumns, 0, 1040), (Pd.minWidth, 0, 960),
  (Pd.accumulatorSlots, 0, 2048), (Pd.engineCount, 0, 64), (Pd.lanes, 0, 256), (Pd.minEngines, 0, 60), (Pd.rowLatchBytes, 0, 16384),
  (Pd.mpSlots, 0, 32), (Pd.mpStoreBytes, 0, 65536), (Pd.mpMaxSteps, 0, 48), (Pd.mpEngines, 0, 0xFFFFFFFFFFFFFFFF),
  (Pd.counterCount, 0, 131072), (Pd.sequencers, 0, 66), (Pd.resolutionSlots, 0, 4),
  (Pd.portCount, 0, 20), (Pd.lanesPerPort, 0, 9), (Pd.laneFailUncorrectable, 0, 16), (Pd.laneFailBer, 0, 0x38D1B717), (Pd.spareWait, 0, 10000),
  (Pd.groupCount, 0, 64), (Pd.bufferBytes, 0, 33554432), (Pd.blockSlots, 0, 32768), (Pd.waitingTasks, 0, 4),
  (Pd.stageSequencers, 0, 16), (Pd.maxMicroBatches, 0, 1024), (Pd.l5Wait, 0, 3000), (Pd.warmL5Wait, 0, 200),
  (Pd.weights, 1, 820), (Pd.weights, 2, 33), (Pd.weights, 3, 24576), (Pd.weights, 4, 328), (Pd.weights, 5, 32768), (Pd.weights, 6, 656), (Pd.weights, 7, 33),
  (Pd.supplyLevel, 0, 8), (Pd.lossTolerance, 0, 0x38D1B717), (Pd.permanentEntries, 0, 1024), (Pd.circulatingEntries, 0, 8192)]

/-- The dictionary's store with every entry at its default (spec/03 R67), its fuses and persistent values as shipped. -/
def defaultStore : Tab Nat :=
  let t := entryDefaults.foldl (fun t e => tset 0 t (pdKey e.1 e.2.1) e.2.2) []
  tsetMany 0 t (pdKey Pd.logicalPorts 0) (List.replicate 18 0xFF)

end Sys2Proof.Machine
end

