-- ==== Sys2Proof/Machine/Numerics.lean ====
section
/-!
DEFINITION. Numbers and formats: exact dyadic values, the element formats of Table 07-4, rounding and conversion
(spec/09 R242, R243, R251 to R253), FP32 operations, block scales and the tide-counter generator.
-/
namespace Sys2Proof.Machine

/-! ### Exact values -/

/-- A NaN, an infinity, or the value m × 2^e with a sign (m = 0 is a signed zero). -/
inductive Num where
  | nan
  | inf (neg : Bool)
  | fin (neg : Bool) (m : Nat) (e : Int)
deriving DecidableEq, Repr

/-- Plus zero. -/
def Num.zero : Num := .fin false 0 0

/-- A natural number. -/
def Num.ofNat (n : Nat) : Num := .fin false n 0

/-- An integer. -/
def Num.ofInt (n : Int) : Num := .fin (decide (n < 0)) n.natAbs 0

/-- A natural number over a power of two. -/
def Num.dyadic (n : Nat) (e : Int) : Num := .fin false n e

/-- The value with its sign changed. -/
def Num.neg : Num → Num
  | .nan => .nan
  | .inf s => .inf !s
  | .fin s m e => .fin (!s) m e

/-- The magnitude. -/
def Num.abs : Num → Num
  | .nan => .nan
  | .inf _ => .inf false
  | .fin _ m e => .fin false m e

/-- A finite value as an integer of units 2^e0, for e0 at most its exponent. -/
def alignTo (s : Bool) (m : Nat) (e e0 : Int) : Int :=
  let v : Int := (m * 2 ^ (e - e0).toNat : Nat)
  if s then -v else v

/-- The exact sum; opposite infinities give NaN, an exact zero from values that are not both negative is +0. -/
def Num.add : Num → Num → Num
  | .nan, _ => .nan
  | _, .nan => .nan
  | .inf s, .inf t => if s = t then .inf s else .nan
  | .inf s, .fin _ _ _ => .inf s
  | .fin _ _ _, .inf t => .inf t
  | .fin s m e, .fin t n f =>
    if m = 0 then (if n = 0 then .fin (s && t) 0 0 else .fin t n f)
    else if n = 0 then .fin s m e
    else
      let e0 := min e f
      let v := alignTo s m e e0 + alignTo t n f e0
      .fin (decide (v < 0)) v.natAbs e0

/-- The exact difference. -/
def Num.sub (a b : Num) : Num := a.add b.neg

/-- The exact product; zero times infinity gives NaN. -/
def Num.mul : Num → Num → Num
  | .nan, _ => .nan
  | _, .nan => .nan
  | .inf s, .inf t => .inf (s != t)
  | .inf s, .fin t n _ => if n = 0 then .nan else .inf (s != t)
  | .fin s m _, .inf t => if m = 0 then .nan else .inf (s != t)
  | .fin s m e, .fin t n f => .fin (s != t) (m * n) (e + f)

/-- A positive quotient to 80 bits below its leading one, its last bit set where it is not exact, so that any rounding
to 76 bits or fewer gives what the exact quotient gives. -/
def quotient (num den : Nat) : Nat × Int :=
  let k := 80 + den.log2
  let q := num * 2 ^ k / den
  (2 * q + (if num * 2 ^ k % den = 0 then 0 else 1), -((k : Int) + 1))

/-- The quotient, good for one rounding to a format (see `quotient`). -/
def Num.div : Num → Num → Num
  | .nan, _ => .nan
  | _, .nan => .nan
  | .inf _, .inf _ => .nan
  | .inf s, .fin t _ _ => .inf (s != t)
  | .fin s _ _, .inf t => .fin (s != t) 0 0
  | .fin s m e, .fin t n f =>
    if n = 0 then (if m = 0 then .nan else .inf (s != t))
    else if m = 0 then .fin (s != t) 0 0
    else
      let q := quotient m n
      .fin (s != t) q.1 (q.2 + e - f)

/-- A finite or infinite value times 2^k. -/
def Num.scale (x : Num) (k : Int) : Num :=
  match x with
  | .fin s m e => .fin s m (e + k)
  | y => y

/-- Whether a is below b as numbers, −0 equal to +0; false for a NaN. -/
def Num.lt (a b : Num) : Bool :=
  match a, b with
  | .nan, _ => false
  | _, .nan => false
  | .inf s, .inf t => s && !t
  | .inf s, .fin _ _ _ => s
  | .fin _ _ _, .inf t => !t
  | .fin s m e, .fin t n f =>
    let e0 := min e f
    decide (alignTo s m e e0 < alignTo t n f e0)

/-- Whether two values are equal numbers, −0 equal to +0; false for a NaN. -/
def Num.eqv (a b : Num) : Bool := a != .nan && b != .nan && !a.lt b && !b.lt a

/-- The greatest integer not above a finite value. -/
def Num.floor : Num → Int
  | .fin s m e =>
    if 0 ≤ e then alignTo s m e 0
    else
      let d : Int := (2 ^ (-e).toNat : Nat)
      (if s then -(m : Int) else m) / d
  | _ => 0

/-- Whether a value is a NaN, or finite. -/
def Num.isNan (x : Num) : Bool := x == .nan
def Num.isFin : Num → Bool
  | .fin _ _ _ => true
  | _ => false

/-- Whether a value is zero. -/
def Num.isZero : Num → Bool
  | .fin _ m _ => m == 0
  | _ => false

/-- The sign bit. -/
def Num.sign : Num → Bool
  | .nan => false
  | .inf s => s
  | .fin s _ _ => s

/-- The exponent of the leading one of a non-zero finite value. -/
def Num.top : Num → Int
  | .fin _ m e => m.log2 + e
  | _ => 0

/-! ### Floating-point formats (spec/07 Table 07-4) -/

/-- A floating-point format: exponent bits, fraction bits, bias, and its top codes: 0 infinities and NaN as IEEE 754,
1 one NaN and no infinities, 2 neither. -/
structure FloatFmt where
  eb   : Nat
  fb   : Nat
  bias : Nat
  tops : Nat
deriving DecidableEq, Repr

abbrev fp32 : FloatFmt := ⟨8, 23, 127, 0⟩
abbrev bf16 : FloatFmt := ⟨8, 7, 127, 0⟩

/-- The floating-point format of a code of Table 07-4. -/
def floatFmt (code : Nat) : Option FloatFmt :=
  match code with
  | 0x01 => some fp32
  | 0x02 => some bf16
  | 0x03 => some ⟨5, 10, 15, 0⟩
  | 0x04 => some ⟨4, 3, 7, 1⟩
  | 0x05 => some ⟨5, 2, 15, 0⟩
  | 0x06 => some ⟨3, 2, 3, 2⟩
  | 0x07 => some ⟨2, 3, 1, 2⟩
  | 0x08 => some ⟨2, 1, 1, 2⟩
  | _ => none

/-- The exponent of a format's smallest spacing. -/
def FloatFmt.least (f : FloatFmt) : Int := 1 - (f.bias : Int) - f.fb

/-- The largest finite magnitude. -/
def FloatFmt.largest (f : FloatFmt) : Num :=
  match f.tops with
  | 0 => .fin false (2 ^ (f.fb + 1) - 1) (((2 ^ f.eb - 2 : Nat) : Int) - f.bias - f.fb)
  | 1 => .fin false (2 ^ (f.fb + 1) - 2) (((2 ^ f.eb - 1 : Nat) : Int) - f.bias - f.fb)
  | _ => .fin false (2 ^ (f.fb + 1) - 1) (((2 ^ f.eb - 1 : Nat) : Int) - f.bias - f.fb)

/-- The value of a code. -/
def FloatFmt.decode (f : FloatFmt) (c : Nat) : Num :=
  let s := c.testBit (f.eb + f.fb)
  let ex := bits c f.fb f.eb
  let fr := bits c 0 f.fb
  if f.tops = 0 ∧ ex = 2 ^ f.eb - 1 then (if fr = 0 then .inf s else .nan)
  else if f.tops = 1 ∧ ex = 2 ^ f.eb - 1 ∧ fr = 2 ^ f.fb - 1 then .nan
  else if ex = 0 then .fin s fr f.least
  else .fin s (2 ^ f.fb + fr) ((ex : Int) - f.bias - f.fb)

/-- The code of a value of the format: the canonical NaN, and +0 for a NaN of a format that has none. -/
def FloatFmt.encode (f : FloatFmt) (x : Num) : Nat :=
  let sgn := fun (s : Bool) => if s then 2 ^ (f.eb + f.fb) else 0
  match x with
  | .nan => match f.tops with
    | 0 => (2 ^ f.eb - 1) * 2 ^ f.fb + 2 ^ (f.fb - 1)
    | 1 => 2 ^ (f.eb + f.fb) - 1
    | _ => 0
  | .inf s => sgn s + (2 ^ f.eb - 1) * 2 ^ f.fb
  | .fin s m e =>
    if m = 0 then sgn s
    else
      let top := (m.log2 : Int) + e
      if top < f.least + f.fb then sgn s + m * 2 ^ (e - f.least).toNat / 2 ^ (f.least - e).toNat
      else
        let full := m * 2 ^ (f.fb - m.log2) / 2 ^ (m.log2 - f.fb)
        sgn s + (top + f.bias).toNat * 2 ^ f.fb + (full - 2 ^ f.fb)

/-! ### Rounding -/

/-- Rounding: to nearest even, toward zero, or stochastic with a 32-bit draw (spec/09 Table 09-4, R253). -/
inductive Rnd where
  | near | zero | stoch (w : Nat)
deriving DecidableEq, Repr

/-- m / 2^sh rounded to an integer. -/
def roundShift (mode : Rnd) (m sh : Nat) : Nat :=
  let n := m >>> sh
  if m.log2 + 40 < sh then 0
  else
    let rem := m % 2 ^ sh
    match mode with
    | .near => if 2 ^ sh < 2 * rem ∨ (2 * rem = 2 ^ sh ∧ n % 2 = 1) then n + 1 else n
    | .zero => n
    | .stoch w => if w < 2 ^ 32 * rem / 2 ^ sh then n + 1 else n

/-- A value rounded to multiples of 2^q with at most p significant bits, exponents unbounded above. -/
def roundAt (mode : Rnd) (p : Nat) (q : Option Int) (x : Num) : Num :=
  match x with
  | .fin s m e =>
    if m = 0 then .fin s 0 0
    else
      let top := (m.log2 : Int) + e
      let e' := match q with
        | some q => max q (top - (p - 1 : Nat))
        | none => top - (p - 1 : Nat)
      if e' ≤ e then x else .fin s (roundShift mode m (e' - e).toNat) e'
  | y => y

/-- A value rounded to p significant bits, to nearest even. -/
def roundSig (p : Nat) (x : Num) : Num := roundAt .near p none x

/-- Whether a magnitude exceeds a format's largest finite one. -/
def FloatFmt.beyond (f : FloatFmt) (x : Num) : Bool :=
  match x with
  | .fin _ m _ => decide (0 < m) && (decide (f.largest.top < x.top) || (x.top == f.largest.top && f.largest.lt x.abs))
  | .inf _ => true
  | .nan => false

/-- A value rounded to a format by Table 09-6: where its finite range ends, infinities or the largest finite value. -/
def FloatFmt.round (f : FloatFmt) (mode : Rnd) (x : Num) : Num :=
  let limit := fun (s : Bool) => if s then f.largest.neg else f.largest
  match x with
  | .nan => if f.tops = 2 then .zero else .nan
  | .inf s => if f.tops = 0 then .inf s else limit s
  | .fin s _ _ =>
    let y := roundAt mode (f.fb + 1) (some f.least) x
    if f.tops = 0 ∧ mode = .near then (if f.beyond y then .inf s else y)
    else if f.beyond x then limit s
    else y

/-! ### FP32 operations (spec/09 R242) -/

/-- The value of an FP32 pattern. -/
def val (x : F32) : Num := fp32.decode x.toNat

/-- A value of the FP32 format as its pattern. -/
def pat (x : Num) : F32 := BitVec.ofNat 32 (fp32.encode x)

/-- An exact value rounded once to FP32, to nearest even. -/
def to32 (x : Num) : F32 := pat (fp32.round .near x)

/-- The canonical quiet NaN, plus zero, one, one half, the infinities. -/
abbrev nan32 : F32 := 0x7FC00000
abbrev zero32 : F32 := 0
abbrev one32 : F32 := 0x3F800000
abbrev half32 : F32 := 0x3F000000
abbrev inf32 : F32 := 0x7F800000
abbrev ninf32 : F32 := 0xFF800000

def fadd (a b : F32) : F32 := to32 ((val a).add (val b))
def fsub (a b : F32) : F32 := to32 ((val a).sub (val b))
def fmul (a b : F32) : F32 := to32 ((val a).mul (val b))
def ffma (a b c : F32) : F32 := to32 (((val a).mul (val b)).add (val c))
def fdiv (a b : F32) : F32 := to32 ((val a).div (val b))

/-- The lesser and the greater: NaN if either is, −0 below +0. -/
def numMin (a b : Num) : Num :=
  if a.isNan || b.isNan then .nan
  else if a.isZero && b.isZero then (if a.sign then a else b)
  else if b.lt a then b else a
def numMax (a b : Num) : Num :=
  if a.isNan || b.isNan then .nan
  else if a.isZero && b.isZero then (if a.sign then b else a)
  else if a.lt b then b else a
def fmin (a b : F32) : F32 := pat (numMin (val a) (val b))
def fmax (a b : F32) : F32 := pat (numMax (val a) (val b))

/-- The comparisons of CMP, by MOD (Table 09-4). -/
def fcmp (op : Nat) (a b : F32) : Bool :=
  let x := val a
  let y := val b
  let un := x.isNan || y.isNan
  match op with
  | 0 => x.eqv y
  | 1 => !x.eqv y
  | 2 => x.lt y
  | 3 => !un && !y.lt x
  | 4 => y.lt x
  | 5 => !un && !x.lt y
  | 6 => un
  | _ => !un

/-- A result of class A, or one rounded at the end of another class: FP32, or BF16 carried as FP32 (spec/09 R243). -/
def toMode (bf : Bool) (x : Num) : F32 := if bf then pat (bf16.round .near x) else to32 x

/-- A pairwise sum: position 2j with 2j + 1, then those sums in pairs; `n` levels. -/
def pairSum : Nat → List F32 → F32
  | 0, l => l.headD zero32
  | n + 1, l => fadd (pairSum n (l.take (2 ^ n))) (pairSum n (l.drop (2 ^ n)))

/-! ### Integer and PLANE value sets (spec/07 R174, spec/09 R251, R253) -/

/-- A target of conversions: a floating-point format, two's complement of w bits, unsigned of w bits, symmetric odd of
w bits. -/
inductive Target where
  | float (f : FloatFmt) | twos (w : Nat) | unsigned (w : Nat) | odd (w : Nat)
deriving DecidableEq, Repr

/-- The target of a format code with its plane width and code. -/
def targetOf (code width plane : Nat) : Option Target :=
  match floatFmt code with
  | some f => some (.float f)
  | none => match code with
    | 0x09 => some (.twos 8)
    | 0x0A => some (.twos 4)
    | 0x0B => match plane with
      | 0 => some (.unsigned width)
      | 1 => some (.twos width)
      | _ => some (.odd width)
    | _ => none

/-- Least and greatest value of a value set. -/
def Target.lo : Target → Int
  | .twos w => -(2 ^ (w - 1) : Nat)
  | .odd w => 1 - (2 ^ w : Nat)
  | _ => 0
def Target.hi : Target → Int
  | .twos w => (2 ^ (w - 1) : Nat) - 1
  | .unsigned w => (2 ^ w : Nat) - 1
  | .odd w => (2 ^ w : Nat) - 1
  | .float _ => 0

/-- A finite value rounded to an integer. -/
def roundInt (mode : Rnd) (x : Num) : Int :=
  match x with
  | .fin s m e =>
    let n := if 0 ≤ e then m * 2 ^ e.toNat else roundShift mode m (-e).toNat
    if s then -(n : Int) else n
  | _ => 0

/-- A finite value within the set of the odd values of w bits, rounded (R251, R253). -/
def roundOdd (mode : Rnd) (w : Nat) (x : Num) : Int :=
  let one := Num.ofNat 1
  let side : Int := if x.sign then -1 else 1
  match mode with
  | .near => 2 * roundInt .near ((x.add (.ofNat (2 ^ w - 1))).scale (-1)) - ((2 ^ w - 1 : Nat) : Int)
  | .zero => if x.abs.lt one then side else side * (2 * roundInt .zero ((x.abs.sub one).scale (-1)) + 1)
  | .stoch d =>
    if x.abs.lt one then (if d < (((x.add one).scale 31).floor).toNat then 1 else -1)
    else side * (2 * roundInt (.stoch d) ((x.abs.sub one).scale (-1)) + 1)

/-- A conversion's result: the value, whether it saturated, whether a NaN became a number (Table 09-6). -/
structure Converted where
  value : Num
  saturated : Bool
  nanLost : Bool
deriving DecidableEq, Repr

/-- A NaN converted to a set of integers: 0, or what ±0 rounds to in a set that has no 0. -/
def Target.nanValue : Target → Int
  | .odd w => if w = 1 then -1 else 1
  | _ => 0

/-- A value converted to a target (R251 to R253, Table 09-6). A value outside the range counts as saturated by its value
before rounding. -/
def Target.convert (t : Target) (mode : Rnd) (x : Num) : Converted :=
  match t with
  | .float f =>
    { value := f.round mode x
      saturated := (match x with
        | .inf _ => decide (f.tops ≠ 0)
        | _ => f.beyond x && !(f.tops == 0 && mode == .near))
      nanLost := x.isNan && f.tops == 2 }
  | set =>
    let lo := Num.ofInt set.lo
    let hi := Num.ofInt set.hi
    if x.isNan then { value := .ofInt set.nanValue, saturated := false, nanLost := true }
    else if hi.lt x then { value := hi, saturated := true, nanLost := false }
    else if x.lt lo then { value := lo, saturated := true, nanLost := false }
    else
      let v := match set with
        | .odd w => roundOdd mode w x
        | _ => roundInt mode x
      { value := .ofInt v, saturated := false, nanLost := false }

/-- The integer a converted value is. -/
def Num.toInt : Num → Int
  | .fin s m e => alignTo s m e 0
  | _ => 0

/-- The code of a value of a target (R174). -/
def Target.code (t : Target) (x : Num) : Nat :=
  match t with
  | .float f => f.encode x
  | .twos w => ofSigned w x.toInt
  | .unsigned w => x.toInt.toNat % 2 ^ w
  | .odd w => ((x.toInt + ((2 ^ w - 1 : Nat) : Int)) / 2).toNat

/-- The value of a code (R174). -/
def Target.value (t : Target) (c : Nat) : Num :=
  match t with
  | .float f => f.decode c
  | .twos w => .ofInt (toSigned w c)
  | .unsigned w => .ofNat (c % 2 ^ w)
  | .odd w => .ofInt (2 * (c % 2 ^ w : Nat) - ((2 ^ w - 1 : Nat) : Int))

/-! ### Block scales (spec/07 R175, spec/08 R211) -/

/-- A decoded value under scale byte E: value × 2^(E − 127), NaN under 255. -/
def applyScale (e : Nat) (x : Num) : Num := if e = 255 then .nan else x.scale ((e : Int) - 127)

/-- The limit of R211. -/
def Target.limit : Target → Num
  | .float f => f.largest
  | t => .ofInt t.hi

/-- The scale byte R211 chooses for a block's values. -/
def chooseScale (t : Target) (ys : List Num) : Nat :=
  if ys.any fun y => !y.isFin then 255
  else
    let big := ys.foldl (fun m y => if m.lt y.abs then y.abs else m) .zero
    if big.isZero then 127
    else ((List.range 255).find? fun (e : Nat) => !t.limit.lt (big.scale (127 - (e : Int)))).getD 254

/-- A value written under scale byte E: y × 2^(127 − E), rounded to nearest even; under 255 a NaN. -/
def scaledConvert (t : Target) (e : Nat) (y : Num) : Converted :=
  t.convert .near (if e = 255 then .nan else y.scale (127 - (e : Int)))

/-! ### The tide-counter generator (spec/09 R254 to R256) -/

/-- A 32-bit word rotated left. -/
def rotl32 (x : BitVec 32) (n : Nat) : BitVec 32 := (x <<< n) ||| (x >>> (32 - n))

/-- One round of the mixing function. -/
def genRound (k0 k1 : BitVec 32) (x : BitVec 32 × BitVec 32 × BitVec 32 × BitVec 32) (r : Nat) :
    BitVec 32 × BitVec 32 × BitVec 32 × BitVec 32 :=
  let x0 := x.1 + x.2.1 + (if r % 2 = 0 then k0 else k1) + BitVec.ofNat 32 ((r + 1) * 0x9E3779B9)
  let x3 := rotl32 (x.2.2.2 ^^^ x0) 16
  let x2 := x.2.2.1 + x3
  let x1 := rotl32 (x.2.1 ^^^ x2) 12
  (x1, x2, x3, x0)

/-- The four words of a key and a counter. -/
def generator (key : Nat) (c0 c1 c2 c3 : Nat) : List Nat :=
  let w := fun (n : Nat) => BitVec.ofNat 32 n
  let y := [0, 1, 2, 3, 4, 5].foldl (genRound (w key) (w (key / 2 ^ 32))) (w c0, w c1, w c2, w c3)
  [y.1.toNat, y.2.1.toNat, y.2.2.1.toNat, y.2.2.2.toNat]

/-- The words of an element's draw (Table 09-7). -/
def draw (key step micro stream element : Nat) : List Nat :=
  generator key element (micro * 65536 + bits element 32 16) step stream

/-- RAND's uniform form. -/
def uniform (y : Nat) : F32 := to32 (.fin false (y / 256) (-24))

/-- RAND's Bernoulli form: y < floor(p × 2^32), always 1 from p = 1 up, never where p ≤ 0 or is NaN. -/
def bernoulli (p : F32) (y : Nat) : Bool :=
  let x := val p
  if x.isNan then false
  else if !x.lt (.ofNat 1) then true
  else decide (y < ((x.scale 32).floor).toNat)

end Sys2Proof.Machine
end

