-- ==== Sys2Proof/Machine/State.lean ====
section
/-!
DEFINITION. The state of the module as plain data: the dictionary's registers in one sparse store, device memory,
and, unit by unit, what the manual gives a unit besides its registers. The power-on values are `State.reset`.
-/
namespace Sys2Proof.Machine

/-- Why the machine stops. -/
inductive Fault where
  /-- Raised by MODULE_RESET for a RESET_N pulse between 1 and 10 microseconds, whose effect "is not defined"
  (spec/01 R29). Safe: the model says nothing of what follows. -/
  | resetPulseUndefined
deriving DecidableEq, Repr

/-- Why a command has no meaning. -/
inductive Refusal where
  /-- Raised by an arm of `exec` whose command has no meaning yet. Safe. -/
  | notModelled (mnemonic : String)
deriving DecidableEq, Repr

/-! ### Power, chapter 01 -/

/-- Pins, supervision and power-up order (spec/01). `step` is the step of Table 01-4, 1 to 4; `routed`: the
module has declared READY since power-up, so that it forwards and stands in the link map (spec/12 R336, R345; log 30). -/
structure Power where
  inputMv    : Nat := 0
  pwrgood    : Bool := false
  resetN     : Bool := false
  liveStraps : BitVec 10 := 0x3FF
  step       : Nat := 1
  stageCliffs : Bool := false
  stageLinks : Bool := false
  stageHouse : Bool := false
  forwarding : Bool := false
  routed     : Bool := false
  thermN     : Bool := false
  heldReset  : Bool := false
  booted     : Option Nat := none
  romOnly    : Bool := false
  alertLandfall : Bool := false
  cycle      : Nat := 0
deriving DecidableEq, Repr

/-! ### Crossings and fabrics, chapter 02 -/

/-- One direction of a crossing: 8 credits for entries of no slotted port, and, where a slotted port lies at an end, 8 for
each class, af ts es ci ho ma in that order (spec/02 R49, R52; log 159). -/
structure Crossing where
  credits : List Nat := [8, 8, 8, 8, 8, 8, 8]
  fifo    : List CrossEntry := []
deriving DecidableEq, Repr

/-- A port of a slotted fabric: its place in the table, its copy of it (none: the fabric's default table) and its
class queues of at most 8 entries, af ts es ci ho ma in that order (spec/02 R52, R53; log 159). -/
structure Port where
  slot   : Nat := 0
  table  : Option (List Byte) := none
  queues : List (List CrossEntry) := [[], [], [], [], [], []]
deriving DecidableEq, Repr

/-! ### The dictionary, chapter 03 -/

/-- What a source is for the duplicate cache and the Strandline cursors (spec/03 R80). -/
inductive Source where
  | mailbox
  | management (addr port : Nat)
  | origin (position : Nat) (role : Role)
deriving DecidableEq, Repr

/-- A dictionary request: the path, the header as received (its payload set aside), the data to write, and for a
SIGNED_WRITE its nonce and whether its signature verifies (spec/03 R72 to R74). -/
structure Req where
  path : GdpPath
  hdr  : GdpMsg
  data : List Byte
  auth : Auth
deriving DecidableEq, Repr

/-- Why a request is still unanswered: at another module (spec/03 R76), on its way to flash (spec/03 R67), a handover
still draining (spec/05 R117), an unpinning (spec/06 R148), a partition's rooms still wiped (spec/11 R315), a CLEAR entry
not yet in flash (spec/17 R449). -/
inductive Wait where
  | forwarded (target : Nat) | flash | handover (room : Nat) | unpin | partReset (part : Nat) | clear (entry : Nat)
deriving DecidableEq, Repr

/-- A request received and not yet answered; `before` is what a persistent entry held, which a reset brings back
while the new value is not in flash (spec/03 R67). -/
structure Pending where
  req    : Req
  wait   : Wait
  before : Tab Nat
deriving DecidableEq, Repr

/-- A response as the duplicate cache keeps it: whole, as it was sent (spec/03 R80). -/
structure Reply where
  source : Source
  seq    : BitVec 16
  msg    : GdpMsg
deriving DecidableEq, Repr

structure Gdp where
  inflight : List Pending := []
  cache    : List Reply := []
deriving DecidableEq, Repr

/-- One long operation (spec/03 R82 to R86). `state` is the STATE field of Table 03-9. -/
structure LongOp where
  state    : Nat := 0
  phase    : Nat := 0
  progress : Nat := 0
  code     : BitVec 16 := 0
  filled   : Nat := 0
  run      : Nat := 0
  slots    : Nat := 0
  results  : Tab (Option (List Byte)) := []
  unread   : Bool := false
deriving DecidableEq, Repr

/-! ### The host link, chapter 04 -/

/-- A CXL event log of at most 64 records: status code and Strandline entry number (spec/04 R93, R94). -/
structure EventLog where
  records  : List (Nat × BitVec 16) := []
  overflow : Bool := false
deriving DecidableEq, Repr

/-- A window request in flight (spec/04 R98, R99). `data` is what it writes, or what a read has been given so far; `bad`:
part of it was refused; `sent`: it has left the gate for its target; `lost`: a part of it did not arrive. -/
structure WindowReq where
  id      : Nat
  window  : Window
  target  : Nat
  offset  : Nat
  size    : Nat
  write   : Bool
  data    : List (Option Byte)
  local_  : Bool
  bad     : Bool := false
  sent    : Bool := false
  lost    : Bool := false
deriving DecidableEq, Repr

/-- The mirror writes of one record (spec/04 R105, R106): sequence number, the line in flight, and whether a
later change waits. -/
structure MirrorState where
  sequence : Nat := 0
  inFlight : Option Nat := none
  waiting  : Bool := false
deriving DecidableEq, Repr

/-- A counter operation that waits until the host has given up the counter's line (spec/04 R101): who asks, the code of Table 11-6, the
tag, the counter, the operand. -/
structure CtrWait where
  src     : CtrSource
  op      : Nat
  tag     : Nat
  counter : Nat
  operand : Nat
deriving DecidableEq, Repr

/-- What BAR0 holds and the function's CXL.io configuration (spec/04 R91, R92, R96): base addresses of BAR0, BAR2 and BAR4; whether
MSI-X is enabled; the MSI-X table of 32 vectors; RAS and Link capability registers; base and size of the two HDM decoders; Device
Status and Memory Device Status. -/
structure CxlFunction where
  bars     : List (BitVec 64) := [0, 0, 0]
  msixOn   : Bool := false
  msix     : List (BitVec 128) := List.replicate 32 0
  ras      : BitVec 64 := 0
  link     : BitVec 64 := 0
  decoders : List (BitVec 64 × BitVec 64) := [(0, 0), (0, 0)]
  device   : BitVec 64 := 0
  memory   : BitVec 64 := 0
deriving DecidableEq, Repr

/-- The host side (spec/04): event logs and their interrupt policy; what is added to Harbour time to give the device
timestamp, once set; the GATE_BAYS in effect; window requests; the snoop filter, oldest first, Cove requests waiting for
back-invalidations and lines being asked for, counter operations waiting for them; lines of the Harbour's CXL.cache; mirrors; the
status page; BAR0 and the function's configuration. -/
structure HostLink where
  logs       : List EventLog := [{}, {}, {}, {}]
  policy     : List Nat := [0, 0, 0, 0]
  timestamp  : Option (BitVec 64) := none
  bays       : Nat := 4
  nextWindow : Nat := 0
  windows    : List WindowReq := []
  filter     : List Nat := []
  snoopWaits : List (CliffReq × Ecc) := []
  snooped  : List Nat := []
  cacheLines : List (Nat × Bool) := []
  mirrors    : Tab MirrorState := []
  status     : Tab Byte := []
  ctrWaits   : List CtrWait := []
  function   : CxlFunction := {}
deriving DecidableEq, Repr

/-! ### The House, chapter 05 -/

/-- Who is told when a handover ends (spec/05 R116, R117). -/
inductive HandoverBy where
  | dictionary | task | commit
deriving DecidableEq, Repr

/-- What a room holds besides its ownership entry and its bytes (spec/05 R113, R117, R120, R130). -/
structure Room where
  ownerQ   : List RoomReq := []
  dmaQ     : List RoomReq := []
  portBQ   : List RoomReq := []
  marker   : Bool := false
  readerMarker : Bool := false
  newWord  : Option (BitVec 64) := none
  by_      : HandoverBy := .dictionary
  refusalSeen : Bool := false
  lastServed : Nat := 7
  underTest : Bool := false
deriving DecidableEq, Repr

/-- An in-place transpose running in a wing (spec/05 R129): byte offset, element size, q (0 for a tile transpose),
room cycles. -/
structure Transpose where
  offset : Nat
  elem   : Nat
  q      : Nat
  cycles : Nat
deriving DecidableEq, Repr

/-! ### Cliffs, Coves and Charts, chapter 06 -/

/-- A line access waiting at a Cove's scheduler (spec/06 R150): the Cliff-local block number, whether it writes the
line to the Cliff, the way being filled (none: no allocation), the requests waiting on it, the time it entered. -/
structure LineAcc where
  block   : Nat
  write   : Bool
  way     : Option Nat
  waiters : List CliffReq
  since   : Nat
deriving DecidableEq, Repr

/-- One Cliff and its Cove (spec/06): reads in flight with their status so far, line accesses waiting and in service
per stratum, the write mode of each stratum's scheduler, open rows, errors per way, disabled ways, errors per row, rows
being copied, soft replacements, spares and fuses used per bank, refreshes, strata held for recalibration, what Landfall
found. Keys: rows are ((stratum × 32 + bank) × 10240 + row); banks are stratum × 32 + bank; ways are 24 × set + way. -/
structure Cliff where
  slots      : List (CliffReq × BitVec 16) := []
  queues     : Tab (List LineAcc) := []
  inService  : Tab (Option LineAcc) := []
  writeMode  : Tab Bool := []
  openRows   : Tab (Option Nat) := []
  wayErrors  : Tab Nat := []
  disabled   : List Nat := []
  rowErrors  : Tab Nat := []
  copying    : Tab (Option Nat) := []
  softRows   : List Nat := []
  usedRows   : Tab Nat := []
  usedGroups : Tab Nat := []
  fusesUsed  : Tab Nat := []
  refreshed  : Tab Nat := []
  recal      : List Nat := []
  spareStrata : Nat := 0
  failedStrata : Nat := 0
deriving DecidableEq, Repr

/-- A cached Chart entry (spec/06 R157): whose cache, partition, page base, page bytes, entry. -/
structure TlbEntry where
  user  : CliffUser
  part  : Nat
  base  : Nat
  bytes : Nat
  entry : BitVec 64
deriving DecidableEq, Repr

/-- The Repair run in progress (spec/06 R163). -/
structure RepairRun where
  action  : Nat
  cliff   : Nat
  stratum : Nat
  bank    : Nat
  row     : Nat
deriving DecidableEq, Repr

/-! ### Compute, chapters 08 to 10 -/

/-- A descriptor as a unit holds it once a task is released (spec/07 R167, R168). -/
structure Desc where
  base       : Nat
  format     : Nat
  dims       : Nat
  diagonal   : Bool
  permEnable : Bool
  prefetch   : Bool
  hint       : Nat
  count      : Nat
  planeWidth : Nat
  planeCode  : Nat
  scaleMode  : Nat
  maskSource : Nat
  indexPolicy : Nat
  indexedDim : Nat
  planeStride : Nat
  scaleBase  : Nat
  maskBase   : Nat
  perm       : Nat
  tensor     : Nat
  extents    : List Nat
  strides    : List Int
deriving DecidableEq, Repr

/-- A task taken by a unit (spec/11 R295, R310). `record` is the 1,024-byte task record; the counts are those of its
completion record; `code` and `detail` are its outcome so far. -/
structure Task where
  unit       : Nat
  part       : Nat
  position   : Nat
  pass       : Nat
  record     : List Byte
  descs      : List Desc
  code       : BitVec 16 := 0
  detail     : Nat := 0
  policyCount : Nat := 0
  clampCount : Nat := 0
  maskedRows : Nat := 0
  suppressed : Nat := 0
  speculative : Bool := false
  rerun      : Bool := false
deriving DecidableEq, Repr

/-- A Headland task in the array (spec/08 R202 to R209): its number, the prescale and bias vectors read at release, the
tile it is at (pass × tiles + tile), whether that tile is active, the next vector of the pass, whether it has consumed a
vector, the vectors drained, whether a failed column affects it. -/
structure ArrayTask where
  task     : Task
  id       : Nat
  pre      : List F32
  bias     : List F32
  tile     : Nat := 0
  active   : Bool := false
  vector   : Nat := 0
  begun    : Bool := false
  drained  : Nat := 0
  affected : Bool := false
deriving DecidableEq, Repr

/-- A vector's sums on their way down the trees: advancing cycles left until the drain, whose, slot, first and last tile
of the pass, vector, the sums of columns 0 to N − 1 (spec/08 R191). -/
structure InTree where
  left   : Nat
  id     : Nat
  slot   : Nat
  first  : Bool
  last   : Bool
  vector : Nat
  sums   : List F32
deriving DecidableEq, Repr

/-- The array (spec/08 R190 to R204): the task on the active set, the one released after it, those draining; the active
and shadow registers by cell row, as the decoded and scaled elements of each column's cell; shadow rows loaded; cycles
since the last tile's first vector; whether the last cycle swapped; accumulator slots (slot × 1,024 + column); results in
the trees; logical columns that failed and wait for their replacement; tasks to run again. -/
structure Headland where
  running  : Option ArrayTask := none
  shadow   : Option ArrayTask := none
  draining : List ArrayTask := []
  nextId   : Nat := 0
  activeSet : Tab (List (List Num)) := []
  shadowSet : Tab (List (List Num)) := []
  loaded   : Nat := 0
  since    : Nat := 20
  swapped  : Bool := false
  acc      : Tab F32 := []
  trees    : List InTree := []
  failed   : List Nat := []
  rerun    : List Task := []
deriving DecidableEq, Repr

/-- A lane's value with its valid bit (spec/09 R237). -/
structure Lane where
  valid : Bool
  bits  : F32
deriving DecidableEq, Repr

/-- What a scan, a reduction or a statistic keeps from beat to beat, per operation (spec/09 R222): accumulators, second
accumulators and counts by position, the shift of R249, the running value, maximum or carry, the soft maximum's sum,
whether a special value or a masked element was met, valid elements met. -/
structure OpState where
  acc     : Tab (Option F32) := []
  aux     : Tab F32 := []
  cnt     : Tab Nat := []
  shift   : Option F32 := none
  run     : Option F32 := none
  sum     : F32 := 0
  special : Bool := false
  seen    : Nat := 0
deriving DecidableEq, Repr

/-- A Tideway task and its place (spec/09 R223, R224, R235): the row (or the packed rows of one beat), the sweep, the
beat; the operations' states by sweep × 16 + operation; the row results by operation, packed row by packed row; the rows
of the group in which the clamp of R250 has acted; the Cliff bytes its Coves have accepted; the blocks it has written in part, each
with its write descriptor's number; the elements of its column-broadcast streams in this row (R240); whether it has begun; its
generator step as resolved at release (spec/14 R389); the draw of its open mask bits (log 173). -/
structure EngineTask where
  task  : Task
  step  : Nat := 0
  draw  : Nat := 0
  group : Nat := 0
  sweep : Nat := 0
  beat  : Nat := 0
  ops   : Tab OpState := []
  rowResults : Tab (List (List F32)) := []
  clamped : List Nat := []
  accepted : List Nat := []
  partials : List (Nat × Nat) := []
  broadcasts : Tab (Option Lane) := []
  started : Bool := false
deriving DecidableEq, Repr

/-- A row latch (spec/09 R241): the stream that holds it, the address of its row's first element, and the elements read, by
position. -/
structure RowLatch where
  stream : Nat
  addr   : Nat
  row    : Tab (Option Lane) := []
deriving DecidableEq, Repr

/-- A unit's way to the rooms and to the Cliffs (spec/06 R143, spec/09 R226): whether the accesses of its next beat have been
asked for; House lines of the beat that lack a request slot, that wait at the port for a slot of the Tide Table, and that are on
their way; line writes that wait there; Cliff requests that a quota holds back; blocks of Cliff streams that its staging rooms hold, and those on their
way there; the status of a request that
failed. -/
structure UnitPort where
  begun  : Bool := false
  lines  : List Nat := []
  asked  : List Nat := []
  sent   : List Nat := []
  writes : Nat := 0
  held   : List CliffReq := []
  staged : List Nat := []
  arriving : List Nat := []
  failed : Option (BitVec 16) := none
deriving DecidableEq, Repr

/-- One Tideway engine (spec/09 R221, R241, spec/10 R287): its task, its row latches, its coefficient cache (slot, segment), oldest first, and cycles counted for throttling. -/
structure Engine where
  running : Option EngineTask := none
  latches : List RowLatch := []
  segments : List (Nat × Nat) := []
  cycle   : Nat := 0
deriving DecidableEq, Repr

/-- A loaded micro-program: its image and its clamp bounds P_1 onwards (spec/10 R283, R286). -/
structure MicroProgram where
  image  : List Byte
  bounds : List F32
deriving DecidableEq, Repr

/-! ### Tasks and speculation, chapter 11 -/

/-- The head of a list: its record and, per guard, latched and taken (spec/11 R295, R299). -/
structure Head where
  record  : List Byte
  latched : List Bool
  taken   : List Bool
deriving DecidableEq, Repr

/-- An unresolved speculative task (spec/11 R320 to R323): whether its unit has it yet and has ended it, the guard that
latched first, and the words its shadow rooms had at release. -/
structure SpecTask where
  task     : Task
  started  : Bool := false
  done     : Bool := false
  commit   : Bool := false
  discard  : Bool := false
  rooms    : List (Nat × Nat) := []
deriving DecidableEq, Repr

/-- A task whose completion record is written and whose handovers are being carried out (spec/11 R309): the room it waits
for, the entries still to come, and whether it is a commit of its shadow rooms. -/
structure Ending where
  task    : Task
  current : Option Nat
  left    : List Nat
  commit  : Bool
deriving DecidableEq, Repr

/-! ### The Causeway, chapter 12 -/

/-- One physical port (spec/12 R330 to R343): failed lanes by direction, the next link sequence numbers, the retry buffer
with the sendings of each packet, queues and receiver buffers in use by virtual channel, the channel served last, the
acknowledgement or NACK owed, the channels whose credits are owed, and the serial number of the neighbour it trained with. -/
structure CausewayPort where
  txFailed  : BitVec 9 := 0
  rxFailed  : BitVec 9 := 0
  txSeq     : BitVec 12 := 0
  rxSeq     : BitVec 12 := 0
  retry     : List (Packet × Nat) := []
  queues    : Tab (List Packet) := []
  inUse     : Tab Nat := []
  lastVc    : Nat := 15
  nackOwed  : Option (BitVec 12) := none
  ackOwed   : Bool := false
  creditOwed : List Nat := []
  partner   : BitVec 256 := 0
deriving DecidableEq, Repr

/-- What a transfer this module sends is for (spec/12 R339): a host window request, reduction traffic of a group, a
counter operation, the mirror line of a record, a relayed snoop, a stow or restore of a partition, a dictionary message. -/
inductive TransferFor where
  | window (id : Nat) | estuary (group : Nat) | signal | mirror (record : Nat) | snoop | stow (part : Nat) | restore (offset : Nat)
  | gdp
deriving DecidableEq, Repr

/-- An unacknowledged transfer (spec/12 R338, R339): the positions its route passes from this module to the destination,
and how often it has been sent (0: held back). -/
structure Transfer where
  id       : BitVec 16
  purpose  : TransferFor
  packets  : List Packet
  sendings : Nat
  path     : List Nat
  detour   : Bool
deriving DecidableEq, Repr

/-- A transfer being received (spec/12 R339): packets made visible, how many it has, its signal until that is applied,
whether its acknowledgement was sent, and with what status, the packets of reduction traffic held until all are here. -/
structure Incoming where
  id     : BitVec 16
  seen   : List Nat
  count  : Nat
  signal : Option Packet
  done   : Bool
  status : BitVec 16
  parts  : List Packet := []
deriving DecidableEq, Repr

/-- The module's Causeway side (spec/12): ports; by destination, the next transfer number and the transfers not yet
acknowledged; by source, the next number expected and what is being received; the versions of the link map's entries,
and the failed and the vacant logical ports their positions told of; packets in receive buffers that wait for a room, a line or
a block slot, with their ports, oldest first; dictionary messages that have arrived whole, with their source and ROLE. -/
structure Causeway where
  ports    : Tab CausewayPort := []
  sendNext : Tab (BitVec 16) := []
  unacked  : Tab (List Transfer) := []
  recvNext : Tab (BitVec 16) := []
  incoming : Tab (List Incoming) := []
  versions : Tab Nat := []
  failedPorts : Tab Nat := []
  vacantPorts : Tab Nat := []
  held     : List (Nat × Packet) := []
  gdpIn    : List (Nat × Nat × List Byte) := []
deriving DecidableEq, Repr

/-! ### The Estuary, chapter 13 -/

/-- A block's message, Table 13-4 with both halves' lanes: integers, or FP32 patterns in FP32 carriage and results. -/
structure EstMsg where
  kind      : Nat
  group     : Nat
  marked    : Bool := false
  fp32      : Bool := false
  overflow  : Bool := false
  repeats   : Bool := false
  exponent  : Nat := 0
  reduction : Nat
  block     : Nat
  attempt   : Nat := 0
  raises    : Nat := 0
  maxExp    : Nat := 0
  ranks     : Nat := 0
  tag       : Nat
  lanes     : List Int := []
deriving DecidableEq, Repr

/-- A block at a collector or an owner (spec/13 R348, R360, R365, R367): its attempt and carriage state, the sum so far,
whether it holds an input, and whether its partial was forwarded or its result sent. -/
structure BlockSum where
  group     : Nat
  reduction : Nat
  block     : Nat
  owner     : Bool
  attempt   : Nat
  raises    : Nat
  fp32      : Bool
  exponent  : Nat := 0
  lanes     : List Int := []
  ranks     : Nat := 0
  maxExp    : Nat := 0
  marked    : Bool := false
  overflow  : Bool := false
  input     : Bool := false
  closed    : Bool := false
  final     : Bool := false
deriving DecidableEq, Repr

/-- A result header at a member (spec/13 R368, R369), and the block's values while they are not yet written. -/
structure BlockHeader where
  block    : Nat
  attempt  : Nat
  ranks    : Nat
  maxExp   : Nat
  raises   : Nat
  overflow : Bool
  fp32     : Bool
  repeats  : Bool
  values   : Option (List F32)
deriving DecidableEq, Repr

/-- A reduction at this member (spec/13 R365, R369, R370, R373): its attempt, headers, raises not yet in the scale table,
blocks still to be sent, whether a residue mismatch was met, whether it is final, its blocks carried over. -/
structure Reduction where
  attempt  : Nat := 0
  headers  : List BlockHeader := []
  raised   : List (Nat × Nat × Bool) := []
  unsent   : List Nat := []
  residue  : Bool := false
  final    : Bool := false
  late     : Nat := 0
  missing  : Nat := 0
deriving DecidableEq, Repr

/-- What the Estuary keeps of a group from its last task (spec/13 R349, R353, log 29): its partition, and the descriptors
the record names as they were read then (accumulation, RESULT_DESC0, RESULT_DESC1). -/
structure EstGroup where
  part  : Nat := 0
  descs : List Desc := []
deriving DecidableEq, Repr

/-- A released Estuary task (spec/13 R357): its group and step, whether it has sent its contribution, and the group's descriptors as
they were read at its release (spec/07 R167). -/
structure EstTask where
  task  : Task
  group : Nat
  step  : Nat
  sent  : Bool
  place : EstGroup
deriving DecidableEq, Repr

/-- The Estuary: block sums, reductions by group × 2^32 + number, groups, tasks in order of release. -/
structure Estuary where
  sums   : List BlockSum := []
  reds   : Tab Reduction := []
  groups : Tab EstGroup := []
  tasks  : List EstTask := []
deriving DecidableEq, Repr

/-! ### Stages, Landfall, health, chapters 14 to 16 -/

/-- What a stage sequencer keeps besides its record (spec/14 R382, spec/16 R415 to R427): the Estuary tasks completed in
the step and whether one had OVERFLOW; whether phase 2M is done and they are awaited; whether CARRY is being cleared;
whether it stops when its hold ends; the target of the stow request that waits; steps since the last stow; per group,
NEXT_STEP and the last-reduction record as phase 1 opened. -/
structure Stage where
  estuaryDone : Nat := 0
  overflow    : Bool := false
  waiting     : Bool := false
  clearing    : Bool := false
  stopAfter   : Bool := false
  stowTarget  : Option Nat := none
  sinceStow   : Nat := 0
  noted       : List (Nat × Nat × Nat) := []
deriving DecidableEq, Repr

/-- A port's record in WARM_RECORD (spec/15 Table 15-9). -/
structure WarmPort where
  serial   : BitVec 256
  position : Nat
  port     : Nat
  trained  : Bool
deriving DecidableEq, Repr

/-- WARM_RECORD, PD 0x6420.02: straps, module serial, stack serials, port records (spec/15 R399, R400). -/
structure WarmRecord where
  straps : Nat
  serial : BitVec 256
  stackSerials : List (BitVec 256)
  ports  : List WarmPort
deriving DecidableEq, Repr

/-- The Landfall run (spec/15). `kind` is 1 cold, 2 warm, 3 cold after WARM_REJECTED; `wanted` the MODE of the START that
began it, which `startPending` says is still to begin its run; the failing check of R399; strata, ports and L4 units ended;
failed strata by Cliff, strata reused warm by Cliff; per column 1 passed or 2 + its failing check; strata and ports
retrained; when L0 and the present phase began; whether a result reports a failure; each port's outcome. -/
structure Landfall where
  kind      : Nat := 0
  wanted    : Nat := 0
  startPending : Bool := false
  failCheck : Nat := 0
  strata    : Nat := 0
  portsDone : Nat := 0
  tests     : Nat := 0
  failedStrata : Tab Nat := []
  reused    : Tab Nat := []
  columns   : Tab Nat := []
  retrained : Nat := 0
  started   : Nat := 0
  phaseStart : Nat := 0
  failure   : Bool := false
  outcomes  : Tab (Option PortOutcome) := []
deriving DecidableEq, Repr

/-- The self-test run (spec/15 R409): its kind and units, the slots whose test is under way, whether one has failed. -/
structure SelfTest where
  kind    : Nat
  first   : Nat
  count   : Nat
  started : List Nat
  failed  : Bool
deriving DecidableEq, Repr

/-- The health monitor (spec/16 R413): updates the raw level has stayed below, what read-clear reads took from the
counters it watches, and the totals of the last 100 updates. -/
structure Health where
  below   : Nat := 0
  cleared : Tab Nat := []
  history : List (Nat × Nat × Nat) := []
deriving DecidableEq, Repr

/-- An image being stowed (spec/16 R421 to R431): partition, GEN_STEP, last phase done, STOW_NUMBER, time of the hold,
IMAGE_BYTES, the CRC-32 of each block, its header without COMPLETE, whether the sequencer was held for it; the candidate
and position of its partner, with its FEED, the slots written, those tried before, whether the partner transfer was
restarted and the final header sent; whether a host copy is written and has been; its code once it has ended. -/
structure StowImage where
  part     : Nat
  step     : Nat
  phase    : Nat
  number   : Nat
  started  : Nat
  bytes    : Nat
  crcs     : List (BitVec 32)
  header   : List Byte
  held     : Bool
  partner  : Option (Nat × Nat)
  feed     : Nat
  sameFeed : Bool
  slot     : Nat
  hostSlot : Nat
  toHost   : Bool
  hostDone : Bool := false
  tried    : List Nat := []
  restarted : Bool := false
  finalSent : Bool := false
  ended    : Option (BitVec 16) := none
deriving DecidableEq, Repr

/-- A stow run: its partitions, ascending, each with the blocks counted when it was named, and its images. -/
structure StowRun where
  parts  : List (Nat × Nat)
  images : List StowImage
deriving DecidableEq, Repr

/-- A restore run (spec/16 R432): its argument; the partner candidate read (4: the host copy); the slot chosen once the
headers are here; the bytes read, slot 1's from 2^42 on; packets that have answered, per transfer; host lines awaited and
where their bytes go. -/
structure RestoreRun where
  part   : Nat
  source : Nat
  other  : Bool
  force  : Option Nat
  cand   : Nat := 0
  chosen : Option Nat := none
  bytes  : Tab Byte := []
  seen   : Tab (List Nat) := []
  lines  : List (Nat × Nat) := []
deriving DecidableEq, Repr

/-- An image this module holds complete, for the check page of R427: partition, GEN_STEP, whether its hold lay within a
run; the partner's position, candidate and slot; the host slot. -/
structure HeldImage where
  part    : Nat
  step    : Nat
  held    : Bool
  partner : Option (Nat × Nat × Nat)
  host    : Option Nat
deriving DecidableEq, Repr

/-- Stow and restore: the runs, images since manufacture by partition, the images whose check page is still to come, the
slot the next image goes to by 5 × partition + candidate (4: host), partitions whose armed replay check has FALLBACK. -/
structure Stow where
  run      : Option StowRun := none
  restore  : Option RestoreRun := none
  numbers  : Tab Nat := []
  held     : List HeldImage := []
  nextSlot : Tab Nat := []
  fallback : List Nat := []
deriving DecidableEq, Repr

/-! ### The Strandline, chapter 17 -/

/-- An occurrence waiting to become an entry (spec/17 R440, R444). -/
structure Occurrence where
  trigger  : Nat
  code     : BitVec 16
  unitKind : Nat
  unit     : Nat
  detail   : List Byte
  time     : Nat
deriving DecidableEq, Repr

/-- A Strandline entry (spec/17 R441). -/
structure Entry where
  number   : Nat
  time     : Nat
  run      : Nat
  trigger  : Nat
  permanent : Bool
  warningFlush : Bool
  incomplete : Bool
  code     : BitVec 16
  unitKind : Nat
  seaState : Nat
  lifeCycle : Nat
  unit     : Nat
  detail   : List Byte
  watch    : List (BitVec 64)
  watchCrc : BitVec 32
deriving DecidableEq, Repr

/-- A source's Strandline cursor, when it was set by a signed write, most recently used first (spec/17 R447, R448). -/
structure StrandCursor where
  source : Source
  entry  : Nat
  signed : Option Nat
deriving DecidableEq, Repr

structure Strand where
  queue    : List Occurrence := []
  dropped  : Nat := 0
  unflushed : List Entry := []
  flash    : List Entry := []
  next     : Nat := 0
  reserved : Nat := 0
  flushing : Bool := false
  cursors  : List StrandCursor := []
deriving DecidableEq, Repr

/-! ### Security, chapter 18 -/

/-- A firmware bank (spec/18 R458 to R461): PD 0x7430.04 and which was written more recently. -/
structure Bank where
  valid   : Bool
  secVersion : Nat
  build   : Nat
  digest  : BitVec 512
  headerDigest : BitVec 512
  written : Nat
deriving DecidableEq, Repr

/-- The security engine (spec/18): CHALLENGE; measurement registers; the staged return key, which of its bytes are written (a
bit each), and whether it matches the fused digest; the staged firmware image and its length; the flash banks; whether SPDM
algorithms are agreed; the test port: active, its instruction, islands halted; whether identity key derivation is
disabled. -/
structure Security where
  challenge  : Nat := 0
  measure    : List Nat := [0, 0, 0, 0, 0, 0, 0, 0]
  returnKey  : Tab Byte := []
  returnBytes : Nat := 0
  returnOk   : Bool := false
  stage      : Tab Byte := []
  staged     : Nat := 0
  bank0      : Bank := { valid := true, secVersion := 0, build := 0, digest := 0, headerDigest := 0, written := 1 }
  bank1      : Bank := { valid := false, secVersion := 0, build := 0, digest := 0, headerDigest := 0, written := 0 }
  spdmNegotiated : Bool := false
  tapActive  : Bool := false
  tapInstr   : BitVec 8 := 0xFF
  halted     : BitVec 128 := 0
  keyDisabled : Bool := false
deriving DecidableEq, Repr

/-! ### Outputs -/

/-- What the module sends to the outside. -/
inductive Output where
  | msix (vector : Nat)
  | gdpReply (path : GdpPath) (msg : GdpMsg)
  | gdpForward (target : Nat) (role : Role) (msg : GdpMsg)
  | signatureCheck (signed : List Byte)
  | laneReport (port lane : Nat)
  | mailbox (opcode : Nat) (code : Nat) (payload : List Byte)
  | windowDone (id : Nat) (refused : Bool) (data : List Byte)
  | crossingStatus (src dst : Nat) (tag : Nat) (status : BitVec 16)
  | slotTransfer (fabric port : Nat) (cls : TideClass) (tag : Nat)
  | roomReply (room : Nat) (tag : Nat) (status : BitVec 16) (data : List Byte)
  | drainMarker (room : Nat) (dest : Owner) (reader : Bool)
  | transposeReply (wing : Nat) (status : BitVec 16)
  | cliffReply (user : CliffUser) (tag : Nat) (status : BitVec 16) (data : List Byte)
  | biSnoop (position line : Nat)
  | snoopReply (line : Nat) (hit dirty : Bool)
  | mirrorLine (host : Nat) (bytes : List Byte)
  | packet (port : Nat) (pkt : Packet)
  | hostWrite (addr : Nat) (bytes : List Byte)
  | hostRead (addr : Nat) (bytes : Nat)
  | estuary (dest : Nat) (payload : List Byte)
  | signalSent (position counter op operand : Nat)
  | spdm (code : Nat) (payload : List Byte)
  | tap (bits : Nat) (value : Nat)
deriving DecidableEq, Repr

/-! ### The state -/

structure State where
  pending   : List Instr := []
  out       : List Output := []
  time      : Nat := 0
  fresh     : Nat := 0
  pd        : Tab Nat := []
  mem       : Tab Byte := []
  power     : Power := {}
  crossings : Tab Crossing := []
  ports     : Tab Port := []
  gdp       : Gdp := {}
  ops       : Tab LongOp := []
  host      : HostLink := {}
  rooms     : Tab Room := []
  transposes : Tab (Option Transpose) := []
  cliffs    : Tab Cliff := []
  badBlocks : List Nat := []
  poisonBlocks : List Nat := []
  unitPorts : Tab UnitPort := []
  chartBase : Tab (Option Nat) := []
  tlb       : List TlbEntry := []
  repair    : Option RepairRun := none
  bulk      : Option (Nat × Nat × Nat) := none
  rebuild   : Option Nat := none
  rebuildBase : Nat := 0
  unpinning : List Nat := []
  headland  : Headland := {}
  engines   : Tab Engine := []
  programs  : Tab (Option MicroProgram) := []
  heads     : Tab (Option Head) := []
  finished  : List Task := []
  endings   : List Ending := []
  spec      : Tab (List SpecTask) := []
  reruns    : Tab (List Task) := []
  lastPart  : Tab Nat := []
  refusedCtr : List Nat := []
  causeway  : Causeway := {}
  estuary   : Estuary := {}
  stages    : Tab Stage := []
  landfall  : Landfall := {}
  warmRecord : Option WarmRecord := none
  selfTest  : Option SelfTest := none
  health    : Health := {}
  stow      : Stow := {}
  strand    : Strand := {}
  security  : Security := {}
deriving DecidableEq, Repr

/-- The module at power-on reset: step 1 of Table 01-4, the input not yet up, every entry of the dictionary at its
default, persistent entries as shipped (spec/01 R27, spec/03 R67; log 3). -/
def State.reset : State := { pd := defaultStore }

end Sys2Proof.Machine
end

