-- ==== Sys2Proof/Machine/Ops.lean ====
section
/-!
DEFINITION. The named operations over the state that every family of commands uses: the dictionary's store, device
memory, the units' tables, outputs, Strandline occurrences and long operations.
-/
namespace Sys2Proof.Machine

/-- What every command answers. -/
abbrev Res := Host.Outcome State Fault Refusal

/-! ### The dictionary's store -/

/-- Unit `u` of entry `k`. -/
def State.rd (s : State) (k u : Nat) : Nat := tget 0 s.pd (pdKey k u)

/-- Unit `u` of entry `k` set to `v`. -/
def State.wr (s : State) (k u v : Nat) : State := { s with pd := tset 0 s.pd (pdKey k u) v }

/-- A scalar entry. -/
def State.reg (s : State) (k : Nat) : Nat := s.rd k 0

/-- A scalar entry set. -/
def State.setReg (s : State) (k v : Nat) : State := s.wr k 0 v

/-- A counting entry advanced by `n`, modulo 2^64 (U64 entries, spec/03 Table 03-1). -/
def State.bump (s : State) (k : Nat) (n : Nat := 1) : State := s.setReg k ((s.reg k + n) % 2 ^ 64)

/-- A flag register with bits ORed in. -/
def State.setFlags (s : State) (k mask : Nat) : State := s.setReg k (s.reg k ||| mask)

/-- A flag register with the bits of a mask of `w` bits cleared. -/
def State.clearFlags (s : State) (k w mask : Nat) : State := s.setReg k (s.reg k &&& ((2 ^ w - 1) ^^^ (mask % 2 ^ w)))

/-- Bytes `off` to `off + n − 1` of a BLOB kept in units of `unit` bytes. -/
def State.rdBytes (s : State) (k unit off n : Nat) : List Byte :=
  (List.range n).map fun i => BitVec.ofNat 8 (byteField (s.rd k ((off + i) / unit)) ((off + i) % unit) 1)

/-- Bytes written into a BLOB from offset `off`, ascending. -/
def State.wrBytes (s : State) (k unit : Nat) : Nat → List Byte → State
  | _, [] => s
  | off, b :: bs =>
    State.wrBytes (s.wr k (off / unit) (setByteField (s.rd k (off / unit)) (off % unit) 1 b.toNat)) k unit (off + 1) bs

/-- Units `0` to `n − 1` of an entry back to zero. -/
def State.zeroUnits (s : State) (k n : Nat) : State := { s with pd := tclear s.pd (pdKey k 0) n }

/-! ### Device memory -/

/-- The byte at a device physical address (House and native Cliff addresses; what nothing has written reads 0:
the wipe of L0 writes zeros, spec/18 R457; log 5). -/
def State.byteAt (s : State) (a : Nat) : Byte := tget 0 s.mem a

/-- `n` bytes from address `a`. -/
def State.bytesAt (s : State) (a n : Nat) : List Byte := tgetMany 0 s.mem a n

/-- Enabled bytes written from address `a`, ascending. -/
def State.putBytes (s : State) : Nat → List (Option Byte) → State
  | _, [] => s
  | a, none :: bs => State.putBytes s (a + 1) bs
  | a, some b :: bs => State.putBytes { s with mem := tset 0 s.mem a b } (a + 1) bs

/-- Every byte of a list enabled. -/
def enableAll (bs : List Byte) : List (Option Byte) := bs.map some

/-! ### Outputs, free values, Strandline occurrences -/

/-- Something sent to the outside, after what was sent before. -/
def State.emit (s : State) (o : Output) : State := { s with out := s.out ++ [o] }

/-- An MSI-X vector sent (spec/04 Table 04-9). -/
def State.vector (s : State) (v : Nat) : State := s.emit (.msix v)

/-- The next free value, and the state with its number used (log 4). -/
def State.free (s : State) : Nat := Config.free s.fresh

/-- The free value's number advanced. -/
def State.used (s : State) : State := { s with fresh := s.fresh + 1 }

/-- The unit number of an entry that names no unit (spec/17 Table 17-2). -/
def noUnit : Nat := 0xFFFFFFFF

/-- A trigger occurs: it joins the recorder's queue of 256, or is dropped and counted (spec/17 R440, R444). -/
def State.record (s : State) (trigger : Nat) (code : BitVec 16) (unitKind unit : Nat) (detail : List Byte) : State :=
  if s.strand.queue.length < 256 then
    { s with strand := { s.strand with queue := s.strand.queue ++
        [{ trigger := trigger, code := code, unitKind := unitKind, unit := unit, detail := detail, time := s.time }] } }
  else { s.bump Pd.overruns with strand := { s.strand with dropped := s.strand.dropped + 1 } }

/-- A warning flush begins (spec/17 R445); it lasts until no entry waits. -/
def State.startFlush (s : State) : State := { s with strand := { s.strand with flushing := true } }

/-! ### Where the module stands -/

/-- Whether the module is READY (PD 0x6440.01). -/
def State.isReady (s : State) : Bool := s.reg Pd.ready == 1

/-- The module's position, (BAY × 16) + SLOT of the latched straps (spec/03 Table 03-5A, PD 0x2030.01). -/
def State.position (s : State) : Nat := bits (s.reg Pd.straps) 4 6

/-- Whether the test port halts an island's clock (spec/18 R467). -/
def State.halted (s : State) (n : Nat) : Bool := s.security.halted.getLsbD n

/-- Whether island `n` is fenced (PD 0x2400.03). -/
def State.islandFenced (s : State) (n : Nat) : Bool := (s.reg Pd.islandFenced).testBit n

/-- Whether room `r` is fenced (spec/05 Table 05-1). -/
def State.roomFenced (s : State) (r : Nat) : Bool := (s.rd Pd.roomOwner r).testBit 62

/-- Whether Cliff `c` is fenced (PD 0x3800.03). -/
def State.cliffFenced (s : State) (c : Nat) : Bool := (s.reg Pd.cliffsFenced).testBit c

/-- Whether engine `n` is fenced (PD 0x4400.04). -/
def State.engineFenced (s : State) (n : Nat) : Bool := (s.reg Pd.enginesFenced).testBit n

/-- The tasks released and not yet completed, in any unit (spec/11 R295, R309): in the array, in an engine, in the Estuary,
ended and waiting for their completion, handing over, waiting for their shadow rooms, or to run again. -/
def State.inFlight (s : State) : List Task :=
  let h := s.headland
  (h.running.toList ++ h.shadow.toList ++ h.draining).map (·.task) ++ h.rerun
    ++ s.engines.filterMap (fun e => e.2.running.map (·.task)) ++ s.estuary.tasks.map (·.task) ++ s.finished
    ++ s.endings.map (·.task) ++ (s.spec.flatMap fun e => (e.2.filter fun x => !x.started).map (·.task))
    ++ s.reruns.flatMap (·.2)

/-- Whether a task is released and not yet completed. -/
def State.tasksRunning (s : State) : Bool := !s.inFlight.isEmpty

/-- Whether a task of partition `p` is. -/
def State.partTasks (s : State) (p : Nat) : Bool := s.inFlight.any fun t => t.part == p

/-- Whether the compute units have power and may work: READY, and neither tripped nor safe to remove
(spec/01 R28, R43). -/
def State.working (s : State) : Bool := s.isReady && decide (s.reg Pd.powerState < 2)

/-! ### The units' tables -/

def State.room (s : State) (r : Nat) : Room := tget {} s.rooms r
def State.setRoom (s : State) (r : Nat) (v : Room) : State := { s with rooms := tset {} s.rooms r v }
def State.cliff (s : State) (c : Nat) : Cliff := tget {} s.cliffs c
def State.setCliff (s : State) (c : Nat) (v : Cliff) : State := { s with cliffs := tset {} s.cliffs c v }
def State.engine (s : State) (n : Nat) : Engine := tget {} s.engines n
def State.setEngine (s : State) (n : Nat) (v : Engine) : State := { s with engines := tset {} s.engines n v }
def State.unitPort (s : State) (u : Nat) : UnitPort := tget {} s.unitPorts u
def State.setUnitPort (s : State) (u : Nat) (v : UnitPort) : State := { s with unitPorts := tset {} s.unitPorts u v }
def State.cport (s : State) (p : Nat) : CausewayPort := tget {} s.causeway.ports p
def State.setCport (s : State) (p : Nat) (v : CausewayPort) : State :=
  { s with causeway := { s.causeway with ports := tset {} s.causeway.ports p v } }
def State.stage (s : State) (p : Nat) : Stage := tget {} s.stages p
def State.setStage (s : State) (p : Nat) (v : Stage) : State := { s with stages := tset {} s.stages p v }
def State.reduction (s : State) (g r : Nat) : Reduction := tget {} s.estuary.reds (g * 2 ^ 32 + r)
def State.setReduction (s : State) (g r : Nat) (v : Reduction) : State :=
  { s with estuary := { s.estuary with reds := tset {} s.estuary.reds (g * 2 ^ 32 + r) v } }
def State.estGroup (s : State) (g : Nat) : EstGroup := tget {} s.estuary.groups g
def State.setEstGroup (s : State) (g : Nat) (v : EstGroup) : State :=
  { s with estuary := { s.estuary with groups := tset {} s.estuary.groups g v } }
def State.headOf (s : State) (k : Nat) : Option Head := tget none s.heads k
def State.setHead (s : State) (k : Nat) (v : Option Head) : State := { s with heads := tset none s.heads k v }
def State.specOf (s : State) (u : Nat) : List SpecTask := tget [] s.spec u
def State.setSpec (s : State) (u : Nat) (v : List SpecTask) : State := { s with spec := tset [] s.spec u v }
def State.crossing (s : State) (src dst : Nat) : Crossing := tget {} s.crossings (128 * src + dst)
def State.setCrossing (s : State) (src dst : Nat) (v : Crossing) : State :=
  { s with crossings := tset {} s.crossings (128 * src + dst) v }
def State.fabricPort (s : State) (f p : Nat) : Port := tget {} s.ports (4096 * f + p)
def State.setFabricPort (s : State) (f p : Nat) (v : Port) : State := { s with ports := tset {} s.ports (4096 * f + p) v }

/-! ### Long operations (spec/03 R82 to R86) -/

/-- Row `r` of Table 03-7: 1 Landfall, 2 self-test, 3 stow, 4 restore, 5 repair, 6 bulk copy, 7 Chart rebuild. -/
def State.op (s : State) (r : Nat) : LongOp := tget {} s.ops r
def State.setOp (s : State) (r : Nat) (v : LongOp) : State := { s with ops := tset {} s.ops r v }

/-- The base index of row `r` as an entry key (spec/03 Table 03-7). -/
def opBase (r : Nat) : Nat :=
  [0, 0x640000, 0x641000, 0x680000, 0x681000, 0x388000, 0x389000, 0x3C8000].getD r 0

/-- The row whose group holds entry `key`. -/
def opRowOf (key : Nat) : Option Nat :=
  [1, 2, 3, 4, 5, 6, 7].find? (fun r => decide (opBase r + 1 ≤ key) && decide (key ≤ opBase r + 6))

/-- Bytes of one result record of row `r` (spec/06, spec/15, spec/16). -/
def opRecord (r : Nat) : Nat := if r ≤ 4 then 16 else 8

/-- Whether row `r` is DEFERRED or RUNNING. -/
def State.opActive (s : State) (r : Nat) : Bool := (s.op r).state == 1 || (s.op r).state == 2

/-- The typical time of the current Landfall in µs (spec/15 Table 15-1, R395). -/
def landfallTypical (kind : Nat) : Nat := if kind = 2 then 1100000 else 4800000

/-- PROGRESS of row `r` (spec/03 Table 03-9, spec/15 R395). For the other operations progress is counted in result
slots filled (log 8). -/
def State.opProgress (s : State) (r : Nat) : Nat :=
  let o := s.op r
  if o.state = 0 then 0
  else if o.state = 1 then o.progress
  else if o.state = 3 then 0xFFFF
  else if r = 1 ∧ o.state = 2 then
    max o.progress (min 0xFFFE ((s.time - s.landfall.started) * 65536 / landfallTypical s.landfall.kind))
  else if o.state = 2 then max o.progress (min 0xFFFE (o.filled * 65536 / max 1 o.slots))
  else o.progress

/-- The status word of row `r` (spec/03 Table 03-9). -/
def State.opStatus (s : State) (r : Nat) : Nat :=
  let o := s.op r
  o.state * 2 ^ 56 + o.phase * 2 ^ 48 + s.opProgress r * 2 ^ 32 + o.code.toNat * 2 ^ 16 + o.filled

/-- An accepted START: the next run number, the status word, RESULTS and RESULT_SLOTS cleared (spec/03 R84). -/
def State.opStart (s : State) (r state slots : Nat) : State :=
  let o := s.op r
  s.setOp r { state := state, progress := if state = 1 then 1 else 0,
              code := if state = 1 then St.deferred else St.ok, run := (o.run + 1) % 2 ^ 32, slots := slots }

/-- Result slot `i` filled, once (spec/03 R86). -/
def State.opFill (s : State) (r i : Nat) (record : List Byte) : State :=
  let o := s.op r
  if i < o.slots ∧ tget none o.results i = none then
    s.setOp r { o with results := tset none o.results i (some record), filled := o.filled + 1 }
  else s

/-- A run ends in `state` (3 DONE, 4 FAILED, 5 ABORTED) with a code; its final status is unread (spec/03 R84, R85). -/
def State.opEnd (s : State) (r state : Nat) (code : BitVec 16) : State :=
  let o := s.op r
  s.setOp r { o with state := state, progress := s.opProgress r, code := code, unread := true }

/-- A DEFERRED run begins. -/
def State.opBegin (s : State) (r : Nat) : State :=
  let o := s.op r
  s.setOp r { o with state := 2, progress := 0, code := St.ok }

/-- Whether a START of row `r` is refused with BUSY (spec/03 R84). -/
def State.opBusy (s : State) (r : Nat) : Bool := s.opActive r || (s.op r).unread

/-- An entry of the NOTICE trigger for a run that a reset ended (spec/03 R85, spec/17 Table 17-4). -/
def State.recordAborted (s : State) (r : Nat) : State :=
  s.record 0x0A St.aborted 0 noUnit (natLE 4 r ++ natLE 4 (s.op r).run)

/-- Whether a self-test holds unit u, 0 the Headland, n + 1 engine n: its sequencer releases no task (spec/15 R410). -/
def State.underTest (s : State) (u : Nat) : Bool :=
  match s.selfTest with
  | none => false
  | some t => (t.kind == 1 && u == 0 && !t.started.isEmpty) || (t.kind == 2 && decide (1 ≤ u) && decide (u ≤ 64) && t.started.any fun i => t.first + i + 1 == u)

/-- Codes as bytes of a result record. -/
def codeBytes (c : BitVec 16) : List Byte := natLE 2 c.toNat

/-- A record of exactly `n` bytes: padded with zeros. -/
def padTo (n : Nat) (bs : List Byte) : List Byte := (bs ++ List.replicate n 0).take n

end Sys2Proof.Machine
end

