-- ==== Sys2Proof/Machine/Routes.lean ====
section
/-!
DEFINITION. Logical ports, the link map and the routes every module computes from it (spec/12 R329, R335, R336).
Positions are 16 × bay + slot.
-/
namespace Sys2Proof.Machine

/-- The logical port of position `p` that leads to its neighbour `q`, or none where the standard wiring has no link
between them (spec/12 R329). -/
def logicalPort (p q : Nat) : Option Nat :=
  if p = q then none
  else if p / 16 = q / 16 then some (if q % 16 < p % 16 then q % 16 else q % 16 - 1)
  else if p % 16 = q % 16 then some (15 + (if q / 16 < p / 16 then q / 16 else q / 16 - 1))
  else none

/-- The neighbour of position `p` on logical port `l` (spec/12 R329). -/
def neighbourOf (p l : Nat) : Nat :=
  if l < 15 then 16 * (p / 16) + (if l < p % 16 then l else l + 1)
  else 16 * (if l - 15 < p / 16 then l - 15 else l - 14) + p % 16

/-- Whether position `p` reports its logical port to `q` up (PD 0x5450.02). -/
def State.reportsUp (s : State) (p q : Nat) : Bool :=
  match logicalPort p q with
  | none => false
  | some l => (s.rd Pd.linkMap p).testBit l

/-- Whether the link between neighbours counts as up: both ends report it (spec/12 R335). -/
def State.linkIsUp (s : State) (p q : Nat) : Bool := s.reportsUp p q && s.reportsUp q p

/-- A route: the rule of Table 12-4 and the positions passed on the way. -/
structure Route where
  rule : Nat
  via  : List Nat
deriving DecidableEq, Repr

/-- Whether every link of a path is up. -/
def State.pathUp (s : State) : List Nat → Bool
  | p :: q :: t => s.linkIsUp p q && State.pathUp s (q :: t)
  | _ => true

/-- The lowest slot `m`, other than those of `skip`, whose path is up. -/
def State.lowestSlot (s : State) (skip : List Nat) (path : Nat → List Nat) : Option Nat :=
  (List.range 16).find? fun m => !skip.contains m && s.pathUp (path m)

/-- The lowest bay `b`, other than those of `skip`, whose path is up. -/
def State.lowestBay (s : State) (skip : List Nat) (path : Nat → List Nat) : Option Nat :=
  (List.range 4).find? fun b => !skip.contains b && s.pathUp (path b)

/-- The route from `p` to `q` by Table 12-4: the first rule that yields a path (spec/12 R335). -/
def State.routeFrom (s : State) (p q : Nat) : Option Route :=
  let b1 := p / 16
  let s1 := p % 16
  let b2 := q / 16
  let s2 := q % 16
  let detour (m : Nat) : List Nat := [16 * b1 + m, 16 * b2 + m]
  if p = q then some { rule := 1, via := [] }
  else if b1 = b2 then
    if s.pathUp [p, q] then some { rule := 1, via := [] }
    else (s.lowestSlot [s1, s2] fun m => [p, 16 * b1 + m, q]).map fun m => { rule := 3, via := [16 * b1 + m] }
  else if s1 = s2 then
    if s.pathUp [p, q] then some { rule := 1, via := [] }
    else match s.lowestBay [b1, b2] fun b => [p, 16 * b + s1, q] with
      | some b => some { rule := 2, via := [16 * b + s1] }
      | none => (s.lowestSlot [s1] fun m => p :: detour m ++ [q]).map fun m => { rule := 3, via := detour m }
  else
    if s.pathUp [p, 16 * b1 + s2, q] then some { rule := 1, via := [16 * b1 + s2] }
    else if s.pathUp [p, 16 * b2 + s1, q] then some { rule := 2, via := [16 * b2 + s1] }
    else match s.lowestSlot [s1, s2] fun m => p :: detour m ++ [q] with
      | some m => some { rule := 3, via := detour m }
      | none =>
        (s.lowestBay [b1, b2] fun b => [p, 16 * b + s1, 16 * b + s2, q]).map fun b =>
          { rule := 3, via := [16 * b + s1, 16 * b + s2] }

/-- The route from this module to position `q`. -/
def State.route (s : State) (q : Nat) : Option Route := s.routeFrom s.position q

/-- The first position on the way to `q`. -/
def Route.firstHop (r : Route) (q : Nat) : Nat := r.via.headD q

/-- The logical port on which packets for position `q` leave this module, or none where `q` is unreachable. -/
def State.outPort (s : State) (q : Nat) : Option Nat :=
  match s.route q with
  | none => none
  | some r => logicalPort s.position (r.firstHop q)

/-- The physical port backing logical port `l` (PD 0x5410.02), or none when it is vacant. -/
def State.physicalOf (s : State) (l : Nat) : Option Nat :=
  let p := s.rd Pd.logicalPorts l
  if p = 0xFF then none else some p

/-- A trained direct link to position `q`, over which dictionary messages travel before READY (spec/15 R401): the
physical port, up, whose neighbour is `q`. -/
def State.trainedTo (s : State) (q : Nat) : Option Nat :=
  (List.range 20).find? fun p =>
    let w := s.rd Pd.portStatus p
    byteField w 0 1 == 2 && byteField w 2 1 == q

/-- Whether a dictionary message can be sent towards position `q` (spec/03 R76). -/
def State.reaches (s : State) (q : Nat) : Bool :=
  decide (q < 64) && ((s.outPort q).isSome || (s.trainedTo q).isSome)

/-- The record of ROUTE_TABLE for position `q` (PD 0x5450.01). For the module's own position: no hop and no port
(log 9). -/
def State.routeRecord (s : State) (q : Nat) : List Byte :=
  if q = s.position then natLE 8 0xFFFFFF00
  else match s.route q with
    | none => natLE 8 0xFFFFFFFF
    | some r =>
      natLE 1 (r.via.length + 1) ++ natLE 1 ((logicalPort s.position (r.firstHop q)).getD 0xFF)
        ++ natLE 1 (r.via.getD 0 0xFF) ++ natLE 1 (r.via.getD 1 0xFF) ++ natLE 1 r.rule ++ [0, 0, 0]

end Sys2Proof.Machine
end

