-- ==== Sys2Proof/Machine/Links.lean ====
section
/-!
DEFINITION. The sending side of the Causeway (spec/12): packets and their CRC, virtual channels, the link map and what
a change of it does to transfers, transfers end to end, and the lines and snoops that go to the host or its gate.
-/
namespace Sys2Proof.Machine

/-! ### Packets (spec/12 R330, Tables 12-2 and 12-3) -/

/-- One bit as a number. -/
def bit01 (b : Bool) : Nat := if b then 1 else 0

/-- The header of Table 12-2. -/
def packetHeader (p : Packet) : List Byte :=
  [BitVec.ofNat 8 (16 * p.ptype.toNat + p.vc.toNat), p.dest, p.src,
   BitVec.ofNat 8 (bit01 p.last + 2 * bit01 p.signalValid + 4 * bit01 p.retry + 8 * bit01 p.detour + 16 * p.hops.toNat
     + 64 * p.role.toNat)]
    ++ natLE 2 p.linkSeq.toNat
    ++ natLE 2 (p.ack.toNat + 4096 * bit01 p.ackValid + 8192 * bit01 p.nack)
    ++ [BitVec.ofNat 8 (p.creditVc.toNat + 16 * p.credits.toNat), p.length]
    ++ natLE 2 p.transfer.toNat ++ natLE 2 p.count.toNat ++ natLE 2 p.index.toNat ++ natLE 6 p.address.toNat
    ++ natLE 2 (p.ownerUnit.toNat + 256 * p.ownerKind.toNat)
    ++ natLE 8 (p.sigOp.toNat + 8 * p.sigTag.toNat + 32 * p.sigCounter.toNat + 2 ^ 32 * p.sigOperand.toNat)

/-- The CRC-32 of a packet (spec/12 R331). -/
def packetCrc (p : Packet) : BitVec 32 := crc32 (packetHeader p ++ p.payload)

/-- Whether packets of a type carry a payload (Table 12-3). -/
def hasPayload (t : Nat) : Bool := t != 2 && t != 4 && t != 11

/-- A payload as a packet carries it: padded with zeros to 256 bytes. -/
def payloadOf (bs : List Byte) : List Byte := padTo 256 bs

/-- Class of a packet type, 5 for the link-local types (spec/12 R333). -/
def classOf (t : Nat) : Nat :=
  match t with
  | 2 => 0
  | 3 => 1
  | 1 => 2
  | 6 => 3
  | 9 => 4
  | 10 => 5
  | 11 => 5
  | _ => 4

/-- The virtual channel of a packet type at a hop level; 15 for LINK_STATE and NULL. -/
def vcOf (t hop : Nat) : Nat := if classOf t = 5 then 15 else 3 * classOf t + min hop 2

/-- A packet of this module with nothing but its type, destination and payload. -/
def State.newPacket (s : State) (t dest : Nat) (payload : List Byte) : Packet :=
  { ptype := BitVec.ofNat 4 t, vc := BitVec.ofNat 4 (vcOf t 0), dest := BitVec.ofNat 8 dest, src := BitVec.ofNat 8 s.position
    last := true, signalValid := false, retry := false, detour := false, hops := 0, role := 0, linkSeq := 0, ack := 0
    ackValid := false, nack := false, creditVc := 0, credits := 0, length := 0, transfer := 0, count := 1, index := 0
    address := 0, ownerKind := 0, ownerUnit := 0, sigOp := 0, sigTag := 0, sigCounter := 0, sigOperand := 0
    payload := if hasPayload t then payloadOf payload else [], crc := 0, fecOk := true }

/-! ### Ports (PD 0x5410.01) -/

/-- The state of physical port p: 0 absent, 1 training, 2 up, 3 link down, 4 failed, 5 spare idle. -/
def State.portState (s : State) (p : Nat) : Nat := byteField (s.rd Pd.portStatus p) 0 1

/-- The state of a port set. -/
def State.setPortState (s : State) (p st : Nat) : State := s.wr Pd.portStatus p (setByteField (s.rd Pd.portStatus p) 0 1 st)

/-- The ports that are up. -/
def State.upPorts (s : State) : List Nat := (List.range 20).filter fun p => s.portState p == 2

/-- A packet put in its queue at a port. -/
def State.enqueue (s : State) (p : Nat) (k : Packet) : State :=
  let x := s.cport p
  s.setCport p { x with queues := tset [] x.queues k.vc.toNat (tget [] x.queues k.vc.toNat ++ [k]) }

/-- The port that leads to a neighbouring position: that of its logical port, or, before those are frozen, one that has
trained with it (spec/03 R76). -/
def State.portTowards (s : State) (hop : Nat) : Option Nat :=
  match ((logicalPort s.position hop).bind s.physicalOf).filter fun p => s.portState p == 2 with
  | some p => some p
  | none => s.trainedTo hop

/-- A packet sent towards position `hop`; dropped where no port that is up leads there. -/
def State.enqueueTowards (s : State) (hop : Nat) (k : Packet) : State :=
  match s.portTowards hop with
  | some p => s.enqueue p k
  | none => s

/-! ### Transfers (spec/12 R338, R339) -/

/-- Transfers to a destination that are not acknowledged, held ones included. -/
def State.unacked (s : State) (d : Nat) : List Transfer := tget [] s.causeway.unacked d
def State.setUnacked (s : State) (d : Nat) (l : List Transfer) : State :=
  { s with causeway := { s.causeway with unacked := tset [] s.causeway.unacked d l } }

/-- A transfer's packets put in the queues of its first hop; nothing where it has no route. -/
def State.pushTransfer (s : State) (t : Transfer) (retry : Bool) : State :=
  match t.path with
  | [] => s
  | hop :: _ => t.packets.foldl (fun s k => s.enqueueTowards hop { k with retry := retry, detour := t.detour }) s

/-- The path of a route: the positions after this module, the destination last. -/
def Route.path (r : Route) (d : Nat) : List Nat := r.via ++ [d]

/-- Whether a transfer's path from this module is up. -/
def State.transferUp (s : State) (t : Transfer) : Bool := s.pathUp (s.position :: t.path)

/-- The path a new transfer takes: that of the transfers under way while it is up, else the route of Table 12-4; for a
dictionary message before routes exist, a direct link that has trained (spec/12 R338, spec/03 R76). -/
def State.pathFor (s : State) (d : Nat) : List Nat × Bool :=
  match (s.unacked d).find? fun t => decide (0 < t.sendings) && !t.path.isEmpty && s.transferUp t with
  | some t => (t.path, t.detour)
  | none =>
    match s.route d with
    | some r => (r.path d, r.rule == 3)
    | none => (if (s.trainedTo d).isSome then [d] else [], false)

/-- The table in use on a fabric (PD 0x2410). -/
def State.activeTable (s : State) (f : Nat) : List Byte := natLE 256 (s.reg (Pd.tideActive + f - 1))

/-- Whether a class, by its code, ever moves on a fabric: it has slots in the table in use, or is maintenance and takes the
host's (spec/02 R55, R59); before READY nothing but maintenance moves (R57). -/
def State.classMoves (s : State) (f c : Nat) : Bool :=
  if s.isReady then (s.activeTable f).any fun b => b.toNat % 8 == c || (c == 5 && b.toNat % 8 == 4) else c == 5

/-- The class in which a transfer's packets are injected through fabric 3 (spec/12 R334, spec/02 Table 02-3); dictionary
messages cross no slotted fabric (spec/03 R76). -/
def TransferFor.slotClass : TransferFor → Option Nat
  | .window _ => some 4
  | .mirror _ => some 4
  | .snoop => some 4
  | .estuary _ => some 2
  | .signal => some 1
  | .stow _ => some 5
  | .restore _ => some 5
  | .gdp => none

/-- Whether a transfer may be injected: its class has slots on fabric 3. -/
def State.mayInject (s : State) (t : Transfer) : Bool := t.purpose.slotClass.all (s.classMoves 3)

/-- The first held transfers of a list sent while fewer than 1,024 are under way; `under` counts those. -/
def State.sendHeld (s : State) (d : Nat) (path : List Nat × Bool) : Nat → List Transfer → List Transfer × State
  | _, [] => ([], s)
  | under, t :: ts =>
    if 0 < t.sendings then
      let r := s.sendHeld d path under ts
      (t :: r.1, r.2)
    else if !s.mayInject t then
      let r := s.sendHeld d path under ts
      (t :: r.1, r.2)
    else if under < 1024 then
      let t := { t with sendings := 1, path := path.1, detour := path.2 }
      let r := (s.pushTransfer t false).sendHeld d path (under + 1) ts
      (t :: r.1, r.2)
    else (t :: ts, s)

/-- Held transfers to a destination sent as far as the limit allows. -/
def State.sendWaiting (s : State) (d : Nat) : State :=
  let l := s.unacked d
  let r := s.sendHeld d (s.pathFor d) (l.filter fun t => decide (0 < t.sendings)).length l
  r.2.setUnacked d r.1

/-- Transfers held back tried again, to every destination: a table has changed. -/
def State.resumeTransfers (s : State) : State := s.causeway.unacked.foldl (fun s e => s.sendWaiting e.1) s

/-- A transfer numbered and queued for its destination (spec/12 R339). -/
def State.queueTransfer (s : State) (d : Nat) (purpose : TransferFor) (ks : List Packet) : State :=
  let id := tget 0 s.causeway.sendNext d
  let n := ks.length
  let ks := ks.zipIdx.map fun e =>
    { e.1 with transfer := id, count := BitVec.ofNat 16 n, index := BitVec.ofNat 16 e.2, last := e.2 + 1 == n }
  let t : Transfer := { id := id, purpose := purpose, packets := ks, sendings := 0, path := [], detour := false }
  let s := { s with causeway := { s.causeway with sendNext := tset 0 s.causeway.sendNext d (id + 1) } }
  (s.setUnacked d (s.unacked d ++ [t])).sendWaiting d

/-- A transfer of packets begun; false where the destination is unreachable, which completes it at once (spec/12 R335). -/
def State.sendTransfer (s : State) (d : Nat) (purpose : TransferFor) (ks : List Packet) : State × Bool :=
  if (s.route d).isNone then (s, false) else (s.queueTransfer d purpose ks, true)

/-- A list cut into pieces of at most `n`; the second argument bounds how many. -/
def pieces (n : Nat) : Nat → List Byte → List (List Byte)
  | 0, _ => []
  | k + 1, l => if l.isEmpty then [] else l.take n :: pieces n k (l.drop n)

/-- A dictionary message on its way to another module: packets of TYPE 5, each carrying a piece, with its ROLE (spec/03 R75,
spec/12 R330). Where nothing leads there it goes nowhere. -/
def State.sendGdp (s : State) (d role : Nat) (bytes : List Byte) : State :=
  if (s.route d).isNone && (s.trainedTo d).isNone then s
  else s.queueTransfer d .gdp ((pieces 256 bytes.length bytes).map fun b =>
    { s.newPacket 5 d b with role := BitVec.ofNat 2 role })

/-- A transfer that has ended, removed; the ones held back follow. -/
def State.endTransfer (s : State) (d : Nat) (id : BitVec 16) : State :=
  (s.setUnacked d ((s.unacked d).filter fun t => t.id != id)).sendWaiting d

/-- A transfer sent again whole, with RETRY, on a path (spec/12 R339). -/
def State.resend (s : State) (d : Nat) (t : Transfer) (path : List Nat × Bool) : State :=
  let t := { t with sendings := t.sendings + 1, path := path.1, detour := path.2 }
  let s := (s.bump Pd.e2eResends).pushTransfer t true
  s.setUnacked d ((s.unacked d).map fun x => if x.id = t.id then t else x)

/-- A signal to a counter of another module, as a transfer of one SIGNAL packet (spec/12 Table 12-3). -/
def State.sendSignal (s : State) (d op tag counter operand : Nat) : State :=
  let k := { s.newPacket 4 d [] with
    signalValid := true, sigOp := BitVec.ofNat 3 op, sigTag := BitVec.ofNat 2 tag, sigCounter := BitVec.ofNat 17 counter
    sigOperand := BitVec.ofNat 32 operand }
  ((s.sendTransfer d .signal [k]).1).emit (.signalSent d counter op operand)

/-- An end-to-end acknowledgement (spec/12 R339). -/
def State.sendAck (s : State) (d : Nat) (id : BitVec 16) (code : BitVec 16) : State :=
  match s.route d with
  | none => s
  | some r => s.enqueueTowards (r.firstHop d) { s.newPacket 9 d (natLE 2 code.toNat) with transfer := id, detour := r.rule == 3 }

/-! ### The link map (spec/12 R335, R336) -/

/-- The failed physical port of a link to position q. -/
def State.failedTo (s : State) (q : Nat) : Option Nat :=
  (List.range 20).find? fun p => s.portState p == 4 && byteField (s.rd Pd.portStatus p) 2 1 == q

/-- A mask of the logical ports that satisfy a test. -/
def portMask (which : Nat → Bool) : Nat := (List.range 18).foldl (fun m l => if which l then m + 2 ^ l else m) 0

/-- The module's logical ports whose physical port has failed and whose place no spare has taken (R343). -/
def State.ownFailed (s : State) : Nat :=
  portMask fun l => match s.physicalOf l with
    | some p => s.portState p == 4
    | none => (s.failedTo (neighbourOf s.position l)).isSome

/-- Those of them that are vacant, so that no spare will take their place (R344). -/
def State.ownVacant (s : State) : Nat :=
  portMask fun l => (s.physicalOf l).isNone && (s.failedTo (neighbourOf s.position l)).isSome

/-- The content of a LINK_STATE packet: the entry, the position it is of, its version, and the position's failed and vacant
ports (log 27, log 48). -/
def State.linkStatePayload (s : State) (p : Nat) : List Byte :=
  let own := p == s.position
  natLE 4 (s.rd Pd.linkMap p) ++ natLE 4 p ++ natLE 8 (tget 0 s.causeway.versions p)
    ++ natLE 4 (if own then s.ownFailed else tget 0 s.causeway.failedPorts p)
    ++ natLE 4 (if own then s.ownVacant else tget 0 s.causeway.vacantPorts p)

/-- The entry of a position sent on every port that is up, but for one. -/
def State.spreadLinks (s : State) (p : Nat) (except_ : Option Nat) : State :=
  (s.upPorts.filter fun x => some x != except_).foldl (fun s x =>
    s.enqueue x (s.newPacket 10 (byteField (s.rd Pd.portStatus x) 2 1) (s.linkStatePayload p))) s

/-- Every entry the module holds sent on one port: to a partner whose link has come up (log 27). -/
def State.sendLinkMap (s : State) (x : Nat) : State :=
  s.causeway.versions.foldl (fun s e =>
    s.enqueue x (s.newPacket 10 (byteField (s.rd Pd.portStatus x) 2 1) (s.linkStatePayload e.1))) s

/-- The module's own entry: its logical ports that are up, none before its first READY since power-up (log 30). -/
def State.ownLinks (s : State) : Nat :=
  if !s.power.routed then 0
  else (List.range 18).foldl (fun m l =>
    match s.physicalOf l with
    | some p => if s.portState p = 2 then m + 2 ^ l else m
    | none => m) 0

/-- After a change of the link map: every transfer under way whose route used a lost link is sent again at once on the
new route, where there is one and its four sendings are not used up (spec/12 R338, R339). -/
def State.rerouted (s : State) : State :=
  s.causeway.unacked.foldl (fun s e =>
    match s.route e.1 with
    | none => s
    | some r =>
      (e.2.filter fun t => decide (0 < t.sendings) && decide (t.sendings < 4) && !s.transferUp t).foldl
        (fun s t => s.resend e.1 t (r.path e.1, r.rule == 3)) s) s

/-- The module's own entry with a new version, sent on every port that is up (spec/12 R336). -/
def State.sendOwnLinks (s : State) : State :=
  let p := s.position
  let s := s.wr Pd.linkMap p s.ownLinks
  let s := { s with causeway := { s.causeway with versions := tset 0 s.causeway.versions p (tget 0 s.causeway.versions p + 1) } }
  (s.spreadLinks p none).rerouted

/-- The module's own entry sent after a port went up or down, where that changed it. -/
def State.announceLinks (s : State) : State :=
  if s.ownLinks = s.rd Pd.linkMap s.position then s else s.sendOwnLinks

/-! ### Snoops and mirror lines (spec/04 R101, R105, R106) -/

/-- Whether this module's own host link is UP, so that it is a gate (spec/04 R96). -/
def State.isGate (s : State) : Bool := s.reg Pd.linkState == 2

/-- The position of the gate that serves this module where it is none itself (log 25). -/
def gatePosition : Nat := Config.gate % 64

/-- A back-invalidate snoop of one of the module's own lines, on the link or, through a SNOOP packet, at the gate; false where
the gate is unreachable, which completes it with UNREACHABLE (spec/12 R335). -/
def State.sendSnoop (s : State) (line : Nat) : State × Bool :=
  if s.isGate then (s.emit (.biSnoop s.position line), true)
  else
    s.sendTransfer gatePosition .snoop
      [{ s.newPacket 7 gatePosition (natLE 1 0) with address := BitVec.ofNat 44 (64 * line) }]

/-- A line that the host may hold is asked back, once while a snoop of it is under way (spec/04 R101). -/
def State.askBack (s : State) (line : Nat) : State :=
  if s.host.filter.contains line && !s.host.snooped.contains line then
    let o := s.sendSnoop line
    if o.2 then { o.1 with host := { o.1.host with snooped := line :: o.1.host.snooped } } else o.1
  else s

/-- The fields of a mirror record (Table 04-8). -/
def mirrorLineOf (w : Nat) : Nat := bits w 70 58
def mirrorEnabled (w : Nat) : Bool := w.testBit 31
def mirrorOnTarget (w : Nat) : Bool := w.testBit 30
def mirrorVector (w : Nat) : Nat := bits w 25 5
def mirrorCounter (w : Nat) : Nat := bits w 0 17

/-- What a mirror record keeps. -/
def State.mirror (s : State) (i : Nat) : MirrorState := tget {} s.host.mirrors i
def State.setMirror (s : State) (i : Nat) (m : MirrorState) : State :=
  { s with host := { s.host with mirrors := tset {} s.host.mirrors i m } }

/-- The bytes of a mirror line (spec/04 R105). -/
def mirrorBytes (word counter position sequence : Nat) : List Byte :=
  padTo 64 (natLE 8 word ++ natLE 4 counter ++ natLE 1 position ++ [0, 0, 0] ++ natLE 8 sequence)

/-- Record `i`'s mirror line written with its counter's state now; none of a counter out of reach (spec/11 R317). A line that finds
no way to the gate waits. -/
def State.writeMirror (s : State) (i : Nat) : State :=
  let w := s.rd Pd.mirrorTable i
  let c := mirrorCounter w
  let m := s.mirror i
  let line := mirrorBytes (s.rd Pd.counterState c) c s.position (m.sequence + 1)
  let m := { m with sequence := m.sequence + 1, inFlight := some (mirrorVector w), waiting := false }
  if s.isGate then (s.setMirror i m).emit (.mirrorLine (64 * mirrorLineOf w) line)
  else
    let r := s.sendTransfer gatePosition (.mirror i)
      [{ s.newPacket 8 gatePosition line with address := BitVec.ofNat 44 (64 * mirrorLineOf w) }]
    if r.2 then r.1.setMirror i m else s.setMirror i { s.mirror i with waiting := true }

/-- Whether device writes to host memory are on their way: lines of a stow image's host copy (spec/16 R422). -/
def State.hostWritesOpen (s : State) : Bool := s.stow.run.any fun r => r.images.any fun i => i.toHost && !i.hostDone && i.ended.isNone

/-- Record `i`'s line written, if it is enabled and its counter can be reached; it waits while earlier device writes to host memory are
not observable (R106, spec/11 R317). -/
def State.tryMirror (s : State) (i : Nat) : State :=
  let w := s.rd Pd.mirrorTable i
  if !mirrorEnabled w || s.islandFenced (66 + mirrorCounter w % 8) then s.setMirror i { s.mirror i with waiting := false }
  else if s.hostWritesOpen then s.setMirror i { s.mirror i with waiting := true }
  else s.writeMirror i

/-- Mirror lines that wait, with none of their record in flight, tried again: the newest state is written eventually (R106). -/
def State.retryMirrors (s : State) : State :=
  (s.host.mirrors.filter fun e => e.2.waiting && e.2.inFlight.isNone).foldl (fun s e => s.tryMirror e.1) s

/-- Counter `c` changed, reaching its target or not: every enabled record that names it writes its line, or notes the
change for the line after the one in flight (spec/04 R105, R106). -/
def State.mirrorChange (s : State) (c : Nat) (reached : Bool) : State :=
  (s.pd.filter fun e => e.1 / 16777216 == Pd.mirrorTable && mirrorEnabled e.2 && mirrorCounter e.2 == c
      && (reached || !mirrorOnTarget e.2)).foldl (fun s e =>
    let i := e.1 % 16777216
    if (s.mirror i).inFlight.isSome then (s.bump Pd.mirrorCoalesced).setMirror i { s.mirror i with waiting := true }
    else s.tryMirror i) s

end Sys2Proof.Machine
end

