-- ==== Sys2Proof/Machine/Keccak.lean ====
section
/-!
DEFINITION. SHAKE256 (FIPS 202), by which the module forms its measurements (spec/18 R462), and SHA3-512, its SPDM base
hash (spec/18 R466). The manual names the functions and does not restate them.
-/
namespace Sys2Proof.Machine

/-- A 64-bit lane rotated left. -/
def laneRot (x n : Nat) : Nat := ((x <<< n) ||| (x >>> (64 - n))) % 2 ^ 64

/-- Rotation offsets, lane x + 5y. -/
def rhoOffsets : List Nat :=
  [0, 1, 62, 28, 27, 36, 44, 6, 55, 20, 3, 10, 43, 25, 39, 41, 45, 15, 21, 8, 18, 2, 61, 56, 14]

/-- Round constants. -/
def iotaConstants : List Nat :=
  [0x1, 0x8082, 0x800000000000808A, 0x8000000080008000, 0x808B, 0x80000001, 0x8000000080008081, 0x8000000000008009,
   0x8A, 0x88, 0x80008009, 0x8000000A, 0x8000808B, 0x800000000000008B, 0x8000000000008089, 0x8000000000008003,
   0x8000000000008002, 0x8000000000000080, 0x800A, 0x800000008000000A, 0x8000000080008081, 0x8000000000008080,
   0x80000001, 0x8000000080008008]

/-- Lane `i` of a state of 25 lanes. -/
def lane (a : List Nat) (i : Nat) : Nat := a.getD i 0

/-- One round of Keccak-f[1600]. -/
def keccakRound (a : List Nat) (rc : Nat) : List Nat :=
  let c := (List.range 5).map fun x =>
    lane a x ^^^ lane a (x + 5) ^^^ lane a (x + 10) ^^^ lane a (x + 15) ^^^ lane a (x + 20)
  let d := (List.range 5).map fun x => lane c ((x + 4) % 5) ^^^ laneRot (lane c ((x + 1) % 5)) 1
  let t := (List.range 25).map fun i => laneRot (lane a i ^^^ lane d (i % 5)) (rhoOffsets.getD i 0)
  -- pi: lane (x, y) of the result comes from lane (x + 3y, x)
  let b := (List.range 25).map fun i => lane t ((i % 5 + 3 * (i / 5)) % 5 + 5 * (i % 5))
  (List.range 25).map fun i =>
    let x := i % 5
    let y := 5 * (i / 5)
    let v := lane b i ^^^ ((2 ^ 64 - 1 - lane b ((x + 1) % 5 + y)) &&& lane b ((x + 2) % 5 + y))
    if i = 0 then v ^^^ rc else v

/-- Keccak-f[1600]. -/
def keccakF (a : List Nat) : List Nat := iotaConstants.foldl keccakRound a

/-- The lanes of a block of 136 bytes, the capacity lanes zero. -/
def blockLanes (block : List Byte) : List Nat := (List.range 25).map fun i => leNat ((block.drop (8 * i)).take 8)

/-- The state after absorbing `n` whole blocks of 136 bytes. -/
def absorb : Nat → List Nat → List Byte → List Nat
  | 0, a, _ => a
  | n + 1, a, m => absorb n (keccakF ((a.zip (blockLanes (m.take 136))).map fun e => e.1 ^^^ e.2)) (m.drop 136)

/-- A message padded for SHAKE256. -/
def shakePad (m : List Byte) : List Byte :=
  let q := 136 - m.length % 136
  if q = 1 then m ++ [0x9F] else m ++ [0x1F] ++ List.replicate (q - 2) 0 ++ [0x80]

/-- The first 64 bytes of SHAKE256 of a message, as a number with the first byte least significant. -/
def shake256 (m : List Byte) : Nat :=
  let p := shakePad m
  let a := absorb (p.length / 136) (List.replicate 25 0) p
  (List.range 8).foldl (fun v i => v + lane a i * 2 ^ (64 * i)) 0

/-- The state after absorbing `n` whole blocks of 72 bytes. -/
def absorb72 : Nat → List Nat → List Byte → List Nat
  | 0, a, _ => a
  | n + 1, a, m => absorb72 n (keccakF ((a.zip (blockLanes (m.take 72))).map fun e => e.1 ^^^ e.2)) (m.drop 72)

/-- SHA3-512 of a message, as a number with the first byte least significant. -/
def sha3 (m : List Byte) : Nat :=
  let q := 72 - m.length % 72
  let p := if q = 1 then m ++ [0x86] else m ++ [0x06] ++ List.replicate (q - 2) 0 ++ [0x80]
  let a := absorb72 (p.length / 72) (List.replicate 25 0) p
  (List.range 8).foldl (fun v i => v + lane a i * 2 ^ (64 * i)) 0

end Sys2Proof.Machine
end

