-- ==== Sys2Proof/Machine/Reset.lean ====
section
/-!
DEFINITION. Power cycle, module reset, step 2 of the power-up order with measured boot, and the start of a Landfall
run (spec/01 R25 to R29, spec/15 R393 to R395, spec/18 R457, R462).
-/
namespace Sys2Proof.Machine

/-! ### What a reset keeps of the dictionary -/

/-- Fuses, which nothing but a repair changes (spec/06 R163). -/
def isFuse (key : Nat) : Bool := decide (Pd.fuseMap ≤ key) && decide (key < Pd.fuseMap + 20)

/-- Readings of sensors, which a reset does not alter: they have no default (spec/01 Table 01-10). -/
def isReading (key : Nat) : Bool :=
  [Pd.inputVoltage, Pd.inputCurrent, Pd.inputPower, Pd.inputMin, Pd.inputRipple, Pd.hottestJunction, Pd.hottestBlock].contains key
    || (decide (Pd.blockPower ≤ key) && decide (key < Pd.blockPower + 8))
    || (decide (Pd.blockJunction ≤ key) && decide (key < Pd.blockJunction + 8))

/-- Entries that tell of Causeway forwarding, which a module reset leaves running (spec/02 R46). -/
def isForwarding (key : Nat) : Bool := [Pd.portStatus, Pd.logicalPorts, Pd.linkMap].contains key

/-- Persistent entries and fuses (spec/03 R67). -/
def keptAlways (key : Nat) : Bool :=
  isFuse key || match entryInfo key with
    | some e => e.persistent
    | none => false

/-- What a module reset keeps. -/
def keptByModuleReset (key : Nat) : Bool := keptAlways key || isReading key || isForwarding key

/-- The store after a reset that keeps the entries `keep` names: every other entry at its default. -/
def resetStore (keep : Nat → Bool) (pd : Tab Nat) : Tab Nat :=
  (pd.filter fun e => keep (e.1 / 16777216)).foldl (fun t e => tset 0 t e.1 e.2)
    (defaultStore.filter fun e => !keep (e.1 / 16777216))

/-- The entry a header names. -/
def msgKey (m : GdpMsg) : Nat := m.index.toNat * 256 + m.sub.toNat

/-- Persistent entries whose new values had not reached flash take their old ones back (spec/03 R67). -/
def State.undoFlash (s : State) : State :=
  s.gdp.inflight.reverse.foldl (fun s p =>
    if p.wait = .flash then
      { s with pd := p.before.foldl (fun t e => tset 0 t e.1 e.2) (s.pd.filter fun e => e.1 / 16777216 != msgKey p.req.hdr) }
    else s) s

/-! ### What the units keep -/

/-- A Cliff keeps its fuses and its flash log of soft replacements (spec/06 R158, R159). -/
def Cliff.kept (c : Cliff) : Cliff :=
  { softRows := c.softRows, usedRows := c.usedRows, usedGroups := c.usedGroups, fusesUsed := c.fusesUsed }

/-- The Cliffs across a reset. -/
def keptCliffs (t : Tab Cliff) : Tab Cliff := t.foldl (fun t e => tset {} t e.1 e.2.kept) []

/-- The Strandline across a module reset: both areas, numbering and what waits; cursors return to their default
(spec/17 R439, Table 17-5). -/
def Strand.acrossReset (x : Strand) : Strand := { x with cursors := [] }

/-- The Strandline across a power cycle: what had not reached flash is lost, numbering resumes at the first number not
yet reserved (spec/17 R438, R446). -/
def Strand.acrossPower (x : Strand) : Strand :=
  { flash := x.flash, next := x.reserved, reserved := x.reserved }

/-- The security engine across a reset: the flash banks; the staged image and key are lost (spec/18 R454, R460). A bank
being programmed is left invalid, as it is until its last byte is written. -/
def Security.acrossReset (x : Security) : Security :=
  { bank0 := x.bank0, bank1 := x.bank1, keyDisabled := x.keyDisabled }

/-- The stow side across a reset: the numbers of images since manufacture, and the slots (spec/16 R423, Table 16-3; log 42). -/
def Stow.acrossReset (x : Stow) : Stow := { numbers := x.numbers, nextSlot := x.nextSlot }

/-- A long operation's group after a reset: cleared, its run number kept (spec/03 R85). -/
def LongOp.cleared (o : LongOp) : LongOp := { run := o.run }

/-- The runs a module reset ends get their ABORTED entries (spec/03 R85); `byStart` says that the reset belongs to a
Landfall START, whose own run it begins. -/
def State.abortRuns (s : State) (byStart : Bool) : State :=
  let s := if s.opActive 1 && !byStart then (s.recordAborted 1).opEnd 1 5 St.aborted else s
  [2, 3, 4, 5, 6, 7].foldl (fun s r => if s.opActive r then s.recordAborted r else s) s

/-- The long operations after a module reset: the Landfall group kept, the others cleared (spec/03 R85). -/
def State.keptOps (s : State) : Tab LongOp :=
  [1, 2, 3, 4, 5, 6, 7].foldl (fun t r => tset {} t r (if r = 1 then s.op 1 else (s.op r).cleared)) []

/-! ### Power cycle and module reset -/

/-- A full power cycle (spec/01 R25, spec/18 Table 18-2): everything volatile is lost, forwarding stops, run numbers
restart; flash and fuses stay. The module waits at step 1 of the power-up order. -/
def State.powerCycle (s : State) : State :=
  let s := s.undoFlash
  { State.reset with
    pending := s.pending, out := s.out, fresh := s.fresh
    pd := resetStore keptAlways s.pd
    cliffs := keptCliffs s.cliffs
    strand := s.strand.acrossPower
    security := s.security.acrossReset
    warmRecord := s.warmRecord
    stow := s.stow.acrossReset
    power := { inputMv := s.power.inputMv, pwrgood := s.power.pwrgood, resetN := s.power.resetN, liveStraps := s.power.liveStraps } }

/-- A module reset (spec/01 R29, spec/02 R46, spec/18 Table 18-2): every island but 95 to 115 is reset; forwarding,
conversion and supervision go on, transfers under way with them (log 35); a power-down in progress is abandoned.
Islands 95 to 115 keep their clocks, their fences, the crossings among them and the ports of fabric 3, which are island 95's. Device memory keeps its bytes until the wipe of L0, before which no unit,
window or partner can read it (spec/18 R457). -/
def State.moduleReset (s : State) (byStart : Bool) : State :=
  let s := s.undoFlash.abortRuns byStart
  let kept := fun (k : Nat) => s.reg k - s.reg k % 2 ^ 95
  let t : State :=
    { State.reset with
      pending := s.pending, out := s.out, fresh := s.fresh, time := s.time
      pd := resetStore keptByModuleReset s.pd
      crossings := s.crossings.filter fun e => decide (95 ≤ e.1 / 128) && decide (95 ≤ e.1 % 128)
      ports := s.ports.filter fun e => e.1 / 4096 == 3
      mem := s.mem
      badBlocks := s.badBlocks
      poisonBlocks := s.poisonBlocks
      cliffs := keptCliffs s.cliffs
      ops := s.keptOps
      causeway := s.causeway
      strand := s.strand.acrossReset
      security := s.security.acrossReset
      warmRecord := s.warmRecord
      stow := s.stow.acrossReset
      landfall := { wanted := s.landfall.wanted, startPending := byStart }
      power :=
        { inputMv := s.power.inputMv, pwrgood := s.power.pwrgood, resetN := s.power.resetN, liveStraps := s.power.liveStraps
          stageCliffs := s.power.stageCliffs, stageLinks := s.power.stageLinks, stageHouse := s.power.stageHouse
          forwarding := s.power.forwarding, routed := s.power.routed } }
  (t.setReg Pd.islandLocked (kept Pd.islandLocked)).setReg Pd.islandFenced (kept Pd.islandFenced)

/-! ### Step 2 of the power-up order and measured boot -/

/-- The condition of step 2 of Table 01-4. -/
def State.mayBoot (s : State) : Bool := decide (38000 ≤ s.power.inputMv) && s.power.pwrgood && s.power.resetN

/-- Step 2 begins: the Harbour rail is on, the straps are sampled and latched, the measurement registers are zeroed, the
challenge is fresh, GATE_BAYS takes effect (spec/01 R27, R35, spec/18 R462, R464, spec/04 R97). -/
def State.stepTwo (s : State) : State :=
  let s := s.setReg Pd.straps s.power.liveStraps.toNat
  { s with
    power := { s.power with step := 2, booted := none, romOnly := false }
    host := { s.host with bays := s.reg Pd.gateBays }
    security := { s.security with measure := [0, 0, 0, 0, 0, 0, 0, 0], challenge := s.free % 2 ^ 256 }
    fresh := s.fresh + 1 }

/-- Register `i` extended by a digest of 64 bytes (spec/18 R462). -/
def State.extend (s : State) (i digest : Nat) : State :=
  let m := s.security.measure
  { s with security := { s.security with measure := m.set i (shake256 (natLE 64 (m.getD i 0) ++ natLE 64 digest)) } }

/-- The persistent entries with a SECURITY or MISSION lock, in index order, as bytes (spec/18 Table 18-4). -/
def State.lockedEntryBytes (s : State) : List Byte :=
  natLE 1 (s.reg Pd.readPolicy) ++ natLE 1952 (s.reg Pd.soKey) ++ natLE 4 (s.reg Pd.minSecurityVersion)

/-- The repairs held in the fuse map of every Cliff, as bytes (PD 0x3840.21 on). -/
def State.fuseBytes (s : State) : List Byte :=
  (List.range 20).flatMap fun c =>
    let n := (s.cliff c).fusesUsed.foldl (fun a e => a + e.2) 0
    (List.range n).flatMap fun i => natLE 8 (s.rd (Pd.fuseMap + c) i)

/-- Flash bank `i`. -/
def State.bank (s : State) (i : Nat) : Bank := if i = 0 then s.security.bank0 else s.security.bank1

/-- The measurements of step 2 with bank `i` booted (spec/18 Table 18-4). -/
def State.measureBoot (s : State) (i : Nat) : State :=
  let b := s.bank i
  let s := s.extend 0 Config.romDigest.toNat
  let s := (s.extend 1 b.digest.toNat).extend 1 b.headerDigest.toNat
  let s := s.extend 2 (shake256 (natLE 1 (s.reg Pd.lifeCycle) ++ natLE 4 b.secVersion ++ natLE 4 (s.reg Pd.minSecurityVersion)))
  let s := s.extend 3 (shake256 (natLE 32 Config.serial.toNat ++ natLE 2 (s.reg Pd.straps) ++ s.fuseBytes))
  s.extend 4 (shake256 s.lockedEntryBytes)

/-- Whether the boot ROM may boot a bank: marked valid, its checks of R459 passed (checks 1 to 4 are the event's
operand, log 7), its SECURITY_VERSION at least MIN_SECURITY_VERSION (spec/18 R459, R461). -/
def State.bootable (s : State) (i : Nat) (checks : Bool) : Bool :=
  (s.bank i).valid && checks && decide (s.reg Pd.minSecurityVersion ≤ (s.bank i).secVersion)

/-- The bank the boot ROM boots: the higher SECURITY_VERSION, then the one written more recently (spec/18 R461). -/
def State.bootChoice (s : State) (ok0 ok1 : Bool) : Option Nat :=
  match s.bootable 0 ok0, s.bootable 1 ok1 with
  | false, false => none
  | true, false => some 0
  | false, true => some 1
  | true, true =>
    let a := s.security.bank0
    let b := s.security.bank1
    if a.secVersion > b.secVersion ∨ (a.secVersion = b.secVersion ∧ a.written > b.written) then some 0 else some 1

/-! ### The start of a Landfall run -/

/-- The kind a run begins as: 1 cold, 2 warm. A run begun by MODE 0, by power-up, by RESET_N or by a transition has the
kind LANDFALL_MODE names (spec/15 R393, PD 0x6420.01). -/
def State.landfallKindWanted (s : State) : Nat :=
  if s.landfall.startPending ∧ s.landfall.wanted = 1 then 1
  else if s.landfall.startPending ∧ s.landfall.wanted = 2 then 2
  else if s.reg Pd.landfallMode = 0 then 2 else 1

/-- Landfall begins (step 3 of Table 01-4): L0 starts the conversion stages, every slot of every fabric is MA and the
rooms arbitrate in shared mode until READY (spec/15 R393 to R398, spec/05 R130). The run of a START keeps the number
its START returned (spec/03 R84). -/
def State.landfallBegin (s : State) : State :=
  let o := s.op 1
  let kind := s.landfallKindWanted
  let run := if s.landfall.startPending then o.run else (o.run + 1) % 2 ^ 32
  let s := s.setOp 1 { state := 2, run := run, slots := 7981 }
  let s := (s.bump Pd.landfallCount).setReg Pd.conflictOccasion 1
  let s := s.zeroUnits Pd.conflictCounters 1536
  { s with
    power := { s.power with step := 3, stageCliffs := true, stageLinks := true, stageHouse := true, forwarding := !s.islandFenced 95
                            alertLandfall := false }
    landfall := { kind := kind, wanted := s.landfall.wanted, started := s.time, phaseStart := s.time } }

end Sys2Proof.Machine
end

