-- ==== Sys2Proof/Machine/Gdp.lean ====
section
/-!
DEFINITION. The Glallic Dictionary Protocol: a request's framing, roles, the duplicate cache, forwarding, the order of
checks of R79 and the response (spec/03 R70 to R80, R469). What an entry does when it is read or written is the
argument `serve` of `State.receive`; the families of commands supply it.
-/
namespace Sys2Proof.Machine

/-- What serving a request at its entry gives: the state, the status, the response's payload, and why the response
waits, if it does. -/
structure Served where
  state   : State
  status  : BitVec 16 := 0
  payload : List Byte := []
  wait    : Option Wait := none
deriving DecidableEq, Repr

/-- What an entry does with a request that has passed checks 1 to 6 of R79. -/
abbrev Serve := Role → EntryInfo → Req → State → Served

/-- A request refused by its entry, changing nothing. -/
def refuse (s : State) (code : BitVec 16) : Served := { state := s, status := code }

/-! ### Headers and framing -/

/-- ROLE of Table 03-5A. -/
def roleCode : Role → Nat
  | .host => 0
  | .management => 1
  | .peer => 2
  | .officer => 3

/-- The role a code of Table 03-5A names. -/
def roleOfCode (n : Nat) : Role :=
  match n with
  | 0 => .host
  | 1 => .management
  | 2 => .peer
  | _ => .officer

/-- A header as bytes, its STATUS replaced (spec/03 Table 03-5A, PD 0x1820.01). -/
def headerBytes (m : GdpMsg) (status : BitVec 16) : List Byte :=
  [m.version, m.opcode] ++ natLE 2 m.seq.toNat ++ [m.target, m.source, m.flags, m.sub] ++ natLE 2 m.index.toNat
    ++ natLE 2 status.toNat ++ natLE 4 m.offset.toNat ++ natLE 2 m.length.toNat ++ [0, 0]

/-- A message as bytes (spec/03 R72). -/
def msgBytes (m : GdpMsg) : List Byte := headerBytes m m.status ++ m.payload

/-- The bytes that a SIGNED_WRITE's signature covers: the header with STATUS, FLAGS and SOURCE zero, the data, the nonce, the
module's serial number (spec/03 R74). -/
def signedBytes (m : GdpMsg) (data : List Byte) (nonce : BitVec 256) : List Byte :=
  headerBytes { m with flags := 0, source := 0 } 0 ++ data ++ natLE 32 nonce.toNat ++ natLE 32 Config.serial.toNat

/-- The framing faults of R469 and the header values that Tables 03-5A and 03-6 do not permit (log 10). -/
def badMessage (m : GdpMsg) : Bool :=
  let n := m.payload.length
  let len := m.length.toNat
  m.version != 1 || m.source != 0xFF || m.status != 0 || !(decide (m.target.toNat < 64) || m.target == 0xFF) ||
  match m.opcode.toNat with
  | 1 => n != 0 || decide (4096 < len)
  | 2 => n != len || decide (4096 < len)
  | 3 => n != 0 || len != 0 || m.offset != 0
  | 4 => n != 0 || len != 0 || m.offset != 0
  | 5 => n != len || decide (len < 3341) || decide (4096 < len)
  | _ => true

/-- A message as a request: a SIGNED_WRITE's payload split into data and nonce (spec/03 Table 03-6). -/
def msgToReq (m : GdpMsg) (path : GdpPath) (verifies : Bool) : Req :=
  let n := m.payload.length - 3341
  { path := path, hdr := { m with payload := [] }
    data := if m.opcode = 5 then m.payload.take n else m.payload
    auth := if m.opcode = 5 then .signed (BitVec.ofNat 256 (leNat ((m.payload.drop n).take 32))) verifies else .unsigned }

/-- The request of a command that names its entry: a WRITE (or SIGNED_WRITE) to this module of `data` at `offset`, or,
with opcode 1, a READ of `length` bytes. -/
def ownReq (o : Origin) (opcode key offset length : Nat) (data : List Byte) (auth : Auth) : Req :=
  { path := o.path, data := data, auth := auth
    hdr := { version := 1, opcode := BitVec.ofNat 8 opcode, seq := o.seq, target := 0xFF, source := 0xFF, flags := 0
             sub := BitVec.ofNat 8 key, index := BitVec.ofNat 16 (key / 256), status := 0
             offset := BitVec.ofNat 32 offset, length := BitVec.ofNat 16 length, payload := [] } }

/-- A WRITE of a command that names its entry. -/
def ownWrite (o : Origin) (key offset : Nat) (data : List Byte) (auth : Auth := .unsigned) : Req :=
  match auth with
  | .unsigned => ownReq o 2 key offset data.length data auth
  | .signed _ _ => ownReq o 5 key offset (data.length + 3341) data auth

/-- The entry a request names. -/
def Req.key (r : Req) : Nat := msgKey r.hdr

/-- Whether a request reads. -/
def Req.isRead (r : Req) : Bool := r.hdr.opcode == 1

/-- The byte offset or record number of a request. -/
def Req.offset (r : Req) : Nat := r.hdr.offset.toNat

/-- The data of a write as a number. -/
def Req.value (r : Req) : Nat := leNat r.data

/-! ### Roles and sources -/

/-- The role a path confers; none where the datagram is discarded (spec/03 Table 03-4). -/
def pathRole : GdpPath → Option Role
  | .mailbox => some .host
  | .management _ _ linkLocal hop => if linkLocal && hop == 255 then some .management else none
  | .causeway _ role forwarded => some (if forwarded then role else .peer)
  | .testPort => some .management
  | .packet _ _ => none

/-- The source of a path for the duplicate cache and the cursors (spec/03 R80); the test port counts as a mailbox of
its own, address and port 0 (log 11). -/
def pathSource : GdpPath → Source
  | .mailbox => .mailbox
  | .management a p _ _ => .management a p
  | .causeway o role forwarded => .origin o (if forwarded then role else .peer)
  | .testPort => .management 0 0
  | .packet p _ => .origin p .peer

/-- Whether two requests use one path, for the limit of R78. -/
def samePath : GdpPath → GdpPath → Bool
  | .mailbox, .mailbox => true
  | .management _ _ _ _, .management _ _ _ _ => true
  | .causeway _ _ _, .causeway _ _ _ => true
  | .testPort, .testPort => true
  | _, _ => false

/-- Whether a request entered through another module (FLAGS [1]). -/
def isForwardedPath : GdpPath → Bool
  | .causeway _ _ forwarded => forwarded
  | _ => false

/-- The count of requests received on a path (PD 0x1810.01 to .03). -/
def State.countRequest (s : State) : GdpPath → State
  | .mailbox => s.bump Pd.requests
  | .management _ _ _ _ => s.bump (Pd.requests + 1)
  | .causeway _ _ _ => s.bump (Pd.requests + 2)
  | .testPort => s
  | .packet _ _ => s

/-! ### Responses -/

/-- Codes whose responses are not kept (spec/03 R80). -/
def notKept (c : BitVec 16) : Bool := c == St.unreachable || c == St.timeout || c == St.queueFull

/-- The cache with a reply added: the last 32 of its source stay (spec/03 R80). -/
def cacheAdd (cache : List Reply) (r : Reply) : List Reply :=
  let mine := cache.filter (fun x => x.source == r.source)
  let cache := match mine with
    | oldest :: _ => if 32 ≤ mine.length then cache.erase oldest else cache
    | [] => cache
  cache ++ [r]

/-- FLAGS of a response: FORWARDED where the request entered through another module, and on the Causeway its ROLE (spec/03
Table 03-5A). -/
def responseFlags : GdpPath → BitVec 8
  | .causeway _ role forwarded => BitVec.ofNat 8 (2 * bit01 forwarded + 4 * roleCode role)
  | _ => 0

/-- The response to a request: its header with the opcode's bit [7] set, this module as SOURCE, the status and the length of
the payload; TARGET, SUB, INDEX and OFFSET echo the request's (spec/03 R72; log 160). -/
def State.responseTo (s : State) (r : Req) (status : BitVec 16) (payload : List Byte) : GdpMsg :=
  { r.hdr with
    opcode := r.hdr.opcode ||| 0x80, source := BitVec.ofNat 8 s.position, flags := responseFlags r.path, status := status
    length := BitVec.ofNat 16 payload.length, payload := payload }

/-- The CXL success code, with which mailbox command 0xC400 completes whenever it returns a response (spec/03 R75). -/
def cxlSuccess : Nat := 0

/-- A response on its path: on the mailbox the output payload of command 0xC400, followed by vector 4; on the Causeway a
message back to the module it came from (spec/03 R75, spec/04 R107). -/
def State.sendMsg (s : State) (path : GdpPath) (m : GdpMsg) : State :=
  let s := s.emit (.gdpReply path m)
  match path with
  | .mailbox => (s.emit (.mailbox 0xC400 cxlSuccess (msgBytes m))).vector 4
  | .causeway origin _ _ => s.sendGdp origin ((m.flags.toNat / 4) % 4) (msgBytes m)
  | _ => s

/-- A response sent, and kept among the last 32 of its source (spec/03 R80). -/
def State.send (s : State) (r : Req) (m : GdpMsg) : State :=
  let s := s.sendMsg r.path m
  if notKept m.status then s
  else { s with gdp := { s.gdp with cache := cacheAdd s.gdp.cache { source := pathSource r.path, seq := r.hdr.seq, msg := m } } }

/-- A kept response sent again, with REPLAYED (spec/03 R80). -/
def State.replay (s : State) (path : GdpPath) (x : Reply) : State :=
  (s.bump Pd.replays).sendMsg path { x.msg with flags := x.msg.flags ||| 1 }

/-- A refusal counted and copied to LAST_REFUSAL (spec/03 R79, PD 0x1810.04, 0x1820.01). -/
def State.noteRefusal (s : State) (r : Req) (status : BitVec 16) : State :=
  (s.bump Pd.refused).setReg Pd.lastRefusal (leNat (headerBytes r.hdr status ++ natLE 4 s.time))

/-- The response to a request served here. -/
def State.respond (s : State) (r : Req) (status : BitVec 16) (payload : List Byte) : State :=
  let s := if isFailure status then s.noteRefusal r status else s
  s.send r (s.responseTo r status payload)

/-! ### Requests still unanswered -/

/-- Requests outstanding on a path (spec/03 R78). -/
def State.outstanding (s : State) (p : GdpPath) : Nat := (s.gdp.inflight.filter fun x => samePath x.req.path p).length

/-- A request still unanswered with this source and SEQUENCE. -/
def State.unanswered (s : State) (src : Source) (seq : BitVec 16) : Option Pending :=
  s.gdp.inflight.find? fun x => pathSource x.req.path == src && x.req.hdr.seq == seq

/-- A request put among the unanswered. -/
def State.await (s : State) (r : Req) (w : Wait) (before : Tab Nat) : State :=
  { s with gdp := { s.gdp with inflight := s.gdp.inflight ++ [{ req := r, wait := w, before := before }] } }

/-- A request no longer unanswered. -/
def State.unawait (s : State) (p : Pending) : State :=
  { s with gdp := { s.gdp with inflight := s.gdp.inflight.erase p } }

/-- Whether a request waits for another module. -/
def Wait.isForwarded : Wait → Bool
  | .forwarded _ => true
  | _ => false

/-- A waiting request answered. -/
def State.answer (s : State) (p : Pending) (status : BitVec 16) (payload : List Byte := []) : State :=
  (s.unawait p).respond p.req status payload

/-! ### Access, locks, types and offsets (checks 5 to 8 of R79) -/

/-- An entry's access code for a role (spec/03 R64). -/
def EntryInfo.access (e : EntryInfo) : Role → Nat
  | .host => e.accHost
  | .management => e.accMgmt
  | .peer => e.accPeer
  | .officer => e.accSO

/-- Check 5 (spec/03 R71, Table 00-3): a code of 0 allows nothing; RO and RC allow no write. -/
def accessDenied (code : Nat) (read : Bool) : Bool := code == 0 || (!read && (code == 1 || code == 5))

/-- Check 6 (spec/03 Table 03-2): the locks that forbid a write in life-cycle state `lc`. -/
def lockedOut (lock lc : Nat) (signed : Bool) : Bool :=
  match lock with
  | 1 => lc != 0
  | 2 => decide (2 ≤ lc)
  | 3 => !signed
  | _ => false

/-- The records a record-addressed entry holds now: RESULTS holds RESULT_SLOTS, a fuse map its repairs (spec/03 R86,
spec/06 Table 06-9). -/
def State.recordCount (s : State) (e : EntryInfo) (key : Nat) : Nat :=
  match opRowOf key with
  | some r => (s.op r).slots
  | none => if isFuse key then (s.cliff (key - Pd.fuseMap)).fusesUsed.foldl (fun a x => a + x.2) 0 else e.count

/-- The bytes in which an entry is written whole: a START (spec/03 R82), and the tables whose words or records are
written one at a time (spec/05 R116, spec/11 R306, spec/13 R350, spec/14 R376, spec/16 R419, spec/18 R462). -/
def wholeWrite (e : EntryInfo) : Option Nat :=
  if [1, 2, 3, 4, 5, 6, 7].any fun r => e.key == opBase r + 1 then some e.size
  else if e.key = Pd.roomOwner ∨ e.key = Pd.counterState then some 8
  else if e.key = Pd.groupTable ∨ e.key = Pd.stageTable then some 128
  else if e.key = Pd.stowConfig then some 256
  else if e.key = Pd.measurementExtend then some 64
  else none

/-- Check 7: TYPE_MISMATCH (spec/03 R66, R79, R82). Type codes 6 and above 6 are STRING and BLOB. -/
def typeMismatch (e : EntryInfo) (read : Bool) (offset len : Nat) : Bool :=
  if e.records then decide (e.size < len)
  else if e.type = 7 then !read && match wholeWrite e with
    | some n => len != n || offset % n != 0 || (n == e.size && offset != 0)
    | none => len == 0
  else if read then decide (offset ≠ 0) || decide (len ≠ 0 ∧ len ≠ e.size)
  else decide (offset ≠ 0) || len != e.size

/-- The bytes a READ of a BLOB asks for: 0 means the rest from OFFSET, at most 4,096; of a record, its first bytes, 0 being all
of them (spec/03 Table 03-5A; log 45). -/
def readLength (e : EntryInfo) (offset len : Nat) : Nat :=
  if e.records then (if len = 0 then e.size else len)
  else if e.type = 7 then (if len = 0 then min 4096 (e.size - offset) else len)
  else e.size

/-- Check 8: BAD_OFFSET (spec/03 R66, R79). -/
def State.badOffset (s : State) (e : EntryInfo) (key : Nat) (offset len : Nat) : Bool :=
  if e.records then decide (s.recordCount e key ≤ offset)
  else e.type == 7 && (decide (e.size ≤ offset) || decide (e.size < offset + len))

/-! ### Signed writes (check 4) -/

/-- A SIGNED_WRITE reaches check 4: the security engine is asked about the bytes its signature covers, `verifies` being its
answer (log 7); the challenge is consumed whatever comes of it; the answer is whether the write is authentic.
Under a staged return key that matches, a write to LIFECYCLE_REQUEST is verified under it and clears it; without a
security officer key every other SIGNED_WRITE fails (spec/18 R454, R463, R464). -/
def State.authenticate (s : State) (r : Req) (nonce : BitVec 256) (verifies : Bool) : State × Bool :=
  let key := r.key
  let s := s.emit (.signatureCheck (signedBytes r.hdr r.data nonce))
  let fresh := { s with security := { s.security with challenge := s.free % 2 ^ 256 }, fresh := s.fresh + 1 }
  let underReturn := key == Pd.lifecycleRequest && s.security.returnOk
  let ok := verifies && nonce.toNat == s.security.challenge && (underReturn || s.reg Pd.soKey != 0)
  let t := if key = Pd.lifecycleRequest then
      { fresh with security := { fresh.security with returnKey := [], returnBytes := 0, returnOk := false } }
    else fresh
  (t, ok)

/-! ### Serving a request here -/

/-- The payload of a DESCRIBE response (spec/03 Table 03-6). -/
def State.describeBytes (s : State) (e : EntryInfo) (key : Nat) : List Byte :=
  [e.type, e.lock, e.accHost, e.accMgmt, e.accPeer, e.accSO, if e.records then 1 else 0, if e.persistent then 1 else 0].map
      (BitVec.ofNat 8)
    ++ natLE 4 e.size ++ natLE 4 (if e.records then s.recordCount e key else 0)

/-- The first existing entry after `key`, which exists itself (spec/03 R64, Table 03-6). -/
def nextEntryAfter (key : Nat) : Option Nat :=
  (catalogue.find? fun e => decide (key + 1 < e.key + e.subs)).map fun e => max e.key (key + 1)

/-- Whether the boot ROM answers for an entry: those at 0x1000 and 0x7430 (spec/18 R461). -/
def romEntry (key : Nat) : Bool := key / 256 == 0x1000 || key / 256 == 0x7430

/-- The cursor of a source. -/
def State.cursorOf (s : State) (src : Source) : Option StrandCursor := s.strand.cursors.find? fun c => c.source == src

/-- What READ_POLICY 1 denies: an unsigned write of CURSOR, and a read of WINDOW whose source has not set its cursor by a
signed write within the last 10 s (spec/17 R448). -/
def State.policyDenies (s : State) (r : Req) : Bool :=
  s.reg Pd.readPolicy == 1 &&
    if r.isRead then
      r.key == Pd.window && match (s.cursorOf (pathSource r.path)).bind (·.signed) with
        | some t => decide (t + 10000000 < s.time)
        | none => true
    else r.key == Pd.cursor && r.auth == .unsigned

/-- Checks 5 to 8 of R79, in order: the status of the first that fails. -/
def State.entryChecks (s : State) (role : Role) (signed : Bool) (e : EntryInfo) (r : Req) : Option (BitVec 16) :=
  let len := if r.isRead then r.hdr.length.toNat else r.data.length
  let code := e.access role
  if accessDenied code r.isRead || s.policyDenies r then some St.accessDenied
  else if !r.isRead && lockedOut e.lock (s.reg Pd.lifeCycle) signed then some St.locked
  else if typeMismatch e r.isRead r.offset len then some St.typeMismatch
  else if s.badOffset e r.key r.offset (if r.isRead then max 1 len else len) then some St.badOffset
  else none

/-- The entry's own work, its response sent or put off; a write of a persistent entry is answered once it is in flash
(spec/03 R67). -/
def State.conclude (s : State) (e : EntryInfo) (r : Req) (x : Served) : State :=
  let before := s.pd.filter fun y => y.1 / 16777216 == r.key
  match x.wait with
  | some w => x.state.await r w before
  | none =>
    if e.persistent && !r.isRead && !isFailure x.status then x.state.await r .flash before
    else x.state.respond r x.status x.payload

/-- Checks 3 to 10 of R79 and the entry's own work. -/
def State.serveLocal (s : State) (serve : Serve) (role : Role) (r : Req) : State :=
  let key := r.key
  match entryInfo key with
    | none => s.respond r St.noEntry []
    | some e =>
      if r.hdr.opcode = 4 then
        match nextEntryAfter key with
        | none => s.respond r St.noEntry []
        | some k => s.respond r St.ok (natLE 2 (k / 256) ++ natLE 1 k)
      else if s.power.romOnly && !romEntry key then s.respond r St.noEntry []
      else if r.hdr.opcode = 3 then s.respond r St.ok (s.describeBytes e key)
      else match r.auth with
        | .unsigned =>
          match s.entryChecks role false e r with
          | some c => s.respond r c []
          | none => s.conclude e r (serve role e r s)
        | .signed nonce verifies =>
          let a := s.authenticate r nonce verifies
          if !a.2 then (a.1.bump Pd.authFailures).respond r St.authFailed []
          else match a.1.entryChecks .officer true e r with
            | some c => a.1.respond r c []
            | none => a.1.conclude e r (serve .officer e r a.1)

/-- A request that names another module is sent there, or answered UNREACHABLE (spec/03 R75, R76). -/
def State.forward (s : State) (role : Role) (r : Req) (payload : List Byte) : State :=
  let t := r.hdr.target.toNat
  if s.reaches t then
    let m := { r.hdr with flags := BitVec.ofNat 8 (2 + 4 * roleCode role), payload := payload }
    (((s.bump Pd.forwarded).emit (.gdpForward t role m)).sendGdp t (roleCode role) (msgBytes m)).await r (.forwarded t) []
  else s.respond r St.unreachable []

/-- Whether a path is answered: the firmware runs on every path, the boot ROM alone only on the management network;
nothing is answered while the module is held in reset or boots; a tripped module has no Causeway (spec/01 Table 01-4,
R43, spec/18 R461). -/
def State.pathOpen (s : State) (p : GdpPath) : Bool :=
  match p with
  | .management _ _ _ _ => s.power.romOnly || decide (3 ≤ s.power.step)
  | .causeway _ _ _ => decide (3 ≤ s.power.step) && s.reg Pd.powerState != 3
  | .mailbox => decide (3 ≤ s.power.step)
  | .testPort => decide (3 ≤ s.power.step) && s.security.tapActive
  | .packet _ _ => false

/-- A request received: counted, given its role, matched against the duplicate cache and the unanswered, checked for
framing, then forwarded or served (spec/03 R70, R78 to R80). A datagram discarded for its source or hop limit has been received, and
counts in PD 0x1810.02 as well as in 0x1810.04: the spec does not say (DESIGN CHOICE, log 187). `payload` is what is forwarded. -/
def State.receive (s : State) (serve : Serve) (r : Req) (bad : Bool) (payload : List Byte) : State :=
  if !s.pathOpen r.path then s
  else match pathRole r.path with
    | none => (s.countRequest r.path).bump Pd.refused
    | some role =>
      let s := s.countRequest r.path
      let src := pathSource r.path
      match s.gdp.cache.find? fun x => x.source == src && x.seq == r.hdr.seq with
      | some x => s.replay r.path x
      | none =>
        if (s.unanswered src r.hdr.seq).isSome then s.bump Pd.refused
        else if 64 ≤ s.outstanding r.path then s.respond r St.queueFull []
        else if bad then s.respond r St.badMessage []
        else if r.hdr.target ≠ 0xFF ∧ r.hdr.target.toNat ≠ s.position then s.forward role r payload
        else s.serveLocal serve role r

/-- A GDP message received. -/
def State.receiveMsg (s : State) (serve : Serve) (path : GdpPath) (m : GdpMsg) (verifies : Bool) : State :=
  s.receive serve (msgToReq m path verifies) (badMessage m) m.payload

/-- A request of a command that names its entry. -/
def State.receiveOwn (s : State) (serve : Serve) (r : Req) : State := s.receive serve r false r.data

/-! ### Responses from other modules -/

/-- The unanswered request that a response answers: same target, SEQUENCE and role (spec/03 R76, R80). -/
def State.forwardedTo (s : State) (target : Nat) (seq : BitVec 16) (role : Option Role) : Option Pending :=
  s.gdp.inflight.find? fun x =>
    decide (x.wait = .forwarded target) && x.req.hdr.seq == seq &&
      (role.isNone || pathRole x.req.path == role)

/-- A forwarded request's response returned to its requester (spec/03 R75). -/
def State.relay (s : State) (m : GdpMsg) : State :=
  match s.forwardedTo m.source.toNat m.seq (some (roleOfCode ((m.flags.toNat / 4) % 4))) with
  | none => s
  | some p => (s.unawait p).send p.req { m with flags := (m.flags &&& 1) ||| 2 ||| responseFlags p.req.path }

end Sys2Proof.Machine
end

