-- ==== Sys2Proof/Machine/House.lean ====
section
/-!
DEFINITION. The House, chapter 05: ownership words and handovers, room queues and arbitration, transposes, wiping and
fencing.
-/
namespace Sys2Proof.Machine

/-! ### Ownership words (spec/05 Table 05-1) -/

/-- The unit that a kind and a number name; none where they are not permitted. -/
def ownerOfCode (kind unit : Nat) : Option Owner :=
  match kind with
  | 0 => if unit = 0 then some .harbour else none
  | 1 => if unit < 64 then some (.engine unit) else none
  | 2 => if unit = 0 then some .feeder else none
  | 3 => if unit = 0 then some .estuary else none
  | _ => none

/-- OWNER_KIND of a unit. -/
def ownerKind : Owner → Nat
  | .harbour => 0
  | .engine _ => 1
  | .feeder => 2
  | .estuary => 3

/-- OWNER_UNIT of a unit. -/
def ownerUnit : Owner → Nat
  | .engine n => n
  | _ => 0

/-- The owner an ownership word names. -/
def wordOwner (w : Nat) : Option Owner := ownerOfCode (bits w 24 3) (bits w 16 8)

/-- The reader it names, where READER_VALID is 1. -/
def wordReader (w : Nat) : Option Owner := if w.testBit 15 then ownerOfCode (bits w 8 3) (bits w 0 8) else none

/-- The PARTITION it names. -/
def wordPartition (w : Nat) : Nat := bits w 48 4

/-- The owner, reader and partition fields of a word; the reader's codes are kept whatever READER_VALID says. -/
def wordFields (w : Nat) : Nat :=
  bits w 48 4 * 2 ^ 48 + bits w 24 3 * 2 ^ 24 + bits w 16 8 * 2 ^ 16 + bits w 15 1 * 2 ^ 15 + bits w 8 3 * 2 ^ 8 + bits w 0 8

/-- An ownership word from its fields: partition, owner, reader, generation. -/
def makeWord (part : Nat) (owner : Owner) (reader : Option Owner) (gen : Nat) : Nat :=
  part * 2 ^ 48 + gen * 2 ^ 32 + ownerKind owner * 2 ^ 24 + ownerUnit owner * 2 ^ 16
    + match reader with
      | some u => 2 ^ 15 + ownerKind u * 2 ^ 8 + ownerUnit u
      | none => 0

/-- Room `r`'s ownership word. -/
def State.ownerWord (s : State) (r : Nat) : Nat := s.rd Pd.roomOwner r

/-- Room `r`'s ownership word set. -/
def State.setOwnerWord (s : State) (r w : Nat) : State := s.wr Pd.roomOwner r w

/-- Room `r`'s owner; a word that names none (which no rule writes) counts as the Harbour's. -/
def State.roomOwnerOf (s : State) (r : Nat) : Owner := (wordOwner (s.ownerWord r)).getD .harbour

/-- Room `r`'s reader. -/
def State.roomReaderOf (s : State) (r : Nat) : Option Owner := wordReader (s.ownerWord r)

/-- Whether phase L0 of Landfall runs, which wipes every room (spec/05 R132, spec/15 R397). -/
def State.inL0 (s : State) : Bool := (s.op 1).state == 2 && (s.op 1).phase == 0

/-- PENDING, WIPING and SHADOW of room `r`. -/
def State.roomPending (s : State) (r : Nat) : Bool := (s.ownerWord r).testBit 63
def State.roomWiping (s : State) (r : Nat) : Bool := (s.ownerWord r).testBit 60 || s.inL0
def State.roomShadow (s : State) (r : Nat) : Bool := (s.ownerWord r).testBit 61

/-- The room that holds a device physical address, or none outside the House (spec/05 R110). -/
def roomOfAddr (a : Nat) : Option Nat :=
  if 0x0C0000000000 ≤ a ∧ a < 0x0C0018000000 then some ((a - 0x0C0000000000) / 0x40000) else none

/-- The device physical address of an offset in a room. -/
def roomAddr (r offset : Nat) : Nat := 0x0C0000000000 + r * 0x40000 + offset

/-- Whether a unit is fenced: a Tideway engine, the Headland (island 1), the Estuary (island 94) (spec/02 R48). -/
def State.unitFenced (s : State) : Owner → Bool
  | .harbour => false
  | .engine n => s.engineFenced n
  | .feeder => s.islandFenced 1
  | .estuary => s.islandFenced 94

/-! ### Refusals (spec/05 R120) -/

/-- A request refused as from a non-owner: counted, copied to LAST_NOT_OWNER, and recorded where it is the first at the
room since its last handover or reset. -/
def State.noteNotOwner (s : State) (r requester : Nat) (principal : Option Owner) (write : Bool) : State :=
  let p := principal.getD .harbour
  let rec_ := natLE 2 r ++ natLE 1 requester ++ natLE 1 (ownerKind p) ++ natLE 1 (ownerUnit p)
    ++ natLE 3 (if write then 1 else 0) ++ natLE 8 s.time
  let s := (s.bump Pd.notOwnerCount).setReg Pd.lastNotOwner (leNat rec_)
  if (s.room r).refusalSeen then s
  else (s.setRoom r { s.room r with refusalSeen := true }).record 0x02 St.notOwner 3 r rec_

/-! ### Handovers (spec/05 R116 to R119) -/

/-- The checks of R116, in order; `none` where the write passes. -/
def State.handoverCheck (s : State) (r w : Nat) : Option (BitVec 16) :=
  let owner := wordOwner w
  let reader := wordReader w
  let readerCodes := ownerOfCode (bits w 8 3) (bits w 0 8)
  let fencedUnit (u : Option Owner) : Bool := match u with
    | some u => s.unitFenced u
    | none => false
  if s.roomFenced r || fencedUnit owner || fencedUnit reader then some St.fenced
  else if owner.isNone || readerCodes.isNone || (w.testBit 15 && (decide (r < 1504) || reader == owner)) then some St.invalidValue
  else if s.roomPending r || s.roomWiping r then some St.busy
  else if s.roomShadow r then some St.conflict
  else none

/-- Whether a word names the room's current owner, reader and partition. -/
def State.sameOwnership (s : State) (r w : Nat) : Bool :=
  wordPartition w == wordPartition (s.ownerWord r) && wordOwner w == wordOwner (s.ownerWord r)
    && wordReader w == wordReader (s.ownerWord r)

/-- The handover ends: the new owner, reader and partition are written, GENERATION advances, PENDING clears; SHADOW is as
the word has it, which a task sequencer alone sets (spec/11 R320, R322). -/
def State.completeHandover (s : State) (r w : Nat) : State :=
  let gen := (bits (s.ownerWord r) 32 8 + 1) % 256
  let s := (s.setOwnerWord r (wordFields w + gen * 2 ^ 32 + bits w 61 1 * 2 ^ 61)).bump Pd.handovers
  s.setRoom r { s.room r with newWord := none, marker := false, readerMarker := false, refusalSeen := false }

/-- The handover begins: PENDING is set and drain markers go to the outgoing owner and to a reader that is replaced; a
fenced owner or reader counts as drained at once (R117). -/
def State.beginHandover (s : State) (r w : Nat) (by_ : HandoverBy) : State :=
  let owner := s.roomOwnerOf r
  let reader := s.roomReaderOf r
  let ownerDrains := !s.unitFenced owner
  let readerDrains := match reader with
    | some u => decide (wordReader w ≠ reader) && !s.unitFenced u
    | none => false
  if !ownerDrains && !readerDrains then s.completeHandover r w
  else
    let s := s.setOwnerWord r (s.ownerWord r ||| 2 ^ 63)
    let s := s.setRoom r { s.room r with
      newWord := some (BitVec.ofNat 64 w), marker := ownerDrains, readerMarker := readerDrains, by_ := by_ }
    let s := if ownerDrains then s.emit (.drainMarker r owner false) else s
    if readerDrains then s.emit (.drainMarker r (reader.getD .harbour) true) else s

/-- A dictionary write of an ownership word: 8 bytes at a multiple of 8 (R116). -/
def serveRoomOwner : Serve := fun _ _ q s =>
  let r := q.offset / 8
  let w := wordFields q.value
  if q.data.length ≠ 8 ∨ q.offset % 8 ≠ 0 then refuse s St.typeMismatch
  else match s.handoverCheck r w with
    | some c => refuse s c
    | none =>
      if s.sameOwnership r w then { state := s }
      else
        let t := s.beginHandover r w .dictionary
        if t.roomPending r then { state := t, wait := some (.handover r) } else { state := t }

/-- ROOM_OWNER. -/
def execRoomOwner (o : Origin) (room : Nat) (word : BitVec 64) (s : State) : Res :=
  .next (s.receiveOwn serveRoomOwner (ownWrite o Pd.roomOwner (8 * room) (natLE 8 word.toNat)))

/-- Requests whose responses wait for room `r`'s handover, answered. -/
def State.answerHandover (s : State) (r : Nat) (status : BitVec 16) : State :=
  (s.gdp.inflight.filter fun p => decide (p.wait = .handover r)).foldl (fun s p => s.answer p status) s

/-- Whether a unit has issued requests to a room that still wait there (R117). -/
def State.standsAt (s : State) (r : Nat) (u : Owner) : Bool :=
  let x := s.room r
  (x.ownerQ ++ x.dmaQ ++ x.portBQ).any fun q => q.principal == some u

/-- Whether an engine has line reads for a room that still wait at its port (spec/09 R226). -/
def State.headsFor (s : State) (r : Nat) (u : Owner) : Bool :=
  match u with
  | .engine n => ((s.unitPort (n + 1)).lines ++ (s.unitPort (n + 1)).asked).any fun l => roomOfAddr (128 * l) == some r
  | _ => false

/-- Whether a marker can return: it is out, and every request its unit issued to the room before it has been served. -/
def State.markerReady (s : State) (r : Nat) (reader : Bool) : Bool :=
  if reader then (s.room r).readerMarker && !(s.roomReaderOf r).any fun u => s.standsAt r u || s.headsFor r u
  else (s.room r).marker && !s.standsAt r (s.roomOwnerOf r) && !s.headsFor r (s.roomOwnerOf r)

/-- A marker has returned; when none is out the handover ends and the dictionary write that began it is answered. -/
def State.markerReturn (s : State) (r : Nat) (reader : Bool) : State :=
  let x := s.room r
  let x := if reader then { x with readerMarker := false } else { x with marker := false }
  let s := s.setRoom r x
  match x.newWord with
  | some w => if x.marker || x.readerMarker then s else (s.completeHandover r w.toNat).answerHandover r St.ok
  | none => s

/-- HANDOVER_RESPONSE_LIMIT: a dictionary handover still draining at the limit of R78 is answered BUSY (R117). -/
def execHandoverResponseLimit (room : Nat) (s : State) : Res := .next (s.answerHandover room St.busy)

/-! ### Fencing (spec/05 R112, R117, R133; spec/15 R408) -/

/-- A request answered by its room: the reply goes to its requester; a unit's own line has arrived, and its House request slot is
free (spec/09 R226). -/
def State.roomAnswer (s : State) (r : Nat) (q : RoomReq) (code : BitVec 16) (data : List Byte) : State :=
  if q.own then
    let p := s.unitPort q.tag
    s.setUnitPort q.tag { p with sent := p.sent.erase (roomAddr r q.offset / 128) }
  else s.emit (.roomReply r q.tag code data)

/-- Every request in a room's queues refused with a code. -/
def State.flushRoom (s : State) (r : Nat) (code : BitVec 16) : State :=
  let x := s.room r
  let s := (x.ownerQ ++ x.dmaQ ++ x.portBQ).foldl (fun s q => s.roomAnswer r q code []) s
  s.setRoom r { s.room r with ownerQ := [], dmaQ := [], portBQ := [] }

/-- The announcement of a unit fenced after READY: one FAULT entry, vector 5, FENCED_SINCE_READY (spec/15 R408). -/
def State.announceFence (s : State) (code : BitVec 16) (kind unit : Nat) (failure : List Byte) : State :=
  (((s.record 0x01 code kind unit failure).vector 5)).setReg Pd.fencedSinceReady ((s.reg Pd.fencedSinceReady + 1) % 2 ^ 32)

/-- Room `r` fenced: a pending handover ends with FENCED and waiting requests are refused. -/
def State.fenceRoom (s : State) (r : Nat) : State :=
  let w := s.ownerWord r
  let s := s.setOwnerWord r (setBits (setBits w 63 1 0) 60 1 0 ||| 2 ^ 62)
  let s := (s.flushRoom r St.fenced).answerHandover r St.fenced
  s.setRoom r { s.room r with newWord := none, marker := false, readerMarker := false }

/-- Room `r` fails by itself; after READY the fence is announced. -/
def State.roomFails (s : State) (r : Nat) : State :=
  if s.roomFenced r then s
  else
    let t := s.fenceRoom r
    if s.isReady then t.announceFence St.fenced 3 r [] else t

/-! ### Queues and arbitration (spec/05 R113, R118, R120 to R126, R130, R131) -/

/-- What a room does with a request when it looks at it. -/
inductive Verdict where
  | serve | refuse | wait
deriving DecidableEq, Repr

/-- The verdict on a waiting request: scrub passes no ownership check; the incoming owner or reader of a pending handover waits;
what the outgoing owner or reader had issued before its marker is served (R117, R118). -/
def State.roomVerdict (s : State) (r : Nat) (portB : Bool) (q : RoomReq) : Verdict :=
  match q.principal with
  | none => .serve
  | some p =>
    let x := s.room r
    let incoming := match x.newWord with
      | some w => if portB then decide (wordReader w.toNat = some p) else decide (wordOwner w.toNat = some p)
      | none => false
    if s.roomPending r && incoming then .wait
    else if portB then
      if decide (s.roomReaderOf r = some p) && !q.write && !(s.roomPending r && !x.readerMarker && x.newWord.isSome
          && decide ((x.newWord.map fun w => wordReader w.toNat) ≠ some (some p))) then .serve else .refuse
    else if decide (s.roomOwnerOf r = p) && !(s.roomPending r && !x.marker) then .serve
    else .refuse

/-- Whether a unit is the incoming owner of a room. -/
def State.incomingOwner (s : State) (r : Nat) (u : Option Owner) : Bool :=
  u.isSome && (s.room r).newWord.any fun w => wordOwner w.toNat == u

/-- Whether a request goes to a Landing room's second port: a read whose principal is the reader, now or incoming, and not the
incoming owner, whose requests wait at port A (R118, R123, Table 05-3). -/
def State.usesPortB (s : State) (r : Nat) (q : RoomReq) : Bool :=
  decide (1504 ≤ r) && !q.write && q.principal.isSome && decide (q.principal ≠ some (s.roomOwnerOf r))
    && !s.incomingOwner r q.principal && (decide (s.roomReaderOf r = q.principal)
      || match (s.room r).newWord with
         | some w => decide (wordReader w.toNat = q.principal)
         | none => false)

/-- Whether a request reaches the room behind the drain marker of the unit it is for: the outgoing owner's, or an outgoing
reader's at the second port (R118; log 14). -/
def State.afterMarker (s : State) (r : Nat) (q : RoomReq) : Bool :=
  let x := s.room r
  s.roomPending r && q.principal.isSome && !s.incomingOwner r q.principal
    && ((x.newWord.isSome && q.principal == some (s.roomOwnerOf r) && !s.unitFenced (s.roomOwnerOf r))
      || (s.usesPortB r q && q.principal == s.roomReaderOf r && x.newWord.any fun w => wordReader w.toNat != q.principal))

/-- Whether the House has power (spec/01 R28, R43). -/
def State.unpowered (s : State) : Bool := decide (2 ≤ s.reg Pd.powerState)

/-- Every request of a list refused with NOT_OWNER; a unit's own line is noted by the beat that meets the refusal. -/
def State.refuseAll (s : State) (r : Nat) : List RoomReq → State
  | [] => s
  | q :: qs =>
    State.refuseAll ((if q.own then s else s.noteNotOwner r q.requester q.principal q.write).roomAnswer r q St.notOwner []) r qs

/-- A request at its room: it enters its queue of 16 while that has room; at a fenced room it is refused, as it is behind its
unit's drain marker; and whether the room took it. -/
def State.enterRoom (s : State) (room : Nat) (req : RoomReq) : State × Bool :=
  let x := s.room room
  if s.unpowered then (s, false)
  else if s.roomFenced room then (s.roomAnswer room req St.fenced [], true)
  else if s.afterMarker room req then (s.refuseAll room [req], true)
  else if s.usesPortB room req then
    if x.portBQ.length < 16 then (s.setRoom room { x with portBQ := x.portBQ ++ [req] }, true) else (s, false)
  else match req.cls with
    | .owner => if x.ownerQ.length < 16 then (s.setRoom room { x with ownerQ := x.ownerQ ++ [req] }, true) else (s, false)
    | .dma => if x.dmaQ.length < 16 then (s.setRoom room { x with dmaQ := x.dmaQ ++ [req] }, true) else (s, false)

/-- ROOM_REQUEST: the request has crossed the House crossbar. One that finds its queue full stays there, and nothing changes
(R113); rooms without power take nothing. -/
def execRoomRequest (room : Nat) (req : RoomReq) (s : State) : Res := .next (s.enterRoom room { req with own := false }).1

/-- Whether a room arbitrates in shared mode (R130). -/
def State.sharedMode (s : State) (r : Nat) : Bool :=
  (s.op 1).state == 2 || (s.op 4).state == 2 || (s.room r).underTest

/-- The request served on port A in service mode: the oldest permitted of the owner queue, else of the DMA queue, scrub
last (R121). -/
def pickService (owners dmas : List RoomReq) : Option RoomReq :=
  match owners with
  | q :: _ => some q
  | [] => match dmas.find? (fun q => q.principal.isSome) with
    | some q => some q
    | none => dmas.head?

/-- The requester index served next in shared mode: round robin after the last one served (R130). -/
def pickIndex (last : Nat) (waiting : List RoomReq) : Option Nat :=
  ((List.range 8).map fun i => (last + 1 + i) % 8).find? fun i => waiting.any fun q => q.requester == i

/-- The conflict counters of a room after a shared cycle that served index `i`: each other waiting index counts one,
saturating (R130). -/
def countConflicts (word i : Nat) (waiting : List RoomReq) : Nat :=
  (List.range 8).foldl (fun w j =>
    if j ≠ i ∧ waiting.any (fun q => q.requester == j) then
      setByteField w (4 * j) 4 (min (2 ^ 32 - 1) (byteField w (4 * j) 4 + 1))
    else w) word

/-- One access of a request within one line: the bytes it covers now, and what is left of it (R126). -/
def firstHalf (q : RoomReq) : Nat := min q.len (128 - q.offset % 128)

/-- A request's access carried out: data read or written, the reply sent, or the upper line's half put back first in
its queue. -/
def State.roomAccess (s : State) (r : Nat) (q : RoomReq) (requeue : State → RoomReq → State) : State :=
  let n := firstHalf q
  let a := roomAddr r q.offset
  let read := if q.write then [] else s.bytesAt a n
  let s := if q.write then s.putBytes a (q.data.take n) else s
  if n < q.len then
    requeue s { q with offset := q.offset + n, len := q.len - n, data := q.data.drop n, lower := q.lower ++ read }
  else s.roomAnswer r q St.ok (q.lower ++ read)

/-- An access with what the check bits say of it: a corrected word is counted, an uncorrectable one fences the room, and the
access completes with FENCED and returns no data (R112). -/
def State.checked (s : State) (r : Nat) (ecc : Ecc) (access : State → State) : State :=
  match ecc with
  | .clean => access s
  | .corrected => access (s.bump Pd.eccCorrected)
  | .uncorrectable => s.roomFails r

/-- Port B of a Landing room serves its oldest permitted read, the reader's own before those of DMA class, whose wait is counted
(R121, R123). -/
def State.portBCycle (s : State) (r : Nat) (ecc : Ecc) : State :=
  let served := (s.room r).portBQ.filter fun q => decide (s.roomVerdict r true q = .serve)
  let own := served.filter fun q => q.cls == .owner
  let dmas := served.filter fun q => q.cls == .dma
  match pickService own dmas with
  | none => s
  | some q =>
    let s := if own.isEmpty then s else s.bump Pd.dmaWaitCycles dmas.length
    s.checked r ecc fun s =>
      let s := s.setRoom r { s.room r with portBQ := (s.room r).portBQ.erase q }
      s.roomAccess r q fun s q => s.setRoom r { s.room r with portBQ := q :: (s.room r).portBQ }

/-- Port A serves request `q`. -/
def State.portACycle (s : State) (r : Nat) (q : RoomReq) : State :=
  let x := s.room r
  let inOwner := x.ownerQ.contains q
  let s := s.setRoom r { x with ownerQ := x.ownerQ.erase q, dmaQ := if inOwner then x.dmaQ else x.dmaQ.erase q,
                                lastServed := q.requester }
  if q.principal.isNone then s.roomAnswer r q St.ok []
  else s.roomAccess r q fun s q =>
    let y := s.room r
    s.setRoom r (if inOwner then { y with ownerQ := q :: y.ownerQ } else { y with dmaQ := q :: y.dmaQ })

/-- ROOM_CYCLE: requests not permitted are refused; the room serves one request on port A by service or shared
arbitration, and a Landing room one on port B, which reads before port A writes (R124). `ecc` is what the check bits say of the
access on each port (R112). A wiping room and a wing in transpose serve nothing. -/
def execRoomCycle (room : Nat) (ecc : RoomEcc) (s : State) : Res :=
  let x := s.room room
  if s.unpowered || s.roomFenced room || s.roomWiping room || s.halted (66 + room / 192) then .next s
  else if (tget none s.transposes (room / 32)).isSome then
    .next (s.bump Pd.dmaWaitCycles (x.dmaQ ++ x.portBQ.filter fun q => q.cls == .dma).length)
  else
    let refused := fun portB (q : RoomReq) => decide (s.roomVerdict room portB q = .refuse)
    let served := fun (q : RoomReq) => decide (s.roomVerdict room false q = .serve)
    let bad := x.ownerQ.filter (refused false) ++ x.dmaQ.filter (refused false) ++ x.portBQ.filter (refused true)
    let t := (s.setRoom room { x with ownerQ := x.ownerQ.filter fun q => !refused false q
                                      dmaQ := x.dmaQ.filter fun q => !refused false q
                                      portBQ := x.portBQ.filter fun q => !refused true q }).refuseAll room bad
    let t := t.portBCycle room ecc.b
    let owners := x.ownerQ.filter served
    let dmas := x.dmaQ.filter served
    let shared := s.sharedMode room
    let choice := if shared then
        match pickIndex x.lastServed (owners ++ dmas) with
        | some i => (owners ++ dmas).find? fun q => q.requester == i
        | none => none
      else pickService owners dmas
    match choice.filter fun _ => !t.roomFenced room with
    | none => .next t
    | some q =>
      let t := if shared then
          t.wr Pd.conflictCounters room (countConflicts (t.rd Pd.conflictCounters room) q.requester (owners ++ dmas))
        else if owners.contains q then t.bump Pd.dmaWaitCycles dmas.length else t
      .next (t.checked room ecc.a fun t => t.portACycle room q)

/-! ### Diagonal strips and in-place transposes (spec/05 R127 to R129) -/

/-- The address of element (i, c) of a diagonal strip (R127). -/
def diagonalAddr (wing b e i c : Nat) : Nat :=
  roomAddr (32 * wing + (i + c % 32) % 32) (b + 128 * i + e * (c / 32))

/-- What a diagonal access meets in a wing: a fenced room first, then a room of another owner (R128). -/
def State.wingRefusal (s : State) (wing : Nat) (who : Owner) : Option (BitVec 16) :=
  let rooms := (List.range 32).map fun k => 32 * wing + k
  if rooms.any fun r => s.roomFenced r then some St.fenced
  else if rooms.any fun r => decide (s.roomOwnerOf r ≠ who) then some St.notOwner
  else none

/-- The index of a requester of owner class (Table 05-4). -/
def ownerIndex : Owner → Nat
  | .engine _ => 0
  | .feeder => 1
  | .estuary => 2
  | .harbour => 3

/-- A refused diagonal access noted at the first room that refuses it. -/
def State.noteWing (s : State) (wing : Nat) (who : Owner) (code : BitVec 16) : State :=
  if code = St.notOwner then
    match ((List.range 32).map fun k => 32 * wing + k).find? fun r => decide (s.roomOwnerOf r ≠ who) with
    | some r => s.noteNotOwner r (ownerIndex who) (some who) true
    | none => s
  else s

/-- A transpose commanded: refused under R128, ignored while the wing transposes already, else begun. -/
def State.startTranspose (s : State) (who : Owner) (wing offset elem q cycles : Nat) : State :=
  match s.wingRefusal wing who with
  | some c => (s.noteWing wing who c).emit (.transposeReply wing c)
  | none =>
    if (tget none s.transposes wing).isSome then s
    else { s with transposes := tset none s.transposes wing (some { offset := offset, elem := elem, q := q, cycles := cycles }) }

/-- The limits of a strip: offset a multiple of 4,096 within the room, elements of 1, 2 or 4 bytes (R127). -/
def stripOk (offset elem : Nat) : Bool :=
  offset % 4096 == 0 && decide (offset + 4096 ≤ 262144) && (elem == 1 || elem == 2 || elem == 4)

/-- A transpose whose strips break the limits of spec/07 R181: DESCRIPTOR_INVALID (Table 07-6). -/
def State.transposeInvalid (s : State) (wing : Nat) : State := s.emit (.transposeReply wing St.descriptorInvalid)

/-- TILE_TRANSPOSE. -/
def execTileTranspose (who : Owner) (wing offset elem : Nat) (s : State) : Res :=
  .next (if wing < 48 ∧ stripOk offset elem then s.startTranspose who wing offset elem 0 64 else s.transposeInvalid wing)

/-- SQUARE_TRANSPOSE: q at most 128 / e, the q strips within the rooms (R129). -/
def execSquareTranspose (who : Owner) (wing offset elem q : Nat) (s : State) : Res :=
  if wing < 48 ∧ stripOk offset elem ∧ 1 ≤ q ∧ q * elem ≤ 128 ∧ offset + 4096 * q ≤ 262144 then
    .next (s.startTranspose who wing offset elem q (64 * q * q))
  else .next (s.transposeInvalid wing)

/-- The bytes of element (i, c) of the strip at `offset` moved to element (i', c') of the strip at `offset'`, read from
`old`. -/
def State.moveElement (s old : State) (wing elem offset i c offset' i' c' : Nat) : State :=
  s.putBytes (diagonalAddr wing offset' elem i' c') (enableAll (old.bytesAt (diagonalAddr wing offset elem i c) elem))

/-- A tile transpose carried out: element (i, 32t + j) moves to (j, 32t + i). -/
def State.tileTransposed (s : State) (wing offset elem : Nat) : State :=
  (List.range 32).foldl (fun t i => (List.range (32 * (128 / elem))).foldl (fun t c =>
    t.moveElement s wing elem offset i c offset (c % 32) (32 * (c / 32) + i)) t) s

/-- A square transpose carried out: element (R, C) of the matrix moves to (C, R); row R lies in strip R / 32. -/
def State.squareTransposed (s : State) (wing offset elem q : Nat) : State :=
  (List.range (32 * q)).foldl (fun t r => (List.range (32 * q)).foldl (fun t c =>
    t.moveElement s wing elem (offset + 4096 * (r / 32)) (r % 32) c (offset + 4096 * (c / 32)) (c % 32) r) t) s

/-- TRANSPOSE_DONE: corrected words are counted, a room with an uncorrectable one is fenced and the transpose completes with FENCED
(R112, R128). -/
def execTransposeDone (done : TransposeEnd) (s : State) : Res :=
  let wing := done.wing
  match tget none s.transposes wing with
  | none => .next s
  | some x =>
    let s := s.bump Pd.eccCorrected (done.errors.filter fun e => e.2 == .corrected).length
    let bad := done.errors.filter fun e => e.2 == .uncorrectable && decide (e.1 < 32)
    if !bad.isEmpty then
      let t := bad.foldl (fun s e => s.roomFails (32 * wing + e.1)) s
      .next ({ t with transposes := tset none t.transposes wing none }.emit (.transposeReply wing St.fenced))
    else
    let t := if x.q = 0 then s.tileTransposed wing x.offset x.elem else s.squareTransposed wing x.offset x.elem x.q
    .next ({ t with transposes := tset none t.transposes wing none }.emit (.transposeReply wing St.ok))

/-! ### Wiping (spec/05 R132) -/

/-- Room `r` begins to be wiped. -/
def State.beginWipe (s : State) (r : Nat) : State := s.setOwnerWord r (s.ownerWord r ||| 2 ^ 60)

/-- Every byte of room `r` zero. -/
def State.zeroRoom (s : State) (r : Nat) : State := { s with mem := tclear s.mem (roomAddr r 0) 0x40000 }

/-- The wipe of a room is done: it holds zeros and serves the requests that waited. -/
def State.wiped (s : State) (room : Nat) : State := (s.zeroRoom room).setOwnerWord room (setBits (s.ownerWord room) 60 1 0)

end Sys2Proof.Machine
end

