-- ==== Sys2Proof/Machine/Cliffs.lean ====
section
/-!
DEFINITION. Cliffs, Coves and Charts, chapter 06, part 1: address mapping, Charts, checks of accesses, capacity,
retirement and the fencing of a Cliff.
-/
namespace Sys2Proof.Machine

/-! ### Views and the SK-L0 alias (spec/06 R136 to R141) -/

/-- Bytes of one Cliff. -/
def cliffBytes : Nat := 0x1400000000

/-- The first address of the alias. -/
def aliasBase : Nat := 0x080000000000

/-- Backed bytes of the alias, 1,600 GiB. -/
def aliasBytes : Nat := 0x19000000000

/-- h(q) of the SK-L0 hash (R139). -/
def hashQ (q : Nat) : Nat :=
  let b := fun i => if q.testBit i then 1 else 0
  (b 0 ^^^ b 5 ^^^ b 10 ^^^ b 15 ^^^ b 20 ^^^ b 25) + 2 * (b 1 ^^^ b 6 ^^^ b 11 ^^^ b 16 ^^^ b 21 ^^^ b 26)
    + 4 * (b 2 ^^^ b 7 ^^^ b 12 ^^^ b 17 ^^^ b 22 ^^^ b 27) + 8 * (b 3 ^^^ b 8 ^^^ b 13 ^^^ b 18 ^^^ b 23 ^^^ b 28)
    + 16 * (b 4 ^^^ b 9 ^^^ b 14 ^^^ b 19 ^^^ b 24)

/-- The native address of an alias offset (R139). -/
def aliasToNative (x : Nat) : Nat :=
  let q := x / 256 / 20
  let m := x / 256 % 20
  let k := (m + hashQ q) % 20
  (7 * k) % 20 * 0x2000000000 + 256 * q + x % 256

/-- The alias offset of byte `a` of Cliff `c` (R140). -/
def nativeToAlias (c a : Nat) : Nat :=
  let q := a / 256
  256 * (20 * q + ((3 * c) % 20 + 40 - hashQ q) % 20) + a % 256

/-- Whether an address lies in the alias, and in the native ranges. -/
def isAlias (a : Nat) : Bool := decide (aliasBase ≤ a) && decide (a < 0x0A0000000000)
def isNative (a : Nat) : Bool := decide (a < 0x028000000000)

/-- The native address of a backed Cliff byte named in either view; none where it is not backed (Table 04-4). -/
def cliffNative (a : Nat) : Option Nat :=
  if isNative a then (if a % 0x2000000000 < cliffBytes then some a else none)
  else if isAlias a then (if a - aliasBase < aliasBytes then some (aliasToNative (a - aliasBase)) else none)
  else none

/-- Cliff, local address, block, stratum, bank and row of a native address (R136). -/
def natCliff (n : Nat) : Nat := n / 0x2000000000
def natLocal (n : Nat) : Nat := n % 0x2000000000
def blockStratum (b : Nat) : Nat := b % 256
def blockBank (b : Nat) : Nat := b / 1024 % 32
def blockRow (b : Nat) : Nat := b / 32768
def blockPage (b : Nat) : Nat := b / 8192

/-- A bank of a Cliff, and a row of it, as keys. -/
def bankKey (stratum bank : Nat) : Nat := stratum * 32 + bank
def rowKey (stratum bank row : Nat) : Nat := (stratum * 32 + bank) * 10240 + row

/-- The page a row lies in (R136). -/
def rowPage (bank row : Nat) : Nat := 4 * row + bank / 8

/-! ### The retired list and capacity (spec/06 R160, R161) -/

/-- The records of RETIRED_LIST in use: index, Cliff, state (1 RETIRING, 2 RETIRED), page. -/
def State.retiredRecords (s : State) : List (Nat × Nat × Nat × Nat) :=
  (s.pd.filter fun e => e.1 / 16777216 == Pd.retiredList).map fun e =>
    (e.1 % 16777216, byteField e.2 0 1, byteField e.2 1 1, byteField e.2 4 4)

/-- Whether a page of a Cliff is RETIRED. -/
def State.pageRetired (s : State) (c page : Nat) : Bool :=
  s.retiredRecords.any fun e => e.2.1 == c && e.2.2.1 == 2 && e.2.2.2 == page

/-- Whether it is listed at all. -/
def State.pageListed (s : State) (c page : Nat) : Bool :=
  s.retiredRecords.any fun e => e.2.1 == c && e.2.2.1 != 0 && e.2.2.2 == page

/-- Pages listed of Cliff `c`. -/
def State.pagesListed (s : State) (c : Nat) : Nat :=
  (s.retiredRecords.filter fun e => e.2.1 == c && e.2.2.1 != 0).length

/-- Backed bytes of Cliff `c` (R161). -/
def State.cliffCapacity (s : State) (c : Nat) : Nat :=
  if s.cliffFenced c then 0 else cliffBytes - 0x200000 * s.pagesListed c

/-- Backed bytes of the module (R161). -/
def State.capacityBacked (s : State) : Nat := ((List.range 20).map s.cliffCapacity).foldl (· + ·) 0

/-! ### Cove lines (spec/06 R146, Table 06-5) -/

/-- Set and tag of a Cliff-local block. -/
def coveSet (b : Nat) : Nat := (b % 4096) ^^^ (b / 4096 % 4096)
def coveTag (b : Nat) : Nat := b / 4096

/-- The record of way `w` of a set. -/
def lineIndex (c set w : Nat) : Nat := 98304 * c + 24 * set + w

/-- A line's state word, and the word set. -/
def State.coveLine (s : State) (c set w : Nat) : Nat := s.rd Pd.coveLineState (lineIndex c set w)
def State.setCoveLine (s : State) (c set w v : Nat) : State := s.wr Pd.coveLineState (lineIndex c set w) v

/-- Fields of a line. -/
def lineTag (v : Nat) : Nat := bits v 47 17
def lineValid (v : Nat) : Bool := v.testBit 46
def lineDirty (v : Nat) : Bool := v.testBit 45
def lineFilling (v : Nat) : Bool := v.testBit 44
def lineHint (v : Nat) : Nat := bits v 42 2
def lineCount (v : Nat) : Nat := bits v 38 4
def lineAge (v : Nat) : Nat := bits v 33 5
def linePoison (v : Nat) : Bool := v.testBit 32
def lineTensor (v : Nat) : Nat := bits v 16 16

/-- A line word from its fields. -/
def makeLine (tag : Nat) (valid dirty filling : Bool) (hint count age : Nat) (poison : Bool) (tensor : Nat) : Nat :=
  let b := fun (x : Bool) (i : Nat) => if x then 2 ^ i else 0
  tag * 2 ^ 47 + b valid 46 + b dirty 45 + b filling 44 + hint * 2 ^ 42 + count * 2 ^ 38 + age * 2 ^ 33 + b poison 32
    + tensor * 2 ^ 16

/-- The way of a set that holds, or is being filled with, a block. -/
def State.findWay (s : State) (c b : Nat) : Option Nat :=
  (List.range 24).find? fun w =>
    let v := s.coveLine c (coveSet b) w
    (lineValid v || lineFilling v) && lineTag v == coveTag b

/-- Whether a block of a Cliff is uncorrectable: in the Cliff, as poison written to it, or as a poisoned line of its Cove (R153,
R160, R164). -/
def State.blockBad (s : State) (n : Nat) : Bool :=
  s.badBlocks.contains (n / 256 * 256) || s.poisonBlocks.contains (n / 256 * 256) ||
    match s.findWay (natCliff n) (natLocal n / 256) with
    | some w => linePoison (s.coveLine (natCliff n) (coveSet (natLocal n / 256)) w)
    | none => false

/-! ### Fencing a Cliff (spec/06 R145, R162) -/

/-- A request answered to its requester; of a unit's own, the unit keeps a failing status for its next beat. -/
def State.cliffAnswer (s : State) (q : CliffReq) (status : BitVec 16) (data : List Byte) : State :=
  if q.own then
    if status = St.ok ∨ status = St.suppressed then s
    else
      let p := s.unitPort q.tag
      s.setUnitPort q.tag { p with failed := some (p.failed.getD status) }
  else s.emit (.cliffReply q.user q.tag status data)

/-- A Cliff reply sent and its slot freed. -/
def State.cliffReply (s : State) (c : Nat) (q : CliffReq) (status : BitVec 16) (data : List Byte) : State :=
  let x := s.cliff c
  (s.setCliff c { x with slots := x.slots.filter fun e => !(e.1 == q) }).cliffAnswer q status data

/-- Cliff `c` and its Cove fenced: requests not served, those that wait for the host to give up a line among them, complete with
FENCED (R145). -/
def State.fenceCliff (s : State) (c : Nat) : State :=
  let s := s.setFlags Pd.cliffsFenced (2 ^ c)
  let s := (s.cliff c).slots.foldl (fun s e => s.cliffReply c e.1 St.fenced []) s
  let here := fun (e : CliffReq × Ecc) => natCliff e.1.addr == c
  let s := (s.host.snoopWaits.filter here).foldl (fun s e => s.cliffAnswer e.1 St.fenced []) s
  let s := { s with host := { s.host with snoopWaits := s.host.snoopWaits.filter fun e => !here e } }
  s.setCliff c { s.cliff c with queues := [], inService := [], slots := [], copying := [], recal := [] }

/-- Cliff `c` fails by itself; after READY the fence is announced. -/
def State.cliffFails (s : State) (c : Nat) : State :=
  if s.cliffFenced c then s
  else
    let t := s.fenceCliff c
    if s.isReady then t.announceFence St.fenced 4 c [] else t

/-- A page enters RETIRING (R160): listed, recorded with its cause and with RETIRED; a full list fences the Cliff
(R161). -/
def State.retirePage (s : State) (c page : Nat) (cause : BitVec 16) : State :=
  if s.pageListed c page then s
  else
    let used := (s.retiredRecords.filter fun e => e.2.2.1 != 0).map fun e => e.1
    match (List.range (used.length + 1)).find? fun i => !used.contains i with
    | none => s
    | some i =>
      if 8192 ≤ i then s.cliffFails c
      else
        let detail := natLE 4 c ++ natLE 4 page
        let s := s.wr Pd.retiredList i (c + 256 + page * 2 ^ 32)
        (s.record 0x02 cause 4 c detail).record 0x02 St.retired 4 c detail

/-- Every RETIRING page of the Cliffs that `which` names becomes RETIRED. -/
def State.retireAll (s : State) (which : Nat → Bool) : State :=
  (s.retiredRecords.filter fun e => e.2.2.1 == 1 && which e.2.1).foldl
    (fun s e => s.wr Pd.retiredList e.1 (e.2.1 + 512 + e.2.2.2 * 2 ^ 32)) s

/-! ### Charts (spec/06 R154, R157, R165) -/

/-- Whether a table entry can be read: its Cliff is not fenced and its block not uncorrectable (R160, R162). -/
def State.tableReads (s : State) (a : Nat) : Bool := !s.cliffFenced (natCliff a) && !s.blockBad a

/-- The 8 bytes of a table entry at a native address; one that cannot be read is no valid mapping (log 164). -/
def State.tableEntry (s : State) (a : Nat) : Nat := if s.tableReads a then leNat (s.bytesAt a 8) else 0

/-- Fields of a Chart entry (Table 06-6). -/
def entryValid (e : Nat) : Bool := e.testBit 63
def entryLeaf (e : Nat) : Bool := e.testBit 62
def entryTarget (e : Nat) : Nat := bits e 12 32 * 4096

/-- Permitted top-level indices (R154). -/
def topPermitted (i : Nat) : Bool := decide (i < 2560) || (decide (8192 ≤ i) && decide (i < 10240))

/-- Whether a page of `size` bytes at `target` is aligned, in the view `alias` and backed (R165). -/
def targetOk (target size : Nat) (alias_ : Bool) : Bool :=
  target % size == 0 &&
    (if alias_ then isAlias target && decide (target - aliasBase + size ≤ aliasBytes)
     else isNative target && decide (natLocal target + size ≤ cliffBytes))

/-- Whether a native page range covers a RETIRED page. -/
def State.coversRetired (s : State) (target size : Nat) : Bool :=
  s.retiredRecords.any fun e => e.2.2.1 == 2 && e.2.1 == natCliff target
    && decide (natLocal target / 0x200000 ≤ e.2.2.2) && decide (e.2.2.2 < (natLocal target + size) / 0x200000)

/-- Whether a leaf entry of a page of `size` bytes passes the checks of R165, in the view of its index. -/
def State.leafOk (s : State) (e size : Nat) (alias_ : Bool) : Bool :=
  targetOk (entryTarget e) size alias_ && (alias_ || !s.coversRetired (entryTarget e) size)

/-- Whether a second-level table lies in the backed native range. -/
def tableOk (target : Nat) : Bool := isNative target && decide (natLocal target + 4096 ≤ cliffBytes)

/-- Whether CHART_BASE is 128 KiB aligned within the backed native range (R165). -/
def chartBaseOk (base : Nat) : Bool :=
  base % 131072 == 0 && isNative base && decide (natLocal base + 131072 ≤ cliffBytes)

/-- A translation found: the page's first address, its bytes and its entry. -/
structure Mapping where
  base  : Nat
  bytes : Nat
  entry : Nat
deriving DecidableEq, Repr

/-- The walk of partition `p`'s active Chart for an address; none where there is no valid mapping (R155, R157). -/
def State.chartWalk (s : State) (p a : Nat) : Option Mapping :=
  match tget none s.chartBase p with
  | none => none
  | some base =>
    let i := a / 0x40000000
    let isA := decide (8192 ≤ i)
    if !topPermitted i then none
    else
      let e := s.tableEntry (base + 8 * i)
      if !entryValid e then none
      else if entryLeaf e then
        (if s.leafOk e 0x40000000 isA then some { base := i * 0x40000000, bytes := 0x40000000, entry := e } else none)
      else if !tableOk (entryTarget e) then none
      else
        let j := a / 0x200000 % 512
        let f := s.tableEntry (entryTarget e + 8 * j)
        if entryValid f && entryLeaf f && s.leafOk f 0x200000 isA then
          some { base := a / 0x200000 * 0x200000, bytes := 0x200000, entry := f }
        else none

/-- The mapping a unit uses for an address: its translation cache's, else a walk's. Of an entry changed since, R157 lets a unit use
the old value or the new one: it uses the old one exactly where its translation cache holds it (log 165). -/
def State.mappingFor (s : State) (u : CliffUser) (p a : Nat) : Option Mapping :=
  if (tget none s.chartBase p).isNone then none
  else match s.tlb.find? fun t => t.user == u && t.part == p && decide (t.base ≤ a) && decide (a < t.base + t.bytes) with
    | some t => some { base := t.base, bytes := t.bytes, entry := t.entry.toNat }
    | none => s.chartWalk p a

/-! ### Checks of an access (spec/06 R155, R156) -/

/-- What a translated access meets. -/
inductive Access where
  | ok (native : Nat) | fail (code : BitVec 16)
deriving DecidableEq, Repr

/-- Checks 3 and 4 of R155 on a device physical address of the Cliffs, in either view. -/
def State.physCheck (s : State) (a : Nat) : Access :=
  match cliffNative a with
  | none => .fail St.unmapped
  | some n =>
    if s.pageRetired (natCliff n) (natLocal n / 0x200000) then .fail St.unmapped
    else if s.cliffFenced (natCliff n) then .fail St.fenced
    else .ok n

/-- A committed access through partition `p`'s Chart (R155). -/
def State.chartCheck (s : State) (u : CliffUser) (p a : Nat) (write : Bool) : Access :=
  match s.mappingFor u p a with
  | none => .fail St.unmapped
  | some m =>
    if !(if write then m.entry.testBit 60 else m.entry.testBit 61) then .fail St.permission
    else s.physCheck (entryTarget m.entry + (a - m.base))

/-- A run-ahead read: any failing check, or a page without RUN_AHEAD, suppresses it (R156). -/
def State.runAheadCheck (s : State) (u : CliffUser) (p a : Nat) : Access :=
  match s.mappingFor u p a with
  | none => .fail St.suppressed
  | some m =>
    if !m.entry.testBit 59 then .fail St.suppressed
    else match s.chartCheck u p a false with
      | .ok n => .ok n
      | .fail _ => .fail St.suppressed

/-- Where an address of a request leads: through its partition's Chart, or a device physical address (R154 to R156). -/
def State.blockCheck (s : State) (q : CliffReq) (a : Nat) : Access :=
  match q.part with
  | none => s.physCheck a
  | some p => if q.runAhead then s.runAheadCheck q.user p a else s.chartCheck q.user p a q.write

/-- The address of block `i` of a request whose first block lies at native address `n`: consecutive in native space, in the view of
the request (R143, R144). -/
def reqBlockAddr (q : CliffReq) (n i : Nat) : Nat :=
  if isAlias q.addr then q.addr + (nativeToAlias (natCliff n) (natLocal n + 256 * i) - nativeToAlias (natCliff n) (natLocal n))
  else q.addr + 256 * i

/-- Where a request leads, every block of it checked: the first that fails decides. Blocks that lead to no consecutive native
blocks make no request of R143 (log 166). -/
def State.reqCheck (s : State) (q : CliffReq) : Access :=
  match s.blockCheck q q.addr with
  | .fail c => .fail c
  | .ok n => ((List.range q.blocks).drop 1).foldl (fun acc i => match acc with
      | .fail c => .fail c
      | .ok n => match s.blockCheck q (reqBlockAddr q n i) with
        | .fail c => .fail c
        | .ok m => if m = n + 256 * i then .ok n else .fail (if q.runAhead then St.suppressed else St.unmapped)) (.ok n)

/-- An outcome counted (PD 0x3C20.01 to .03). -/
def State.countAccess (s : State) (code : BitVec 16) : State :=
  if code = St.suppressed then s.bump Pd.suppressedCount
  else if code = St.unmapped then s.bump Pd.unmappedCount
  else if code = St.permission then s.bump Pd.permissionCount
  else s

/-! ### Chart walks and rebuilds -/

/-- The top-level index of result slot `i` (R165). -/
def rebuildIndex (i : Nat) : Nat := if i < 2560 then i else i - 2560 + 8192

/-- The faulty entries of a second-level table: how many, and the first or 0xFFFF. -/
def State.faultySecond (s : State) (table : Nat) (alias_ : Bool) : Nat × Nat :=
  (List.range 512).foldl (fun a j =>
    let f := s.tableEntry (table + 8 * j)
    if !s.tableReads (table + 8 * j) || entryValid f && !(entryLeaf f && s.leafOk f 0x200000 alias_) then (a.1 + 1, min a.2 j) else a) (0, 0xFFFF)

/-- The result record of one permitted top-level index, and whether it is faulty (R165, Table 06-8). -/
def State.rebuildRecord (s : State) (base i : Nat) : List Byte × Bool :=
  let e := s.tableEntry (base + 8 * i)
  let isA := decide (8192 ≤ i)
  let make := fun (bad : Bool) n j =>
    (codeBytes (if bad then St.invalidValue else St.ok) ++ natLE 2 n ++ natLE 2 j ++ [0, 0], bad)
  if !s.tableReads (base + 8 * i) then make true 0 0xFFFF
  else if !entryValid e then make false 0 0xFFFF
  else if entryLeaf e then make (!s.leafOk e 0x40000000 isA) 0 0xFFFF
  else if !tableOk (entryTarget e) then make true 0 0xFFFF
  else
    let f := s.faultySecond (entryTarget e) isA
    make (decide (0 < f.1)) f.1 f.2

/-- The top-level indices that are not permitted and hold valid entries. -/
def State.strayEntries (s : State) (base : Nat) : List Nat :=
  (List.range 16384).filter fun i => !topPermitted i && entryValid (s.tableEntry (base + 8 * i))

/-- The summary record (Table 06-8): its code looks only at the entries out of place and at the base. -/
def rebuildSummary (stray : List Nat) (baseFault : Bool) : List Byte :=
  codeBytes (if baseFault || !stray.isEmpty then St.invalidValue else St.ok) ++ natLE 2 (min 0xFFFF stray.length) ++ natLE 2 (stray.headD 0xFFFF)
    ++ [if baseFault then 1 else 0, 0]

/-- A rebuild starts running: CHART_BASE is checked first, and the run goes on with the value checked; where it fails, or its Cliff is
fenced, the run fails at once (R165, log 164). -/
def State.rebuildRun (s : State) (p : Nat) : State :=
  let base := s.reg (Pd.chartBase + p)
  if chartBaseOk base && !s.cliffFenced (natCliff base) then { s with rebuild := some p, rebuildBase := base }
  else { (s.opFill 7 4608 (rebuildSummary [] true)).opEnd 7 4 St.invalidValue with rebuild := none }

/-- The response of an accepted START: OK or DEFERRED, with the run number (spec/03 R84, Table 03-8). -/
def acceptedStart (s : State) (r : Nat) (deferred : Bool) : Served :=
  { state := s, status := if deferred then St.deferred else St.ok, payload := natLE 4 (s.op r).run }

/-- A Chart rebuild START (R165); a partition above 15 is INVALID_VALUE (log 15). -/
def serveRebuildStart : Serve := fun _ _ q s =>
  let p := q.value
  if 16 ≤ p then refuse s St.invalidValue
  else if s.opBusy 7 then refuse s St.busy
  else if s.partTasks p then acceptedStart { s.opStart 7 1 4609 with rebuild := some p } 7 true
  else acceptedStart ((s.opStart 7 2 4609).rebuildRun p) 7 false

/-- CHART_REBUILD_START. -/
def execChartRebuildStart (o : Origin) (part : BitVec 8) (s : State) : Res :=
  .next (s.receiveOwn serveRebuildStart (ownWrite o Pd.chartRebuildStart 0 [part]))

/-- CHART_REBUILD_BEGIN. -/
def execChartRebuildBegin (s : State) : Res :=
  match s.rebuild with
  | some p => .next (if (s.op 7).state = 1 ∧ s.partTasks p = false then (s.opBegin 7).rebuildRun p else s)
  | none => .next s

/-- Every result record of a rebuild, and whether every entry passed. -/
def State.rebuildRecords (s : State) (base : Nat) : List (List Byte) × Bool :=
  let rows := (List.range 4608).map fun i => s.rebuildRecord base (rebuildIndex i)
  let stray := s.strayEntries base
  let bad := rows.any (fun r => r.2) || !stray.isEmpty
  (rows.map (fun r => r.1) ++ [rebuildSummary stray false], !bad)

/-- A whole run's result records stored. -/
def State.opFillAll (s : State) (r : Nat) (records : List (List Byte)) : State :=
  s.setOp r { s.op r with results := (records.zipIdx).map fun e => (e.2, some e.1), filled := records.length }

end Sys2Proof.Machine
end

