-- ==== Sys2Proof/Machine/Coves.lean ====
section
/-!
DEFINITION. Cliffs, Coves and Charts, chapter 06, part 2: Cove lines, request slots, per-stratum scheduling, row
replacement, strata, unpinning, repair and bulk copy.
-/
namespace Sys2Proof.Machine

/-- A function applied to the words of the lines of a set that hold data or are being filled, but for way `w`. -/
def State.mapLines (s : State) (c set w : Nat) (f : Nat → Nat) : State :=
  (List.range 24).foldl (fun s i =>
    let v := s.coveLine c set i
    if i ≠ w ∧ (lineValid v || lineFilling v) then s.setCoveLine c set i (f v) else s) s

/-- AGE one more, or one less, where the line's satisfies a test. -/
def olderIf (p : Nat → Bool) (v : Nat) : Nat := if p (lineAge v) then setBits v 33 5 (min 23 (lineAge v + 1)) else v
def youngerIf (p : Nat → Bool) (v : Nat) : Nat := if p (lineAge v) then setBits v 33 5 (lineAge v - 1) else v

/-- Way `w` most recent: the lines younger than it was age by one, so that AGE stays a rank (Table 06-5). -/
def State.touchAge (s : State) (c set w : Nat) : State :=
  let old := lineAge (s.coveLine c set w)
  let s := s.mapLines c set w (olderIf fun a => decide (a < old))
  s.setCoveLine c set w (setBits (s.coveLine c set w) 33 5 0)

/-- A line put into an empty way: it is the most recent, and every other is one older. -/
def State.insertLine (s : State) (c set w v : Nat) : State :=
  (s.mapLines c set w (olderIf fun _ => true)).setCoveLine c set w (setBits v 33 5 0)

/-- A way emptied: the lines older than it was are one younger. -/
def State.dropLine (s : State) (c set w : Nat) : State :=
  let v := s.coveLine c set w
  let s := if lineValid v || lineFilling v then s.mapLines c set w (youngerIf fun a => decide (lineAge v < a)) else s
  s.setCoveLine c set w 0

/-- Pinned ways of a set, those being filled among them. -/
def State.pinnedWays (s : State) (c set : Nat) : Nat :=
  ((List.range 24).filter fun w =>
    let v := s.coveLine c set w
    (lineValid v || lineFilling v) && lineHint v == 2).length

/-- HINT, COUNT and TENSOR_ID after a read hit or a write: a pinned line keeps HINT 2 (R147). `full`: the set has its 16 pinned
lines, and the access makes this line no further one (R148, log 167). -/
def lineAfterAccess (full : Bool) (v : Nat) (q : CliffReq) : Nat :=
  if lineHint v = 2 then v
  else
    let v := setBits v 16 16 q.tensor
    if q.hint = 2 ∧ full = true then setBits (setBits v 42 2 0) 38 4 15
    else
      let v := setBits v 42 2 q.hint
      if q.hint = 0 then setBits v 38 4 (q.count - 1) else v

/-- A line accessed. -/
def State.accessLine (s : State) (c set w : Nat) (q : CliffReq) : State :=
  (s.setCoveLine c set w (lineAfterAccess (decide (16 ≤ s.pinnedWays c set)) (s.coveLine c set w) q)).touchAge c set w

/-- The way a fill takes: an invalid way, the stream-once line of highest AGE, the reuse-count line of lowest COUNT and
then highest AGE; never a pinned, filling or disabled one (R147, R153). -/
def State.victimWay (s : State) (c set : Nat) : Option Nat :=
  let usable := (List.range 24).filter fun w => !(s.cliff c).disabled.contains (24 * set + w)
  let line := fun w => s.coveLine c set w
  match usable.find? fun w => !lineValid (line w) && !lineFilling (line w) with
  | some w => some w
  | none =>
    let streams := usable.filter fun w => lineHint (line w) == 1 && !lineFilling (line w)
    let oldest := fun (l : List Nat) => l.foldl (fun (a : Option Nat) w => match a with
      | none => some w
      | some b => if lineAge (line b) < lineAge (line w) then some w else some b) none
    match oldest streams with
    | some w => some w
    | none =>
      let reuse := usable.filter fun w => lineHint (line w) == 0 && !lineFilling (line w)
      let low := reuse.foldl (fun m w => min m (lineCount (line w))) 15
      oldest (reuse.filter fun w => lineCount (line w) == low)

/-! ### Line accesses to the strata -/

/-- A line access put at the end of its stratum's queue. -/
def State.queueAccess (s : State) (c : Nat) (x : LineAcc) : State :=
  let k := s.cliff c
  let st := blockStratum x.block
  s.setCliff c { k with queues := tset [] k.queues st (tget [] k.queues st ++ [x]) }

/-- A block marked uncorrectable without an error of its Cliff: poison written back or copied (R153, R160, R164); its line in the
Cove, if it has one, is poisoned. -/
def State.poison (s : State) (key : Nat) : State :=
  let c := natCliff key
  let b := natLocal key / 256
  let s := { s with badBlocks := s.badBlocks.filter fun k => k != key
                    poisonBlocks := key :: s.poisonBlocks.filter fun k => k != key }
  match s.findWay c b with
  | some w => s.setCoveLine c (coveSet b) w (s.coveLine c (coveSet b) w ||| 2 ^ 32)
  | none => s

/-- A block written whole: it is sound again, in the Cliff and in the Cove (R153, R160). -/
def State.heal (s : State) (key : Nat) : State :=
  let c := natCliff key
  let b := natLocal key / 256
  let s := { s with badBlocks := s.badBlocks.filter fun k => k != key, poisonBlocks := s.poisonBlocks.filter fun k => k != key }
  match s.findWay c b with
  | some w => s.setCoveLine c (coveSet b) w (setBits (s.coveLine c (coveSet b) w) 32 1 0)
  | none => s

/-- A write of a line to its stratum. -/
def State.writeThrough (s : State) (c b : Nat) : State :=
  s.queueAccess c { block := b, write := true, way := none, waiters := [], since := s.time }

/-- A way emptied for a fill: a dirty line is written back; a poisoned dirty one leaves its block poisoned (R149, R153). -/
def State.evict (s : State) (c set w : Nat) : State :=
  let v := s.coveLine c set w
  let b := lineTag v * 4096 + ((set ^^^ lineTag v % 4096) % 4096)
  let dirty := lineValid v && lineDirty v
  let s := if dirty then s.writeThrough c b else s
  let s := if dirty && linePoison v then s.poison (c * 0x2000000000 + 256 * b) else s
  s.dropLine c set w

/-- A way allocated for a block: pinned lines beyond 16 of a set become reuse-count with COUNT 15 (R148). A read that finds no way
is served without one (R147). -/
def State.allocate (s : State) (c b : Nat) (q : CliffReq) (filling : Bool) : State × Option Nat :=
  let set := coveSet b
  match s.victimWay c set with
  | none => (if q.write then s else s.bump Pd.noAllocate, none)
  | some w =>
    let s := s.evict c set w
    let denied := q.hint == 2 && decide (16 ≤ s.pinnedWays c set)
    let s := if denied then s.bump Pd.pinDenied else s
    let hint := if denied then 0 else q.hint
    let count := if denied then 15 else if q.hint = 0 then q.count - 1 else 0
    (s.insertLine c set w (makeLine (coveTag b) (!filling) (!filling) filling hint count 0 false q.tensor), some w)

/-- Whether a read of a block waits or is in service at its stratum. -/
def State.fetching (s : State) (c b : Nat) : Bool :=
  let k := s.cliff c
  let st := blockStratum b
  (tget [] k.queues st).any (fun x => !x.write && x.block == b)
    || match tget none k.inService st with
       | some x => !x.write && x.block == b
       | none => false

/-- Whether a write of a block waits or is in service at its stratum: its data stand in the write-back buffer (R149). -/
def State.writingBack (s : State) (c b : Nat) : Bool :=
  let k := s.cliff c
  let st := blockStratum b
  (tget [] k.queues st).any (fun x => x.write && x.block == b)
    || match tget none k.inService st with
       | some x => x.write && x.block == b
       | none => false

/-- The reads of a block at its stratum changed. -/
def State.mapFetch (s : State) (c b : Nat) (f : LineAcc → LineAcc) : State :=
  let k := s.cliff c
  let st := blockStratum b
  let g := fun (x : LineAcc) => if !x.write && x.block == b then f x else x
  s.setCliff c { k with queues := tset [] k.queues st ((tget [] k.queues st).map g)
                        inService := tset none k.inService st ((tget none k.inService st).map g) }

/-- A read joined to the fetch of its block (R151). -/
def State.joinFetch (s : State) (c b : Nat) (ws : List CliffReq) : State :=
  (s.mapFetch c b fun x => { x with waiters := x.waiters ++ ws }).bump Pd.coalesced

/-- The status of a request so far made worse. -/
def State.worsen (s : State) (c : Nat) (q : CliffReq) (code : BitVec 16) : State :=
  let k := s.cliff c
  s.setCliff c { k with slots := k.slots.map fun e => if e.1 == q then (e.1, code) else e }

/-! ### Requests (spec/06 R143, R145 to R153) -/

/-- The Cliff-local blocks of a request at native address `n`. -/
def reqBlocks (n blocks : Nat) : List Nat := (List.range blocks).map fun i => natLocal n / 256 + i

/-- Slots of a requester's pool, at most to one Cliff, at most touching one stratum (Table 06-4). -/
def poolOf : CliffUser → Nat × Nat × Nat
  | .harbour => (128, 32, 8)
  | _ => (256, 64, 16)

/-- The requests of a requester that hold slots at Cliff `c`: those its Cove serves, and those issued that wait for the host to give up
a line (R143). -/
def State.heldSlots (s : State) (u : CliffUser) (c : Nat) : List CliffReq :=
  (((s.cliff c).slots.map fun e => e.1) ++ (s.host.snoopWaits.map fun e => e.1).filter fun e => natCliff e.addr == c).filter
    fun e => e.user == u

/-- Whether a requester's whole pool is in use. -/
def State.poolFull (s : State) (u : CliffUser) : Bool :=
  decide ((poolOf u).1 ≤ ((List.range 20).map fun c => (s.heldSlots u c).length).foldl (· + ·) 0)

/-- Whether a request would exceed the Cliff or the stratum quota of its pool (R143). -/
def State.overQuota (s : State) (q : CliffReq) (n : Nat) : Bool :=
  let pool := poolOf q.user
  let here := s.heldSlots q.user (natCliff n)
  let touching := fun (st : Nat) => (here.filter fun e => ((reqBlocks e.addr e.blocks).map blockStratum).contains st).length
  decide (pool.2.1 ≤ here.length) || ((reqBlocks n q.blocks).map blockStratum).any fun st => decide (pool.2.2 ≤ touching st)

/-- An uncorrectable error of a line's code: POISON; a way that shows a second one is disabled until the next Landfall, with an entry
of the Strandline (R153). -/
def State.coveError (s : State) (c set w b : Nat) : State :=
  let k := s.cliff c
  let way := 24 * set + w
  let n := tget 0 k.wayErrors way + 1
  let s := s.setCliff c { k with wayErrors := tset 0 k.wayErrors way n }
  let s := s.setCoveLine c set w (s.coveLine c set w ||| 2 ^ 32)
  if n < 2 then s
  else
    let s := s.evict c set w
    let s := s.setCliff c { s.cliff c with disabled := way :: (s.cliff c).disabled }
    s.record 0x02 St.uncorrectable 4 c (natLE 4 c ++ natLE 4 (blockPage b))

/-- One block of a read at a Cove: a hit, the write-back buffer, a join, or a miss that fetches, `ws` its waiters (R147, R149, R151).
`ecc` is what the Cove's code says of a hit (R153). -/
def State.readBlock (s : State) (c : Nat) (q : CliffReq) (ws : List CliffReq) (ecc : Ecc) (b : Nat) : State :=
  let set := coveSet b
  let bad := fun (s : State) => (ws.foldl (fun s w => s.worsen c w St.uncorrectable) s).bump Pd.uncorrectableErrors
  match s.findWay c b with
  | some w =>
    let v := s.coveLine c set w
    if lineFilling v then s.joinFetch c b ws
    else
      let s := (s.bump Pd.coveHits).accessLine c set w q
      if ecc = .uncorrectable then (bad s).coveError c set w b
      else if linePoison v then bad s
      else s
  | none =>
    if s.writingBack c b then
      let s := s.bump Pd.coveHits
      if s.blockBad (c * 0x2000000000 + 256 * b) then bad s else s
    else if s.fetching c b then s.joinFetch c b ws
    else
      let a := s.allocate c b q true
      (a.1.bump Pd.coveMisses).queueAccess c { block := b, write := false, way := a.2, waiters := ws, since := s.time }

/-- A whole write over a line still being filled: the fill brings it nothing any more. -/
def State.overwriteFill (s : State) (c b w : Nat) : State :=
  let set := coveSet b
  let s := s.mapFetch c b fun x => { x with way := none }
  s.setCoveLine c set w (setBits (setBits (s.coveLine c set w) 44 1 0) 46 1 1)

/-- One block of a write at a Cove, its bytes already visible (R149, R152). -/
def State.writeBlock (s : State) (c : Nat) (q : CliffReq) (whole : Bool) (b : Nat) : State :=
  let set := coveSet b
  let s := if whole then s.heal (c * 0x2000000000 + 256 * b) else s
  match s.findWay c b with
  | some w =>
    let s := if whole && lineFilling (s.coveLine c set w) then s.overwriteFill c b w else s
    let s := s.accessLine c set w q
    if q.hint = 1 then
      (if whole then s.setCoveLine c set w (setBits (s.coveLine c set w) 45 1 0) else s).writeThrough c b
    else s.setCoveLine c set w (s.coveLine c set w ||| 2 ^ 45)
  | none =>
    if q.hint = 1 then s.writeThrough c b
    else if whole || s.writingBack c b then
      let a := s.allocate c b q false
      if a.2.isSome then a.1 else a.1.writeThrough c b
    else
      let a := s.allocate c b q true
      let s := (a.1.bump Pd.coveMisses).queueAccess c { block := b, write := false, way := a.2, waiters := [], since := s.time }
      match a.2 with
      | some w => s.setCoveLine c set w (s.coveLine c set w ||| 2 ^ 45)
      | none => s.writeThrough c b

/-- Whether a request still waits for a block of Cliff `c`. -/
def State.reqWaits (s : State) (c : Nat) (q : CliffReq) : Bool :=
  let k := s.cliff c
  k.queues.any (fun e => e.2.any fun x => x.waiters.contains q)
    || k.inService.any fun e => match e.2 with
      | some x => x.waiters.contains q
      | none => false

/-- A read completed where nothing of it waits: the data it read when the Cove took it (R152), or none with a failing
status. -/
def State.finishReq (s : State) (c : Nat) (q : CliffReq) : State :=
  if s.reqWaits c q then s
  else match (s.cliff c).slots.find? fun e => e.1 == q with
    | none => s
    | some e => s.cliffReply c q e.2 (if e.2 = St.ok then q.data.map fun b => b.getD 0 else [])

/-- A request at its Cove, its address translated to `n`. -/
def State.coveAccept (s : State) (q : CliffReq) (ecc : Ecc) (n : Nat) : State :=
  let c := natCliff n
  if q.write then
    let s := s.putBytes n q.data
    let s := (reqBlocks n q.blocks).zipIdx.foldl (fun s e =>
      s.writeBlock c q (((q.data.drop (256 * e.2)).take 256).all Option.isSome) e.1) s
    s.cliffAnswer q St.ok []
  else
    let r := { q with addr := n, data := enableAll (s.bytesAt n (256 * q.blocks)) }
    let k := s.cliff c
    let s := s.setCliff c { k with slots := k.slots ++ [(r, St.ok)] }
    ((reqBlocks n q.blocks).foldl (fun s b => s.readBlock c r [r] ecc b) s).finishReq c r

/-- The 64-byte lines of a request that the host may hold (spec/04 R101). -/
def State.trackedLines (s : State) (n blocks : Nat) : List Nat :=
  s.host.filter.filter fun l => decide (n ≤ 64 * l) && decide (64 * l < n + 256 * blocks)

/-- Whether an earlier request of the same requester to one of the same lines waits for the host (R152). -/
def State.behind (s : State) (q : CliffReq) (n : Nat) : Bool :=
  s.host.snoopWaits.any fun e => e.1.user == q.user && decide (e.1.addr < n + 256 * q.blocks) && decide (n < e.1.addr + 256 * e.1.blocks)

/-- A request issued, its address translated to `n`: put off until back-invalidate snoops are answered and the requests before it have
gone, or taken by its Cove. -/
def State.issue (s : State) (q : CliffReq) (ecc : Ecc) (n : Nat) : State :=
  let ls := s.trackedLines n q.blocks
  if ls.isEmpty && !s.behind q n then s.coveAccept q ecc n
  else
    let s := ls.foldl State.askBack s
    { s with host := { s.host with snoopWaits := s.host.snoopWaits ++ [({ q with part := none, runAhead := false, addr := n }, ecc)] } }

/-- A request checked, held back by its pool or a quota, or issued. Nothing is served without power. -/
def State.coveRequest (s : State) (q : CliffReq) (ecc : Ecc) : State :=
  if s.unpowered then s
  else match s.reqCheck q with
    | .fail code => (s.countAccess code).cliffAnswer q code []
    | .ok n =>
      if s.poolFull q.user then s
      else if s.overQuota q n then s.bump Pd.quotaWaits
      else s.issue q ecc n

/-- COVE_REQUEST. -/
def execCoveRequest (req : CliffReq) (ecc : Ecc) (s : State) : Res := .next (s.coveRequest { req with own := false } ecc)

/-- What an access without a descriptor carries: the Harbour's, a descriptor's or a list's (log 168). -/
def plainReq (u : CliffUser) (write : Bool) : CliffReq :=
  { user := u, part := none, write := write, addr := 0, blocks := 1, data := [], hint := 0, count := 0, tensor := 0
    runAhead := false, tag := 0 }

/-- The native Cliff blocks, in order, of native addresses. -/
def blocksOf (ns : List Nat) : List Nat := ((ns.filter isNative).map fun n => n / 256 * 256).eraseDups

/-- An access that is not a request of its own passes through its Cove (R146): the line reads of blocks at native addresses, whose
fetches nothing waits for (log 169). -/
def State.passRead (s : State) (q : CliffReq) (blocks : List Nat) : State :=
  blocks.foldl (fun s n => s.readBlock (natCliff n) q [] .clean (natLocal n / 256)) s

/-- The line writes of blocks at native addresses, `whole` those written whole. -/
def State.passWrite (s : State) (q : CliffReq) (whole : Nat → Bool) (blocks : List Nat) : State :=
  blocks.foldl (fun s n => s.writeBlock (natCliff n) q (whole n) (natLocal n / 256)) s

/-- Whether a list of native addresses covers a block. -/
def coversBlock (ns : List Nat) (n : Nat) : Bool := (List.range 256).all fun i => ns.contains (n + i)

/-! ### Scheduling (spec/06 R150) -/

/-- Whether a line access's bank can serve: no copy and no repair in it (R158, R159). -/
def State.bankFree (s : State) (c : Nat) (x : LineAcc) : Bool :=
  let st := blockStratum x.block
  let b := blockBank x.block
  (tget none (s.cliff c).copying (bankKey st b)).isNone
    && match s.repair with
       | some r => !(r.cliff == c && r.stratum == st && r.bank == b && decide (r.action < 3))
       | none => true

/-- The access a stratum's scheduler takes next (R150), and the write mode it is left in. The 32 and 8 line writes are those that wait
at the stratum, for a busy bank too (log 170). -/
def State.coveChoice (s : State) (c st : Nat) : Option LineAcc × Bool :=
  let k := s.cliff c
  let waiting := ((tget [] k.queues st).filter fun x => x.write).length
  let mode := if 32 ≤ waiting then true else if waiting ≤ 8 then false else tget false k.writeMode st
  let q := (tget [] k.queues st).filter fun x => s.bankFree c x
  let writes := q.filter fun x => x.write
  let reads := q.filter fun x => !x.write
  match q.find? fun x => decide (4 < s.time - x.since) with
  | some x => (some x, mode)
  | none =>
    let kind := if mode then (if writes.isEmpty then reads else writes) else if reads.isEmpty then writes else reads
    let hit := fun (x : LineAcc) => decide (tget none k.openRows (bankKey st (blockBank x.block)) = some (blockRow x.block))
    match kind.find? hit with
    | some x => (some x, mode)
    | none => (kind.head?, mode)

/-- COVE_SCHEDULE: an idle stratum, not held for recalibration, takes its next line access and opens its row. -/
def execCoveSchedule (cliff stratum : Nat) (s : State) : Res :=
  let k := s.cliff cliff
  if s.unpowered || s.cliffFenced cliff || s.halted (74 + cliff) || (tget none k.inService stratum).isSome || k.recal.contains stratum then .next s
  else match s.coveChoice cliff stratum with
    | (none, _) => .next s
    | (some x, mode) =>
      .next (s.setCliff cliff { k with
        queues := tset [] k.queues stratum ((tget [] k.queues stratum).erase x)
        inService := tset none k.inService stratum (some x)
        writeMode := tset false k.writeMode stratum mode
        openRows := tset none k.openRows (bankKey stratum (blockBank x.block)) (some (blockRow x.block)) })

/-! ### Errors of the strata (spec/06 R137, R158, R160) -/

/-- Spare rows of a bank used. -/
def State.sparesUsed (s : State) (c bank : Nat) : Nat := tget 0 (s.cliff c).usedRows bank

/-- Whether a row of `n` errors is one of the 64 rows with the most corrected errors, which the controller keeps (R158); of rows with
as many errors each counts as one of them (log 171). -/
def rowKept (t : Tab Nat) (n : Nat) : Bool := decide ((t.filter fun e => decide (n < e.2)).length < 64)

/-- A corrected read of a block: counted; a row that reaches ROW_WEAK_THRESHOLD is copied into a spare row of its bank,
or its page is retired where the bank has none (R158, R160). -/
def State.correctedRead (s : State) (c b : Nat) : State :=
  let st := blockStratum b
  let bank := bankKey st (blockBank b)
  let row := rowKey st (blockBank b) (blockRow b)
  let s := s.bump Pd.correctedErrors
  let n := tget 0 (s.cliff c).rowErrors row + 1
  let s := s.setCliff c { s.cliff c with rowErrors := tset 0 (s.cliff c).rowErrors row n }
  if n < s.reg Pd.rowWeakThreshold ∨ rowKept (s.cliff c).rowErrors n = false then s
  else if (tget none (s.cliff c).copying bank).isSome then s
  else if s.sparesUsed c bank < 16 then
    s.setCliff c { s.cliff c with copying := tset none (s.cliff c).copying bank (some (blockRow b)) }
  else s.retirePage c (blockPage b) St.sparesExhausted

/-- An uncorrectable read of a block: counted, the block stays uncorrectable until it is written whole, its page retires
(R160). -/
def State.uncorrectableRead (s : State) (c b : Nat) : State :=
  let key := c * 0x2000000000 + 256 * b
  let s := s.bump Pd.uncorrectableErrors
  let s := if s.badBlocks.contains key then s else { s with badBlocks := key :: s.badBlocks }
  s.retirePage c (blockPage b) St.uncorrectable

/-- The line of a completed fetch: valid, poisoned where it could not be corrected (R147, R153). -/
def State.fillLine (s : State) (c : Nat) (x : LineAcc) (poison : Bool) : State :=
  match x.way with
  | none => s
  | some w =>
    let set := coveSet x.block
    let v := setBits (s.coveLine c set w) 44 1 0 ||| 2 ^ 46
    s.setCoveLine c set w (if poison then v ||| 2 ^ 32 else v)

/-- STRATUM_ACCESS_DONE. -/
def execStratumAccessDone (cliff stratum : Nat) (ecc : Ecc) (s : State) : Res :=
  let k := s.cliff cliff
  match tget none k.inService stratum with
  | none => .next s
  | some x =>
    let t := s.setCliff cliff { k with inService := tset none k.inService stratum none }
    if s.unpowered then .next s
    else if x.write then .next t
    else
      let key := cliff * 0x2000000000 + 256 * x.block
      let bad := ecc == .uncorrectable || s.badBlocks.contains key
      let poison := !bad && s.poisonBlocks.contains key
      let t := match ecc with
        | .corrected => if bad then t else t.correctedRead cliff x.block
        | _ => t
      let t := if bad then t.uncorrectableRead cliff x.block else t
      let t := if poison then t.bump Pd.uncorrectableErrors else t
      let t := t.fillLine cliff x (bad || poison)
      let t := if bad || poison then x.waiters.foldl (fun t q => t.worsen cliff q St.uncorrectable) t else t
      .next (x.waiters.foldl (fun t q => t.finishReq cliff q) t)

/-- BANK_REFRESH (R135): the bank is refreshed and its row closed. -/
def execBankRefresh (cliff stratum bank : Nat) (s : State) : Res :=
  let k := s.cliff cliff
  let b := bankKey stratum bank
  .next (s.setCliff cliff { k with openRows := tset none k.openRows b none
                                   refreshed := tset 0 k.refreshed b (tget 0 k.refreshed b + 1) })

/-- SOFT_REPLACEMENT_DONE (R158): the row is remapped to a spare, logged, counted, and its errors start afresh. -/
def execSoftReplacementDone (cliff stratum bank : Nat) (s : State) : Res :=
  let k := s.cliff cliff
  let b := bankKey stratum bank
  match tget none k.copying b with
  | none => .next s
  | some row =>
    let r := rowKey stratum bank row
    .next ((s.bump Pd.softReplacements).setCliff cliff { k with
      copying := tset none k.copying b none
      softRows := r :: k.softRows.erase r
      usedRows := tset 0 k.usedRows b (tget 0 k.usedRows b + 1)
      rowErrors := terase k.rowErrors r })

/-- STRATUM_FAILURE (R162): after READY the stratum is held for recalibration. -/
def execStratumFailure (cliff stratum : Nat) (s : State) : Res :=
  let k := s.cliff cliff
  if s.isReady && !s.cliffFenced cliff && !k.recal.contains stratum then
    .next (s.setCliff cliff { k with recal := stratum :: k.recal })
  else .next s

/-- STRATUM_RECAL_DONE (R162): the stratum serves again, or the whole Cliff and its Cove are fenced. -/
def execStratumRecalDone (cliff stratum : Nat) (ok : Bool) (s : State) : Res :=
  let k := s.cliff cliff
  if k.recal.contains stratum then
    let t := s.setCliff cliff { k with recal := k.recal.erase stratum }
    .next (if ok then t else t.cliffFails cliff)
  else .next s

/-! ### Unpinning (spec/06 R148) -/

/-- A write to UNPIN_TENSOR is answered once every Cove has unpinned the tensor. -/
def serveUnpin : Serve := fun _ _ q s =>
  { state := { s with unpinning := s.unpinning ++ [q.value] }, wait := some .unpin }

/-- UNPIN_TENSOR. -/
def execUnpinTensor (o : Origin) (tensor : BitVec 16) (s : State) : Res :=
  .next (s.receiveOwn serveUnpin (ownWrite o Pd.unpinTensor 0 (natLE 2 tensor.toNat)))

/-- A line of the tensor unpinned: reuse-count with COUNT 0. -/
def unpinLine (tensor v : Nat) : Nat :=
  if lineHint v = 2 ∧ lineTensor v = tensor then setBits (setBits v 42 2 0) 38 4 0 else v

/-- UNPIN_DONE. -/
def execUnpinDone (s : State) : Res :=
  match s.unpinning with
  | [] => .next s
  | tensor :: rest =>
    let t := { s with
      unpinning := rest
      pd := tmap 0 (fun k v => if k / 16777216 = Pd.coveLineState then unpinLine tensor v else v) s.pd }
    match t.gdp.inflight.find? fun (p : Pending) => decide (p.wait = .unpin) with
    | some p => .next (t.answer p St.ok)
    | none => .next t

/-! ### Repair (spec/06 R159, R160, R163) -/

/-- Fuses of a bank used. -/
def State.fusesUsedIn (s : State) (c bank : Nat) : Nat := tget 0 (s.cliff c).fusesUsed bank

/-- The result record of a Repair run (Table 06-8). -/
def State.repairRecord (s : State) (code : BitVec 16) (c bank us : Nat) : List Byte :=
  codeBytes code ++ natLE 2 (20 - s.fusesUsedIn c bank) ++ natLE 4 us

/-- A Repair run ended with its one record. -/
def State.repairEnd (s : State) (code : BitVec 16) (c bank us : Nat) : State :=
  { (s.opFill 5 0 (s.repairRecord code c bank us)).opEnd 5 (if code = St.ok then 3 else 4) code with repair := none }

/-- Whether an argument names an action and a place that exist (Table 06-8; log 15). -/
def repairArgOk (action c stratum bank row : Nat) : Bool :=
  decide (1 ≤ action) && decide (action ≤ 3) && decide (c < 20)
    && (action == 3 || (decide (stratum < 256) && decide (bank < 32) && (action == 2 || decide (row < 10240))))

/-- A Repair START: refused with CONFLICT while a restore is DEFERRED or RUNNING; actions 1 and 2 take the bank out of
service or fail with NO_SPARE at once; action 3 retires the Cliff's RETIRING pages (R160, R163). A START that names a fenced Cliff is
refused with FENCED before BUSY and CONFLICT are looked for: the spec gives it no status (DESIGN CHOICE, log 186). -/
def serveRepair : Serve := fun _ _ q s =>
  let f := fun lo n => listField q.data lo n
  let action := f 0 1
  let c := f 1 1
  let stratum := f 2 2
  let bank := f 4 1
  let row := f 6 2
  let b := bankKey stratum bank
  if !repairArgOk action c stratum bank row then refuse s St.invalidValue
  else if s.cliffFenced c then refuse s St.fenced
  else if s.opBusy 5 then refuse s St.busy
  else if s.opActive 4 then refuse s St.conflict
  else
    let t := s.opStart 5 2 1
    if action = 3 then acceptedStart ((t.retireAll fun x => x == c).repairEnd St.ok c b 0) 5 false
    else
      let possible := if action = 1 then (s.cliff c).softRows.contains (rowKey stratum bank row)
        else decide (tget 0 (s.cliff c).usedGroups b < 4)
      if possible then
        acceptedStart { t with repair := some { action := action, cliff := c, stratum := stratum, bank := bank, row := row } } 5 false
      else acceptedStart (t.repairEnd St.noSpare c b 0) 5 false

/-- The argument of a Repair START (Table 06-8). -/
def repairArg (action : Nat) (cliff : BitVec 8) (stratum : BitVec 16) (bank : BitVec 8) (row : BitVec 16) : List Byte :=
  [BitVec.ofNat 8 action, cliff] ++ natLE 2 stratum.toNat ++ [bank, 0] ++ natLE 2 row.toNat

/-- REPAIR_ROW_PERMANENT. -/
def execRepairRowPermanent (o : Origin) (cliff : BitVec 8) (stratum : BitVec 16) (bank : BitVec 8) (row : BitVec 16)
    (s : State) : Res :=
  .next (s.receiveOwn serveRepair (ownWrite o Pd.repairStart 0 (repairArg 1 cliff stratum bank row)))

/-- REPAIR_COLUMN_GROUP. -/
def execRepairColumnGroup (o : Origin) (cliff : BitVec 8) (stratum : BitVec 16) (bank : BitVec 8) (group : BitVec 16)
    (s : State) : Res :=
  .next (s.receiveOwn serveRepair (ownWrite o Pd.repairStart 0 (repairArg 2 cliff stratum bank group)))

/-- REPAIR_RETIRE_PAGES. -/
def execRepairRetirePages (o : Origin) (cliff : BitVec 8) (s : State) : Res :=
  .next (s.receiveOwn serveRepair (ownWrite o Pd.repairStart 0 (repairArg 3 cliff 0 0 0)))

/-- A fuse burned: one more used in the bank, one more record in the Cliff's fuse map (PD 0x3840.21). -/
def State.burnFuse (s : State) (r : RepairRun) : State :=
  let b := bankKey r.stratum r.bank
  let k := s.cliff r.cliff
  let n := k.fusesUsed.foldl (fun a e => a + e.2) 0
  let rec_ := r.stratum + r.bank * 2 ^ 16 + (r.action - 1) * 2 ^ 24 + r.row * 2 ^ 32
  let k := { k with fusesUsed := tset 0 k.fusesUsed b (tget 0 k.fusesUsed b + 1) }
  let k := if r.action = 1 then { k with softRows := k.softRows.erase (rowKey r.stratum r.bank r.row) }
    else { k with usedGroups := tset 0 k.usedGroups b (tget 0 k.usedGroups b + 1) }
  (s.setCliff r.cliff k).wr (Pd.fuseMap + r.cliff) n rec_

/-- REPAIR_DONE (R159): the bank serves again; the fuse took, or the run fails with REPAIR_FAILED. -/
def execRepairDone (fuseTook : Bool) (s : State) : Res :=
  match s.repair with
  | none => .next s
  | some r =>
    let us := if r.action = 1 then 2500 else 3000
    let b := bankKey r.stratum r.bank
    if fuseTook then .next ((s.burnFuse r).repairEnd St.ok r.cliff b us)
    else .next (s.repairEnd St.repairFailed r.cliff b us)

/-! ### Bulk copy (spec/06 R164) -/

/-- Whether some block of Cliff `c` with q from `q0` to `q1` lies in alias blocks `b0` to `b1`. -/
def aliasMeets (c q0 q1 b0 b1 : Nat) : Bool :=
  let lo := max q0 (b0 / 20)
  let hi := min q1 (b1 / 20)
  let inRange := fun q =>
    let b := nativeToAlias c (256 * q) / 256
    decide (b0 ≤ b) && decide (b ≤ b1)
  decide (lo ≤ hi) && (decide (lo + 1 < hi) || inRange lo || inRange hi)

/-- Whether every byte of a range is backed, not retired and in no fenced Cliff, in either view (R164). -/
def State.rangeUsable (s : State) (a len : Nat) : Bool :=
  if isNative a then
    decide (natLocal a + len ≤ cliffBytes) && !s.cliffFenced (natCliff a)
      && !s.retiredRecords.any fun e => e.2.1 == natCliff a && e.2.2.1 == 2
        && decide (natLocal a < (e.2.2.2 + 1) * 0x200000) && decide (e.2.2.2 * 0x200000 < natLocal a + len)
  else
    let x := a - aliasBase
    let b0 := x / 256
    let b1 := (x + len - 1) / 256
    isAlias a && decide (x + len ≤ aliasBytes)
      && !(List.range 20).any (fun c => s.cliffFenced c && aliasMeets c 0 335544319 b0 b1)
      && !s.retiredRecords.any fun e => e.2.2.1 == 2 && aliasMeets e.2.1 (8192 * e.2.2.2) (8192 * e.2.2.2 + 8191) b0 b1

/-- A Bulk copy START. A length of 0 counts as not permitted (log 15). -/
def serveBulkCopy : Serve := fun _ _ q s =>
  let src := listField q.data 0 8
  let dst := listField q.data 8 8
  let len := listField q.data 16 8
  if len = 0 ∨ len % 256 ≠ 0 ∨ 0x1000000000 < len then refuse s St.invalidValue
  else if !(s.rangeUsable src len && s.rangeUsable dst len) then refuse s St.invalidValue
  else if s.opBusy 6 then refuse s St.busy
  else if s.opActive 4 then refuse s St.conflict
  else acceptedStart { s.opStart 6 2 ((len + 0x1FFFFF) / 0x200000) with bulk := some (src, dst, len) } 6 false

/-- BULK_COPY_START. -/
def execBulkCopyStart (o : Origin) (source dest length : BitVec 64) (s : State) : Res :=
  .next (s.receiveOwn serveBulkCopy (ownWrite o Pd.bulkCopyStart 0
    (natLE 8 source.toNat ++ natLE 8 dest.toNat ++ natLE 8 length.toNat)))

/-- The native address of a byte known to be backed. -/
def nativeOf (a : Nat) : Nat := (cliffNative a).getD 0

/-- Whether the block of a byte is uncorrectable. -/
def State.isBad (s : State) (a : Nat) : Bool := s.blockBad (nativeOf a)

/-- 256 bytes read in either view, byte by byte, for ranges that need not be aligned. -/
def State.viewBytes (s : State) (a n : Nat) : List Byte := (List.range n).map fun i => s.byteAt (nativeOf (a + i))

/-- Bytes written in either view. -/
def State.viewWrite (s : State) (a : Nat) (bs : List Byte) : State :=
  bs.zipIdx.foldl (fun s e => s.putBytes (nativeOf (a + e.2)) [some e.1]) s

/-- What reading 256 bytes of a copy's source meets: an access of a Cliff fenced since the START, an uncorrectable block, or nothing
(log 172). -/
def State.copyFault (s : State) (src dst : Nat) : Option (BitVec 16) :=
  if [src, src + 255, dst, dst + 255].any fun a => s.cliffFenced (natCliff (nativeOf a)) then some St.fenced
  else if s.isBad src || s.isBad (src + 255) then some St.uncorrectable
  else none

/-- The native blocks of 256 bytes at an address in either view. -/
def viewBlocks (a : Nat) : List Nat := [nativeOf a / 256 * 256, nativeOf (a + 255) / 256 * 256].eraseDups

/-- One 256-byte block copied, read from `old`, through the Coves; an uncorrectable one leaves its destination poisoned. -/
def State.copyBlock (s old : State) (src dst : Nat) : State :=
  match old.copyFault src dst with
  | some c =>
    if c = St.fenced then s
    else (viewBlocks dst).foldl State.poison (s.viewWrite dst (old.viewBytes src 256))
  | none =>
    let s := s.passRead (plainReq .harbour false) (viewBlocks src)
    (s.viewWrite dst (old.viewBytes src 256)).passWrite (plainReq .harbour true) (fun _ => dst % 256 == 0) (viewBlocks dst)

/-- The result record of the `i`-th 2 MiB of a copy (Table 06-8). -/
def State.copyRecord (old : State) (src dst len i : Nat) : List Byte × Bool :=
  let n := min 0x200000 (len - i * 0x200000)
  let faults := (List.range (n / 256)).filterMap fun j => old.copyFault (src + i * 0x200000 + 256 * j) (dst + i * 0x200000 + 256 * j)
  let lost := (faults.filter fun c => decide (c = St.fenced)).length
  (codeBytes (faults.headD St.ok) ++ [0, 0] ++ natLE 4 (n - 256 * lost), !faults.isEmpty)

/-- BULK_COPY_DONE: the bytes are copied as though through a buffer; a block read as uncorrectable makes the run end
PARTIAL. -/
def execBulkCopyDone (s : State) : Res :=
  match s.bulk with
  | none => .next s
  | some (src, dst, len) =>
    let t := (List.range (len / 256)).foldl (fun t i => t.copyBlock s (src + 256 * i) (dst + 256 * i)) s
    let rows := (List.range ((len + 0x1FFFFF) / 0x200000)).map fun i => s.copyRecord src dst len i
    let bad := rows.any fun r => r.2
    .next { (t.opFillAll 6 (rows.map fun r => r.1)).opEnd 6 3 (if bad then St.partialRun else St.ok) with bulk := none }

/-! ### Chart walks and rebuilds at the Coves (spec/06 R157, R165) -/

/-- The blocks of the tables that a rebuild reads. -/
def State.tableBlocks (s : State) (base : Nat) : List Nat :=
  let tables := (List.range 4608).filterMap fun i =>
    let e := s.tableEntry (base + 8 * rebuildIndex i)
    if entryValid e && !entryLeaf e && tableOk (entryTarget e) then some (entryTarget e) else none
  ((List.range 512).map fun i => base + 256 * i) ++ tables.flatMap fun t => (List.range 16).map fun i => t + 256 * i

/-- CHART_REBUILD_DONE: every entry passed: the new Chart is active and the partition's translation caches are emptied;
else the run fails and the previous Chart stays (R165). -/
def execChartRebuildDone (s : State) : Res :=
  match s.rebuild with
  | some p =>
    if (s.op 7).state = 2 then
      let base := s.rebuildBase
      let r := s.rebuildRecords base
      let t := { (s.passRead (plainReq .harbour false) (s.tableBlocks base)).opFillAll 7 r.1 with rebuild := none }
      if r.2 then
        let t := { t with chartBase := tset none t.chartBase p (some base), tlb := t.tlb.filter fun e => e.part != p }
        .next ((t.setReg (Pd.chartActive + p) 1).opEnd 7 3 St.ok)
      else .next (t.opEnd 7 4 St.invalidValue)
    else .next s
  | none => .next s

/-- The table entries that a walk of a Chart for an address reads. -/
def State.walkReads (s : State) (p a : Nat) : List Nat :=
  match tget none s.chartBase p with
  | none => []
  | some base =>
    let top := base + 8 * (a / 0x40000000)
    let e := s.tableEntry top
    if !topPermitted (a / 0x40000000) then []
    else if entryValid e && !entryLeaf e && tableOk (entryTarget e) then [top, entryTarget e + 8 * (a / 0x200000 % 512)]
    else [top]

/-- Whether the Harbour's pool and its quotas leave room for one more request at each of some native addresses (spec/02 R62, R143). -/
def State.harbourRoom (s : State) (ns : List Nat) : Bool :=
  !s.poolFull .harbour && !ns.any fun n => s.overQuota (plainReq .harbour false) n

/-- CHART_WALK_DONE: the entry the walk found is cached where it passes the checks; a failing one is not kept (R157). The walk's reads
are the Harbour's: they take slots of its pool, and wait where there are none (spec/02 R62). -/
def execChartWalkDone (user : CliffUser) (part addr : Nat) (s : State) : Res :=
  let reads := s.walkReads part addr
  if !s.harbourRoom reads then .next (if s.poolFull .harbour then s else s.bump Pd.quotaWaits)
  else
  let t := (s.passRead (plainReq .harbour false) (blocksOf reads)).bump Pd.chartWalks
  match s.chartWalk part addr with
  | none => .next t
  | some m =>
    .next { t with tlb := { user := user, part := part, base := m.base, bytes := m.bytes, entry := BitVec.ofNat 64 m.entry }
              :: t.tlb.filter fun e => !(e.user == user && e.part == part && e.base == m.base && e.bytes == m.bytes) }

end Sys2Proof.Machine
end

