-- ==== Sys2Proof/Machine/Sfn.lean ====
section
/-!
DEFINITION. The built-in special functions in SK-D1 mode and in the SK-L0 compatibility mode (spec/10 R265 to R275), and
the drain activations (spec/08 Table 08-6).
-/
namespace Sys2Proof.Machine

/-! ### The exact functions at nodes

A node is an exact dyadic argument. Each function answers the value to 80 bits or more below its leading one with its
last bit set where it is not exact, so that one rounding to 34 bits, or toward zero to FP32, gives what the exact value
gives. Logarithms and exponentials come from series of 256 fraction bits (log 16). -/

/-- 2^256, the unit of the series. -/
def unit256 : Nat := 2 ^ 256

/-- A non-negative dyadic value in units of 2^−256. -/
def Num.fixed : Num → Nat
  | .fin _ m e => m * 2 ^ (256 + e).toNat / 2 ^ (-(256 + e)).toNat
  | _ => 0

/-- An inexact value of `v` units of 2^−256. -/
def inexact (v : Nat) : Num := .fin false (2 * v + 1) (-257)

/-- The terms r^i / i! summed, i from 0, `n` terms, in units of 2^−256. -/
def expSeries (r : Nat) : Nat → Nat → Nat → Nat → Nat
  | 0, _, _, sum => sum
  | n + 1, i, term, sum => expSeries r n (i + 1) (term * r / (unit256 * (i + 1))) (sum + term)

/-- A number squared `n` times, in units of 2^−256. -/
def squares : Nat → Nat → Nat
  | 0, y => y
  | n + 1, y => squares n (y * y / unit256)

/-- e^−t for t of `t` units, in units of 2^−256. -/
def expNeg (t : Nat) : Nat := squares 12 (unit256 * unit256 / expSeries (t / 4096) 60 0 unit256 0)

/-- z + z³/3 + z⁵/5 + …, `n` terms. -/
def atanhSeries (z2 : Nat) : Nat → Nat → Nat → Nat → Nat
  | 0, _, _, sum => sum
  | n + 1, i, power, sum => atanhSeries z2 n (i + 2) (power * z2 / unit256) (sum + power / i)

/-- atanh of a / b in units of 2^−256, for a / b at most 1/3. -/
def atanhOf (a b : Nat) : Nat :=
  let z := unit256 * a / b
  atanhSeries (z * z / unit256) 90 1 z 0

/-- The greatest `n`-bit number whose square is at most x. -/
def isqrtBits : Nat → Nat → Nat → Nat
  | 0, r, _ => r
  | n + 1, r, x => isqrtBits n (if (r + 2 ^ n) * (r + 2 ^ n) ≤ x then r + 2 ^ n else r) x

/-- The greatest y of the form r plus `n` bits with y^256 at most x. -/
def root256Bits : Nat → Nat → Nat → Nat
  | 0, r, _ => r
  | n + 1, r, x => root256Bits n (if (r + 2 ^ n) ^ 256 ≤ x then r + 2 ^ n else r) x

/-- 2^c for c = k / 256, k from 0 to 256. -/
def exp2Node (c : Num) : Num :=
  let k := (c.scale 8).floor.toNat
  if k = 0 then .ofNat 1
  else if k = 256 then .ofNat 2
  else .fin false (2 * root256Bits 43 0 (2 ^ (256 * 42 + k)) + 1) (-43)

/-- log2 c for 1 ≤ c ≤ 2. -/
def log2Node (c : Num) : Num :=
  let m := c.fixed
  if m = unit256 then .zero
  else if m = 2 * unit256 then .ofNat 1
  else inexact (unit256 * atanhOf (m - unit256) (m + unit256) / atanhOf 1 3)

/-- 1 / c. -/
def recipNode (c : Num) : Num := (Num.ofNat 1).div c

/-- 1 / √c for 1 ≤ c ≤ 4. -/
def rsqrtNode (c : Num) : Num :=
  let m := c.fixed
  let q := 2 ^ 416 / m
  let r := isqrtBits 81 0 q
  if r * r * m = 2 ^ 416 then .fin false r (-80) else .fin false (2 * r + 1) (-81)

/-- tanh c for c above 0. -/
def tanhNode (c : Num) : Num :=
  let e := expNeg (2 * c.fixed)
  inexact ((unit256 - e) * unit256 / (unit256 + e))

/-- 1 / (1 + e^−c). -/
def logisticNode (c : Num) : Num :=
  let e := expNeg c.fixed
  if c.sign then inexact (e * unit256 / (unit256 + e)) else inexact (unit256 * unit256 / (unit256 + e))

/-! ### Segments (R267, R274) -/

/-- Q(u) of the segment from `a` of `width` 2^w, at argument `m` (R267). -/
def quadratic (f : Num → Num) (a : Num) (w : Int) (m : Num) : Num :=
  let width := (Num.ofNat 1).scale w
  let y0 := roundSig 34 (f a)
  let ym := roundSig 34 (f (a.add (width.scale (-1))))
  let y1 := roundSig 34 (f (a.add width))
  let u := (m.sub a).scale (-w)
  let c1 := ((ym.scale 2).sub (y0.mul (.ofNat 3))).sub y1
  let c2 := ((y0.scale 1).sub (ym.scale 2)).add (y1.scale 1)
  y0.add (u.mul (c1.add (u.mul c2)))

/-- Y0 + u (Y1 − Y0) of a segment of SK-L0, its nodes rounded toward zero to FP32 (R274). -/
def linear (f : Num → Num) (a : Num) (w : Int) (m : Num) : Num :=
  let y0 := fp32.round .zero (f a)
  let y1 := fp32.round .zero (f (a.add ((Num.ofNat 1).scale w)))
  y0.add (((m.sub a).scale (-w)).mul (y1.sub y0))

/-- The first argument of the segment of width 2^w, counted from `start`, that holds `m`. -/
def segmentStart (start : Num) (w : Int) (m : Num) : Num :=
  start.add ((Num.ofInt ((m.sub start).scale (-w)).floor).scale w)

/-- A magnitude as 2^e × r with 1 ≤ r < 2. -/
def binade (x : Num) : Int × Num := (x.top, x.abs.scale (-x.top))

/-- The segment of a magnitude within its binade, of 2^n segments, and its width exponent; on the negative side the
segment runs upwards to it, so it starts one width further out. -/
def binadeSegment (x : Num) (n : Nat) : Num × Int :=
  let w := x.top - (n : Int)
  let a := segmentStart .zero w x.abs
  if x.sign then ((a.add ((Num.ofNat 1).scale w)).neg, w) else (a, w)

/-- What the modes differ in: 128 quadratic segments or 256 linear ones to a binade (R268, Table 10-5). -/
structure SfnMode where
  compat : Bool
deriving DecidableEq, Repr

def SfnMode.levels (k : SfnMode) : Nat := if k.compat then 8 else 7
def SfnMode.eval (k : SfnMode) : (Num → Num) → Num → Int → Num → Num := if k.compat then linear else quadratic

/-- The final rounding: to nearest even, or in SK-L0 mode toward zero with a result below 2^−126 flushed (R267, R274). -/
def SfnMode.finish (k : SfnMode) (x : Num) : F32 :=
  if k.compat then
    let y := fp32.round .zero x
    if !x.isZero && decide (x.top < -126) then pat (.fin x.sign 0 0) else pat y
  else to32 x

/-- The argument: in SK-L0 mode a subnormal reads as zero of its sign. -/
def SfnMode.arg (k : SfnMode) (x : F32) : Num :=
  let v := val x
  if k.compat && !v.isZero && v.isFin && decide (v.top < -126) then .fin v.sign 0 0 else v

/-! ### The functions (Tables 10-2, 10-3 and 10-5) -/

/-- 2^x for a finite x, exact but for the interpolation. -/
def SfnMode.exp2Exact (k : SfnMode) (x : Num) : Num :=
  let n := x.floor
  let f := x.sub (.ofInt n)
  (k.eval exp2Node (segmentStart .zero (-(k.levels : Int)) f) (-(k.levels : Int)) f).scale n

def SfnMode.exp2 (k : SfnMode) (x : F32) : F32 :=
  match k.arg x with
  | .nan => nan32
  | .inf s => if s then zero32 else inf32
  | v => k.finish (k.exp2Exact v)

def sfnLog2 (x : F32) : F32 :=
  match val x with
  | .nan => nan32
  | .inf s => if s then nan32 else inf32
  | .fin s m e =>
    if m = 0 then ninf32
    else if s then nan32
    else
      let b := binade (.fin s m e)
      let y := (quadratic log2Node (segmentStart (.ofNat 1) (-7) b.2) (-7) b.2).add (.ofInt b.1)
      if y.isZero then zero32 else to32 y

def SfnMode.recip (k : SfnMode) (x : F32) : F32 :=
  match k.arg x with
  | .nan => nan32
  | .inf s => pat (.fin s 0 0)
  | .fin s m e =>
    if m = 0 then pat (.inf s)
    else
      let b := binade (.fin s m e)
      let w := -(k.levels : Int)
      let q := (k.eval recipNode (segmentStart (.ofNat 1) w b.2) w b.2).scale (-b.1)
      k.finish (if s then q.neg else q)

def sfnRsqrt (x : F32) : F32 :=
  match val x with
  | .nan => nan32
  | .inf s => if s then nan32 else zero32
  | .fin s m e =>
    if m = 0 then pat (.inf s)
    else if s then nan32
    else
      let b := binade (.fin s m e)
      let j := b.1 / 2
      let r := b.2.scale (b.1 % 2)
      let a := if r.lt (.ofNat 2) then (segmentStart (.ofNat 1) (-7) r, (-7 : Int)) else (segmentStart (.ofNat 2) (-6) r, -6)
      to32 ((quadratic rsqrtNode a.1 a.2 r).scale (-j))

/-- The largest FP32 value below a power of two 2^e, or below −2^e or −17 (the magnitude one step up). -/
def belowPower (e : Int) : Num := .fin false (2 ^ 24 - 1) (e - 24)

/-- tanh of a magnitude before clamping: SK-D1 interpolates [2^−11, 16), SK-L0 [2^−8, 8). -/
def SfnMode.tanhRaw (k : SfnMode) (x : Num) : F32 :=
  let lo : Int := if k.compat then -8 else -11
  let hi : Int := if k.compat then 3 else 4
  if x.isZero || decide (x.top < lo) then pat x
  else if hi ≤ x.top then one32
  else
    let g := binadeSegment x k.levels
    k.finish (k.eval tanhNode g.1 g.2 x)

/-- tanh of a magnitude, clamped at its method seams 2^−11 and 16 (R270). -/
def tanhClamped (x : Num) : F32 :=
  let k : SfnMode := ⟨false⟩
  let p1 := pat (belowPower (-11))
  let p2 := fmax (k.tanhRaw (belowPower 4)) p1
  if x.isZero || decide (x.top < -11) then pat x
  else if x.top < 4 then fmax (k.tanhRaw x) p1
  else fmax one32 p2

def SfnMode.tanh (k : SfnMode) (x : F32) : F32 :=
  let restore := fun (s : Bool) (y : F32) => if s then pat (val y).neg else y
  match k.arg x with
  | .nan => nan32
  | .inf s => restore s one32
  | v => restore v.sign (if k.compat then k.tanhRaw v.abs else tanhClamped v.abs)

/-- log2 e to 40 significant bits (R269). -/
def log2e40 : Num := .fin false 0xB8AA3B295C (-39)

/-- The logistic function before clamping, by the ranges of Tables 10-3 and 10-5. -/
def SfnMode.logisticRaw (k : SfnMode) (x : Num) : F32 :=
  let low : Int := if k.compat then -8 else -12
  let small := x.isZero || decide (x.top < low) || (!k.compat && x.eqv (.fin true 1 (-12)))
  if small then
    let y := (Num.fin false 1 (-1)).add (x.scale (-2))
    if k.compat then pat (fp32.round .zero y) else to32 y
  else if k.compat then
    if 4 ≤ x.top then (if x.sign then zero32 else one32)
    else
      let g := binadeSegment x 8
      k.finish (linear logisticNode g.1 g.2 x)
  else if x.sign then
    if x.lt (.ofInt (-17)) then to32 ((⟨false⟩ : SfnMode).exp2Exact (x.mul log2e40))
    else
      let g := binadeSegment x 7
      to32 (quadratic logisticNode g.1 g.2 x)
  else if 5 ≤ x.top then one32
  else
    let g := binadeSegment x 7
    to32 (quadratic logisticNode g.1 g.2 x)

/-- The logistic function, clamped at its method seams −17, −2^−12, 2^−12 and 32 (R270). -/
def logisticClamped (x : Num) : F32 :=
  let k : SfnMode := ⟨false⟩
  let p1 := k.logisticRaw (.fin true (17 * 2 ^ 19 + 1) (-19))
  let p2 := fmax (k.logisticRaw (.fin true (2 ^ 23 + 1) (-35))) p1
  let p3 := fmax (k.logisticRaw (belowPower (-12))) p2
  let p4 := fmax (k.logisticRaw (belowPower 5)) p3
  let y := k.logisticRaw x
  if x.lt (.ofInt (-17)) then y
  else if x.lt (.fin true 1 (-12)) then fmax y p1
  else if x.lt (.fin false 1 (-12)) then fmax y p2
  else if x.lt (.ofNat 32) then fmax y p3
  else fmax y p4

def SfnMode.logistic (k : SfnMode) (x : F32) : F32 :=
  match k.arg x with
  | .nan => nan32
  | .inf s => if s then zero32 else one32
  | v => if k.compat then k.logisticRaw v else logisticClamped v

/-- The SK-D1 mode. -/
abbrev sk : SfnMode := ⟨false⟩

/-- The built-in of a function code of Table 10-1, 0x00 to 0x05. -/
def builtin (fn : Nat) (compat : Bool) (x : F32) : F32 :=
  match fn with
  | 0 => (⟨compat⟩ : SfnMode).tanh x
  | 1 => (⟨compat⟩ : SfnMode).logistic x
  | 2 => (⟨compat⟩ : SfnMode).exp2 x
  | 3 => sfnLog2 x
  | 4 => (⟨compat⟩ : SfnMode).recip x
  | _ => sfnRsqrt x

/-! ### Activations (spec/08 Table 08-6) -/

/-- The activation of a code 0 to 5. -/
def activation (code : Nat) (y : F32) : F32 :=
  match code with
  | 0 => pat (val y)
  | 1 => if (val y).isNan then nan32 else if Num.zero.lt (val y) then y else zero32
  | 2 => sk.tanh y
  | 3 => sk.logistic y
  | 4 => fmul y (sk.logistic y)
  | _ =>
    let u := fmul y y
    let u := fmul u y
    let u := fmul u 0x3D372713
    let u := fadd u y
    let u := fmul u 0x3F4C422A
    let v := sk.tanh u
    let v := fadd v one32
    let v := fmul v y
    fmul v half32

end Sys2Proof.Machine
end

