-- ==== Sys2Proof/Machine/Operands.lean ====
section
/-!
DEFINITION. Tensor descriptors (chapter 07): their fields, footprints, loop order, the release checks of R185, overlap,
and reading and writing of elements through rooms and Charts with masks and block scales.
-/
namespace Sys2Proof.Machine

/-! ### Formats and fields (spec/07 Tables 07-1 to 07-4) -/

/-- Bytes of an element of a format stored in whole bytes; 0 for packed and planar ones. -/
def elemBytes (fmt : Nat) : Nat :=
  match fmt with
  | 0x01 => 4
  | 0x02 => 2
  | 0x03 => 2
  | 0x04 => 1
  | 0x05 => 1
  | 0x09 => 1
  | 0x0C => 4
  | _ => 0

/-- Packed formats, two elements to a byte. -/
def isPacked (fmt : Nat) : Bool := fmt == 0x08 || fmt == 0x0A

/-- Bit planes of a descriptor's planar format. -/
def Desc.planes (d : Desc) : Nat := if d.format = 0x0B then d.planeWidth else 6

/-- Planar formats. -/
def isPlanar (fmt : Nat) : Bool := fmt == 0x06 || fmt == 0x07 || fmt == 0x0B

/-- Bits of an element's code. -/
def Desc.bitsPer (d : Desc) : Nat :=
  if elemBytes d.format ≠ 0 then 8 * elemBytes d.format else if isPacked d.format then 4 else d.planes

/-- The 128 bytes of a descriptor read; the words of unused dimensions are ignored. -/
def parseDesc (b : List Byte) : Desc :=
  let c := listField b 8 8
  let dims := bits c 52 4
  let word := fun k => listField b (64 + 8 * k) 8
  { base := listField b 0 8 % 2 ^ 44, format := bits c 56 8, dims := dims, diagonal := c.testBit 51
    permEnable := c.testBit 50, prefetch := c.testBit 49, hint := bits c 46 2, count := bits c 42 4
    planeWidth := bits c 38 4, planeCode := bits c 36 2, scaleMode := bits c 34 2, maskSource := bits c 32 2
    indexPolicy := bits c 30 2, indexedDim := bits c 27 3, planeStride := listField b 16 8 % 2 ^ 40
    scaleBase := listField b 24 8 % 2 ^ 44, maskBase := listField b 32 8 % 2 ^ 44, perm := listField b 40 3
    tensor := listField b 44 2
    extents := (List.range (min dims 8)).map fun k => bits (word k) 36 28
    strides := (List.range (min dims 8)).map fun k => toSigned 36 (bits (word k) 0 36) }

/-! ### Loop order (spec/07 R179) -/

/-- The dimension that loop position j walks. -/
def Desc.dimAt (d : Desc) (j : Nat) : Nat := if d.permEnable then bits d.perm (3 * j) 3 else j

/-- Extents in loop order. -/
def Desc.shape (d : Desc) : List Nat := (List.range d.dims).map fun j => d.extents.getD (d.dimAt j) 0

/-- The element offset step at loop position j; a diagonal descriptor's elements are counted row by row (R181). -/
def Desc.stepAt (d : Desc) (j : Nat) : Int :=
  if d.diagonal then (if d.dimAt j = 0 then 1 else (d.extents.getD 0 0 : Nat)) else d.strides.getD (d.dimAt j) 0

/-- Elements of a shape. -/
def shapeCount (shape : List Nat) : Nat := shape.foldl (· * ·) 1

/-- Elements of a descriptor. -/
def Desc.elements (d : Desc) : Nat := shapeCount d.extents

/-- The indices of stream position k in a shape, loop position 0 first. -/
def unrank : List Nat → Nat → List Nat
  | [], _ => []
  | n :: t, k => k % n :: unrank t (k / n)

/-- The stream position of indices in a shape. -/
def rank : List Nat → List Nat → Nat
  | n :: t, i :: is => i + n * rank t is
  | _, _ => 0

/-- The element offset at loop indices. -/
def Desc.offsetAt (d : Desc) (idx : List Nat) : Int :=
  (idx.zipIdx).foldl (fun o e => o + (e.1 : Int) * d.stepAt e.2) 0

/-! ### Footprints (spec/07 R177, R178, R181) -/

/-- Least and greatest element offset. -/
def Desc.offsetMin (d : Desc) : Int :=
  ((List.range d.dims).map fun k => min 0 (((d.extents.getD k 0 : Int) - 1) * d.strides.getD k 0)).foldl (· + ·) 0
def Desc.offsetMax (d : Desc) : Int :=
  ((List.range d.dims).map fun k => max 0 (((d.extents.getD k 0 : Int) - 1) * d.strides.getD k 0)).foldl (· + ·) 0

/-- Wing and offset of a diagonal descriptor. -/
def Desc.wing (d : Desc) : Nat := (d.base - 0x0C0000000000) / 0x800000
def Desc.wingOffset (d : Desc) : Nat := (d.base - 0x0C0000000000) % 0x800000

/-- Address intervals, inclusive. -/
abbrev Interval := Int × Int

/-- The data part. -/
def Desc.dataParts (d : Desc) : List Interval :=
  if d.diagonal then
    (List.range 32).map fun k =>
      let lo : Int := roomAddr (32 * d.wing + k) d.wingOffset
      (lo, lo + 4096 * ((d.extents.getD 1 0 + 31) / 32 : Nat) - 1)
  else
    let e := elemBytes d.format
    let hi := d.offsetMax
    if e ≠ 0 then [((d.base : Int) + e * d.offsetMin, (d.base : Int) + e * hi + e - 1)]
    else if isPacked d.format then [((d.base : Int), (d.base : Int) + hi / 2)]
    else [((d.base : Int), (d.base : Int) + (d.planes - 1 : Nat) * (d.planeStride : Int) + hi / 8)]

/-- The scale bytes' part. -/
def Desc.scaleParts (d : Desc) : List Interval :=
  if d.scaleMode = 1 then [((d.scaleBase : Int), (d.scaleBase : Int) + d.offsetMax / 32)] else []

/-- The mask's part. -/
def Desc.maskParts (d : Desc) : List Interval :=
  if d.maskSource = 1 then [((d.maskBase : Int), (d.maskBase : Int) + ((d.elements - 1) / 8 : Nat))] else []

/-- The footprint of R177. -/
def Desc.footprint (d : Desc) : List Interval := d.dataParts ++ d.scaleParts ++ d.maskParts

/-- Whether an interval lies in the House. -/
def inHouse (i : Interval) : Bool := decide (0x0C0000000000 ≤ i.1) && decide (i.2 < 0x0C0018000000)

/-- Whether it lies in one Cliff's backed native range, or in the backed part of the alias. -/
def inCliffs (i : Interval) : Bool :=
  decide (0 ≤ i.1) &&
    ((isNative i.1.toNat && decide (natLocal i.1.toNat + (i.2 - i.1).toNat < cliffBytes))
      || (decide ((aliasBase : Int) ≤ i.1) && decide (i.2 < (aliasBase + aliasBytes : Nat))))

/-- Whether an interval lies wholly within one area of R178. -/
def inOneArea (i : Interval) : Bool := inHouse i || inCliffs i

/-- Whether a descriptor's data lie in the Cliffs. -/
def Desc.onCliff (d : Desc) : Bool := !decide (0x0C0000000000 ≤ d.base) || !decide (d.base < 0x0C0018000000)

/-- Whether two footprints meet (R186). -/
def meets (a b : List Interval) : Bool := a.any fun x => b.any fun y => decide (x.1 ≤ y.2) && decide (y.1 ≤ x.2)

/-- The effective loop order. -/
def Desc.order (d : Desc) : List Nat := (List.range d.dims).map d.dimAt

/-- The exact-in-place exception of R186. -/
def sameInPlace (w r : Desc) : Bool :=
  w.base == r.base && w.format == r.format && w.diagonal == r.diagonal && w.dims == r.dims && w.extents == r.extents
    && w.strides == r.strides && w.planeWidth == r.planeWidth && w.planeCode == r.planeCode
    && w.planeStride == r.planeStride && w.scaleMode == r.scaleMode && w.scaleBase == r.scaleBase && w.order == r.order
    && (w.scaleMode != 1 || (w.dimAt 0 == 0 && w.strides.getD 0 0 == 1 && w.extents.getD 0 0 % 32 == 0))

/-! ### The checks of R185 -/

/-- A descriptor's role in a task. -/
inductive DescRole where
  | read | write | index | source | destination
deriving DecidableEq, Repr

/-- Whether PERM is permitted (R179). -/
def permOk (perm dims : Nat) : Bool :=
  let m := (List.range 8).map fun j => bits perm (3 * j) 3
  (List.range 8).all (fun v => m.contains v) && (List.range 8).all (fun j => decide (j < dims) || m.getD j 0 == j)
    && decide (((List.range 8).filter fun j => m.getD j 0 != j).length ≤ 6)

/-- Formats that may carry a block scale (R175). -/
def scalable (fmt : Nat) : Bool := [0x04, 0x05, 0x06, 0x07, 0x08, 0x09, 0x0A, 0x0B].contains fmt

/-- Check 5: planes, scale mode and strides. -/
def Desc.layoutOk (d : Desc) : Bool :=
  (if d.format = 0x0B then
     decide (1 ≤ d.planeWidth) && decide (d.planeWidth ≤ 8) && d.planeCode != 3 && d.scaleMode == 1
   else d.planeWidth == 0)
    && (d.scaleMode == 0 || (d.scaleMode == 1 && scalable d.format))
    && (!(isPacked d.format || isPlanar d.format || d.scaleMode == 1) || d.strides.all fun x => decide (0 ≤ x))
    && (!isPlanar d.format || (d.planeStride % 128 == 0 && decide (d.offsetMax / 8 + 1 ≤ (d.planeStride : Int))))

/-- Check 11: R181. -/
def Desc.diagonalOk (d : Desc) : Bool :=
  let e := elemBytes d.format
  e != 0 && d.dims == 2 && d.scaleMode == 0 && decide (0x0C0000000000 ≤ d.base) && decide (d.wing < 48)
    && d.wingOffset % 4096 == 0 && d.strides == [0, 0] && decide (d.extents.getD 0 0 * e ≤ 4096)
    && decide (d.wingOffset + 4096 * ((d.extents.getD 1 0 + 31) / 32) ≤ 0x40000)

/-- Checks 2 to 12 of R185. `masks`: masks are permitted (Tideway); `stream`: the task defines a mask stream. -/
def Desc.valid (d : Desc) (role : DescRole) (masks stream : Bool) : Bool :=
  decide (1 ≤ d.format) && decide (d.format ≤ 12) && (d.format != 0x0C || role == .index)
    && decide (1 ≤ d.dims) && decide (d.dims ≤ 8) && d.extents.all (fun e => decide (1 ≤ e))
    && (!d.permEnable || permOk d.perm d.dims)
    && d.layoutOk
    && (!d.onCliff || (d.hint != 3 && (d.hint != 0 || decide (1 ≤ d.count))))
    && (!d.prefetch || (role == .read && d.onCliff))
    && (d.maskSource == 0 || (masks && (d.maskSource == 1 || (d.maskSource == 2 && stream))))
    && (d.indexPolicy == 0 || role == .index)
    && (!(role == .source || role == .destination) || decide (d.indexedDim < d.dims))
    && (elemBytes d.format < 2 || d.base % elemBytes d.format == 0)
    && (!d.diagonal || d.diagonalOk)
    && (d.dataParts ++ d.scaleParts).all inOneArea && d.maskParts.all inHouse

/-! ### Accesses of a unit -/

/-- A unit as it accesses memory: what rooms and Cliffs know it as, and the partition of its task. -/
structure Agent where
  owner : Owner
  user  : CliffUser
  part  : Nat
deriving DecidableEq, Repr

/-- Why an access does not go on: it waits at a room, it waits for the host to give up a line (spec/04 R101), or it is
refused. -/
inductive Stop where
  | wait
  | snoop (line : Nat)
  | fail (code : BitVec 16) (addr : Nat) (write : Bool)
deriving DecidableEq, Repr

/-- Where an access leads: a byte of memory, or a run-ahead read that is suppressed. -/
inductive Place where
  | at (native : Nat) | suppressed
deriving DecidableEq, Repr

/-- An access at a House room by its owner, or a read by its reader (spec/05 R120, R133). -/
def State.housePlace (s : State) (g : Agent) (a : Nat) (write : Bool) : Except Stop Place :=
  match roomOfAddr a with
  | none => .error (.fail St.unmapped a write)
  | some r =>
    let q : RoomReq := { requester := ownerIndex g.owner, principal := some g.owner, cls := .owner, write := write
                         offset := 0, len := 1, data := [], tag := 0, lower := [] }
    if s.roomFenced r then .error (.fail St.fenced a write)
    else if s.roomWiping r || (tget none s.transposes (r / 32)).isSome then .error .wait
    else match s.roomVerdict r (s.usesPortB r q) q with
      | .serve => .ok (.at a)
      | .wait => .error .wait
      | .refuse => .error (.fail St.notOwner a write)

/-- An access of a unit at an address of R178 (spec/06 R155, R156). -/
def State.place (s : State) (g : Agent) (a : Nat) (write runAhead : Bool) : Except Stop Place :=
  if inHouse ((a : Int), (a : Int)) then s.housePlace g a write
  else
    match (if runAhead then s.runAheadCheck g.user g.part a else s.chartCheck g.user g.part a write) with
    | .ok n =>
      if s.host.filter.contains (n / 64) then .error (.snoop (n / 64))
      else if !write && s.blockBad n then .error (.fail St.uncorrectable a write)
      else .ok (.at n)
    | .fail c => if c = St.suppressed then .ok .suppressed else .error (.fail c a write)

/-- A byte read; none where the read is suppressed. -/
def State.unitByte (s : State) (g : Agent) (a : Nat) (runAhead : Bool) : Except Stop (Option Byte) :=
  match s.place g a false runAhead with
  | .ok (.at n) => .ok (some (s.byteAt n))
  | .ok .suppressed => .ok none
  | .error x => .error x

/-- Bytes read, all of them or, where one is suppressed, none. -/
def State.unitBytes (s : State) (g : Agent) (runAhead : Bool) : Nat → Nat → Except Stop (Option (List Byte))
  | _, 0 => .ok (some [])
  | a, n + 1 =>
    match s.unitByte g a runAhead, s.unitBytes g runAhead (a + 1) n with
    | .error x, _ => .error x
    | _, .error x => .error x
    | .ok (some b), .ok (some bs) => .ok (some (b :: bs))
    | _, _ => .ok none

/-- Bits `lo` to `lo + n − 1` of a byte written. -/
def State.putBits (s : State) (g : Agent) (a lo n v : Nat) : Except Stop State :=
  match s.place g a true false with
  | .ok (.at k) => .ok { s with mem := tset 0 s.mem k (BitVec.ofNat 8 (setBits (s.byteAt k).toNat lo n v)) }
  | .ok .suppressed => .ok s
  | .error x => .error x

/-- Bits of a byte written; a byte that is not written whole is read first, merged and written back (R176). -/
def State.unitWrite (s : State) (g : Agent) (a lo n v : Nat) : Except Stop State :=
  if n < 8 then
    match s.place g a false false with
    | .error x => .error x
    | .ok _ => s.putBits g a lo n v
  else s.putBits g a lo n v

/-- Bytes written in ascending order. -/
def State.unitWrites (s : State) (g : Agent) : Nat → List Byte → Except Stop State
  | _, [] => .ok s
  | a, b :: bs =>
    match s.unitWrite g a 0 8 b.toNat with
    | .ok t => State.unitWrites t g (a + 1) bs
    | .error x => .error x

/-- What an access that does not go on leaves: a back-invalidate snoop sent once, the refusal noted at its room, or
counted (spec/04 R101, spec/05 R120, PD 0x3C20). -/
def State.noteStop (s : State) (g : Agent) : Stop → State
  | .wait => s
  | .snoop l => s.askBack l
  | .fail code a write =>
    if code = St.notOwner then
      s.noteNotOwner ((roomOfAddr a).getD 0) (if g.user = .ingress then 5 else ownerIndex g.owner) (some g.owner) write
    else if code = St.uncorrectable then s.bump Pd.uncorrectableErrors
    else s.countAccess code

/-! ### Elements -/

/-- The pieces of the element at offset o, lowest code bits first: address, first bit, bits (R172, R173, R127). -/
def Desc.pieces (d : Desc) (o : Int) : List (Nat × Nat × Nat) :=
  let e := elemBytes d.format
  if d.diagonal then
    let r := o.toNat / d.extents.getD 0 1
    let c := o.toNat % d.extents.getD 0 1
    (List.range e).map fun i => (diagonalAddr d.wing (d.wingOffset + 4096 * (r / 32)) e (r % 32) c + i, 0, 8)
  else if e ≠ 0 then (List.range e).map fun i => (((d.base : Int) + e * o).toNat + i, 0, 8)
  else if isPacked d.format then [(d.base + o.toNat / 2, 4 * (o.toNat % 2), 4)]
  else (List.range d.planes).map fun p => (d.base + p * d.planeStride + o.toNat / 8, o.toNat % 8, 1)

/-- The conversion target of a descriptor's format. -/
def Desc.target (d : Desc) : Target := (targetOf d.format d.planeWidth d.planeCode).getD (.twos 32)

/-- The code of an element from its pieces; none where one is suppressed. -/
def State.readPieces (s : State) (g : Agent) (runAhead : Bool) : List (Nat × Nat × Nat) → Except Stop (Option Nat)
  | [] => .ok (some 0)
  | (a, lo, n) :: t =>
    match s.unitByte g a runAhead, s.readPieces g runAhead t with
    | .error x, _ => .error x
    | _, .error x => .error x
    | .ok (some b), .ok (some c) => .ok (some (bits b.toNat lo n + c * 2 ^ n))
    | _, _ => .ok none

/-- What a diagonal descriptor's access meets before any room is looked at: FENCED where any room of the wing is fenced,
else NOT_OWNER where any has another owner, noted at the first such room (R128). -/
def State.wingStop (s : State) (g : Agent) (d : Desc) (write : Bool) : Option Stop :=
  if d.diagonal then
    match s.wingRefusal d.wing g.owner with
    | none => none
    | some c =>
      let r := (((List.range 32).map fun k => 32 * d.wing + k).find? fun r => decide (s.roomOwnerOf r ≠ g.owner)).getD 0
      some (.fail c (roomAddr r 0) write)
  else none

/-- The code of the element at offset o. -/
def State.readCode (s : State) (g : Agent) (d : Desc) (runAhead : Bool) (o : Int) : Except Stop (Option Nat) :=
  match s.wingStop g d false with
  | some x => .error x
  | none => s.readPieces g (runAhead || d.prefetch) (d.pieces o)

/-- The scale byte of the element's block; 127 for an unscaled descriptor; none where it is suppressed. -/
def State.readScale (s : State) (g : Agent) (d : Desc) (runAhead : Bool) (o : Int) : Except Stop (Option Nat) :=
  if d.scaleMode = 1 then
    match s.unitByte g (d.scaleBase + o.toNat / 32) (runAhead || d.prefetch) with
    | .ok (some b) => .ok (some b.toNat)
    | .ok none => .ok none
    | .error x => .error x
  else .ok (some 127)

/-- The exact value of the element at offset o, its scale applied (R175). -/
def State.readNum (s : State) (g : Agent) (d : Desc) (runAhead : Bool) (o : Int) : Except Stop (Option Num) :=
  match s.readCode g d runAhead o, s.readScale g d runAhead o with
  | .error x, _ => .error x
  | _, .error x => .error x
  | .ok (some c), .ok (some e) => .ok (some (applyScale e (d.target.value c)))
  | _, _ => .ok none

/-- The 256-byte block (or House line) an element's data lie in, by which suppressed reads are counted. -/
def Desc.blockOf (d : Desc) (o : Int) : Nat :=
  match d.pieces o with
  | (a, _, _) :: _ => a / 256
  | [] => 0

/-- Bit k of the mask tensor (R183). -/
def State.maskBit (s : State) (g : Agent) (d : Desc) (k : Nat) : Except Stop Bool :=
  if d.maskSource = 1 then
    match s.unitByte g (d.maskBase + k / 8) false with
    | .ok (some b) => .ok (b.toNat.testBit (k % 8))
    | .ok none => .ok false
    | .error x => .error x
  else .ok true

/-- A code written at an element's pieces. -/
def State.writePieces (s : State) (g : Agent) : List (Nat × Nat × Nat) → Nat → Except Stop State
  | [], _ => .ok s
  | (a, lo, n) :: t, c =>
    match s.unitWrite g a lo n (c % 2 ^ n) with
    | .ok u => State.writePieces u g t (c / 2 ^ n)
    | .error x => .error x

/-- Saturations and NaNs of a conversion counted (spec/09 R251). -/
def State.countConversion (s : State) (x : Converted) : State :=
  let s := if x.saturated then s.bump Pd.convertSaturated else s
  if x.nanLost then s.bump Pd.nanConverted else s

/-- A value converted and written at offset o. -/
def State.writeValue (s : State) (g : Agent) (d : Desc) (o : Int) (x : Converted) : Except Stop State :=
  match s.wingStop g d true with
  | some e => .error e
  | none => (s.countConversion x).writePieces g (d.pieces o) (d.target.code x.value)

/-- Values written in order to an unscaled descriptor, each rounded to nearest even. -/
def State.writePlain (s : State) (g : Agent) (d : Desc) : List (Int × F32) → Except Stop State
  | [] => .ok s
  | (o, y) :: t =>
    match s.writeValue g d o (d.target.convert .near (val y)) with
    | .ok u => State.writePlain u g d t
    | .error x => .error x

/-- The values of a block of 32 after a write: written ones from `ws` (the last for each offset), the others decoded under
the old scale; each with whether it is written (R252). -/
def State.blockValues (s : State) (g : Agent) (d : Desc) (ws : List (Int × F32)) : List Nat → Except Stop (List (Nat × Num × Bool))
  | [] => .ok []
  | o :: t =>
    match State.blockValues s g d ws t with
    | .error x => .error x
    | .ok rest =>
      match ws.reverse.find? fun w => w.1 == (o : Int) with
      | some w => .ok ((o, val w.2, true) :: rest)
      | none =>
        match s.readNum g d false o with
        | .error x => .error x
        | .ok v => .ok ((o, v.getD .zero, false) :: rest)

/-- Values of a block written under its new scale. -/
def State.writeScaled (s : State) (g : Agent) (d : Desc) (e : Nat) : List (Nat × Num × Bool) → Except Stop State
  | [] => .ok s
  | (o, y, _) :: t =>
    match s.writeValue g d o (scaledConvert d.target e y) with
    | .ok u => State.writeScaled u g d e t
    | .error x => .error x

/-- The offsets of block b that lie within the footprint (R177, R178). -/
def Desc.blockOffsets (d : Desc) (b : Nat) : List Nat := ((List.range 32).map fun i => 32 * b + i).filter fun o => decide ((o : Int) ≤ d.offsetMax)

/-- The old scale byte of a block that is written in part; one written whole is not read first (R175, R252). -/
def State.oldScale (s : State) (g : Agent) (d : Desc) (ws : List (Int × F32)) (b : Nat) : Except Stop (Option Nat) :=
  if (d.blockOffsets b).all fun o => ws.any fun w => w.1 == (o : Int) then .ok none else s.readScale g d false (32 * b : Nat)

/-- One block of a scaled write: its new scale byte, and its elements; unwritten ones keep their bits where the scale
byte stays as it was (R211, R252). -/
def State.writeBlock32 (s : State) (g : Agent) (d : Desc) (ws : List (Int × F32)) (b : Nat) : Except Stop State :=
  match s.blockValues g d ws (d.blockOffsets b), s.oldScale g d ws b with
  | .error x, _ => .error x
  | _, .error x => .error x
  | .ok vs, .ok old =>
    let e := chooseScale d.target (vs.map fun v => v.2.1)
    match s.unitWrite g (d.scaleBase + b) 0 8 e with
    | .error x => .error x
    | .ok t => t.writeScaled g d e (if some e = old then vs.filter fun v => v.2.2 else vs)

/-- Blocks written in turn. -/
def State.writeBlocks (s : State) (g : Agent) (d : Desc) (ws : List (Int × F32)) : List Nat → Except Stop State
  | [] => .ok s
  | b :: t =>
    match s.writeBlock32 g d ws b with
    | .ok u => State.writeBlocks u g d ws t
    | .error x => .error x

/-- Elements written through a descriptor, in order; where two have one address the later stands (R180). -/
def State.writeElems (s : State) (g : Agent) (d : Desc) (ws : List (Int × F32)) : Except Stop State :=
  if d.scaleMode = 1 then s.writeBlocks g d ws (ws.map fun w => w.1.toNat / 32).eraseDups else s.writePlain g d ws

/-- The native addresses of an interval that a unit may write. -/
def State.writableBytes (s : State) (g : Agent) (i : Interval) : List Nat :=
  (List.range (i.2 - i.1 + 1).toNat).filterMap fun k =>
    match s.place g (i.1.toNat + k) true false with
    | .ok (.at n) => some n
    | _ => none

/-- Bytes made free: each takes a value nothing constrains (log 4). -/
def State.blurBytes (s : State) (keys : List Nat) : State :=
  { s with
    mem := (keys.zipIdx).foldl (fun m e => tset 0 m e.1 (BitVec.ofNat 8 (Config.free (s.fresh + e.2)))) s.mem
    fresh := s.fresh + keys.length }

/-- The write footprints of a failed task are undefined, but for the bytes of `kept` (spec/08 R470, spec/09 R261). -/
def State.blur (s : State) (g : Agent) (parts : List Interval) (kept : List Nat) : State :=
  s.blurBytes ((parts.flatMap (s.writableBytes g)).filter fun k => !kept.contains k)

/-- A room's bytes made free: what the spec does not state of a staging room's contents (log 17). -/
def State.blurRoom (s : State) (r : Nat) : State :=
  { s with
    mem := (s.mem.filter fun e => decide (e.1 < roomAddr r 0))
      ++ ((List.range 0x40000).filterMap fun i =>
            let b := BitVec.ofNat 8 (Config.free (s.fresh + i))
            if b = 0 then none else some (roomAddr r i, b))
      ++ (s.mem.filter fun e => decide (roomAddr (r + 1) 0 ≤ e.1))
    fresh := s.fresh + 0x40000 }

/-! ### Index tensors (spec/07 R187, R188) -/

/-- What the policy makes of an index. -/
inductive Selected where
  | at (i : Nat) (acted : Bool) | zero | fault
deriving DecidableEq, Repr

/-- Index v along a dimension of extent n. -/
def selectIndex (policy n : Nat) (v : Int) : Selected :=
  if 0 ≤ v ∧ v < n then .at v.toNat false
  else match policy with
    | 0 => .fault
    | 1 => .zero
    | 2 => .at (if v < 0 then 0 else n - 1) true
    | _ => .at (v % (n : Int)).toNat true

/-- Index j of an index tensor; one whose read is suppressed counts as 0 (log 18). -/
def State.readIndex (s : State) (g : Agent) (d : Desc) (runAhead : Bool) (j : Nat) : Except Stop Int :=
  match s.readCode g d runAhead (d.offsetAt [j]) with
  | .ok (some c) => .ok (toSigned 32 c)
  | .ok none => .ok 0
  | .error x => .error x

/-- The lowest position whose index is out of range, from `j`, `n` positions. -/
def State.firstBadIndex (s : State) (g : Agent) (d : Desc) (runAhead : Bool) (extent : Nat) : Nat → Nat → Except Stop (Option Nat)
  | _, 0 => .ok none
  | j, n + 1 =>
    match s.readIndex g d runAhead j with
    | .error x => .error x
    | .ok v => if 0 ≤ v ∧ v < (extent : Int) then State.firstBadIndex s g d runAhead extent (j + 1) n else .ok (some j)

end Sys2Proof.Machine
end

