-- ==== Sys2Proof/Machine/Units.lean ====
section
/-!
DEFINITION. What the compute units share: the fields of a task record (spec/11 Table 11-2), the unit as it accesses
memory, reading a task's descriptors at its release, and the end of a task in its unit.
-/
namespace Sys2Proof.Machine

/-! ### Units and task records -/

/-- The unit of sequencer u: 0 the Headland, 1 to 64 the engines, 65 the Estuary (spec/11 R293). -/
def unitOwner (u : Nat) : Owner := if u = 0 then .feeder else if u = 65 then .estuary else .engine (u - 1)

/-- The unit as a requester of the Cliffs. -/
def unitUser (u : Nat) : CliffUser := if u = 0 then .feeder 0 else if u = 65 then .estuary else .engine (u - 1)

/-- Unit u at work for a partition. -/
def agentOf (u part : Nat) : Agent := { owner := unitOwner u, user := unitUser u, part := part }

/-- A task's unit at work. -/
def Task.agent (t : Task) : Agent := agentOf t.unit t.part

/-- Whether a task's Cliff reads are run-ahead reads (spec/11 R320, R322). -/
def Task.runAhead (t : Task) : Bool := t.speculative && !t.rerun

/-- A field of a task record. -/
def recField (r : List Byte) (lo n : Nat) : Nat := listField r lo n
def recKind (r : List Byte) : Nat := recField r 0 1
def recUnit (r : List Byte) : Nat := recField r 1 1
def recSpeculative (r : List Byte) : Bool := (recField r 2 1).testBit 0
def recPartition (r : List Byte) : Nat := recField r 3 1
def recGuards (r : List Byte) : Nat := recField r 4 1
def recSignals (r : List Byte) : Nat := recField r 5 1
def recHandovers (r : List Byte) : Nat := recField r 6 1
def recDescs (r : List Byte) : Nat := recField r 7 1
def recTaskId (r : List Byte) : Nat := recField r 8 4

/-- The addresses of a task's descriptors. -/
def recDescAddrs (r : List Byte) : List Nat := (List.range (recDescs r)).map fun i => recField r (384 + 8 * i) 8 % 2 ^ 44

/-- The operation-specific part. -/
def recOperation (r : List Byte) : List Byte := (r.drop 512).take 192

/-- Handover entry i (Table 11-7). -/
def recHandover (r : List Byte) (i : Nat) : Nat := recField r (256 + 8 * i) 8

/-- A task's valid handover entries, in order. -/
def handoverEntries (r : List Byte) : List Nat := ((List.range (recHandovers r)).map (recHandover r)).filter fun h => h.testBit 63

/-- ROOM and SHADOW_ROOM of a handover entry, and the entry as an ownership word's fields. -/
def handoverRoom (h : Nat) : Nat := bits h 52 11
def handoverShadow (h : Nat) : Bool := h.testBit 47
def handoverWord (h : Nat) : Nat := setBits (setBits (h % 2 ^ 52) 27 20 0) 47 1 0

/-- DETAIL for what is found in the task record or the operation block (spec/11 Table 11-9). -/
def detailRecord : Nat := 0x100

/-! ### Release -/

/-- Why a release does not start a task: it waits for a room or a line, or the task completes at once with a code and
DETAIL; `stop` is the access that was refused, if one was. -/
inductive Reject where
  | wait (stop : Stop)
  | done (code : BitVec 16) (detail : Nat) (stop : Option Stop)
  | unread
deriving DecidableEq, Repr

/-- A refused access as a reason not to start. -/
def Reject.ofStop : Stop → Reject
  | .fail c a w => .done c 0 (some (.fail c a w))
  | x => .wait x

/-- A task refused by a check. -/
def Reject.invalid (detail : Nat) : Reject := .done St.descriptorInvalid detail none

/-- One descriptor read and checked (spec/07 R185): number `i`, at `addr`. A run-ahead read of it that is suppressed leaves
it unread (log 20). -/
def State.fetchDesc (s : State) (g : Agent) (runAhead : Bool) (i addr : Nat) (role : DescRole) (masks stream : Bool) :
    Except Reject Desc :=
  if addr % 128 ≠ 0 then .error (.invalid i)
  else match s.unitBytes g runAhead addr 128 with
    | .error x => .error (.ofStop x)
    | .ok none => .error .unread
    | .ok (some b) =>
      let d := parseDesc b
      if d.valid role masks stream then .ok d else .error (.invalid i)

/-- A task's descriptors, read and checked in order. -/
def State.fetchDescs (s : State) (g : Agent) (runAhead masks stream : Bool) : Nat → List (Nat × DescRole) → Except Reject (List Desc)
  | _, [] => .ok []
  | i, (a, role) :: t =>
    match s.fetchDesc g runAhead i a role masks stream with
    | .error x => .error x
    | .ok d =>
      match State.fetchDescs s g runAhead masks stream (i + 1) t with
      | .error x => .error x
      | .ok ds => .ok (d :: ds)

/-- Whether every interval lies in rooms that a task's handover entries name as its shadow rooms (spec/11 R318). -/
def inShadow (r : List Byte) (parts : List Interval) : Bool :=
  let rooms := (handoverEntries r).filterMap fun h => if handoverShadow h then some (handoverRoom h) else none
  parts.all fun x => inHouse x && ((List.range ((x.2 - x.1) / 0x40000 + 2).toNat).all fun k =>
    let a := min x.2 (x.1 + 0x40000 * (k : Nat))
    match roomOfAddr a.toNat with
    | some n => rooms.contains n
    | none => false)

/-- The sequencer record of a partition's stage that resolves the step sentinel: RUNNING or HELD (spec/14 R389). -/
def State.stageStep (s : State) (part : Nat) : Option Nat :=
  let w := s.rd Pd.stageTable part
  let st := byteField w 77 1
  if st = 1 ∨ st = 2 then some (byteField w 72 4) else none

/-- Whether an engine cycle with a number is a throttle idle cycle: `level` in 8 (spec/01 R41, log 21). -/
def State.throttled (s : State) (cycle : Nat) : Bool := decide (cycle % 8 < s.reg Pd.throttleLevel)

/-! ### A unit's own accesses (spec/06 R143, R144, spec/09 R226, R227) -/

/-- The addresses at which an element is read, its scale byte among them. -/
def Desc.elemAddrs (d : Desc) (o : Int) : List Nat :=
  (d.pieces o).map (·.1) ++ if d.scaleMode = 1 then [d.scaleBase + o.toNat / 32] else []

/-- Whether an address lies in the House. -/
def houseAddr (a : Nat) : Bool := inHouse ((a : Int), (a : Int))

/-- The House lines of addresses, each once (R226). -/
def houseLines (as : List Nat) : List Nat := ((as.filter houseAddr).map (· / 128)).eraseDups

/-- The native address of a Cliff address that a unit may read or write; none where the access is refused or suppressed. -/
def State.nativeFor (s : State) (g : Agent) (runAhead write : Bool) (a : Nat) : Option Nat :=
  match (if runAhead && !write then s.runAheadCheck g.user g.part a else s.chartCheck g.user g.part a write) with
  | .ok n => some n
  | .fail _ => none

/-- The native Cliff blocks of addresses, each once. -/
def State.unitBlocks (s : State) (g : Agent) (runAhead write : Bool) (as : List Nat) : List Nat :=
  ((((as.filter fun a => !houseAddr a).map fun a => a / 256 * 256).eraseDups).filterMap (s.nativeFor g runAhead write)).eraseDups

/-- The window a native block lies in: 40,960 bytes of the alias, 2 KiB of a native range (R144). -/
def windowOf (alias_ : Bool) (n : Nat) : Nat := if alias_ then nativeToAlias (natCliff n) (natLocal n) / 40960 else n / 2048

/-- The runs of consecutive blocks of a list within 2 KiB of native space: first block and number. A window gives one Cliff at most
2 KiB, which are consecutive and aligned there (R144). -/
def runsIn (blocks : List Nat) (chunk : Nat) : List (Nat × Nat) :=
  ((List.range 8).foldl (fun (acc : List (Nat × Nat)) i =>
    let n := 2048 * chunk + 256 * i
    if blocks.contains n then match acc with
      | (m, k) :: t => if m + 256 * k = n then (m, k + 1) :: t else (n, 1) :: acc
      | [] => [(n, 1)]
    else acc) []).reverse

/-- The requests by which unit u reads blocks for a descriptor: up to 2 KiB of one Cliff each (R143, R144, spec/07 R182). -/
def requestsFor (u : Nat) (user : CliffUser) (d : Desc) (blocks : List Nat) : List CliffReq :=
  (((blocks.map (· / 2048)).eraseDups).flatMap (runsIn blocks)).map fun r =>
    { user := user, part := none, write := false, addr := r.1, blocks := r.2, data := [], hint := d.hint, count := d.count
      tensor := d.tensor, runAhead := false, tag := u, own := true }

/-- A write that unit u makes through a descriptor. -/
def writeReq (u : Nat) (d : Desc) : CliffReq :=
  { plainReq (unitUser u) true with hint := d.hint, count := d.count, tensor := d.tensor }

/-- A read that unit u makes through a descriptor, which nothing waits for. -/
def readReq (u : Nat) (d : Desc) : CliffReq := { writeReq u d with write := false }

/-- One request of a unit's own: refused, held back by its pool or a quota (`some true`: by a quota), or issued. -/
def State.issueOwn (s : State) (q : CliffReq) : State × Option Bool :=
  match s.reqCheck q with
  | .fail c => (s.cliffAnswer q c [], none)
  | .ok n => if s.poolFull q.user then (s, some false) else if s.overQuota q n then (s, some true) else (s.issue q .clean n, none)

/-- The requests that a unit holds issued as far as its pool and quotas allow: one held back holds no other back; a cycle in which a
quota holds one back is counted (R143). -/
def State.issueHeld (s : State) (u : Nat) : State :=
  let r := (s.unitPort u).held.foldl (fun (acc : State × List CliffReq × Bool) q =>
    match acc.1.issueOwn q with
    | (t, none) => (t, acc.2)
    | (t, some quota) => (t, acc.2.1 ++ [q], acc.2.2 || quota)) (s, [], false)
  let t := if r.2.2 then r.1.bump Pd.quotaWaits else r.1
  t.setUnitPort u { t.unitPort u with held := r.2.1 }

/-- Line reads take free House request slots, of which an engine has 64 (R226). -/
def UnitPort.takeSlots (p : UnitPort) : UnitPort :=
  let n := 64 - (p.asked.length + p.sent.length)
  { p with asked := p.asked ++ p.lines.take n, lines := p.lines.drop n }

/-- Whether unit u has Cliff requests that are not answered. -/
def State.cliffPending (s : State) (u : Nat) : Bool :=
  let mine := fun (q : CliffReq) => q.own && q.tag == u
  !(s.unitPort u).held.isEmpty || s.host.snoopWaits.any (fun e => mine e.1) || s.cliffs.any fun e => e.2.slots.any fun x => mine x.1

/-- The accesses of a beat asked for. -/
def State.ask (s : State) (u : Nat) (lines : List Nat) (reqs : List CliffReq) : State :=
  s.setUnitPort u { s.unitPort u with begun := true, lines := lines, held := reqs }

/-- A unit's requests go on; whether it waits for the Cliffs, and whether for lines of the House. -/
def State.pump (s : State) (u : Nat) : State :=
  let s := s.issueHeld u
  s.setUnitPort u (s.unitPort u).takeSlots

/-- The blocks that a beat's requests bring into staging. -/
def State.noteStaged (s : State) (u : Nat) (blocks : List Nat) : State :=
  if blocks.isEmpty then s else s.setUnitPort u { s.unitPort u with arriving := (blocks ++ (s.unitPort u).arriving).eraseDups }

/-- Whether lines of a unit's beat have not arrived. -/
def UnitPort.lacksLines (p : UnitPort) : Bool := !(p.lines.isEmpty && p.asked.isEmpty && p.sent.isEmpty)

/-- What a unit still has under way belongs to no unit any more, and its port is clear but for its line writes: its task has
ended. -/
def State.clearUnit (s : State) (u : Nat) : State :=
  let f := fun (q : CliffReq) => if q.own && q.tag == u then { q with tag := 0xFFFF } else q
  let g := fun (x : LineAcc) => { x with waiters := x.waiters.map f }
  let h := fun (q : RoomReq) => if q.own && q.tag == u then { q with tag := 0xFFFF } else q
  let s := if s.cliffPending u then
      { s with
        cliffs := tmap {} (fun _ k => { k with slots := k.slots.map fun e => (f e.1, e.2), queues := tmap [] (fun _ l => l.map g) k.queues
                                               inService := tmap none (fun _ x => x.map g) k.inService }) s.cliffs
        host := { s.host with snoopWaits := s.host.snoopWaits.map fun e => (f e.1, e.2) } } else s
  let s := if (s.unitPort u).sent.isEmpty then s
    else { s with rooms := tmap {} (fun _ r => { r with ownerQ := r.ownerQ.map h, dmaQ := r.dmaQ.map h, portBQ := r.portBQ.map h }) s.rooms }
  s.setUnitPort u { writes := (s.unitPort u).writes }

/-- A beat's accesses have been made: its blocks stand in staging, as many as that holds, newest first. -/
def State.beatDone (s : State) (u : Nat) (staged : List Nat) (room writes : Nat) : State :=
  let p := s.unitPort u
  s.setUnitPort u { writes := p.writes + writes, staged := (staged ++ p.staged.filter fun b => !staged.contains b).take room }

/-- The line read that unit u sends to a room. -/
def lineReq (u : Nat) (line : Nat) : RoomReq :=
  { requester := ownerIndex (unitOwner u), principal := some (unitOwner u), cls := .owner, write := false
    offset := 128 * line % 0x40000, len := 128, data := [], tag := u, lower := [], own := true }

/-- A unit's transfer crosses the House crossbar: up to 16 line reads, each to a room whose queue has a place, and up to 8 line
writes (R226, R113). -/
def State.sendTransferOf (s : State) (u : Nat) : State :=
  let s := ((s.unitPort u).asked.take 16).foldl (fun s l =>
    let p := s.unitPort u
    let t := s.setUnitPort u { p with asked := p.asked.erase l, sent := p.sent ++ [l] }
    match roomOfAddr (128 * l) with
    | none => s.setUnitPort u { p with asked := p.asked.erase l }
    | some r =>
      let o := t.enterRoom r (lineReq u l)
      if o.2 then o.1 else s) s
  let p := s.unitPort u
  s.setUnitPort u { p with writes := p.writes - 8 }

/-- Whether a unit's port has a transfer for a slot. -/
def UnitPort.waits (p : UnitPort) : Bool := !p.asked.isEmpty || decide (0 < p.writes)

/-! ### The end of a task in its unit -/

/-- A task has ended in its unit; its completion follows (TASK_COMPLETE). -/
def State.endTask (s : State) (t : Task) (code : BitVec 16) (detail : Nat) : State :=
  { s with finished := s.finished ++ [{ t with code := code, detail := detail }] }

/-- The bytes of elements that a unit reads or writes through a descriptor outside its beats' requests pass through their Coves. -/
def State.passElems (s : State) (u part : Nat) (ahead : Bool) (d : Desc) (write : Bool) (os : List Int) : State :=
  let as := os.flatMap d.elemAddrs
  if as.all houseAddr then s
  else
    let bs := s.unitBlocks (agentOf u part) (ahead || d.prefetch) write as
    if write then s.passWrite (writeReq u d) (fun _ => false) bs else s.passRead (readReq u d) bs

/-- A task's descriptors, read at its release, have passed through their Coves. -/
def State.passDescs (s : State) (t : Task) : State :=
  s.passRead (plainReq (unitUser t.unit) false) (s.unitBlocks t.agent t.runAhead false (recDescAddrs t.record))

/-- Bytes that a unit's sequencer reads or writes pass through their Coves: `n` from `a`. -/
def State.passBytes (s : State) (g : Agent) (write : Bool) (a n : Nat) : State :=
  let bs := s.unitBlocks g false write ((List.range n).map (a + ·))
  if write then s.passWrite (plainReq g.user true) (fun _ => false) bs else s.passRead (plainReq g.user false) bs

/-- What a release that starts nothing leaves, and whether the task was released: it is not where the release waits. -/
def State.rejectTask (s : State) (t : Task) (x : Reject) : State × Bool :=
  match x with
  | .wait stop => (s.noteStop t.agent stop, false)
  | .unread => ((s.bump Pd.suppressedCount).endTask { t with suppressed := 1 } St.suppressed 0, true)
  | .done code detail stop =>
    ((match stop with
      | some x => s.noteStop t.agent x
      | none => s).endTask t code detail, true)

/-- Distinct blocks of suppressed reads counted (spec/06 R156, PD 0x3C20.01). -/
def State.countSuppressed (s : State) (n : Nat) : State := if n = 0 then s else s.bump Pd.suppressedCount n

/-- Whether a descriptor's footprint reaches into a fenced House island (spec/02 R48, spec/09 R261). -/
def State.inFencedIsland (s : State) (d : Desc) : Bool :=
  d.footprint.any fun i => (List.range 8).any fun k =>
    s.islandFenced (66 + k) && decide ((roomAddr (192 * k) 0 : Int) ≤ i.2) && decide (i.1 < roomAddr (192 * (k + 1)) 0)

/-- Staging rooms of an operation block. -/
def stagingRooms (first count : Nat) : List Nat := (List.range count).map fun i => first + i

/-- The staging area's bytes. -/
def stagingParts (first count : Nat) : List Interval :=
  if count = 0 then [] else [((roomAddr first 0 : Nat), (roomAddr (first + count) 0 : Int) - 1)]

/-- Every staging room must serve its unit (spec/08 R200, spec/09 R227). -/
def State.stagingOk (s : State) (g : Agent) : List Nat → Except Stop Unit
  | [] => .ok ()
  | r :: t =>
    match s.housePlace g (roomAddr r 0) true with
    | .ok _ => State.stagingOk s g t
    | .error x => .error x

end Sys2Proof.Machine
end

