-- ==== Sys2Proof/Machine/Counters.lean ====
section
/-!
DEFINITION. Sync counters and barriers, chapter 11: state words, the operations of Table 11-5, their refusals, and what a
change of a counter does to guards, to speculative tasks and to mirrors.
-/
namespace Sys2Proof.Machine

/-! ### State words (Table 11-4) -/

def ctrState (w : Nat) : Nat := bits w 1 3
def ctrValue (w : Nat) : Nat := bits w 32 32
def ctrTarget (w : Nat) : Nat := bits w 8 24
def ctrPart (w : Nat) : Nat := bits w 4 4
def ctrRound (w : Nat) : Nat := bits w 24 8
def ctrParticipants (w : Nat) : Nat := bits w 8 16
def ctrArrived (w : Nat) : Nat := bits w 32 16
def ctrNext (w : Nat) : Nat := bits w 48 16

/-- The state word of a barrier; PHASE is ROUND[0]. -/
def barrierWord (next arrived round participants part : Nat) : Nat :=
  next * 2 ^ 48 + arrived * 2 ^ 32 + round % 256 * 2 ^ 24 + participants * 2 ^ 8 + part * 16 + 4 + round % 2

/-- The state word of a counter with another value. -/
def withValue (w v : Nat) : Nat := setBits w 32 32 v

/-- Counter c's state word. -/
def State.ctr (s : State) (c : Nat) : Nat := s.rd Pd.counterState c

/-- Whether counter c's bank, in House island c mod 8, is fenced (R300, R317). -/
def State.ctrFenced (s : State) (c : Nat) : Bool := s.islandFenced (66 + c % 8)

/-! ### Guards (Table 11-3) -/

/-- The record of list p of unit u, and its fields (Table 11-1). -/
def listKey (u p : Nat) : Nat := 16 * u + p
def State.listRec (s : State) (u p : Nat) : Nat := s.rd Pd.taskLists (listKey u p)
def State.setListRec (s : State) (u p w : Nat) : State := s.wr Pd.taskLists (listKey u p) w
def listBase (w : Nat) : Nat := bits w 0 44
def listCompletion (w : Nat) : Nat := bits w 64 44
def listLength (w : Nat) : Nat := byteField w 16 2
def listCursor (w : Nat) : Nat := byteField w 18 2
def listPass (w : Nat) : Nat := byteField w 20 1
def listState (w : Nat) : Nat := byteField w 21 1

/-- Guard i of a task record: its kind, its tag, its counter. -/
def guardKind (r : List Byte) (i : Nat) : Nat := recField r (64 + 16 * i) 1
def guardTag (r : List Byte) (i : Nat) : Nat := recField r (65 + 16 * i) 1 % 4
def guardCounter (r : List Byte) (i : Nat) : Nat := recField r (68 + 16 * i) 4 % 2 ^ 17

/-- Whether a guard of a kind suits a counter with a state word. -/
def guardSuits (kind w : Nat) : Bool := if kind = 4 then ctrState w == 2 else ctrState w == 1

/-- Whether a guard's condition holds; `round` is (TAG + PASS) mod 4 (R308). -/
def guardHolds (kind round w : Nat) : Bool :=
  match kind with
  | 1 => ctrState w == 1 && decide (ctrTarget w ≤ ctrValue w)
  | 2 => ctrState w == 1 && ctrValue w == ctrTarget w
  | 3 => ctrState w == 1 && decide (ctrTarget w ≤ ctrValue w)
  | 4 => ctrState w == 2 && ((ctrRound w + 4 - round % 4) % 4 == 1 || (ctrRound w + 4 - round % 4) % 4 == 2)
  | _ => false

/-- Whether guard i of a record, in a pass, holds now. -/
def State.guardNow (s : State) (r : List Byte) (pass i : Nat) : Bool :=
  guardHolds (guardKind r i) (guardTag r i + pass) (s.ctr (guardCounter r i))

/-- A head's guards after counter c changed: those of kinds 1, 2 and 4 that now hold latch (R299). -/
def State.latchHead (s : State) (pass c : Nat) (h : Head) : Head :=
  { h with latched := h.latched.zipIdx.map fun e =>
      e.1 || (guardKind h.record e.2 != 3 && guardCounter h.record e.2 == c && s.guardNow h.record pass e.2) }

/-- An unresolved task after counter c changed: the first of G0 and G1 to latch resolves it; the discard guard wins where
both latch at once (R321). A commit guard whose counter is BROKEN or out of reach discards it (R316, R317). -/
def State.latchSpec (s : State) (c : Nat) (x : SpecTask) : SpecTask :=
  let r := x.task.record
  let on := fun i => guardCounter r i == c && s.guardNow r x.task.pass i
  if x.commit || x.discard then x
  else if on 1 || (guardCounter r 0 == c && (ctrState (s.ctr c) == 3 || s.ctrFenced c)) then { x with discard := true }
  else if on 0 then { x with commit := true }
  else x

/-- Counter c's bank reports a change to the sequencers (R299). -/
def State.reportCounter (s : State) (c : Nat) : State :=
  { s with
    heads := tmap none (fun k h => h.map (s.latchHead (listPass (s.rd Pd.taskLists k)) c)) s.heads
    spec := tmap [] (fun _ l => l.map (s.latchSpec c)) s.spec }

/-- The line of the counter window that counter c lies in. -/
def counterLine (c : Nat) : Nat := (0x0C1000000000 + 8 * c) / 64

/-- Counter c's state word replaced: guards and mirrors are told where it changed (R299, R303, R105); no mirror line of an
unreachable counter is written (R317); a copy that the host may still hold is asked back (spec/04 R101; log 37). -/
def State.setCounter (s : State) (c w : Nat) (reached : Bool) : State :=
  if w = s.ctr c then s
  else
    let s := ((s.wr Pd.counterState c w).askBack (counterLine c)).reportCounter c
    if s.ctrFenced c then s else s.mirrorChange c reached

/-! ### Refusals and sticky flags (R304, R305) -/

/-- Op codes of Table 11-6. -/
inductive CtrOp where
  | add | subtract | set | arrive | init
deriving DecidableEq, Repr

def CtrOp.code : CtrOp → Nat
  | .add => 1
  | .subtract => 2
  | .set => 3
  | .arrive => 4
  | .init => 5

/-- Source code, and unit index or position, of PD 0x5010.06; the host and the dictionary have neither. -/
def sourceCode : CtrSource → Nat × Nat
  | .task u _ => (0, u)
  | .host => (1, 0)
  | .remote p => (2, p)
  | .dictionary => (3, 0)

/-- The record of PD 0x5010.06. -/
def refusedRecord (src : CtrSource) (c : Nat) (op : CtrOp) (tag : Nat) (code : BitVec 16) : List Byte :=
  padTo 16 (natLE 4 c ++ natLE 1 op.code ++ natLE 1 (sourceCode src).1 ++ natLE 1 (sourceCode src).2 ++ natLE 1 tag
    ++ natLE 2 code.toNat)

/-- An operation refused: counted, described, and recorded where it is the counter's first since INIT or reset; a host's
is counted at the window too (spec/04 R102). A refusal with FENCED has no count of its own and makes no entry: Table 17-4 has
no such code. -/
def State.refuseOp (s : State) (src : CtrSource) (c : Nat) (op : CtrOp) (tag : Nat) (code : BitVec 16) : State :=
  let r := refusedRecord src c op tag code
  let s := if code = St.misuse then s.bump Pd.misuseCount else if code = St.broken then s.bump Pd.brokenCount else s
  let s := s.setReg Pd.lastRefusedOp (leNat r)
  let s := if src = .host then s.bump Pd.counterRefused else s
  if code = St.fenced ∨ s.refusedCtr.contains c then s
  else { s.record 0x05 code 7 c r with refusedCtr := c :: s.refusedCtr }

/-- A sticky flag set; the first time it records a Strandline entry. -/
def State.stickyFlag (s : State) (key : Nat) (code : BitVec 16) (src : CtrSource) (c : Nat) (op : CtrOp) : State :=
  let b := s.rd key (c / 8)
  if b.testBit (c % 8) then s
  else (s.wr key (c / 8) (b + 2 ^ (c % 8))).record 0x05 code 7 c (refusedRecord src c op 0 code)

/-! ### The operations (Table 11-5) -/

/-- The checks that refuse an operation whatever it is: the counter's bank, then, for a task's signal, its partition, then
the counter's state (R302, R317). -/
def State.ctrRefusal (s : State) (src : CtrSource) (c want : Nat) : Option (BitVec 16) :=
  let w := s.ctr c
  let alien := match src with
    | .task _ p => ctrPart w != p
    | _ => false
  if s.ctrFenced c then some St.fenced
  else if alien then some St.misuse
  else if ctrState w = 3 then some St.broken
  else if ctrState w ≠ want then some St.misuse
  else none

/-- Whether a change of value takes a counter from below its target to it or above (R303). -/
def reaches (w v : Nat) : Bool := decide (ctrValue w < ctrTarget w) && decide (ctrTarget w ≤ v)

/-- A counter's value replaced. -/
def State.setValue (s : State) (c v : Nat) : State :=
  s.setCounter c (withValue (s.ctr c) v) (Machine.reaches (s.ctr c) v)

/-- ADD, saturating (R304). -/
def State.ctrAdd (s : State) (src : CtrSource) (c operand : Nat) : State :=
  match s.ctrRefusal src c 1 with
  | some code => s.refuseOp src c .add 0 code
  | none =>
    let v := ctrValue (s.ctr c) + operand
    let t := s.setValue c (min v (2 ^ 32 - 1))
    if 2 ^ 32 ≤ v then t.stickyFlag Pd.saturatedFlags St.saturated src c .add else t

/-- SUBTRACT, saturating at 0 (R304). -/
def State.ctrSubtract (s : State) (src : CtrSource) (c operand : Nat) : State :=
  match s.ctrRefusal src c 1 with
  | some code => s.refuseOp src c .subtract 0 code
  | none =>
    let v := ctrValue (s.ctr c)
    let t := s.setValue c (v - operand)
    if v < operand then t.stickyFlag Pd.underflowFlags St.underflow src c .subtract else t

/-- SET. -/
def State.ctrSet (s : State) (src : CtrSource) (c operand : Nat) : State :=
  match s.ctrRefusal src c 1 with
  | some code => s.refuseOp src c .set 0 code
  | none => s.setValue c operand

/-- A barrier's ARRIVED and NEXT after an arrival: rounds that are complete end, at most two (R307). Answers ROUND, ARRIVED,
NEXT. -/
def completeRounds (participants round arrived next : Nat) : Nat × Nat × Nat :=
  if arrived ≠ participants then (round, arrived, next)
  else if next ≠ participants then ((round + 1) % 256, next, 0)
  else ((round + 2) % 256, 0, 0)

/-- The state word after an arrival with a tag, or none where it is refused (R307). -/
def arriveWord (w tag : Nat) : Option Nat :=
  let d := (tag + 256 - ctrRound w) % 4
  let n := ctrParticipants w
  if d = 0 then
    let r := completeRounds n (ctrRound w) (ctrArrived w + 1) (ctrNext w)
    some (barrierWord r.2.2 r.2.1 r.1 n (ctrPart w))
  else if d = 1 ∧ ctrNext w ≠ n then some (barrierWord (ctrNext w + 1) (ctrArrived w) (ctrRound w) n (ctrPart w))
  else none

/-- ARRIVE (R307). The host has none (Table 11-5). -/
def State.ctrArrive (s : State) (src : CtrSource) (c tag : Nat) : State :=
  if src = .host ∨ src = .dictionary then s.refuseOp src c .arrive tag St.misuse
  else match s.ctrRefusal src c 2 with
    | some code => s.refuseOp src c .arrive tag code
    | none =>
      match arriveWord (s.ctr c) tag with
      | none => s.refuseOp src c .arrive tag St.misuse
      | some w => s.setCounter c w (ctrRound w != ctrRound (s.ctr c))

/-- The forms INIT may write (R306). -/
def initForm (w : Nat) : Bool :=
  match ctrState w with
  | 0 => w == 0
  | 1 => w % 2 == 0
  | 2 => bits w 32 32 == 0 && decide (1 ≤ ctrParticipants w) && w % 2 == ctrRound w % 2
  | _ => false

/-- Whether a task of partition p may INIT a counter holding `old` with `w` (R306). -/
def taskMayInit (p old w : Nat) : Bool :=
  (ctrPart old == p || ctrState old == 0) && (ctrPart w == p || ctrState w == 0)

/-- The whole state word written; refusals at the counter are recorded anew from here on. INIT reaches no target of the
value it overwrites. -/
def State.initCounter (s : State) (c w : Nat) : State :=
  let s := { s with refusedCtr := s.refusedCtr.filter fun x => x != c }
  s.setCounter c w false

/-- Why an INIT is refused (R306, R317). -/
def State.initRefusal (s : State) (src : CtrSource) (c w : Nat) : Option (BitVec 16) :=
  if s.ctrFenced c then some St.fenced
  else match src with
    | .task _ p => if initForm w && taskMayInit p (s.ctr c) w then none else some St.misuse
    | .dictionary => if initForm w then none else some St.invalidValue
    | _ => some St.misuse

/-- INIT by a task; from the host or another module it is refused (Table 11-5). -/
def State.ctrInit (s : State) (src : CtrSource) (c w : Nat) : State :=
  match s.initRefusal src c w with
  | some code => s.refuseOp src c .init 0 code
  | none => s.initCounter c w

/-- A counter operation: 1 ADD, 2 SUBTRACT, 3 SET, 4 ARRIVE, 5 INIT (Table 11-6). -/
def State.ctrDo (s : State) (w : CtrWait) : State :=
  match w.op with
  | 1 => s.ctrAdd w.src w.counter (w.operand % 2 ^ 32)
  | 2 => s.ctrSubtract w.src w.counter (w.operand % 2 ^ 32)
  | 3 => s.ctrSet w.src w.counter (w.operand % 2 ^ 32)
  | 4 => s.ctrArrive w.src w.counter w.tag
  | _ => s.ctrInit w.src w.counter w.operand

/-- Whether the host may hold the line of counter c: no unit reads or writes it before the host has given it up (spec/04 R101). -/
def State.ctrHeld (s : State) (c : Nat) : Bool := s.host.filter.contains (counterLine c)

/-- An operation at its bank: applied, or waiting for the host's answer to a back-invalidate snoop (spec/04 R101, log 37). -/
def State.ctrOp (s : State) (src : CtrSource) (op tag c operand : Nat) : State :=
  let w : CtrWait := { src := src, op := op, tag := tag, counter := c, operand := operand }
  if s.ctrHeld c then
    let t := s.askBack (counterLine c)
    { t with host := { t.host with ctrWaits := t.host.ctrWaits ++ [w] } }
  else s.ctrDo w

/-- Operations whose lines the host has given up, applied in their order. -/
def State.retryOps (s : State) : State :=
  s.host.ctrWaits.foldl (fun s w =>
    if s.ctrHeld w.counter then { s with host := { s.host with ctrWaits := s.host.ctrWaits ++ [w] } } else s.ctrDo w)
    { s with host := { s.host with ctrWaits := [] } }

/-- A CONSUME guard takes its target from a counter; none where the value is below it (R299). -/
def State.consume (s : State) (c : Nat) : Option State :=
  let w := s.ctr c
  if !s.ctrFenced c && !s.ctrHeld c && guardHolds 3 0 w then some (s.setValue c (ctrValue w - ctrTarget w)) else none

/-- Counter c becomes BROKEN: STATE 3, the other fields kept; mirrors are written, those ON_TARGET too (R316). -/
def State.breakCounter (s : State) (c : Nat) : State := s.setCounter c (setBits (s.ctr c) 1 3 3) true

/-- A dictionary write of COUNTER_STATE: an INIT of 8 bytes at a multiple of 8 (PD 0x5010.01). -/
def serveInit (settle : State → State) : Serve := fun _ _ q s =>
  let c := q.offset / 8
  let w := q.value
  if q.data.length ≠ 8 ∨ q.offset % 8 ≠ 0 then refuse s St.typeMismatch
  else match s.initRefusal .dictionary c w with
    | some code => { state := if code = St.invalidValue then s else s.refuseOp .dictionary c .init 0 code, status := code }
    | none => { state := settle (s.ctrOp .dictionary 5 0 c w) }

/-- The counters of a partition, or of any: those whose state word is listed (an unlisted one is FREE, R300). -/
def State.listedCounters (s : State) : List (Nat × Nat) :=
  (s.pd.filter fun e => e.1 / 16777216 == Pd.counterState).map fun e => (e.1 % 16777216, e.2)

/-- The counters of partition p that are in use, broken (R314, R315). A FREE counter belongs to no partition. -/
def State.breakPartition (s : State) (p : Nat) : State :=
  (s.listedCounters.filter fun e => ctrPart e.2 == p && ctrState e.2 != 0).foldl (fun s e => s.breakCounter e.1) s

end Sys2Proof.Machine
end

