-- ==== Sys2Proof/Machine/Estuary.lean ====
section
/-!
DEFINITION. The Estuary, chapter 13, part 1: group records, members and shards, the block messages and their residues, the
checks of a task at release, and the contribution a task sends.
-/
namespace Sys2Proof.Machine

/-! ### Group records (Table 13-1) -/

/-- Group g's record. -/
def State.groupRec (s : State) (g : Nat) : Nat := s.rd Pd.groupTable g

def grpMembers (w : Nat) : Nat := bits w 0 64
def grpOp (w : Nat) : Nat := byteField w 8 1
def grpBayFirst (w : Nat) : Bool := byteField w 9 1 == 1
def grpSteps (w : Nat) : Nat := byteField w 10 2
def grpMean (w : Nat) : Bool := w.testBit 96
def grpFormat (w : Nat) : Nat := byteField w 13 1
def grpMargin (w : Nat) : Nat := byteField w 14 1
def grpRepeatLimit (w : Nat) : Nat := byteField w 15 1
def grpTag (w : Nat) : Nat := byteField w 28 4
def grpAccum (w : Nat) : Nat := byteField w 32 8 % 2 ^ 44
def grpResult (w i : Nat) : Nat := byteField w (40 + 8 * i) 8 % 2 ^ 44
def grpScale (w : Nat) : Nat := byteField w 56 8 % 2 ^ 44
def grpReplay (w : Nat) : Nat := byteField w 64 8
def grpNextStep (w : Nat) : Nat := byteField w 72 4

/-- G, the number of members (R351). -/
def grpCount (w : Nat) : Nat := popCount 64 (grpMembers w)

/-- The rank of position p: the members at lower positions. -/
def rankOf (w p : Nat) : Nat := popCount p (grpMembers w)

/-- The members' positions, ascending. -/
def memberList (w : Nat) : List Nat := (List.range 64).filter fun p => (grpMembers w).testBit p

/-- The missing contributions a block tolerates (REPEAT_THRESHOLD). -/
def grpThreshold (w : Nat) : Nat := if byteField w 16 1 = 0xFF then grpCount w / 8 else byteField w 16 1

/-- The ranks an owner waits for: all of them, or those a replay names (R371). -/
def grpWanted (w : Nat) : Nat := if grpReplay w = 0 then 2 ^ grpCount w - 1 else grpReplay w

/-- The blocks of rank i's shard among B (R351): the first and the one after the last. -/
def shardOf (w blocks i : Nat) : Nat × Nat := (i * blocks / grpCount w, (i + 1) * blocks / grpCount w)

/-- The position that owns a block: the member whose shard holds it. -/
def ownerOfBlock (w blocks b : Nat) : Nat :=
  ((memberList w).zipIdx.find? fun e => decide ((shardOf w blocks e.2).1 ≤ b) && decide (b < (shardOf w blocks e.2).2)).elim 0 (·.1)

/-- Blocks of T elements. -/
def blocksFor (t : Nat) : Nat := (t + 63) / 64

/-- Elements of rank i's shard. -/
def shardElements (w t i : Nat) : Nat :=
  min t (64 * (shardOf w (blocksFor t) i).2) - 64 * (shardOf w (blocksFor t) i).1

/-- Where a member first sends a block of an owner (R352). -/
def nextHop (w me owner : Nat) : Nat :=
  let c := 16 * (me / 16) + owner % 16
  if grpBayFirst w && (grpMembers w).testBit c then c else owner

/-- Where a module sends a result of an owner: an owner's own distribution, or a distributor's (R352). -/
def resultTargets (w owner me : Nat) : List Nat :=
  let mem := memberList w
  if !grpBayFirst w then (if me = owner then mem.filter fun p => p != owner else [])
  else if me = owner then
    mem.filter fun p => p != owner &&
      (p / 16 == owner / 16 || p % 16 == owner % 16 || !(grpMembers w).testBit (16 * (p / 16) + owner % 16))
  else if me % 16 = owner % 16 ∧ me / 16 ≠ owner / 16 then mem.filter fun p => p / 16 == me / 16 && p != me
  else []

/-- Whether a record may be written (R350); one with MEMBERS 0 always may. -/
def State.groupOk (s : State) (w : Nat) : Bool :=
  let g := grpCount w
  let dl := byteField w 20 4
  let rw := byteField w 24 4
  grpMembers w == 0 ||
    ((grpMembers w).testBit s.position && decide (1 ≤ grpOp w) && decide (grpOp w ≤ 3) && decide (byteField w 9 1 ≤ 1)
      && decide (1 ≤ grpSteps w) && decide (grpSteps w ≤ 256) && [1, 2, 3].contains (grpFormat w)
      && decide (grpMargin w ≤ 8) && decide (grpRepeatLimit w ≤ 7)
      && (byteField w 16 1 == 0xFF || decide (byteField w 16 1 < g))
      && (dl == 0 || (decide (10 ≤ dl) && decide (dl ≤ 1000000)))
      && (rw == 0 || (decide (100 ≤ rw) && decide (rw ≤ 60000000)))
      && decide (grpReplay w < 2 ^ g) && !(grpOp w == 3 && (grpSteps w != 1 || grpMean w)))

/-- STATE of a group: whether a task of it is released or waiting. -/
def State.groupBusy (s : State) (g : Nat) : Bool := s.estuary.tasks.any fun e => e.group == g

/-- The reductions of a group that are known here, by number. -/
def State.groupReds (s : State) (g : Nat) : List (Nat × Reduction) :=
  (s.estuary.reds.filter fun e => e.1 / 2 ^ 32 == g).map fun e => (e.1 % 2 ^ 32, e.2)

/-- ATTEMPT of a group: that of its open reduction. -/
def State.groupAttempt (s : State) (g : Nat) : Nat :=
  match (s.groupReds g).find? fun e => !e.2.final with
  | some e => e.2.attempt
  | none => 0

/-- The record as a READ sees it: STATE and ATTEMPT are the Estuary's. -/
def State.groupView (s : State) (g : Nat) : Nat :=
  setByteField (setByteField (s.groupRec g) 76 1 (bit01 (s.groupBusy g))) 77 1 (s.groupAttempt g)

/-- A record as it is kept: STATE and ATTEMPT are not written; the reserved bits of a group in use read zero (spec/00 R13), an unused
group's fields stay as written (R350). -/
def groupClean (w : Nat) : Nat :=
  let w := setByteField w 76 2 0
  if grpMembers w = 0 then w
  else
    let w := setByteField (setByteField (setByteField w 12 1 (byteField w 12 1 % 2)) 17 3 0) 78 50 0
    [32, 40, 48, 56].foldl (fun w o => setByteField w o 8 (byteField w o 8 % 2 ^ 44)) w

/-- A write of a group record: what the Estuary kept of the group before is dropped (log 29). -/
def serveGroup : Serve := fun _ _ q s =>
  let g := q.offset / 128
  let w := q.value
  if q.data.length ≠ 128 ∨ q.offset % 128 ≠ 0 then refuse s St.typeMismatch
  else if !s.groupOk w then refuse s St.invalidValue
  else if s.groupBusy g then refuse s St.busy
  else
    let e := s.estuary
    { state := { s.wr Pd.groupTable g (groupClean w) with
        estuary := { e with sums := e.sums.filter fun x => x.group != g
                            reds := e.reds.filter fun x => x.1 / 2 ^ 32 != g
                            groups := tset {} e.groups g {} } } }

/-- GROUP_TABLE. -/
def execGroupTable (o : Origin) (offset : Nat) (bytes : List Byte) (s : State) : Res :=
  .next (s.receiveOwn serveGroup (ownWrite o Pd.groupTable offset bytes))

/-! ### Messages (Table 13-4) and residues (R361) -/

/-- The residue of a 40-bit lane value. -/
def residue (u : Nat) : Nat :=
  (bits u 0 7 + bits u 7 7 + bits u 14 7 + bits u 21 7 + bits u 28 7 + bits u 35 5 + 95 * bits u 39 1) % 127

/-- A lane's six bytes. -/
def laneBytes (x : Int) : List Byte :=
  let u := ofSigned 40 x
  natLE 6 (u + residue u * 2 ^ 40)

/-- A lane read: its value, none where its residue does not match. -/
def laneValue (fp : Bool) (v : Nat) : Option Int :=
  let u := v % 2 ^ 40
  if residue u = bits v 40 7 then some (if fp then (u : Int) else toSigned 40 u) else none

/-- The payload of half `h` of a message. -/
def estPayload (m : EstMsg) (h : Nat) : List Byte :=
  padTo 192 (((m.lanes.drop (32 * h)).take 32).flatMap laneBytes)
    ++ natLE 1 m.kind ++ natLE 1 m.group
    ++ natLE 1 (h + 2 * bit01 m.marked + 4 * bit01 m.fp32 + 8 * bit01 m.overflow + 16 * bit01 m.repeats)
    ++ natLE 1 m.exponent ++ natLE 4 m.reduction ++ natLE 4 m.block ++ natLE 1 m.attempt ++ natLE 1 m.raises
    ++ natLE 1 m.maxExp ++ [0] ++ natLE 8 m.ranks ++ natLE 4 m.tag

/-- A message's packets: two for a block, one for a NOTICE or a RAISE (log 31). -/
def State.estPackets (s : State) (dest : Nat) (m : EstMsg) : List Packet :=
  (if m.kind ≤ 2 then [0, 1] else [0]).map fun h => s.newPacket 6 dest (estPayload m h)

/-- Whether a message's lanes hold FP32 bits: FP32 carriage and results. -/
def estFp (kind flags : Nat) : Bool := kind == 2 || flags.testBit 2

/-- The lanes of one packet; none where a residue does not match (R362). -/
def estLanes (b : List Byte) : Option (List Int) :=
  let fp := estFp (listField b 192 1) (listField b 194 1)
  (List.range 32).foldl (fun acc j => match acc, laneValue fp (listField b (6 * j) 6) with
    | some l, some x => some (l ++ [x])
    | _, _ => none) (some [])

/-- A transfer's message: the header of its first packet, its lanes by HALF; none where a residue fails. -/
def estParse (ps : List (List Byte)) : Option EstMsg :=
  let b := ps.headD []
  let half := fun h => match ps.find? fun p => (listField p 194 1 % 2 == h) with
    | some p => estLanes p
    | none => some []
  let f := listField b 194 1
  let m : EstMsg := { kind := listField b 192 1, group := listField b 193 1, marked := f.testBit 1, fp32 := f.testBit 2
                      overflow := f.testBit 3, repeats := f.testBit 4, exponent := listField b 195 1
                      reduction := listField b 196 4, block := listField b 200 4, attempt := listField b 204 1
                      raises := listField b 205 1, maxExp := listField b 206 1, ranks := listField b 208 8
                      tag := listField b 216 4 }
  if 3 ≤ m.kind then some m
  else match half 0, half 1 with
    | some a, some c => some { m with lanes := a ++ c }
    | _, _ => none

/-- What a message's handling gives: the state and the messages this module's own parts have still to take. -/
abbrev EstOut := State × List EstMsg

/-- A message sent: to another module as a transfer, to this one's own parts in turn. -/
def EstOut.send (r : EstOut) (dest : Nat) (m : EstMsg) : EstOut :=
  if dest = r.1.position then (r.1, r.2 ++ [m])
  else ((r.1.sendTransfer dest (.estuary m.group) (r.1.estPackets dest m)).1, r.2)

/-! ### Release (R353, R354) -/

/-- The Estuary at work for a partition. -/
def estAgent (part : Nat) : Agent := agentOf 65 part

/-- GROUP and STEP of an Estuary task's operation block (Table 13-2). -/
def Task.estGroup (t : Task) : Nat := recField t.record 512 1
def Task.estStep (t : Task) : Nat := recField t.record 516 4

/-- Descriptor D0 of a task. -/
def Task.desc0 (t : Task) : Desc := t.descs.getD 0 (parseDesc [])

/-- The descriptors a group record names (accumulation, results); ALL_GATHER has no accumulation descriptor. -/
def State.groupDescs (s : State) (w part : Nat) : Except Reject (List Desc) :=
  let fetch := fun i a => s.fetchDesc (estAgent part) false i a .write false false
  let acc : Except Reject Desc := if grpOp w = 3 then .ok (parseDesc []) else fetch 0x102 (grpAccum w)
  match acc, fetch 0x103 (grpResult w 0), fetch 0x104 (grpResult w 1) with
  | .error x, _, _ => .error x
  | _, .error x, _ => .error x
  | _, _, .error x => .error x
  | .ok a, .ok b, .ok c => .ok [a, b, c]

/-- T of a group with these descriptors. -/
def tensorElements (w : Nat) (ds : List Desc) : Nat :=
  ((if grpOp w = 3 then ds.getD 1 (parseDesc []) else ds.getD 0 (parseDesc []))).elements

/-- The elements a result descriptor holds. -/
def resultElements (w t me : Nat) : Nat := if grpOp w = 2 then shardElements w t (rankOf w me) else t

/-- The elements D0 holds. -/
def ownElements (w t me : Nat) : Nat := if grpOp w = 3 then shardElements w t (rankOf w me) else t

/-- Check 4 of R353 once every descriptor is read: the DETAIL of the first failure. -/
def groupDescFault (w me : Nat) (d0 : Desc) (ds : List Desc) : Option Nat :=
  let d := fun i => ds.getD i (parseDesc [])
  let t := tensorElements w ds
  let good := fun (x : Desc) => x.format == grpFormat w && x.elements == resultElements w t me
  let scale : Interval := ((grpScale w : Int), (grpScale w : Int) + 4 * (blocksFor t : Int) - 1)
  if !([1, 2, 3].contains d0.format) then some 0
  else if grpOp w ≠ 3 && !((d 0).format == 1 && (d 0).footprint.all inCliffs) then some 0x102
  else if d0.elements ≠ ownElements w t me then some 0
  else if !good (d 1) then some 0x103
  else if !good (d 2) then some 0x104
  else if grpOp w ≠ 3 && !(grpScale w % 4 == 0 && inCliffs scale) then some 0x101
  else none

/-- DETAIL of a footprint written that meets another of the task: the accumulation tensor, but for ALL_GATHER, and the result tensor of
reduction r are written, D0 is read (spec/07 R186). -/
def estOverlap (w r : Nat) (d0 : Desc) (ds : List Desc) : Option Nat :=
  let acc := ds.getD 0 (parseDesc [])
  let res := ds.getD (1 + r % 2) (parseDesc [])
  let clash := fun (x : Desc) => meets x.footprint d0.footprint && !sameInPlace x d0
  if grpOp w ≠ 3 && clash acc then some 0
  else if clash res then some 0
  else if grpOp w ≠ 3 && meets acc.footprint res.footprint then some 0x102
  else none

/-- The step a task carries: its own, or for the sentinel the group's NEXT_STEP while its stage runs (spec/14 R389). -/
def State.estStepOf (s : State) (t : Task) (w : Nat) : Option Nat :=
  if t.estStep ≠ 0xFFFFFFFF then some t.estStep else (s.stageStep t.part).map fun _ => grpNextStep w

/-- A task's checks: the group's descriptors as read, D0 first among the task's own. -/
def State.estPrepare (s : State) (t : Task) : Except Reject (Task × List Desc × Nat) :=
  let w := s.groupRec t.estGroup
  if 64 ≤ t.estGroup then .error (.invalid detailRecord)
  else if grpMembers w = 0 then .error (.invalid 0x101)
  else match s.estStepOf t w with
    | none => .error (.invalid detailRecord)
    | some step =>
      if step ≠ grpNextStep w ∨ recDescs t.record ≠ 1 then .error (.invalid detailRecord)
      else match s.fetchDesc (estAgent t.part) false 0 ((recDescAddrs t.record).headD 0) .read false false,
                 s.groupDescs w t.part with
        | .error x, _ => .error x
        | _, .error x => .error x
        | .ok d0, .ok ds =>
          match groupDescFault w s.position d0 ds with
          | some d => .error (.invalid d)
          | none => match estOverlap w (step / max 1 (grpSteps w)) d0 ds with
            | some d => .error (.done St.overlap d none)
            | none => .ok ({ t with descs := [d0] }, ds, step)

/-- Whether a task is the first of its group among those released: it may send (R357). -/
def State.estFirst (s : State) (e : EstTask) : Bool :=
  (s.estuary.tasks.find? fun x => x.group == e.group) == some e

/-- Whether the Estuary can take a task: none is about to send, at most four wait (R357, R363). -/
def State.estCanAccept (s : State) : Bool :=
  !s.islandFenced 94 && decide (s.estuary.tasks.length < 4) && !s.estuary.tasks.any fun e => !e.sent && s.estFirst e

/-- An Estuary task's release: NEXT_STEP advances; answers whether it took place. -/
def State.estRelease (s : State) (t : Task) : State × Bool :=
  match s.estPrepare t with
  | .error x => s.rejectTask t x
  | .ok (t, ds, step) =>
    let g := t.estGroup
    let s := s.wr Pd.groupTable g (setByteField (s.groupRec g) 72 4 ((step + 1) % 2 ^ 32))
    let place : EstGroup := { part := t.part, descs := ds }
    let s := (s.passDescs t).setEstGroup g place
    ({ s with estuary := { s.estuary with
      tasks := s.estuary.tasks ++ [{ task := t, group := g, step := step, sent := false, place := place }] } }, true)

/-- The descriptors and the partition through which this module serves a group: those of its last task; before any, read
through the Chart of partition 0 (log 29). -/
def State.groupPlaces (s : State) (g : Nat) : Option EstGroup :=
  let e := s.estGroup g
  if e.descs.isEmpty then
    match s.groupDescs (s.groupRec g) e.part with
    | .ok ds => some { e with descs := ds }
    | .error _ => none
  else some e

/-- Where reduction r of a group is served: as the task released for it read the group's descriptors, else as the group's last task
did. -/
def State.placesFor (s : State) (g r : Nat) : Option EstGroup :=
  match s.estuary.tasks.find? fun e => e.group == g && e.step / max 1 (grpSteps (s.groupRec g)) == r with
  | some e => some e.place
  | none => s.groupPlaces g

/-! ### Contributions (R355, R358, R372) -/

/-- Element k of a descriptor in loop order as FP32 (spec/09 R243). -/
def State.estElem (s : State) (g : Agent) (d : Desc) (k : Nat) : Except Stop F32 :=
  match s.readNum g d false (d.offsetAt (unrank d.shape k)) with
  | .error x => .error x
  | .ok v => .ok (to32 (v.getD .zero))

/-- Elements k to k + n − 1 of a′: x, or acc + x (R355). -/
def State.estValues (s : State) (g : Agent) (d0 acc : Desc) (add : Bool) : Nat → Nat → Except Stop (List F32)
  | _, 0 => .ok []
  | k, n + 1 =>
    match s.estElem g d0 k, (if add then s.estElem g acc k else .ok zero32), s.estValues g d0 acc add (k + 1) n with
    | .error x, _, _ => .error x
    | _, .error x, _ => .error x
    | _, _, .error x => .error x
    | .ok x, .ok a, .ok l => .ok ((if add then fadd a x else x) :: l)

/-- The first element of a block, and how many of T it holds. -/
def blockSpan (t b : Nat) : Nat × Nat := (64 * b, min 64 (t - 64 * b))

/-- Block b's scale table entry (Table 13-3). -/
def State.scaleEntry (s : State) (g : Agent) (w b : Nat) : Except Stop Nat :=
  match s.unitBytes g false (grpScale w + 4 * b) 4 with
  | .error x => .error x
  | .ok v => .ok (leNat (v.getD []))

/-- The accesses to block b's entry pass through their Cove. -/
def State.passScale (s : State) (g : Agent) (w b : Nat) (write : Bool) : State :=
  let bs := s.unitBlocks g false false [grpScale w + 4 * b]
  if write then s.passWrite (plainReq g.user true) (fun _ => false) bs else s.passRead (plainReq g.user false) bs

/-- Block b's entry written. -/
def State.setScaleEntry (s : State) (g : Agent) (w b v : Nat) : Except Stop State :=
  match s.unitWrites g (grpScale w + 4 * b) (natLE 4 v) with
  | .error x => .error x
  | .ok t => .ok (t.passScale g w b true)

def scaleExp (e : Nat) : Nat := bits e 0 8
def scaleCarry (e : Nat) : Bool := e.testBit 8
def scaleRaised (e : Nat) : Nat := bits e 9 2
def scaleFallback (e : Nat) : Bool := e.testBit 11
def withCarry (e : Nat) (c : Bool) : Nat := setBits e 8 1 (bit01 c)
def withCarriage (e raises : Nat) (fp : Bool) : Nat := setBits (setBits e 9 2 raises) 11 1 (bit01 fp)

/-- FP32 biased exponent. -/
def biasedExp (x : F32) : Nat := x.toNat / 2 ^ 23 % 256

/-- The integer a value is carried as at exponent Eb (R358). -/
def carried (eb : Nat) (x : F32) : Int := roundInt .near ((val x).scale (157 - (eb : Int)))

/-- A block's values converted for carriage: lanes, MARKED, OVERFLOW, MAXEXP (R358, R359, R364, R366, R372). -/
def convertBlock (vals : List F32) (eb : Nat) (fp : Bool) : List Int × Bool × Bool × Nat :=
  let v := (vals ++ List.replicate 64 zero32).take 64
  let zeros : List Int := List.replicate 64 0
  let top := (v.filter fun x => biasedExp x != 255).foldl (fun m x => max m (biasedExp x)) 0
  if v.any fun x => biasedExp x == 255 then (zeros, false, true, top)
  else if fp then (v.map fun x => (x.toNat : Int), false, false, top)
  else
    let q := v.map (carried eb)
    if q.any fun x => decide (2 ^ 31 ≤ x.natAbs) then (zeros, true, false, top) else (q, false, false, top)

/-- The released task of reduction R of a group that has sent its contribution. -/
def State.estSent (s : State) (g r : Nat) : Option EstTask :=
  s.estuary.tasks.find? fun e => e.group == g && e.sent && decide (e.step / max 1 (grpSteps (s.groupRec g)) = r)

/-- Carriage state of a block: what a RAISE not yet in the table says, else the table's. -/
def carriageOf (x : Reduction) (e b : Nat) : Nat × Bool :=
  match x.raised.find? fun y => y.1 == b with
  | some y => y.2
  | none => (scaleRaised e, scaleFallback e)

/-- The reads of a block's contribution pass through their Coves. -/
def State.passBlock (s : State) (e : EstTask) (p : EstGroup) (add : Bool) (span : Nat × Nat) : State :=
  let os := fun (d : Desc) => (List.range span.2).map fun i => d.offsetAt (unrank d.shape (span.1 + i))
  let acc := p.descs.getD 0 (parseDesc [])
  let s := s.passElems 65 e.task.part false e.task.desc0 false (os e.task.desc0)
  if add then s.passElems 65 e.task.part false acc false (os acc) else s

/-- Block b of a sent task's reduction formed anew and sent towards its owner (R352, R355, R358); a block whose header this
attempt already holds is not sent (R370). -/
def State.sendBlock (s : State) (e : EstTask) (r : Nat) (p : EstGroup) (b : Nat) : Except Stop EstOut :=
  let w := s.groupRec e.group
  let x := s.reduction e.group r
  let g := estAgent e.task.part
  let t := tensorElements w p.descs
  if x.headers.any fun h => h.block == b && h.attempt == x.attempt then .ok (s, [])
  else match s.scaleEntry g w b with
    | .error y => .error y
    | .ok sc =>
      let c := carriageOf x sc b
      let span := blockSpan t b
      match s.estValues g (e.task.desc0) (p.descs.getD 0 (parseDesc [])) (scaleCarry sc || decide (0 < e.step % max 1 (grpSteps w)))
          span.1 span.2 with
      | .error y => .error y
      | .ok v =>
        let eb := scaleExp sc + 4 * c.1
        let q := convertBlock v eb c.2
        let owner := ownerOfBlock w (blocksFor t) b
        let add := scaleCarry sc || decide (0 < e.step % max 1 (grpSteps w))
        let s := (s.passScale g w b false).passBlock e p add span
        .ok (EstOut.send (s, []) (nextHop w s.position owner)
          { kind := 1, group := e.group, marked := q.2.1, fp32 := c.2, overflow := q.2.2.1, exponent := eb, reduction := r
            block := b, attempt := x.attempt, raises := c.1, maxExp := q.2.2.2, ranks := 2 ^ rankOf w s.position
            tag := grpTag w, lanes := q.1 })

/-- Blocks sent in ascending order. -/
def State.sendBlocks (s : State) (e : EstTask) (r : Nat) (p : EstGroup) : List Nat → Except Stop EstOut
  | [] => .ok (s, [])
  | b :: bs =>
    match s.sendBlock e r p b with
    | .error x => .error x
    | .ok o =>
      match State.sendBlocks o.1 e r p bs with
      | .error x => .error x
      | .ok o' => .ok (o'.1, o.2 ++ o'.2)

end Sys2Proof.Machine
end

