-- ==== Sys2Proof/Machine/EstuaryFlow.lean ====
section
/-!
DEFINITION. The Estuary, chapter 13, part 2: collectors and owners, raises, deadlines, result headers at a member, and the
end of a reduction.
-/
namespace Sys2Proof.Machine

/-! ### Block sums (R360, R364, R366, R367) -/

/-- Where a carriage state stands: raises, then FP32, are ever newer (R360, R365). -/
def carriageLevel (raises : Nat) (fp : Bool) : Nat := if fp then 3 else raises

/-- A packet discarded as stale (R360). -/
def State.estStale (s : State) : State := s.bump Pd.staleDiscarded

/-- A block at a collector (`owner` false) or an owner. -/
def State.blockSum (s : State) (g r b : Nat) (owner : Bool) : Option BlockSum :=
  s.estuary.sums.find? fun x => x.group == g && x.reduction == r && x.block == b && x.owner == owner

/-- It set. -/
def State.setBlockSum (s : State) (x : BlockSum) : State :=
  let e := s.estuary
  { s with estuary := { e with sums := (e.sums.filter fun y =>
      !(y.group == x.group && y.reduction == x.reduction && y.block == x.block && y.owner == x.owner)) ++ [x] } }

/-- The slots that hold an open block (R348). -/
def State.slotsInUse (s : State) : Nat := (s.estuary.sums.filter fun x => x.input && !x.closed).length

/-- A block with nothing in it, at an attempt and a carriage state. -/
def BlockSum.emptied (x : BlockSum) (attempt raises : Nat) (fp : Bool) : BlockSum :=
  { group := x.group, reduction := x.reduction, block := x.block, owner := x.owner, attempt := attempt, raises := raises, fp32 := fp
    exponent := x.exponent }

/-- Two lanes added: exactly, or in FP32 (R361, R366). -/
def laneAdd (fp : Bool) (a b : Int) : Int :=
  if fp then ((fadd (BitVec.ofInt 32 a) (BitVec.ofInt 32 b)).toNat : Int) else a + b

/-- A partial taken into a block's sum; none where it shares a rank with it or is carried otherwise (R360). OVERFLOW
outlasts everything, then MARKED; an integer sum beyond 2^38 marks the block (R364, R372). -/
def BlockSum.take (x : BlockSum) (m : EstMsg) : Option BlockSum :=
  if m.fp32 ≠ x.fp32 ∨ m.ranks &&& x.ranks ≠ 0 then none
  else
    let zeros : List Int := List.replicate 64 0
    let y := { x with ranks := x.ranks ||| m.ranks, maxExp := max x.maxExp m.maxExp, input := true, exponent := m.exponent
                      overflow := x.overflow || m.overflow }
    if y.overflow then some { y with marked := false, lanes := zeros }
    else if x.marked || m.marked then some { y with marked := true, lanes := zeros }
    else if !x.input then some { y with lanes := m.lanes }
    else
      let sums := (x.lanes.zip m.lanes).map fun e => laneAdd x.fp32 e.1 e.2
      if !x.fp32 && sums.any fun v => decide (2 ^ 38 < v.natAbs) then some { y with marked := true, lanes := zeros }
      else some { y with lanes := sums }

/-- A block brought to the attempt and carriage state of a message; none where the message is the older (R360, R369). -/
def BlockSum.advance (x : BlockSum) (m : EstMsg) : Option BlockSum :=
  let lvl := carriageLevel m.raises m.fp32
  let cur := carriageLevel x.raises x.fp32
  if x.final ∨ m.attempt < x.attempt ∨ lvl < cur then none
  else if x.attempt < m.attempt ∨ cur < lvl then some (x.emptied m.attempt m.raises m.fp32)
  else some x

/-- Whether a partial names only ranks that a replay counts (R371). -/
def countedRanks (w ranks : Nat) : Bool := grpReplay w == 0 || (ranks &&& grpReplay w) == ranks

/-- A message of a block's sum. -/
def BlockSum.message (x : BlockSum) (kind tag : Nat) : EstMsg :=
  { kind := kind, group := x.group, marked := x.marked, fp32 := x.fp32, overflow := x.overflow, exponent := x.exponent
    reduction := x.reduction, block := x.block, attempt := x.attempt, raises := x.raises, maxExp := x.maxExp
    ranks := x.ranks, tag := tag, lanes := x.lanes }

/-- The block as a message first finds it. -/
def newSum (m : EstMsg) (owner : Bool) : BlockSum :=
  { group := m.group, reduction := m.reduction, block := m.block, owner := owner, attempt := m.attempt, raises := m.raises
    fp32 := m.fp32 }

/-! ### Collectors (R352, R367) -/

/-- A collector's one partial goes to the owner. -/
def State.forwardSum (s : State) (x : BlockSum) (owner : Nat) : EstOut :=
  EstOut.send (s.setBlockSum { x with closed := true, lanes := [] }, []) owner (x.message 1 (grpTag (s.groupRec x.group)))

/-- The ranks whose collector this module is: the members of its bay. -/
def bayRanks (w me : Nat) : Nat :=
  ((memberList w).filter fun p => p / 16 == me / 16).foldl (fun a p => a + 2 ^ rankOf w p) 0

/-- A partial at a collector. -/
def State.atCollector (s : State) (m : EstMsg) (owner : Nat) : EstOut :=
  let w := s.groupRec m.group
  match ((s.blockSum m.group m.reduction m.block false).getD (newSum m false)).advance m with
  | none => (s.estStale, [])
  | some x =>
    if !countedRanks w m.ranks then (s.setBlockSum x, [])
    else if x.closed then EstOut.send (s, []) owner m
    else match x.take m with
      | none => (s.estStale, [])
      | some y =>
        let want := bayRanks w s.position &&& grpWanted w
        if y.ranks &&& want = want then s.forwardSum y owner else (s.setBlockSum y, [])

/-! ### Owners (R365, R367 to R369) -/

/-- A block's final values (R368, R372): FP32 patterns. -/
def finalValues (x : BlockSum) (mean : Bool) : List F32 :=
  let n := popCount 64 x.ranks
  let lanes := (x.lanes ++ List.replicate 64 0).take 64
  if n = 0 then List.replicate 64 zero32
  else if x.overflow then List.replicate 64 nan32
  else lanes.map fun v =>
    let y := if x.fp32 then BitVec.ofInt 32 v else to32 ((Num.ofInt v).scale ((x.exponent : Int) - 157))
    if mean then fdiv y (to32 (Num.ofNat n)) else y

/-- A block finalised: the owner's own member part takes the values, the other members the result or its header. -/
def State.finalise (s : State) (x : BlockSum) : EstOut :=
  let w := s.groupRec x.group
  let n := popCount 64 x.ranks
  let again := grpReplay w == 0 && decide (grpThreshold w < grpCount w - n) && decide (x.attempt < grpRepeatLimit w)
  let y := finalValues x (grpMean w)
  let lanes := y.map fun v => (v.toNat : Int)
  let own := { { x with marked := false }.message 2 (grpTag w) with repeats := again, lanes := lanes }
  let out : EstMsg := if grpOp w = 2 then { own with kind := 3, lanes := [] } else own
  let s := s.setBlockSum { x with closed := true, final := !again, lanes := [] }
  let s := if x.fp32 then s.bump Pd.fp32Blocks else s
  let s := if x.overflow then s.bump Pd.overflowBlocks else s
  let r := (resultTargets w s.position s.position).foldl (fun r p => EstOut.send r p out) ((s, []) : EstOut)
  (r.1, r.2 ++ [own])

/-- The first marked partial reopens a block: raised by 4, or carried in FP32 (R365). -/
def State.reopen (s : State) (x : BlockSum) : EstOut :=
  let w := s.groupRec x.group
  let y := if x.raises < 2 ∧ x.exponent + 4 ≤ 254 then x.emptied x.attempt (x.raises + 1) false
    else x.emptied x.attempt x.raises true
  let m := { y.message 4 (grpTag w) with lanes := [] }
  (memberList w).foldl (fun r p => EstOut.send r p m) ((s.setBlockSum y, []) : EstOut)

/-- A partial at its owner. -/
def State.atOwner (s : State) (m : EstMsg) : EstOut :=
  let w := s.groupRec m.group
  match ((s.blockSum m.group m.reduction m.block true).getD (newSum m true)).advance m with
  | none => (s.estStale, [])
  | some x =>
    if x.closed then (s.estStale, [])
    else if !countedRanks w m.ranks then (s.setBlockSum x, [])
    else match x.take m with
      | none => (s.estStale, [])
      | some y =>
        if y.marked then s.reopen y
        else if y.ranks &&& grpWanted w = grpWanted w then s.finalise y
        else (s.setBlockSum y, [])

/-- A PARTIAL at this module's collector or owner part. -/
def State.onPartial (s : State) (m : EstMsg) : EstOut :=
  match s.groupPlaces m.group with
  | none => (s.estStale, [])
  | some p =>
    let w := s.groupRec m.group
    let owner := ownerOfBlock w (blocksFor (tensorElements w p.descs)) m.block
    if owner = s.position then s.atOwner m
    else if (s.reduction m.group m.reduction).final then (s.estStale, [])
    else s.atCollector m owner

/-! ### Sending and sending again (R355, R365, R369) -/

/-- A released task out of the Estuary, ended with a code; a failure leaves the result tensor undefined (R373). -/
def State.estEnd (s : State) (e : EstTask) (code : BitVec 16) (result : Option Desc) : State :=
  let s := { s with estuary := { s.estuary with tasks := s.estuary.tasks.erase e } }.endTask e.task code 0
  match result with
  | some d => if isFailure code then s.blur (estAgent e.task.part) d.dataParts [] else s
  | none => s

/-- The result descriptor of reduction r. -/
def EstGroup.resultDesc (p : EstGroup) (r : Nat) : Desc := p.descs.getD (1 + r % 2) (parseDesc [])

/-- A block of an ALL_GATHER task's own shard distributed (R354). -/
def State.sendShardBlock (s : State) (e : EstTask) (r : Nat) (p : EstGroup) (b : Nat) : Except Stop EstOut :=
  let w := s.groupRec e.group
  let t := tensorElements w p.descs
  let span := blockSpan t b
  let first := 64 * (shardOf w (blocksFor t) (rankOf w s.position)).1
  match s.estValues (estAgent e.task.part) e.task.desc0 (parseDesc []) false (span.1 - first) span.2 with
  | .error x => .error x
  | .ok v =>
    let m : EstMsg := { kind := 2, group := e.group, fp32 := true, reduction := r, block := b
                        ranks := 2 ^ rankOf w s.position, tag := grpTag w
                        lanes := ((v ++ List.replicate 64 zero32).take 64).map fun x => (x.toNat : Int) }
    let o := (resultTargets w s.position s.position).foldl (fun o q => EstOut.send o q m) ((s, []) : EstOut)
    .ok (o.1.passBlock e p false (span.1 - first, span.2), o.2 ++ [m])

/-- Blocks of a sent task still to be sent, in ascending order, as far as memory serves; a refused access ends the task. -/
def State.pushUnsent (e : EstTask) (r : Nat) (p : EstGroup) : List Nat → State → EstOut
  | [], s => (s.setReduction e.group r { s.reduction e.group r with unsent := [] }, [])
  | b :: bs, s =>
    match (if grpOp (s.groupRec e.group) = 3 then s.sendShardBlock e r p b else s.sendBlock e r p b) with
    | .ok o =>
      let o' := State.pushUnsent e r p bs o.1
      (o'.1, o.2 ++ o'.2)
    | .error x =>
      let s := (s.noteStop (estAgent e.task.part) x).setReduction e.group r { s.reduction e.group r with unsent := b :: bs }
      match x with
      | .fail c _ _ =>
        ((s.setReduction e.group r { s.reduction e.group r with unsent := [] }).estEnd e c (some (p.resultDesc r)), [])
      | _ => (s, [])

/-- The blocks of reduction r that are still to be sent, sent. -/
def State.sendUnsent (s : State) (g r : Nat) : EstOut :=
  match s.estSent g r with
  | some e => State.pushUnsent e r e.place (s.reduction g r).unsent s
  | none => (s, [])

/-- A RAISE at a member: the new state enters its scale table and the block is sent again; its collector part starts anew
(R365). -/
def State.onRaise (s : State) (m : EstMsg) : EstOut :=
  let g := m.group
  let r := m.reduction
  let s := match (s.blockSum g r m.block false) with
    | some x => match x.advance m with
      | some y => s.setBlockSum y
      | none => s
    | none => s
  let x := s.reduction g r
  if x.final then (s.estStale, [])
  else
    let x := { x with raised := (x.raised.filter fun y => y.1 != m.block) ++ [(m.block, m.raises, m.fp32)]
                      unsent := if (s.estSent g r).isSome then (x.unsent.filter fun b => b != m.block) ++ [m.block] else x.unsent }
    let s := s.setReduction g r x
    let w := s.groupRec g
    let s := match s.placesFor g r with
      | none => s
      | some p =>
        match s.scaleEntry (estAgent p.part) w m.block with
        | .error _ => s
        | .ok e =>
          match s.setScaleEntry (estAgent p.part) w m.block (withCarriage e m.raises m.fp32) with
          | .ok t => t.setReduction g r { x with raised := x.raised.filter fun y => y.1 != m.block }
          | .error _ => s
    s.sendUnsent g r

/-! ### Results at a member (R357, R359, R368 to R370) -/

/-- Values of block b written through a result descriptor; with REDUCE_SCATTER it holds the own shard alone. -/
def State.writeResult (s : State) (p : EstGroup) (g r b : Nat) (v : List F32) : Except Stop State :=
  let w := s.groupRec g
  let t := tensorElements w p.descs
  let d := p.resultDesc r
  let span := blockSpan t b
  let first := if grpOp w = 2 then 64 * (shardOf w (blocksFor t) (rankOf w s.position)).1 else 0
  let ws := ((v.take span.2).zipIdx).map fun e => (d.offsetAt (unrank d.shape (span.1 - first + e.2)), e.1)
  match s.writeElems (estAgent p.part) d ws with
  | .error x => .error x
  | .ok u => .ok (u.passElems 65 p.part false d true (ws.map (·.1)))

/-- a′ of block b written to the accumulation tensor, CARRY set (R355, R370). -/
def State.carryBlock (s : State) (e : EstTask) (p : EstGroup) (b : Nat) : Except Stop State :=
  let w := s.groupRec e.group
  let g := estAgent e.task.part
  let acc := p.descs.getD 0 (parseDesc [])
  let span := blockSpan (tensorElements w p.descs) b
  match s.scaleEntry g w b with
  | .error x => .error x
  | .ok sc =>
    let add := scaleCarry sc || decide (0 < e.step % max 1 (grpSteps w))
    match s.estValues g e.task.desc0 acc add span.1 span.2 with
    | .error x => .error x
    | .ok v =>
      let ws := v.zipIdx.map fun x => (acc.offsetAt (unrank acc.shape (span.1 + x.2)), x.1)
      match ((s.passScale g w b false).passBlock e p add span).writeElems g acc ws with
      | .error x => .error x
      | .ok s => (s.passElems 65 e.task.part false acc true (ws.map (·.1))).setScaleEntry g w b (withCarry sc true)

/-- Blocks carried over in turn. -/
def State.carryBlocks (e : EstTask) (p : EstGroup) : List Nat → State → Except Stop State
  | [], s => .ok s
  | b :: bs, s =>
    match s.carryBlock e p b with
    | .error x => .error x
    | .ok t => State.carryBlocks e p bs t

/-- EXP after a final block (R359). -/
def nextExp (w maxExp : Nat) : Nat := min 254 (max maxExp 1 + 1 + grpMargin w)

/-- Block b of a final reduction at this member: values still held are written; the scale table takes its new EXP, loses
RAISES and FALLBACK; the block's CARRY is cleared, or a′ carried over (R359, R370). Answers whether it was carried. -/
def State.finalBlock (s : State) (e : Option EstTask) (p : EstGroup) (g r b : Nat) (h : Option BlockHeader) :
    Except Stop (State × Bool) :=
  let w := s.groupRec g
  let a := estAgent p.part
  let wrote : Except Stop State := match h.bind (·.values) with
    | some v => s.writeResult p g r b v
    | none => .ok s
  match wrote with
  | .error x => .error x
  | .ok s =>
    if grpOp w = 3 then .ok (s, false)
    else
      let mine := match h with
        | some h => h.ranks.testBit (rankOf w s.position)
        | none => false
      let carry : Except Stop State := match e with
        | some e => if mine then .ok s else s.carryBlock e p b
        | none => .ok s
      match carry with
      | .error x => .error x
      | .ok s =>
        match s.scaleEntry a w b with
        | .error x => .error x
        | .ok sc =>
          let sc := match h with
            | some h => if h.overflow then sc else setBits sc 0 8 (nextExp w h.maxExp)
            | none => sc
          let sc := withCarriage sc 0 false
          match s.setScaleEntry a w b (if mine then withCarry sc false else sc) with
          | .error x => .error x
          | .ok s => .ok (s, e.isSome && !mine)

/-- Every block of a final reduction; the blocks carried. -/
def State.finalBlocks (e : Option EstTask) (p : EstGroup) (g r : Nat) (hs : List BlockHeader) :
    List Nat → State → Except (Stop × State) (State × Nat)
  | [], s => .ok (s, 0)
  | b :: bs, s =>
    match s.finalBlock e p g r b (hs.find? fun h => h.block == b) with
    | .error x => .error (x, s)
    | .ok (t, c) =>
      match State.finalBlocks e p g r hs bs t with
      | .error x => .error x
      | .ok (t, n) => .ok (t, n + bit01 c)

/-- The completion code of a reduction at a member, first that applies (R373); ALL_GATHER has no code of the carriage. -/
def reductionCode (gather : Bool) (fault : Option (BitVec 16)) (unreach : Bool) (hs : List BlockHeader) (x : Reduction) : BitVec 16 :=
  match fault with
  | some c => c
  | none =>
    if unreach then St.unreachable
    else if gather then (if x.residue then St.residue else St.ok)
    else if hs.any (·.overflow) then St.overflow
    else if hs.any (·.fp32) then St.fp32Fallback
    else if 0 < x.late then St.late
    else if 0 < x.attempt then St.repeated
    else if hs.any fun h => decide (0 < h.raises) then St.scaleRaised
    else if x.residue then St.residue
    else St.ok

/-- The last-reduction record of Table 13-5. -/
def reductionRecord (w blocks r : Nat) (code : BitVec 16) (hs : List BlockHeader) (x : Reduction) : List Byte :=
  let count := fun (f : BlockHeader → Bool) => (hs.filter f).length
  let least := (List.range blocks).foldl (fun m b => min m (match hs.find? fun h => h.block == b with
    | some h => popCount 64 h.ranks
    | none => 0)) 64
  if grpOp w = 3 then natLE 4 r ++ natLE 2 code.toNat ++ [0, 0] ++ natLE 8 x.missing ++ natLE 16 0
  else natLE 4 r ++ natLE 2 code.toNat ++ natLE 1 (min 255 (x.attempt + 1)) ++ natLE 1 least ++ natLE 8 x.missing
    ++ natLE 4 (count fun h => decide (0 < h.raises)) ++ natLE 4 (count (·.fp32)) ++ natLE 4 (count (·.overflow))
    ++ natLE 4 x.late

/-- Ranks absent from any block: of an ALL_GATHER, those whose blocks did not arrive (R354, Table 13-5). -/
def missingRanks (w blocks : Nat) (hs : List BlockHeader) : Nat :=
  let full := 2 ^ grpCount w - 1
  (List.range blocks).foldl (fun m b =>
    let own := ((memberList w).zipIdx.find? fun e => e.1 == ownerOfBlock w blocks b).elim 0 fun e => 2 ^ e.2
    match hs.find? fun h => h.block == b with
    | some h => if grpOp w = 3 then m else m ||| (full ^^^ (h.ranks &&& full))
    | none => m ||| (if grpOp w = 3 then own else full)) 0

/-- What the Strandline notes once a reduction, in order (R373). -/
def reductionEvents (hs : List BlockHeader) (x : Reduction) : List (BitVec 16) :=
  (if x.residue then [St.residue] else []) ++ (if hs.any fun h => decide (0 < h.raises) then [St.scaleRaised] else [])
    ++ (if hs.any (·.fp32) then [St.fp32Fallback] else []) ++ (if 0 < x.attempt then [St.repeated] else [])
    ++ (if 0 < x.late then [St.late] else [])

/-- Reductions two or more before a final one are forgotten; what still arrives of them is stale (R360). -/
def State.pruneReductions (s : State) (g r : Nat) : State :=
  let e := s.estuary
  { s with estuary := { e with
      reds := e.reds.filter fun x => !(x.1 / 2 ^ 32 == g && decide (x.1 % 2 ^ 32 + 1 < r))
      sums := e.sums.filter fun x => !(x.group == g && decide (x.reduction + 1 < r)) } }

/-- The result elements of the shards that did not arrive, which are undefined (R354). -/
def State.blurMissing (s : State) (p : EstGroup) (g r : Nat) (hs : List BlockHeader) : State :=
  let w := s.groupRec g
  let t := tensorElements w p.descs
  let d := p.resultDesc r
  let absent := (List.range (blocksFor t)).filter fun b => !hs.any fun h => h.block == b
  let parts := absent.flatMap fun b => (List.range (blockSpan t b).2).flatMap fun k =>
    (d.pieces (d.offsetAt (unrank d.shape (64 * b + k)))).map fun e => (((e.1 : Nat) : Int), ((e.1 : Nat) : Int))
  s.blur (estAgent p.part) parts []

/-- A reduction becomes final at this member, its headers being `hs`; `unreach` where it ends for want of some. Where memory
does not serve, it stays open and is taken up again later. -/
def State.finishReduction (s : State) (g r : Nat) (p : EstGroup) (hs : List BlockHeader) (unreach : Bool) : State :=
  let w := s.groupRec g
  let e := s.estSent g r
  let blocks := blocksFor (tensorElements w p.descs)
  let close := fun (t : State) (late : Nat) (fault : Option (BitVec 16)) =>
    let x := { t.reduction g r with final := true, late := late, missing := missingRanks w blocks hs, unsent := []
                                    headers := hs.map fun h => { h with values := none } }
    let code := reductionCode (grpOp w == 3) fault unreach hs x
    let rec_ := reductionRecord w blocks r code hs x
    let t := (t.setReduction g r x).wr Pd.groupTable g (setByteField w 64 8 0)
    let t := t.bump Pd.lateBlocks late
    let t := if hs.any fun h => decide (0 < h.raises) then t.bump Pd.scaleRaises else t
    let t := t.wr Pd.lastReduction g (leNat rec_)
    let t := if grpOp w = 3 then t else (reductionEvents hs x).foldl (fun t c => t.record 0x02 c 9 g rec_) t
    let t := t.pruneReductions g r
    match e with
    | none => t
    | some e =>
      if grpOp w = 3 ∧ fault = none then (t.blurMissing p g r hs).estEnd e code none
      else t.estEnd e code (some (p.resultDesc r))
  match State.finalBlocks e p g r hs (List.range blocks) s with
  | .ok (t, late) => close t late none
  | .error (x, t) =>
    match x with
    | .fail c _ _ => close (t.noteStop (estAgent p.part) x) 0 (some c)
    | _ => s.noteStop (estAgent p.part) x

/-- Whether every block's header of the open attempt is held: the reduction is final, or its attempt is void and every block
is sent again (R369). -/
def State.checkFinal (s : State) (g r : Nat) : Nat → EstOut
  | 0 => (s, [])
  | n + 1 =>
    let x := s.reduction g r
    match s.placesFor g r with
    | none => (s, [])
    | some p =>
      let hs := x.headers.filter fun h => h.attempt == x.attempt
      let blocks := blocksFor (tensorElements (s.groupRec g) p.descs)
      if x.final ∨ hs.length < blocks then (s, [])
      else if hs.any (·.repeats) then
        let all := if (s.estSent g r).isSome then List.range blocks else []
        let s := (s.bump Pd.repeats).setReduction g r
          { x with attempt := x.attempt + 1, headers := x.headers.filter (fun h => decide (x.attempt < h.attempt)), unsent := all }
        let o := s.sendUnsent g r
        let o' := State.checkFinal o.1 g r n
        (o'.1, o.2 ++ o'.2)
      else (s.finishReduction g r p hs false, [])

/-- A result header at a member: passed on by a distributor, kept, its values written, and the reduction settled where it
was the last (R352, R357, R369). -/
def State.onHeader (s : State) (m : EstMsg) : EstOut :=
  let g := m.group
  let r := m.reduction
  match s.placesFor g r with
  | none => (s.estStale, [])
  | some p =>
    let w := s.groupRec g
    let owner := ownerOfBlock w (blocksFor (tensorElements w p.descs)) m.block
    let o : EstOut := if owner = s.position then (s, [])
      else (resultTargets w owner s.position).foldl (fun o q => EstOut.send o q m) (s, [])
    let s := o.1
    let x := s.reduction g r
    if x.final ∨ m.attempt < x.attempt ∨ x.headers.any (fun h => h.block == m.block && h.attempt == m.attempt) then
      (s.estStale, o.2)
    else
      let values := if m.kind = 2 then some (m.lanes.map fun v => BitVec.ofInt 32 v) else none
      let h : BlockHeader := { block := m.block, attempt := m.attempt, ranks := m.ranks, maxExp := m.maxExp, raises := m.raises
                               overflow := m.overflow, fp32 := m.fp32, repeats := m.repeats, values := values }
      let done := match values with
        | some v => s.writeResult p g r m.block v
        | none => .ok s
      let s := match done with
        | .ok t => t.setReduction g r { x with headers := x.headers ++ [{ h with values := none }] }
        | .error _ => s.setReduction g r { x with headers := x.headers ++ [h] }
      let c := s.checkFinal g r 9
      (c.1, o.2 ++ c.2)

/-! ### Messages in turn -/

/-- Whether a message is stale before it is looked at further (R360). -/
def State.msgStale (s : State) (m : EstMsg) : Bool :=
  let w := s.groupRec m.group
  decide (64 ≤ m.group) || grpMembers w == 0 || grpTag w != m.tag
    || (s.groupReds m.group).any fun e => e.2.final && decide (m.reduction + 1 < e.1)

/-- One message taken. -/
def State.onMessage (s : State) (m : EstMsg) : EstOut :=
  if s.msgStale m then (s.estStale, [])
  else match m.kind with
    | 1 => s.onPartial m
    | 2 => s.onHeader m
    | 3 => s.onHeader m
    | 4 => s.onRaise m
    | _ => (s.estStale, [])

/-- Messages taken in turn, those to this module's own parts after those before them. -/
def State.onMessages : Nat → List EstMsg → State → State
  | 0, _, s => s
  | _, [], s => s
  | n + 1, m :: ms, s =>
    let o := s.onMessage m
    State.onMessages n (ms ++ o.2) o.1

/-- What a step leaves for this module's own parts, taken: a message causes at most a few others, so this many suffice. -/
def EstOut.run (o : EstOut) : State := State.onMessages (64 * (o.2.length + 64)) o.2 o.1

/-- Whether a message waits in the Causeway buffers: its group's descriptors cannot be read, or every block slot is taken
(R348). -/
def State.msgWaits (s : State) (m : EstMsg) : Bool :=
  !s.msgStale m && ((s.groupPlaces m.group).isNone ||
    (m.kind == 1 && decide (32768 ≤ s.slotsInUse)
      && !((s.blockSum m.group m.reduction m.block true).isSome || (s.blockSum m.group m.reduction m.block false).isSome)))

/-! ### Commands -/

/-- A released task begins: a step before the last accumulates and ends; the last one sends its blocks and waits, or, its
reduction being final already, carries everything over (R355, R357, R370). -/
def State.estBegin (s : State) (e : EstTask) (p : EstGroup) : EstOut :=
  let w := s.groupRec e.group
  let n := max 1 (grpSteps w)
  let r := e.step / n
  let t := tensorElements w p.descs
  let all := List.range (blocksFor t)
  let x := s.reduction e.group r
  let carry := fun (code : BitVec 16) =>
    match State.carryBlocks e p all s with
    | .ok t => (t.estEnd e code none, true)
    | .error y => match y with
      | .fail c _ _ => ((s.noteStop (estAgent e.task.part) y).estEnd e c none, false)
      | _ => (s.noteStop (estAgent e.task.part) y, false)
  if e.step % n + 1 < n then ((carry St.ok).1, [])
  else if x.final ∧ grpOp w ≠ 3 then
    let o := carry St.late
    if o.2 then
      let y := { x with late := all.length }
      let rec_ := reductionRecord w all.length r St.late y.headers y
      ((((o.1.setReduction e.group r y).bump Pd.lateBlocks all.length).wr Pd.lastReduction e.group (leNat rec_)).record
        0x02 St.late 9 e.group rec_, [])
    else (o.1, [])
  else
    let sent := { e with sent := true }
    let s := { s with estuary := { s.estuary with tasks := s.estuary.tasks.map fun y => if y = e then sent else y } }
    let shard := shardOf w (blocksFor t) (rankOf w s.position)
    let mine := if grpOp w = 3 then (List.range (shard.2 - shard.1)).map (shard.1 + ·) else all
    let s := s.setReduction e.group r { x with unsent := mine }
    let o := s.sendUnsent e.group r
    let c := State.checkFinal o.1 e.group r 9
    (c.1, o.2 ++ c.2)

/-- Reductions under way here: blocks still to be sent are sent, and one that only memory kept open is settled. -/
def State.estRetry (s : State) : EstOut :=
  (s.estuary.tasks.filter (·.sent)).foldl (fun o e =>
    let r := e.step / max 1 (grpSteps (o.1.groupRec e.group))
    let a := o.1.sendUnsent e.group r
    let b := State.checkFinal a.1 e.group r 9
    (b.1, o.2 ++ a.2 ++ b.2)) (s, [])

/-- ESTUARY_SEND_BEGIN: the oldest released task that is first of its group begins. -/
def execEstuarySendBegin (s : State) : Res :=
  if !s.working || s.islandFenced 94 then .next s
  else
    let s := s.estRetry.run
    match s.estuary.tasks.find? fun e => !e.sent && s.estFirst e with
    | none => .next s
    | some e => .next (s.estBegin e e.place).run

/-- COLLECTOR_DEADLINE: a collector forwards what it holds of the block (R367). -/
def execCollectorDeadline (group block : Nat) (s : State) : Res :=
  match s.estuary.sums.find? fun x => x.group == group && x.block == block && !x.owner && x.input && !x.closed with
  | none => .next s
  | some x =>
    match s.groupPlaces group with
    | none => .next s
    | some p =>
      let w := s.groupRec group
      .next (s.forwardSum x (ownerOfBlock w (blocksFor (tensorElements w p.descs)) block)).run

/-- OWNER_DEADLINE: an owner finalises the block with the contributions it holds (R367). -/
def execOwnerDeadline (group block : Nat) (s : State) : Res :=
  match s.estuary.sums.find? fun x => x.group == group && x.block == block && x.owner && !x.closed with
  | none => .next s
  | some x => .next (s.finalise x).run

/-- RESULT_WAIT_EXPIRY: the oldest task of the group that has sent everything ends for want of results (R354, R370). -/
def execResultWaitExpiry (group : Nat) (s : State) : Res :=
  match s.estuary.tasks.find? fun e => e.group == group && e.sent with
  | some e =>
    let r := e.step / max 1 (grpSteps (s.groupRec group))
    let x := s.reduction group r
    if x.final || !x.unsent.isEmpty then .next s
    else .next (s.finishReduction group r e.place (x.headers.filter fun h => h.attempt == x.attempt) true)
  | none => .next s

end Sys2Proof.Machine
end

