-- ==== Sys2Proof/Machine/Ports.lean ====
section
/-!
DEFINITION. Lanes, physical ports, spare ports and vacant logical ports (spec/12 R341 to R344, R346).
-/
namespace Sys2Proof.Machine

/-! ### Records (PD 0x5410, 0x5440) -/

/-- The logical port that physical port p backs, its neighbour (PD 0x5410.01); 0xFF where there is none. -/
def State.portLogical (s : State) (p : Nat) : Nat := byteField (s.rd Pd.portStatus p) 1 1
def State.portNeighbour (s : State) (p : Nat) : Nat := byteField (s.rd Pd.portStatus p) 2 1

/-- What is recorded of a port: physical port, lane, logical port, neighbour (spec/17 Table 17-4). -/
def State.portDetail (s : State) (p lane l : Nat) : List Byte :=
  natLE 1 p ++ natLE 1 lane ++ natLE 1 l ++ natLE 1 (s.portNeighbour p)

/-- The lanes in use in a direction: 0 to 7 until one fails, then all that have not (R342). -/
def lanesInUse (failed : BitVec 9) : Nat := if failed = 0 then 0xFF else 0x1FF &&& (0x1FF ^^^ failed.toNat)

/-- PORT_STATUS' lane fields brought up to date. -/
def State.storeLanes (s : State) (p : Nat) : State :=
  let x := s.cport p
  s.wr Pd.portStatus p (setByteField (setByteField (s.rd Pd.portStatus p) 4 2 (lanesInUse x.txFailed)) 6 2 (lanesInUse x.rxFailed))

/-! ### Links down (R336, R346) -/

/-- The packets a port holds, in its retry buffer and its queues, the link-local ones aside. -/
def CausewayPort.holds (x : CausewayPort) : List Packet :=
  (x.retry.map (·.1) ++ x.queues.flatMap (·.2)).filter fun k => classOf k.ptype.toNat != 5

/-- The link layer of a port starts anew, with nothing in its buffers. -/
def State.freshPort (s : State) (p : Nat) : State :=
  let x := s.cport p
  s.setCport p { txFailed := x.txFailed, rxFailed := x.rxFailed, partner := x.partner }

/-- The link layer of a port starts anew; packets it holds are lost, transit packets among them counted (R346). -/
def State.clearPort (s : State) (p : Nat) : State :=
  let transit := (s.cport p).holds.filter fun k => k.src.toNat != s.position
  (s.freshPort p).bump Pd.transitDiscarded transit.length

/-- Port p leaves service in a state; routes leave it at once. -/
def State.portDown (s : State) (p st : Nat) : State := ((s.clearPort p).setPortState p st).announceLinks

/-- A packet that a failed port still held takes the route there is now, on the virtual channel of the hop it is on; none is
lost where there is a route (R342). -/
def State.requeue (s : State) (k : Packet) : State :=
  match (s.route k.dest.toNat).bind fun r => s.portTowards (r.firstHop k.dest.toNat) with
  | some p => s.enqueue p { k with nack := false, ackValid := false, credits := 0 }
  | none => if k.src.toNat = s.position then s else s.bump Pd.transitDiscarded

/-- Physical port p backs no logical port any longer. -/
def State.unback (s : State) (p : Nat) : State :=
  if p < 20 then s.wr Pd.portStatus p (setByteField (s.rd Pd.portStatus p) 1 1 0xFF) else s

/-- A logical port becomes vacant: recorded with DETOUR, vector 5 (R344). -/
def State.vacate (s : State) (l p : Nat) : State :=
  ((((s.unback p).wr Pd.logicalPorts l 0xFF).record 0x02 St.detour 5 p (s.portDetail p 0 l)).vector 5).sendOwnLinks

/-- The lowest spare port that is idle and named by no request. -/
def State.freeSpare (s : State) : Option Nat :=
  [18, 19].find? fun p => s.portState p == 5 && !([0, 1].any fun i =>
    byteField (s.rd Pd.spareRequests i) 0 1 == 1 && byteField (s.rd Pd.spareRequests i) 3 1 == p)

/-- A spare requested for logical port l, whose physical port p has failed; where there is none, l becomes vacant (R343,
R344). -/
def State.requestSpare (s : State) (l p : Nat) : State :=
  match [0, 1].find? fun i => byteField (s.rd Pd.spareRequests i) 0 1 == 0, s.freeSpare with
  | some i, some q =>
    s.wr Pd.spareRequests i (1 + l * 2 ^ 8 + neighbourOf s.position l * 2 ^ 16 + q * 2 ^ 24 + s.time / 1000 % 2 ^ 32 * 2 ^ 32)
  | _, _ => s.vacate l p

/-- Physical port p fails (R342): fenced, routes leave its logical port at once, the packets it held take them, and a spare is
requested (R343). The mapping stays until the spare takes its place (R329). The fence itself is announced by the caller. -/
def State.failPort (s : State) (p : Nat) : State :=
  let l := s.portLogical p
  let held := (s.cport p).holds
  let s := ((s.freshPort p).setPortState p 4).announceLinks
  let s := held.foldl (fun s k => s.requeue k) s
  if l < 18 then s.requestSpare l p else s

/-- What a neighbour at position q says of its failed ports: where one of them leads here, this end has failed too (R343;
log 48). -/
def State.partnerFailed (s : State) (q failed : Nat) : State :=
  match logicalPort q s.position, logicalPort s.position q with
  | some l, some m =>
    match s.physicalOf m with
    | some p => if failed.testBit l && s.portState p != 4 then s.failPort p else s
    | none => s
  | _, _ => s

/-- The failed physical port of a link to position q; 0xFF where there is none. -/
def State.failedPortTo (s : State) (q : Nat) : Nat := (s.failedTo q).getD 0xFF

/-- What a neighbour at position q says of its vacant ports: where one of them leads here, the request of this end lapses (R344;
log 48). -/
def State.partnerVacant (s : State) (q vacant : Nat) : State :=
  match logicalPort q s.position, logicalPort s.position q with
  | some l, some m =>
    match [0, 1].find? fun i => byteField (s.rd Pd.spareRequests i) 0 1 == 1 && byteField (s.rd Pd.spareRequests i) 1 1 == m with
    | some i => if vacant.testBit l then (s.wr Pd.spareRequests i 0).vacate m (s.failedPortTo q) else s
    | none => s
  | _, _ => s

/-- Port p fails by itself: the fence is announced (spec/15 R408). -/
def State.portFails (s : State) (p : Nat) : State :=
  if s.portState p = 4 then s
  else
    let d := s.portDetail p 0 (s.portLogical p)
    let t := s.failPort p
    if s.isReady then t.announceFence St.fenced 5 p d else t

/-! ### Commands -/

/-- Whether a cause exceeds its limit (R341, PD 0x5438.01, 0x5438.02); patterns of positive numbers order as the numbers do. -/
def State.laneLimit (s : State) : LaneCause → Bool
  | .signalLoss ns => decide (1000 < ns)
  | .uncorrectable n => decide (s.reg Pd.laneFailUncorrectable < n)
  | .errorRatio x => decide (s.reg Pd.laneFailBer < x.toNat)
  | .reported => true

/-- A lane of a port fails in one direction (R341, R342). -/
def State.laneFails (s : State) (p lane : Nat) (receive : Bool) : State :=
  let x := s.cport p
  let failed := if receive then x.rxFailed else x.txFailed
  if failed.getLsbD lane then s
  else
    let failed := failed ||| BitVec.ofNat 9 (2 ^ lane)
    let n := popCount 9 failed.toNat
    let s := (s.bump Pd.laneFailures).setCport p (if receive then { x with rxFailed := failed } else { x with txFailed := failed })
    if n = 1 then (s.storeLanes p).record 0x02 St.laneSpared 5 p (s.portDetail p lane (s.portLogical p))
    else if n = 2 then (s.storeLanes p).record 0x02 St.laneReduced 5 p (s.portDetail p lane (s.portLogical p))
    else (s.storeLanes p).portFails p

/-- LANE_FAILURE: the receiving end finds a limit exceeded and reports it to the sending end, or the sending end is told. -/
def execLaneFailure (port lane : Nat) (how : LaneEnd) (s : State) : Res :=
  if s.portState port = 2 ∧ lane < 9 ∧ s.laneLimit how.cause ∧ (how.receive = true ↔ how.cause ≠ .reported) then
    .next ((if how.receive then s.emit (.laneReport port lane) else s).laneFails port lane how.receive)
  else .next s

/-- PORT_SIGNAL_LOSS: the link is down, not failed. -/
def execPortSignalLoss (port : Nat) (s : State) : Res :=
  if s.portState port = 2 then .next (s.portDown port 3) else .next s

/-- PORT_SIGNAL_RETURN: a port whose link is down, or that Landfall found without a partner, trains again (R342, spec/15
Table 15-3). -/
def execPortSignalReturn (port : Nat) (s : State) : Res :=
  if port < 20 ∧ (s.portState port = 3 ∨ s.portState port = 0) ∧ !s.islandFenced 95 ∧ !s.islandFenced (96 + port) then
    .next (s.setPortState port 1)
  else .next s

/-- The spare request that names a physical port. -/
def State.requestFor (s : State) (q : Nat) : Option Nat :=
  [0, 1].find? fun i => byteField (s.rd Pd.spareRequests i) 0 1 == 1 && byteField (s.rd Pd.spareRequests i) 3 1 == q

/-- SPARE_CONNECT's write: the connected spare port trains. -/
def serveSpareConnect : Serve := fun _ _ q s =>
  match s.requestFor q.value with
  | none => refuse s St.invalidValue
  | some _ => { state := s.setPortState q.value 1 }

/-- SPARE_CONNECT. -/
def execSpareConnect (o : Origin) (port : BitVec 8) (s : State) : Res :=
  .next (s.receiveOwn serveSpareConnect (ownWrite o Pd.spareConnect 0 [port]))

/-- SPARE_PORT_TRAINED: where the neighbour's serial number and position are those of the failed link, the spare port backs the
logical port; else the request lapses (R343, R344). -/
def execSparePortTrained (port : Nat) (neighbour : Neighbour) (s : State) : Res :=
  match s.requestFor port with
  | none => .next s
  | some i =>
    if s.portState port ≠ 1 ∨ s.islandFenced 95 then .next s
    else
      let r := s.rd Pd.spareRequests i
      let l := byteField r 1 1
      let old := s.failedPortTo (byteField r 2 1)
      let t := s.wr Pd.spareRequests i 0
      if neighbour.position = byteField r 2 1 ∧ neighbour.serial = (s.cport old).partner then
        let t := (t.unback old).wr Pd.portStatus port (2 + l * 2 ^ 8 + neighbour.position * 2 ^ 16 + 0xFF * 2 ^ 24)
        let t := (t.setCport port { partner := neighbour.serial }).storeLanes port
        let t := t.wr Pd.logicalPorts l port
        .next ((t.record 0x02 St.portSpared 5 port (t.portDetail port 0 l)).announceLinks)
      else .next ((t.setPortState port 5).vacate l old)

/-- SPARE_WAIT_EXPIRY: a request not answered lapses (R344). -/
def execSpareWaitExpiry (record : Nat) (s : State) : Res :=
  let r := s.rd Pd.spareRequests record
  if record < 2 ∧ byteField r 0 1 = 1 ∧ s.portState (byteField r 3 1) = 5 then
    .next ((s.wr Pd.spareRequests record 0).vacate (byteField r 1 1) (s.failedPortTo (byteField r 2 1)))
  else .next s

end Sys2Proof.Machine
end

