-- ==== Sys2Proof/Machine/Power.lean ====
section
/-!
DEFINITION. Power, chapter 01: supply supervision, the power-up order, controlled power-down, reset, straps and
temperature.
-/
namespace Sys2Proof.Machine

/-! ### Supply supervision (spec/01 R23, Table 01-3, Table 01-11) -/

/-- A reading of the input: the pins, INPUT_VOLTAGE and INPUT_MIN, which 0 marks as cleared since the last read
(PD 0x2000.01, 0x2000.05). -/
def State.measureInput (s : State) (mv : Nat) (pwrgood : Bool) : State :=
  let low := s.reg Pd.inputMin
  let s := (s.setReg Pd.inputVoltage mv).setReg Pd.inputMin (if low = 0 then mv else min low mv)
  { s with power := { s.power with inputMv := mv, pwrgood := pwrgood } }

/-- The supply warning is raised (spec/01 Table 01-3): vector 0, a SUPPLY entry, WARN_ACTIVE and WARN_SEEN, the warning
flush. It changes nothing else (R24). -/
def State.raiseSupplyWarning (s : State) : State :=
  ((((s.setFlags Pd.supplyFlags 3).vector 0).record 0x03 St.ok 0 noUnit (natLE 4 s.power.inputMv))).startFlush

/-- SUPPLY_WARNING. -/
def execSupplyWarning (mv : Nat) (pwrgood : Bool) (s : State) : Res :=
  if 2 ≤ s.power.step ∧ (mv < 37000 ∨ pwrgood = false) then
    let dropped := s.power.pwrgood && !pwrgood
    let t := s.measureInput mv pwrgood
    let t := if dropped then t.setFlags Pd.supplyFlags 4 else t
    .next (if (s.reg Pd.supplyFlags).testBit 0 then t else t.raiseSupplyWarning)
  else .next s

/-- SUPPLY_WARNING_CLEAR. -/
def execSupplyWarningClear (mv : Nat) (pwrgood : Bool) (s : State) : Res :=
  if 37500 < mv ∧ pwrgood = true then .next ((s.measureInput mv pwrgood).clearFlags Pd.supplyFlags 32 1) else .next s

/-- INPUT_OVERVOLTAGE (spec/01 Table 01-11). -/
def execInputOvervoltage (mv : Nat) (s : State) : Res :=
  if 42500 < mv then .next ((s.measureInput mv s.power.pwrgood).setFlags Pd.supplyFlags 16) else .next s

/-- UNDERVOLTAGE_RESET: a full power cycle (spec/01 R25). -/
def execUndervoltageReset (mv : Nat) (s : State) : Res :=
  if mv < 35000 then .next (s.powerCycle.measureInput mv s.power.pwrgood) else .next s

/-! ### Power-up (spec/01 R27, Table 01-4) -/

/-- POWER_UP: the pins rise; from step 1, with step 2's condition met, step 2 begins. -/
def execPowerUp (mv : Nat) (pwrgood resetN : Bool) (straps : BitVec 10) (s : State) : Res :=
  let t := s.measureInput mv pwrgood
  let t := { t with power := { t.power with resetN := resetN, liveStraps := straps } }
  .next (if t.power.step = 1 ∧ t.mayBoot ∧ t.reg Pd.powerState ≠ 3 then t.stepTwo else t)

/-- HARBOUR_BOOT_DONE: the boot ROM has checked both banks; it boots one and Landfall begins, or the module stays at
step 2 with the ROM alone answering (spec/18 R461). -/
def execHarbourBootDone (ok0 ok1 : Bool) (s : State) : Res :=
  if s.power.step = 2 ∧ s.power.romOnly = false then
    match s.bootChoice ok0 ok1 with
    | none => .next { s with power := { s.power with romOnly := true } }
    | some i =>
      let t := s.measureBoot i
      .next ({ t with power := { t.power with booted := some i } }).landfallBegin
  else .next s

/-! ### Controlled power-down (spec/01 R28) -/

/-- Islands a to b lose their power, and their clocks are not locked (PD 0x2400.02). -/
def State.unlockIslands (s : State) (a b : Nat) : State := s.clearFlags Pd.islandLocked 128 (2 ^ (b + 1) - 2 ^ a)

/-- A write to POWER_DOWN: 0x0000_5AFE makes POWER_STATE QUIESCING; any other value is refused and recorded. -/
def servePowerDown : Serve := fun _ _ r s =>
  if r.value = 0x5AFE then
    { state := if s.reg Pd.powerState = 0 then s.setReg Pd.powerState 1 else s }
  else refuse (s.record 0x02 St.invalidValue 0 noUnit (natLE 4 r.value)) St.invalidValue

/-- POWER_DOWN. -/
def execPowerDown (o : Origin) (value : BitVec 32) (s : State) : Res :=
  .next (s.receiveOwn servePowerDown (ownWrite o Pd.powerDown 0 (natLE 4 value.toNat)))

/-- QUIESCE_COMPLETE: no task runs any longer; the Strandline flushes, the conversion stages go off in reverse order,
leaving the Harbour and forwarding, and POWER_STATE is SAFE_TO_REMOVE (log 12). -/
def execQuiesceComplete (s : State) : Res :=
  if s.reg Pd.powerState = 1 ∧ s.tasksRunning = false then
    let t := (s.startFlush.setReg Pd.powerState 2).unlockIslands 1 94
    .next { t with power := { t.power with stageHouse := false, stageCliffs := false } }
  else .next s

/-! ### Reset (spec/01 R29, R43) -/

/-- Whether POWER_STATE is TRIPPED. -/
def State.tripped (s : State) : Bool := s.reg Pd.powerState == 3

/-- The hottest junction of the last sample, in thousandths of a degree. -/
def State.hottest (s : State) : Int := toSigned 32 (s.reg Pd.hottestJunction)

/-- RESET_N has gone low. -/
def State.resetLow (s : State) : State := { s with power := { s.power with resetN := false } }

/-- MODULE_RESET: pulses shorter than 1 µs are ignored, those from 1 to 10 µs have no defined effect; while tripped the
pulse is held until the hottest junction is below 85 °C and then acts as a power cycle (spec/01 R43, spec/15 R393). -/
def execModuleReset (lowNs : Nat) (s : State) : Res :=
  if lowNs < 1000 then .next s
  else if lowNs < 10000 then .fault .resetPulseUndefined
  else if s.tripped then
    if s.hottest < 85000 then .next s.powerCycle.resetLow
    else .next { s.resetLow with power := { s.resetLow.power with heldReset := true } }
  else if s.power.step = 1 then .next s.resetLow
  else .next (s.moduleReset false).resetLow

/-- RESET_N_RELEASE: the module resumes at step 2 where step 2's condition holds (log 13). -/
def execResetNRelease (s : State) : Res :=
  let t := { s with power := { s.power with resetN := true } }
  .next (if t.power.step = 1 ∧ t.mayBoot ∧ t.tripped = false then t.stepTwo else t)

/-- TRIPPED_RESET_RELEASE: the held reset takes effect, as a power cycle (spec/01 R43, spec/15 R393). -/
def execTrippedResetRelease (hottest : Int) (s : State) : Res :=
  if s.tripped ∧ s.power.heldReset = true ∧ hottest < 85000 then
    let t := s.powerCycle.setReg Pd.hottestJunction (ofSigned 32 hottest)
    .next (if t.mayBoot then t.stepTwo else t)
  else .next s

/-! ### Straps (spec/01 R35) -/

/-- STRAP_CHECK. -/
def execStrapCheck (live : BitVec 10) (s : State) : Res :=
  let t := { s with power := { s.power with liveStraps := live } }
  if 2 ≤ s.power.step ∧ live.toNat ≠ s.reg Pd.straps then
    .next ((t.setFlags Pd.strapMismatch 1).record 0x02 St.ok 0 noUnit (natLE 2 (s.reg Pd.straps) ++ natLE 2 live.toNat))
  else .next t

/-! ### Temperature (spec/01 R40 to R43, Tables 01-9 and 01-12) -/

/-- The threshold of throttle level `l`, 1 to 4, in thousandths of a degree (R42). -/
def State.levelThreshold (s : State) (l : Nat) : Int := toSigned 32 (s.reg Pd.throttleStart) + 2000 * ((l : Int) - 1)

/-- The throttle level after a sample: up to the highest threshold reached, or down one when the reading has fallen
2 °C below the current level's threshold (R40). -/
def State.levelAfter (s : State) (hot : Int) : Nat :=
  let cur := s.reg Pd.throttleLevel
  let up := ([1, 2, 3, 4].filter fun l => decide (s.levelThreshold l ≤ hot)).length
  if cur < up then up
  else if 0 < cur ∧ hot ≤ s.levelThreshold cur - 2000 then cur - 1
  else cur

/-- The hottest of eight readings and its block, 1 to 8; the first where several are equal. -/
def hottestOf (l : List Int) : Int × Nat :=
  (l.zipIdx).foldl (fun a e => if a.1 < e.1 then (e.1, e.2 + 1) else a) (l.headD 0, 1)

/-- The long operations that run end in ABORTED, each with its entry: what they work on has lost its power (log 162). -/
def State.tripRuns (s : State) : State :=
  let s := [1, 2, 3, 4, 5, 6, 7].foldl (fun s r => if s.opActive r then (s.recordAborted r).opEnd r 5 St.aborted else s) s
  { s with selfTest := none, repair := none, bulk := none, rebuild := none, stow := { s.stow with run := none, restore := none } }

/-- Thermal trip (R43): recorded, the flush begins, every stage but the Harbour's goes off, forwarding stops and every
unit it powered loses its work. -/
def State.trip (s : State) (detail : List Byte) : State :=
  let s := (((s.record 0x01 St.ok 0 noUnit detail).startFlush.vector 1).setReg Pd.powerState 3).tripRuns.unlockIslands 1 115
  let s := { s with pd := tclear (tclear s.pd (pdKey Pd.linkMap s.position) 1) (pdKey Pd.portStatus 0) 20 }
  { s with
    power := { s.power with stageCliffs := false, stageLinks := false, stageHouse := false, forwarding := false
                            routed := false, thermN := true }
    headland := {}, engines := [], finished := [], endings := [], spec := [], reruns := [], estuary := {}, heads := []
    causeway := {}, rooms := [] }

/-- The sample's readings stored. -/
def State.storeJunctions (s : State) (j : List Int) (hot : Int) (block : Nat) : State :=
  let s := (j.zipIdx).foldl (fun s e => s.setReg (Pd.blockJunction + e.2) (ofSigned 32 e.1)) s
  (s.setReg Pd.hottestJunction (ofSigned 32 hot)).setReg Pd.hottestBlock block

/-- The throttle level set, with its flags. -/
def State.setThrottle (s : State) (level : Nat) : State :=
  let s := s.setReg Pd.throttleLevel level
  if level = 0 then s.clearFlags Pd.thermalFlags 32 1 else s.setFlags Pd.thermalFlags 3

/-- THERM_N driven or released (Table 01-7, Table 01-9): at its rising edge the flags, a WARNING entry and vector 1. -/
def State.setTherm (s : State) (on : Bool) (detail : List Byte) : State :=
  let was := s.power.thermN
  let s := { s with power := { s.power with thermN := on } }
  if on then
    let s := s.setFlags Pd.thermalFlags 12
    if was then s else (s.record 0x02 St.ok 0 noUnit detail).vector 1
  else s.clearFlags Pd.thermalFlags 32 4

/-- THERMAL_SAMPLE. -/
def execThermalSample (junctions : Vector Int 8) (s : State) : Res :=
  if s.power.step = 1 then .next s
  else
    let j := junctions.toList
    let h := hottestOf j
    let detail := natLE 4 (ofSigned 32 h.1) ++ natLE 1 h.2
    let t := s.storeJunctions j h.1 h.2
    if s.tripped then .next t
    else
      let t := (t.setThrottle (s.levelAfter h.1)).setTherm (decide (103000 ≤ h.1)) detail
      .next (if 105000 ≤ h.1 then t.trip detail else t)

end Sys2Proof.Machine
end

