-- ==== Sys2Proof/Machine/Headland.lean ====
section
/-!
DEFINITION. The Headland matrix array, chapter 08: release checks, shadow loading and swap, the stream and the adder
trees, freezes, the drain, and columns that fail.
-/
namespace Sys2Proof.Machine

/-! ### The operation block and its shapes (Tables 08-1 to 08-4) -/

/-- The operation block of Table 08-3. -/
structure HeadOp where
  pair      : Nat
  act       : Nat
  addend    : Bool
  bias      : Bool
  preVec    : Bool
  side      : Bool
  stage     : Bool
  pre       : F32
  post      : F32
  stageRoom : Nat
  stageCount : Nat
deriving DecidableEq, Repr

/-- The block's bytes read. -/
def parseHeadOp (b : List Byte) : HeadOp :=
  let f := listField b 2 1
  { pair := listField b 0 1, act := listField b 1 1, addend := f.testBit 0, bias := f.testBit 1, preVec := f.testBit 2
    side := f.testBit 3, stage := f.testBit 4, pre := BitVec.ofNat 32 (listField b 4 4)
    post := BitVec.ofNat 32 (listField b 8 4), stageRoom := listField b 12 2, stageCount := listField b 14 1 }

/-- A Headland task's block. -/
def Task.headOp (t : Task) : HeadOp := parseHeadOp (recOperation t.record)

/-- The roles of a task's descriptors in order (Table 08-4). -/
def HeadOp.roles (p : HeadOp) : List DescRole :=
  [.read, .read, .write] ++ (if p.addend then [.read] else []) ++ (if p.bias then [.read] else [])
    ++ (if p.preVec then [.read] else []) ++ (if p.side then [.write] else [])

/-- The numbers of the optional descriptors. -/
def HeadOp.biasIndex (p : HeadOp) : Nat := 3 + (if p.addend then 1 else 0)
def HeadOp.preIndex (p : HeadOp) : Nat := p.biasIndex + (if p.bias then 1 else 0)
def HeadOp.sideIndex (p : HeadOp) : Nat := p.preIndex + (if p.preVec then 1 else 0)

/-- A descriptor of a task. -/
def Task.desc (t : Task) (i : Nat) : Desc := t.descs.getD i (parseDesc [])

/-- The formats of a pair: stationary, stream, products per cell (Tables 08-1 and 08-2). -/
def pairFormats (pair width : Nat) : Option (List Nat × List Nat × Nat) :=
  match pair with
  | 1 => some ([0x02], [0x02], 1)
  | 2 => some ([0x03], [0x03], 1)
  | 3 => some ([0x04, 0x05], [0x04, 0x05], 2)
  | 4 => some ([0x06, 0x07], [0x06, 0x07], 2)
  | 5 => some ([0x09], [0x09], 2)
  | 6 => some ([0x08], [0x08], 4)
  | 7 => some ([0x0A], [0x0A], 4)
  | 8 => some ([0x0B], [0x09], min 8 (16 / max 1 width))
  | _ => none

/-- N, K, M and r of a task. -/
def Task.hN (t : Task) : Nat := (t.desc 0).shape.getD 0 0
def Task.hK (t : Task) : Nat := (t.desc 0).shape.getD 1 0
def Task.hM (t : Task) : Nat := (t.desc 1).shape.getD 1 0
def Task.hR (t : Task) : Nat :=
  match pairFormats t.headOp.pair (t.desc 0).planeWidth with
  | some f => f.2.2
  | none => 1

/-- K indices of a full tile, tiles of a pass, passes, vectors of a pass (R202). -/
def Task.tileK (t : Task) : Nat := 1024 * t.hR
def Task.tiles (t : Task) : Nat := (t.hK + t.tileK - 1) / t.tileK
def Task.passes (t : Task) : Nat := (t.hM + 2047) / 2048
def Task.vectorsIn (t : Task) (pass : Nat) : Nat := min 2048 (t.hM - 2048 * pass)

/-- The K index where a tile begins, and its cell rows (R195, R203). -/
def Task.tileStart (t : Task) (tile : Nat) : Nat := t.tileK * (tile % max 1 t.tiles)
def Task.tileRows (t : Task) (tile : Nat) : Nat :=
  (min t.tileK (t.hK - t.tileStart tile) + t.hR - 1) / t.hR

/-- The staging rooms of a task. -/
def Task.headStaging (t : Task) : List Nat :=
  if t.headOp.stage then stagingRooms t.headOp.stageRoom t.headOp.stageCount else []

/-! ### Release (R200, R201) -/

/-- The scaled-output condition of check 1. -/
def scaledOutOk (d : Desc) (n : Nat) : Bool :=
  d.scaleMode == 0 || (n % 32 == 0 && d.stepAt 0 == 1 && d.shape.getD 0 0 % 32 == 0 && n % d.shape.getD 0 1 == 0
    && (List.range (d.dims - 1)).all fun j => d.stepAt (j + 1) % 32 == 0)

/-- Check 1: the block's values, then the scaled outputs; the DETAIL of the failure. -/
def Task.headCheck1 (t : Task) : Option Nat :=
  let p := t.headOp
  if (pairFormats p.pair 1).isNone || decide (5 < p.act) ||
      (p.stage && !(decide (16 ≤ p.stageCount) && decide (p.stageCount ≤ 64) && decide (p.stageRoom + p.stageCount ≤ 1536))) then
    some detailRecord
  else if !scaledOutOk (t.desc 2) t.hN then some 2
  else if p.side && !scaledOutOk (t.desc p.sideIndex) t.hN then some p.sideIndex
  else none

/-- Whether a write descriptor suits a task (R199). -/
def outputOk (d : Desc) (count : Nat) : Bool :=
  [1, 2, 3, 4, 5].contains d.format && (d.scaleMode == 0 || d.format == 4 || d.format == 5) && d.elements == count
    && d.footprint.all inHouse

/-- Whether an addend, bias or prescale descriptor suits a task (R199). -/
def operandOk (d : Desc) (count : Nat) (oneDim : Bool) : Bool :=
  (floatFmt d.format).isSome && d.elements == count && (!oneDim || d.dims == 1) && d.footprint.all inHouse

/-- Check 2: shapes, formats, areas, N ≤ W; the DETAIL of the failure. -/
def Task.headCheck2 (t : Task) (width : Nat) : Option Nat :=
  let p := t.headOp
  let st := t.desc 0
  let sm := t.desc 1
  let mn := t.hM * t.hN
  match pairFormats p.pair st.planeWidth with
  | none => some detailRecord
  | some f =>
    if st.dims ≠ 2 ∨ !f.1.contains st.format ∨ st.footprint.all inHouse = p.stage ∨ st.footprint.any inHouse = p.stage then some 0
    else if sm.dims ≠ 2 ∨ !f.2.1.contains sm.format ∨ sm.shape.getD 0 0 ≠ t.hK ∨ !sm.footprint.all inHouse then some 1
    else if !outputOk (t.desc 2) mn then some 2
    else if p.addend && !operandOk (t.desc 3) mn false then some 3
    else if p.bias && !operandOk (t.desc p.biasIndex) t.hN true then some p.biasIndex
    else if p.preVec && !operandOk (t.desc p.preIndex) t.hN true then some p.preIndex
    else if p.side && !outputOk (t.desc p.sideIndex) mn then some p.sideIndex
    else if width < t.hN then some 0
    else none

/-- The numbers of a task's write descriptors. -/
def Task.headWrites (t : Task) : List Nat := [2] ++ (if t.headOp.side then [t.headOp.sideIndex] else [])

/-- Check 4: the number of a descriptor that overlaps where it must not. -/
def Task.headOverlap (t : Task) : Option Nat :=
  let p := t.headOp
  let stage := if p.stage then stagingParts p.stageRoom p.stageCount else []
  let all := List.range t.descs.length
  match t.headWrites.find? fun w => all.any fun i => i != w && meets (t.desc w).footprint (t.desc i).footprint with
  | some w => some w
  | none => all.find? fun i => meets stage (t.desc i).footprint

/-- Column map and width (Table 08-7). -/
def State.width (s : State) : Nat := s.reg Pd.width
def State.columnEntry (s : State) (j : Nat) : Nat := if s.width ≤ j then 0x8000 else s.rd Pd.columnMap j
def State.columnVacant (s : State) (j : Nat) : Bool := (s.columnEntry j).testBit 15

/-- The checks of R201 after the descriptors'. -/
def State.headChecks (s : State) (t : Task) : Option Reject :=
  match t.headCheck1 with
  | some d => some (.invalid d)
  | none => match t.headCheck2 s.width with
    | some d => some (.invalid d)
    | none =>
      if (List.range t.hN).any s.columnVacant then some (.done St.columnLost 0 none)
      else match t.headOverlap with
        | some d => some (.done St.overlap d none)
        | none => none

/-- The first write descriptor of a speculative task that leaves its shadow rooms; 0x100 for the staging area (R318). -/
def Task.headShadow (t : Task) : Option Nat :=
  if !t.runAhead then none
  else match t.headWrites.find? fun w => !inShadow t.record (t.desc w).footprint with
    | some w => some w
    | none =>
      if t.headOp.stage && !inShadow t.record (stagingParts t.headOp.stageRoom t.headOp.stageCount) then some detailRecord
      else none

/-- A bias or prescale vector read to FP32 values, `n` elements (R209). -/
def State.readVector (s : State) (g : Agent) (d : Desc) : Nat → Except Stop (List F32)
  | 0 => .ok []
  | n + 1 =>
    match State.readVector s g d n with
    | .error x => .error x
    | .ok l =>
      match s.readNum g d false (d.offsetAt (unrank d.shape n)) with
      | .error x => .error x
      | .ok v => .ok (l ++ [to32 (v.getD .zero)])

/-- A task whose descriptors have been read: the checks of R201 after theirs, then the bias and prescale vectors read. -/
def State.headStart (s : State) (t : Task) : Except Reject ArrayTask :=
  let p := t.headOp
  match (s.headChecks t).or (t.headShadow.map Reject.invalid) with
  | some x => .error x
  | none =>
    match (if p.bias then s.readVector t.agent (t.desc p.biasIndex) t.hN else .ok []),
          (if p.preVec then s.readVector t.agent (t.desc p.preIndex) t.hN else .ok []) with
    | .error x, _ => .error (.ofStop x)
    | _, .error x => .error (.ofStop x)
    | .ok bias, .ok pre => .ok { task := t, id := s.headland.nextId, pre := pre, bias := bias }

/-- A task at its release: its descriptors read and checked, then the rest. -/
def State.headPrepare (s : State) (t : Task) : Except Reject ArrayTask :=
  let p := t.headOp
  if recDescs t.record ≠ p.roles.length then .error (.invalid detailRecord)
  else match s.fetchDescs t.agent t.runAhead false false 0 ((recDescAddrs t.record).zip p.roles) with
    | .error x => .error x
    | .ok ds =>
      s.headStart { t with descs := ds }

/-- Whether the Headland can take a task (R192, R216, R218). -/
def State.headCanAccept (s : State) : Bool :=
  let h := s.headland
  !s.islandFenced 1 && h.failed.isEmpty && h.rerun.isEmpty && h.shadow.isNone &&
    match h.running with
    | none => true
    | some a => a.active && decide (a.tile + 1 = a.task.tiles * a.task.passes)

/-- A task put into the array: on the active set where that is free, else as the next. -/
def State.headPlace (s : State) (a : ArrayTask) : State :=
  let h := s.headland
  if h.running.isNone then { s with headland := { h with running := some a, nextId := h.nextId + 1, loaded := 0, shadowSet := [] } }
  else { s with headland := { h with shadow := some a, nextId := h.nextId + 1, loaded := 0, shadowSet := [] } }

/-! ### Failures of a running task (R470) -/

/-- The write footprints of a Headland task. -/
def Task.headOutputs (t : Task) : List Interval := t.headWrites.flatMap fun i => (t.desc i).dataParts ++ (t.desc i).scaleParts

/-- A task removed from the array, its results in the trees with it. -/
def State.headRemove (s : State) (id : Nat) : State :=
  let h := s.headland
  let is := fun (a : Option ArrayTask) => match a with
    | some x => x.id == id
    | none => false
  let h := { h with draining := h.draining.filter fun x => x.id != id, trees := h.trees.filter fun x => x.id != id
                    shadow := if is h.shadow then none else h.shadow }
  if is h.running then
    { s with headland := { h with running := h.shadow, shadow := none
                                  loaded := if h.shadow.isSome then h.loaded else 0
                                  shadowSet := if h.shadow.isSome then h.shadowSet else [] } }
  else { s with headland := h }

/-- A task ended by a failure: its outputs undefined once it has consumed a vector (R470, R217). -/
def State.headFail (s : State) (a : ArrayTask) (code : BitVec 16) : State :=
  let t := ((s.headRemove a.id).clearUnit 0).endTask a.task code 0
  if a.begun then t.blur a.task.agent a.task.headOutputs [] else t

/-- A task stopped by a refused access. -/
def State.headStop (s : State) (a : ArrayTask) (x : Stop) : State :=
  match x with
  | .fail c _ _ => (s.noteStop a.task.agent x).headFail a c
  | y => s.noteStop a.task.agent y

/-! ### Shadow loading (R203, R204, R207) -/

/-- The task and tile that the shadow set is loading. -/
def Headland.target (h : Headland) : Option (ArrayTask × Nat) :=
  match h.running with
  | none => none
  | some a =>
    if !a.active then some (a, a.tile)
    else if a.tile + 1 < a.task.tiles * a.task.passes then some (a, a.tile + 1)
    else h.shadow.map fun b => (b, 0)

/-- A stationary element, decoded and scaled: a suppressed element is +0, a suppressed scale byte 127 (R200). -/
def State.stationary (s : State) (t : Task) (n k : Nat) : Except Stop (Num × Option Nat) :=
  let d := t.desc 0
  let o := d.offsetAt [n, k]
  match s.readCode t.agent d t.runAhead o, s.readScale t.agent d t.runAhead o with
  | .error x, _ => .error x
  | _, .error x => .error x
  | .ok c, .ok e =>
    let v := match c with
      | some c => applyScale (e.getD 127) (d.target.value c)
      | none => .zero
    .ok (v, if c.isNone then some (d.blockOf o) else if e.isNone then some (d.scaleBase + o.toNat / 32) else none)

/-- The elements of one cell: `n` consecutive K indices from k. -/
def State.cell (s : State) (t : Task) (col : Nat) : Nat → Nat → Except Stop (List Num × List Nat)
  | _, 0 => .ok ([], [])
  | k, n + 1 =>
    match s.stationary t col k, s.cell t col (k + 1) n with
    | .error x, _ => .error x
    | _, .error x => .error x
    | .ok v, .ok r => .ok (v.1 :: r.1, v.2.toList ++ r.2)

/-- One cell row, columns `col` on, `n` of them. -/
def State.cellRow (s : State) (t : Task) (k len : Nat) : Nat → Nat → Except Stop (List (List Num) × List Nat)
  | _, 0 => .ok ([], [])
  | col, n + 1 =>
    match s.cell t col k len, s.cellRow t k len (col + 1) n with
    | .error x, _ => .error x
    | _, .error x => .error x
    | .ok v, .ok r => .ok (v.1 :: r.1, v.2 ++ r.2)

/-- Suppressed reads added to a task in the array. -/
def ArrayTask.suppress (a : ArrayTask) (id n : Nat) : ArrayTask :=
  if a.id = id then { a with task := { a.task with suppressed := a.task.suppressed + n } } else a

/-- The addresses of the elements of `rows` cell rows from row `row` of a tile, in feeder k's 128 columns (R203). -/
def Task.rowAddrs (t : Task) (tile row rows k : Nat) : List Nat :=
  let d := t.desc 0
  let first := t.tileStart tile + t.hR * row
  let last := min (first + t.hR * rows) (min t.hK (t.tileStart tile + t.hR * t.tileRows tile))
  (List.range (min 128 (t.hN - 128 * k))).flatMap fun j => (List.range (last - first)).flatMap fun i =>
    d.elemAddrs (d.offsetAt [128 * k + j, first + i])

/-- What the feeders ask of the Coves for a row of a stationary operand in the Cliffs: the blocks their staging rooms lack, with what
the next seven rows need of the same windows (spec/06 R144); each feeder asks for its own columns. -/
def State.rowNeeds (s : State) (t : Task) (tile row : Nat) : List CliffReq × List Nat :=
  let d := t.desc 0
  let ahead := t.runAhead || d.prefetch
  let part := fun (acc : List CliffReq × List Nat) (k : Nat) =>
    let lacking := (s.unitBlocks t.agent ahead false (t.rowAddrs tile row 1 k)).filter fun b => !((s.unitPort 0).staged ++ acc.2).contains b
    if lacking.isEmpty then acc
    else
      let windows := (lacking.map (windowOf (isAlias d.base))).eraseDups
      let more := (s.unitBlocks t.agent ahead false (t.rowAddrs tile (row + 1) 7 k)).filter fun b =>
        !((s.unitPort 0).staged ++ acc.2 ++ lacking).contains b && windows.contains (windowOf (isAlias d.base) b)
      (acc.1 ++ requestsFor 0 (.feeder k) d (lacking ++ more), acc.2 ++ lacking ++ more)
  (List.range ((t.hN + 127) / 128)).foldl part ([], [])

/-- The feeders' requests for a row asked for once and taken further (R200). -/
def State.askRow (s : State) (t : Task) (tile row : Nat) : State :=
  if !t.headOp.stage then s
  else
    let s := if (s.unitPort 0).begun then s
      else
        let n := s.rowNeeds t tile row
        (s.ask 0 [] n.1).noteStaged 0 n.2
    s.pump 0

/-- One row loaded into the shadow set, where a tile is being loaded; a staged operand's row waits until the Coves have answered for
it. The first row of a task checks its staging rooms,
whose bytes are from then on the feeders'. -/
def State.loadRow (s : State) : State :=
  match s.headland.target with
  | none => s
  | some (a, tile) =>
    let t := a.task
    let row := s.headland.loaded
    if t.tileRows tile ≤ row then s
    else
      let k := t.tileStart tile + t.hR * row
      let s := s.askRow t tile row
      match s.stagingOk t.agent t.headStaging, (s.unitPort 0).failed with
      | .error x, _ => s.headStop a x
      | .ok _, some c => s.headFail a c
      | .ok _, none =>
        if s.cliffPending 0 then s else
        let s := if t.headOp.stage then s.beatDone 0 (s.unitPort 0).arriving (1024 * t.headStaging.length) 0 else s
        match s.cellRow t k (min t.hR (t.hK - k)) 0 t.hN with
        | .error x => s.headStop a x
        | .ok r =>
          let s := if tile = 0 ∧ row = 0 then t.headStaging.foldl State.blurRoom s else s
          let n := r.2.eraseDups.length
          let s := s.countSuppressed n
          let h := s.headland
          { s with headland := { h with
              shadowSet := tset [] h.shadowSet row r.1, loaded := row + 1
              running := h.running.map fun x => x.suppress a.id n
              shadow := h.shadow.map fun x => x.suppress a.id n } }

/-- A Headland task's release, and whether it took place; it does not where it waits. Released in the cycle of a swap, it loads
its first row in that cycle (R204). -/
def State.headRelease (s : State) (t : Task) : State × Bool :=
  match s.headPrepare t with
  | .ok a =>
    let u := (s.passDescs t).headPlace a
    (if s.headland.swapped then u.loadRow else u, true)
  | .error x => s.rejectTask t x

/-! ### The stream and the trees (R190, R191, R195) -/

/-- A product brought to FP32 (steps 1 and 2). A zero product has the sign of its operands' product, of integer operands too, 0 times a
negative value giving −0: the spec does not say (DESIGN CHOICE, log 185). -/
def product (a b : Num) : F32 := to32 (a.mul b)

/-- A cell's products summed in ascending K order (step 3). -/
def cellSum : List F32 → F32
  | [] => zero32
  | p :: t => t.foldl fadd p

/-- The stream elements of a vector for `n` K indices from k, decoded and scaled. -/
def State.streamElems (s : State) (t : Task) (vector : Nat) : Nat → Nat → Except Stop (List Num)
  | _, 0 => .ok []
  | k, n + 1 =>
    let d := t.desc 1
    match s.readNum t.agent d false (d.offsetAt [k, vector]), s.streamElems t vector (k + 1) n with
    | .error x, _ => .error x
    | _, .error x => .error x
    | .ok v, .ok r => .ok (v.getD .zero :: r)

/-- The sum of a column for a stream vector (steps 3 and 4). -/
def columnSum (set : Tab (List (List Num))) (r col rows : Nat) (stream : List Num) : F32 :=
  pairSum 10 ((List.range rows).map fun i =>
    cellSum ((((tget [] set i).getD col []).zip ((stream.drop (r * i)).take r)).map fun p => product p.1 p.2))

/-- The column sums of the next vector of the running task. -/
def State.vectorSums (s : State) (a : ArrayTask) : Except Stop (List F32) :=
  let t := a.task
  let vector := 2048 * (a.tile / max 1 t.tiles) + a.vector
  let k := t.tileStart a.tile
  match s.streamElems t vector k (min t.tileK (t.hK - k)) with
  | .error x => .error x
  | .ok e => .ok ((List.range t.hN).map fun j => columnSum s.headland.activeSet t.hR j (t.tileRows a.tile) e)

/-- The accumulator slots of results that land in this cycle (step 5). -/
def landResults (acc : Tab F32) (x : InTree) : Tab F32 :=
  (x.sums.zipIdx).foldl (fun acc e =>
    let k := x.slot * 1024 + e.2
    tset 0 acc k (if x.first then e.1 else fadd (tget 0 acc k) e.1)) acc

/-! ### The drain (R209 to R212) -/

/-- The output value and the side output of column j (steps 1 to 5). -/
def drainValue (p : HeadOp) (pre bias : F32) (a : F32) : F32 × F32 :=
  let y := fmul a pre
  let y := if p.bias then fadd y bias else y
  (fmul (activation p.act y) p.post, y)

/-- The addend of element e. -/
def State.addendAt (s : State) (t : Task) (e : Nat) : Except Stop F32 :=
  let d := t.desc 3
  match s.readNum t.agent d false (d.offsetAt (unrank d.shape e)) with
  | .error x => .error x
  | .ok v => .ok (to32 (v.getD .zero))

/-- The values of a vector's columns, `n` of them from column `j`: output and side output. -/
def State.drainValues (s : State) (a : ArrayTask) (vector slot : Nat) : Nat → Nat → Except Stop (List (F32 × F32))
  | _, 0 => .ok []
  | j, n + 1 =>
    let p := a.task.headOp
    let y := drainValue p (if p.preVec then a.pre.getD j zero32 else p.pre) (a.bias.getD j zero32)
      (tget 0 s.headland.acc (slot * 1024 + j))
    match s.drainValues a vector slot (j + 1) n with
    | .error x => .error x
    | .ok r =>
      if p.addend then
        match s.addendAt a.task (vector * a.task.hN + j) with
        | .error x => .error x
        | .ok v => .ok ((fadd y.1 v, y.2) :: r)
      else .ok (y :: r)

/-- Values placed through a write descriptor from element `first` of its loop order (R180). -/
def placements (d : Desc) (first : Nat) (ys : List F32) : List (Int × F32) :=
  (ys.zipIdx).map fun e => (d.offsetAt (unrank d.shape (first + e.2)), e.1)

/-- Values written through descriptor j of a task; those in the Cliffs pass through their Coves. -/
def State.writeThroughDesc (s : State) (t : Task) (j : Nat) (ws : List (Int × F32)) : Except Stop State :=
  match s.writeElems t.agent (t.desc j) ws with
  | .error e => .error e
  | .ok u => .ok (u.passElems t.unit t.part false (t.desc j) true (ws.map fun w => w.1))

/-- A vector's results written (step 7). -/
def State.drainVector (s : State) (a : ArrayTask) (x : InTree) : Except Stop State :=
  let t := a.task
  match s.drainValues a x.vector x.slot 0 t.hN with
  | .error e => .error e
  | .ok ys =>
    let first := x.vector * t.hN
    match (if t.headOp.side then
        s.writeThroughDesc t t.headOp.sideIndex (placements (t.desc t.headOp.sideIndex) first (ys.map fun y => y.2))
      else .ok s) with
    | .error e => .error e
    | .ok s => s.writeThroughDesc t 2 (placements (t.desc 2) first (ys.map fun y => y.1))

/-- The task in the array with a number. -/
def Headland.find (h : Headland) (id : Nat) : Option ArrayTask :=
  match h.running with
  | some a => if a.id = id then some a else h.draining.find? fun x => x.id == id
  | none => h.draining.find? fun x => x.id == id

/-- One more vector drained; the last of a task ends it, or puts it among those to run again (R216). -/
def State.drained (s : State) (a : ArrayTask) : State :=
  let b := { a with drained := a.drained + 1 }
  let h := s.headland
  let isRunning := match h.running with
    | some x => x.id == a.id
    | none => false
  if b.drained < b.task.hM then
    { s with headland := { h with
        running := if isRunning then some b else h.running
        draining := h.draining.map fun x => if x.id = a.id then b else x } }
  else
    let s := { s with headland := { h with draining := h.draining.filter fun x => x.id != a.id } }
    if b.affected then { s with headland := { s.headland with rerun := s.headland.rerun ++ [b.task] } }
    else s.endTask b.task St.ok 0

/-! ### One array cycle (R204, R206 to R208) -/

/-- Whether a swap is due: the running task's tile is not active. -/
def Headland.swapDue (h : Headland) : Bool :=
  match h.running with
  | some a => !a.active
  | none => false

/-- Whether R204 allows the swap that is due (log 19). -/
def Headland.swapAllowed (h : Headland) : Bool :=
  match h.running with
  | some a => decide (a.task.tileRows a.tile ≤ h.loaded) && decide (20 ≤ h.since)
  | none => true

/-- The swap. -/
def Headland.swap (h : Headland) : Headland :=
  { h with activeSet := h.shadowSet, shadowSet := [], loaded := 0, since := 0, swapped := true
           running := h.running.map fun a => { a with active := true, vector := 0 } }

/-- The results that enter the drain crossings in the next advancing cycle. -/
def Headland.drainDue (h : Headland) : Option InTree := h.trees.find? fun x => x.last && x.left == 1

/-- The trees one cycle on: results land in their slots 16 cycles after their vector, and leave once drained or, in an
earlier tile, once landed (R191). -/
def Headland.stepTrees (h : Headland) : Headland :=
  let ts := h.trees.map fun x => { x with left := x.left - 1 }
  { h with
    acc := (ts.filter fun x => x.left == 2).foldl landResults h.acc
    trees := ts.filter fun x => if x.last then decide (0 < x.left) else decide (2 < x.left) }

/-- After a vector is consumed: the next vector, the next tile, or the end of the stream, where the task drains and the
one released after it takes the active set's place. -/
def Headland.consumed (h : Headland) (a : ArrayTask) (sums : List F32) : Headland :=
  let t := a.task
  let pass := a.tile / max 1 t.tiles
  let x : InTree :=
    { left := 18, id := a.id, slot := a.vector, first := a.tile % max 1 t.tiles == 0
      last := a.tile % max 1 t.tiles + 1 == t.tiles, vector := 2048 * pass + a.vector, sums := sums }
  let h := { h with trees := h.trees ++ [x], since := h.since + 1 }
  let a := { a with begun := true, vector := a.vector + 1 }
  if a.vector < t.vectorsIn pass then { h with running := some a }
  else if a.tile + 1 < t.tiles * t.passes then
    { h with running := some { a with tile := a.tile + 1, active := false, vector := 0 } }
  else { h with running := h.shadow, shadow := none, draining := h.draining ++ [a] }

/-- What a cycle is counted as (R208). -/
inductive ArrayCycle where
  | active | freezeFeed | freezeDrain | swapWait | idle | tail
deriving DecidableEq, Repr

/-- The counter of each (Table 08-9). -/
def ArrayCycle.counter : ArrayCycle → Nat
  | .active => Pd.activeCycles
  | .freezeFeed => Pd.freezeFeed
  | .freezeDrain => Pd.freezeDrain
  | .swapWait => Pd.swapWait
  | .idle => Pd.throttleIdle
  | .tail => Pd.tailCycles

/-- A cycle counted; a cycle without a swap also counts towards the 20 of R204 unless idle or frozen. -/
def State.countCycle (s : State) (c : ArrayCycle) : State :=
  let s := s.bump c.counter
  if c = .idle then s.bump Pd.throttleCycles else s

/-- An advancing cycle: the drain, the trees, a swap where one is due, and the next vector. -/
def State.advance (s : State) : State :=
  let due := s.headland.drainDue
  let drain : Except (ArrayTask × Stop) State := match due with
    | none => .ok s
    | some x => match s.headland.find x.id with
      | none => .ok s
      | some a => match s.drainVector a x with
        | .ok t => .ok (t.drained a)
        | .error e => .error (a, e)
  match drain with
  | .error (a, e) => ((s.countCycle .freezeDrain).headStop a e).loadRow
  | .ok t =>
    let h := if t.headland.swapDue then t.headland.swap else t.headland
    match h.running with
    | none => (({ t with headland := { h.stepTrees with since := h.since + 1 } }).countCycle .tail).loadRow
    | some a =>
      match ({ t with headland := h }).vectorSums a with
      | .error e => ((s.countCycle .freezeFeed).headStop a e).loadRow
      | .ok sums => (({ t with headland := h.stepTrees.consumed a sums }).countCycle .active).loadRow

/-- Whether the array holds a task. -/
def Headland.busy (h : Headland) : Bool := h.running.isSome || !h.draining.isEmpty

/-- The array at an edge that is no throttle idle cycle. -/
def State.arrayEdge (s : State) (feedReady drainCredit : Bool) : State :=
  let h := s.headland
  if h.swapDue && !h.swapAllowed then
    (({ s with headland := { h with since := h.since + 1 } }).countCycle .swapWait).loadRow
  else if h.running.isSome && !feedReady then (s.countCycle .freezeFeed).loadRow
  else if h.drainDue.isSome && !drainCredit then (s.countCycle .freezeDrain).loadRow
  else s.advance

/-- The next task to run again takes its place, where the array has room for it, with the descriptors read at its release (R216,
spec/07 R167). Its first run has written outputs. -/
def State.startRerun (s : State) : State :=
  let h := s.headland
  match h.rerun with
  | [] => s
  | t :: rest =>
    let room := h.failed.isEmpty && h.shadow.isNone && match h.running with
      | none => true
      | some a => a.active && decide (a.tile + 1 = a.task.tiles * a.task.passes)
    if !room then s
    else
      let s := { s with headland := { h with rerun := rest } }
      match s.headStart t with
      | .ok a => (s.bump Pd.reruns).headPlace { a with begun := true }
      | .error x =>
        let o := s.rejectTask t x
        if o.2 then o.1 else { o.1 with headland := { o.1.headland with rerun := t :: rest } }

/-- HEADLAND_CYCLE: one edge of the array clock. `feedReady`: every feed crossing that the tile uses holds an entry;
`drainCredit`: every drain crossing of columns 0 to N − 1 holds a credit (R206). -/
def execHeadlandCycle (feedReady drainCredit : Bool) (s : State) : Res :=
  let s := s.startRerun
  if !s.headland.busy || s.halted 1 then .next s
  else
    let idle := s.throttled s.power.cycle
    let t := { s with headland := { s.headland with swapped := false }, power := { s.power with cycle := s.power.cycle + 1 } }
    .next (if idle then t.countCycle .idle else t.arrayEdge feedReady drainCredit)

/-! ### Columns (R213 to R219) -/

/-- The logical column that a physical column backs. -/
def State.logicalOf (s : State) (physical : Nat) : Option Nat :=
  (List.range s.width).find? fun j => !s.columnVacant j && bits (s.columnEntry j) 0 11 == physical

/-- The pool columns in ascending order. -/
def State.poolColumns (s : State) : List Nat := (List.range 1040).filter fun p => s.rd Pd.columnState p == 1

/-- Released tasks whose columns include j. -/
def Headland.tasksOn (h : Headland) (j : Nat) : List ArrayTask :=
  (h.draining ++ h.running.toList ++ h.shadow.toList).filter fun a => decide (j < a.task.hN)

/-- Every task in the array whose columns include j marked as affected. -/
def Headland.mark (h : Headland) (j : Nat) : Headland :=
  let m := fun (a : ArrayTask) => if j < a.task.hN then { a with affected := true } else a
  { h with running := h.running.map m, shadow := h.shadow.map m, draining := h.draining.map m }

/-- PD 0x4020.10 written, and the fence announced with it as its failure record (spec/17 Table 17-4). -/
def State.noteColumn (s : State) (j physical check outcome : Nat) : State :=
  let rec_ := natLE 2 j ++ natLE 2 physical ++ natLE 1 check ++ natLE 1 outcome ++ [0, 0] ++ natLE 8 s.time
  (s.setReg Pd.lastColumnFailure (leNat rec_)).announceFence (if outcome = 2 then St.columnLost else St.fenced) 1 physical rec_

/-- The Headland's tasks that are drained and not yet completed, and satisfy a test, taken from those that wait for their
completion. -/
def State.takeFinished (s : State) (p : Task → Bool) : List Task × State :=
  let mine := fun (t : Task) => t.unit == 0 && t.code == St.ok && p t
  (s.finished.filter mine, { s with finished := s.finished.filter fun t => !mine t })

/-- Tasks of the Headland that have run ended with a code, their outputs undefined (R217, R470). -/
def State.spoil (s : State) (code : BitVec 16) (ts : List Task) : State :=
  ts.foldl (fun s t => (s.endTask t code 0).blur t.agent t.headOutputs []) s

/-- Logical column j vacant, the affected tasks ended with COLUMN_LOST (R217). -/
def State.loseColumn (s : State) (j : Nat) : State :=
  let lost := s.headland.tasksOn j
  let done := s.takeFinished fun t => decide (j < t.hN)
  let s := (done.2.spoil St.columnLost done.1).wr Pd.columnMap j 0x8000
  let s := lost.foldl (fun s a => s.headFail { a with begun := true } St.columnLost) s
  let again := s.headland.rerun.filter fun t => decide (j < t.hN)
  ({ s with headland := { s.headland with rerun := s.headland.rerun.filter fun t => !decide (j < t.hN) } }).spoil St.columnLost again

/-- COLUMN_FAILURE: the physical column is fenced, listed, recorded and announced; the tasks that use it are run again on
a replacement (R216), or lost where the pool has none left (R217). A column of the pool leaves it; it has no logical
column, which its record gives as 0xFFFF (log 22). -/
def execColumnFailure (physical check : Nat) (s : State) : Res :=
  let st := s.rd Pd.columnState physical
  if !s.isReady || decide (2 ≤ st) then .next s
  else
    let t := (s.wr Pd.columnState physical 3).bump Pd.columnFailures
    if st = 1 then .next ((t.setReg Pd.poolFree (t.reg Pd.poolFree - 1)).noteColumn 0xFFFF physical check 0)
    else match s.logicalOf physical with
      | none => .next (t.noteColumn 0xFFFF physical check 0)
      | some j =>
        if t.headland.failed.length < t.poolColumns.length then
          let t := t.noteColumn j physical check 1
          let done := t.takeFinished fun x => decide (j < x.hN)
          .next { done.2 with headland := { t.headland.mark j with failed := t.headland.failed ++ [j]
                                                                   rerun := t.headland.rerun ++ done.1 } }
        else .next ((t.noteColumn j physical check 2).loseColumn j)

/-- A failed logical column takes the lowest column of the pool; with none left it is lost. -/
def State.remapColumn (s : State) (j : Nat) : State :=
  match s.poolColumns with
  | [] => s.loseColumn j
  | p :: _ =>
    let s := (s.wr Pd.columnState p 0).wr Pd.columnMap j (0x4000 + p)
    s.setReg Pd.poolFree (s.reg Pd.poolFree - 1)

/-- COLUMN_REMAP: with no task in the array, the failed columns are replaced and the affected tasks may run again. -/
def execColumnRemap (s : State) : Res :=
  if s.headland.busy || s.headland.shadow.isSome then .next s
  else
    let failed := s.headland.failed
    let t := { s with headland := { s.headland with failed := [] } }
    .next (failed.foldl State.remapColumn t)

end Sys2Proof.Machine
end

