-- ==== Sys2Proof/Machine/Micro.lean ====
section
/-!
DEFINITION. Micro-programs (spec/10 R282 to R290): the image, the steps, segments and the coefficient cache, the load
check and the clamp bounds.
-/
namespace Sys2Proof.Machine

/-! ### The image (Table 10-6) -/

abbrev Image := List Byte

def imgVersion (p : Image) : Nat := listField p 0 1
def imgSteps (p : Image) : Nat := listField p 1 1
def imgSeams (p : Image) : Nat := listField p 2 1
def imgDegree (p : Image) : Nat := listField p 3 1
def imgFlags (p : Image) : Nat := listField p 4 1
def imgClamp (p : Image) : Bool := (imgFlags p).testBit 0
def imgDirection (p : Image) : Nat := bits (imgFlags p) 1 2
def imgUlp (p : Image) : Nat := listField p 5 1
def imgFunction (p : Image) : Nat := listField p 8 8
def imgStep (p : Image) (i : Nat) : Nat := listField p (64 + 4 * i) 4
def imgSeam (p : Image) (i : Nat) : F32 := BitVec.ofNat 32 (listField p (256 + 4 * i) 4)
def imgWord (p : Image) (i : Nat) : F32 := BitVec.ofNat 32 (listField p (512 + 4 * i) 4)

/-- Coefficient i of segment k. -/
def imgCoef (p : Image) (k i : Nat) : F32 := imgWord p (6 * k + i)

/-- The fields of a step word (Table 10-7). -/
def stepOp (w : Nat) : Nat := bits w 26 6
def stepD (w : Nat) : Nat := bits w 23 3
def stepA (w : Nat) : Nat := bits w 20 3
def stepB (w : Nat) : Nat := bits w 17 3
def stepC (w : Nat) : Nat := bits w 14 3
def stepImm (w : Nat) : Nat := bits w 0 9

/-- The program's step words. -/
def imgStepWords (p : Image) : List Nat := (List.range (imgSteps p)).map (imgStep p)

/-- Cycles of a step, and C_p (Table 10-8, R285). -/
def stepCycles (p : Image) (w : Nat) : Nat := if stepOp w = 0x0A then max 1 (imgDegree p) else 1
def imgCycles (p : Image) : Nat :=
  ((imgStepWords p).map (stepCycles p)).foldl (· + ·) 0 + (if imgClamp p then 1 else 0)

/-! ### Segments (R283, R286 to R288) -/

/-- An FP32 value's place in the order of the values, so that neighbours differ by 1. -/
def ordinal (x : F32) : Int := if x.getLsbD 31 then -((x.toNat % 2 ^ 31 : Nat) : Int) else (x.toNat : Int)

/-- Ulps between two FP32 values; 0 for NaN on both sides. -/
def ulpsBetween (a b : F32) : Nat := (ordinal a - ordinal b).natAbs

/-- The largest FP32 value below x. -/
def nextBelow (x : F32) : F32 :=
  if x.toNat % 2 ^ 31 = 0 then 0x80000001 else if x.getLsbD 31 then x + 1 else x - 1

/-- The segment of an input: the number of seams at or below it, 0 for NaN. -/
def segmentOf (p : Image) (x : F32) : Nat :=
  if (val x).isNan then 0
  else ((List.range (imgSeams p)).filter fun i => !(val x).lt (val (imgSeam p i))).length

/-- What a special-function unit keeps and counts while lanes run: the coefficient cache, segments fetched in this beat,
the number of the next free value, substitutions and fetches. -/
structure SegEnv where
  cache   : List (Nat × Nat) := []
  fetched : List (Nat × Nat) := []
  fresh   : Nat := 0
  subs    : Nat := 0
  fetches : Nat := 0
deriving DecidableEq, Repr

/-- A segment fetched into a cache of 16; which one leaves is a free value (log 4). -/
def SegEnv.fetch (e : SegEnv) (slot k : Nat) : SegEnv :=
  if e.cache.contains (slot, k) then e
  else if e.fetched.contains (slot, k) then e
  else
    let cache := if e.cache.length < 16 then e.cache else e.cache.eraseIdx (Config.free e.fresh % 16)
    { e with cache := cache ++ [(slot, k)], fetched := (slot, k) :: e.fetched, fetches := e.fetches + 1
             fresh := if e.cache.length < 16 then e.fresh else e.fresh + 1 }

/-- The adjoining segment across the nearer seam, where the input lies within 8 ulps of it (R288). -/
def adjoining (p : Image) (x : F32) (k : Nat) : Option Nat :=
  if (val x).isNan then none
  else
    let lower := if k = 0 then none else some (ulpsBetween x (imgSeam p (k - 1)), k - 1)
    let upper := if imgSeams p ≤ k then none else some (ulpsBetween x (imgSeam p k), k + 1)
    let near := match lower, upper with
      | some a, some b => if a.1 ≤ b.1 then some a else some b
      | some a, none => some a
      | none, b => b
    match near with
    | some a => if a.1 ≤ 8 then some a.2 else none
    | none => none

/-- SEG: the exact segment, fetched where it is absent; without CLAMP the unit may use a cached adjoining one instead,
which a free value decides (R288, log 4). -/
def SegEnv.select (e : SegEnv) (p : Image) (slot : Nat) (x : F32) : Nat × SegEnv :=
  let k := segmentOf p x
  if imgClamp p || e.cache.contains (slot, k) then (k, e.fetch slot k)
  else match adjoining p x k with
    | some j =>
      if e.cache.contains (slot, j) then
        if Config.free e.fresh % 2 = 1 then (j, { e with subs := e.subs + 1, fresh := e.fresh + 1 })
        else (k, { e with fresh := e.fresh + 1 }.fetch slot k)
      else (k, e.fetch slot k)
    | none => (k, e.fetch slot k)

/-! ### Running a program (R284) -/

/-- A lane in a program: eight temporaries, the segment register, what the unit keeps. -/
structure MicroLane where
  temps : List F32
  seg   : Nat
  env   : SegEnv
deriving DecidableEq, Repr

/-- Polynomial by Horner's rule from coefficient n down to 0. -/
def polyEval (p : Image) (k : Nat) (x : F32) : Nat → F32 → F32
  | 0, acc => acc
  | n + 1, acc => polyEval p k x n (ffma acc x (imgCoef p k n))

/-- One step; `forced` gives every SEG that segment (check 5 of R289). -/
def microStep (p : Image) (slot : Nat) (forced : Option Nat) (l : MicroLane) (w : Nat) : MicroLane :=
  let t := fun i => l.temps.getD i zero32
  let a := t (stepA w)
  let b := t (stepB w)
  let c := t (stepC w)
  let put := fun (v : F32) => { l with temps := l.temps.set (stepD w) v }
  match stepOp w with
  | 0x00 => l
  | 0x01 => put (fadd a b)
  | 0x02 => put (fmul a b)
  | 0x03 => put (ffma a b c)
  | 0x04 => put (fmin a b)
  | 0x05 => put (fmax a b)
  | 0x06 => put (pat (val a).neg)
  | 0x07 => put (pat (val a).abs)
  | 0x08 => put (imgWord p (stepImm w))
  | 0x09 =>
    match forced with
    | some k => { l with seg := k }
    | none =>
      let r := l.env.select p slot a
      { l with seg := r.1, env := r.2 }
  | 0x0A => put (polyEval p l.seg a (imgDegree p) (imgCoef p l.seg (imgDegree p)))
  | 0x0B => put (if l.seg = 0 then a else fsub a (imgSeam p (l.seg - 1)))
  | 0x0C => put (imgCoef p l.seg (stepImm w))
  | 0x10 => put (builtin 2 false a)
  | 0x11 => put (builtin 3 false a)
  | 0x12 => put (builtin 4 false a)
  | 0x13 => put (builtin 5 false a)
  | 0x14 => put (builtin 0 false a)
  | 0x15 => put (builtin 1 false a)
  | _ => l

/-- The steps run in order on operands A, B and C. -/
def microRun (p : Image) (slot : Nat) (forced : Option Nat) (env : SegEnv) (a b c : F32) : MicroLane :=
  (imgStepWords p).foldl (microStep p slot forced)
    { temps := [a, b, c, zero32, zero32, zero32, zero32, zero32], seg := 0, env := env }

/-- The clamp of R286 at the segment of the last SEG. -/
def microClamp (p : Image) (bounds : List F32) (seg : Nat) (y : F32) : F32 :=
  if imgClamp p && decide (1 ≤ seg) then
    match bounds[seg - 1]? with
    | some b => if imgDirection p = 1 then fmax y b else fmin y b
    | none => y
  else y

/-- A lane's result: the value, whether the clamp changed it, what the unit keeps. -/
def microEval (m : MicroProgram) (slot : Nat) (env : SegEnv) (a b c : F32) : F32 × Bool × SegEnv :=
  let l := microRun m.image slot none env a b c
  let y := l.temps.getD 0 zero32
  let z := microClamp m.image m.bounds l.seg y
  (z, z != y, l.env)

/-! ### Loading (R286, R289) -/

/-- Permitted step operations. -/
def stepPermitted (op : Nat) : Bool := decide (op ≤ 0x0C) || (decide (0x10 ≤ op) && decide (op ≤ 0x15))

/-- The first step of check 2 that fails; `seen`: a SEG has come. -/
def badStep (p : Image) : Nat → Bool → List Nat → Option Nat
  | _, _, [] => none
  | i, seen, w :: t =>
    let op := stepOp w
    if !stepPermitted op || (op == 0x08 && decide (383 < stepImm w)) || (op == 0x0C && decide (imgDegree p < stepImm w))
        || ((op == 0x0A || op == 0x0B || op == 0x0C) && !seen) then some i
    else badStep p (i + 1) (seen || op == 0x09) t

/-- The first seam that is not finite, or not above the one before it. -/
def badSeam (p : Image) : Option Nat :=
  (List.range (imgSeams p)).find? fun i =>
    !(val (imgSeam p i)).isFin || (decide (0 < i) && !(val (imgSeam p (i - 1))).lt (val (imgSeam p i)))

/-- The first seam at which the adjoining segments differ by more than DECLARED_ULP. -/
def badJoin (p : Image) : Option Nat :=
  (List.range (imgSeams p)).find? fun i =>
    let run := fun k => (microRun p 0 (some k) {} (imgSeam p i) zero32 zero32).temps.getD 0 zero32
    let x := run i
    let y := run (i + 1)
    let nx := (val x).isNan
    let ny := (val y).isNan
    if nx || ny then !(nx && ny) else decide (imgUlp p < ulpsBetween x y)

/-- The first failing check of R289 and its step or seam. -/
def loadFault (p : Image) : Option (Nat × Nat) :=
  if imgVersion p ≠ 1 ∨ imgSteps p < 1 ∨ 48 < imgSteps p ∨ 63 < imgSeams p ∨ 5 < imgDegree p then some (1, 0)
  else match badStep p 0 false (imgStepWords p) with
    | some i => some (2, i)
    | none => match badSeam p with
      | some i => some (3, i)
      | none =>
        if imgDirection p = 3 ∨ (imgClamp p = true ∧ imgDirection p = 0) then some (4, 0)
        else if imgClamp p then none
        else (badJoin p).map fun i => (5, i)

/-- P_1 onwards, in ascending order (R286). -/
def clampBounds (p : Image) : List F32 :=
  if imgClamp p then
    (List.range (imgSeams p)).foldl (fun bs i =>
      bs ++ [(microEval { image := p, bounds := bs } 0 {} (nextBelow (imgSeam p i)) zero32 zero32).1]) []
  else []

/-- The micro-program in a slot of engine n. -/
def State.program (s : State) (n slot : Nat) : Option MicroProgram := tget none s.programs (32 * n + slot)

/-- The record of MP_DIRECTORY for engine n, slot k (PD 0x4820.01). -/
def State.directoryRecord (s : State) (n slot : Nat) : List Byte :=
  match s.program n slot with
  | none => List.replicate 16 0
  | some m =>
    natLE 8 (imgFunction m.image) ++ [1] ++ natLE 1 (imgFlags m.image) ++ natLE 1 (imgUlp m.image)
      ++ natLE 1 (imgCycles m.image) ++ natLE 4 (crc32 m.image).toNat

end Sys2Proof.Machine
end

