-- ==== Sys2Proof/Machine/TideOps.lean ====
section
/-!
DEFINITION. The operations of the Tideway engines (chapters 09 and 10): the operation block, the row-wise algorithms of
reductions, scans, statistics, soft maximum and normalisation, and the evaluation of one operation over the lanes of a
beat.
-/
namespace Sys2Proof.Machine

/-! ### The operation block (Tables 09-1 to 09-4) -/

/-- An operation word. -/
structure TideOp where
  code : Nat
  a    : Nat
  b    : Nat
  c    : Nat
  mask : Nat
  out  : Nat
  axis : Nat
  mod  : Nat
  mod2 : Nat
deriving DecidableEq, Repr

/-- The fields of an operation word. -/
def parseOp (w : Nat) : TideOp :=
  { code := bits w 56 8, a := bits w 48 8, b := bits w 40 8, c := bits w 32 8, mask := bits w 24 8, out := bits w 20 4
    axis := bits w 16 4, mod := bits w 8 8, mod2 := bits w 0 8 }

/-- An operation block. -/
structure TideBlock where
  count      : Nat
  compute    : Nat
  pack       : Bool
  stage      : Bool
  indexed    : Bool
  reads      : Nat
  writes     : Nat
  stageRoom  : Nat
  stageCount : Nat
  key        : Nat
  step       : Nat
  micro      : Nat
  element    : Nat
  consts     : List F32
  ops        : List TideOp
deriving DecidableEq, Repr

/-- The 192 bytes of Table 09-1. -/
def parseBlock (b : List Byte) : TideBlock :=
  let f := listField b 2 1
  let n := listField b 0 1
  { count := n, compute := listField b 1 1, pack := f.testBit 0, stage := f.testBit 1, indexed := f.testBit 2
    reads := bits (listField b 3 1) 0 4, writes := bits (listField b 3 1) 4 3
    stageRoom := listField b 4 2, stageCount := listField b 6 1, key := listField b 8 8, step := listField b 16 4
    micro := listField b 20 2, element := listField b 22 6
    consts := (List.range 8).map fun i => BitVec.ofNat 32 (listField b (32 + 4 * i) 4)
    ops := (List.range (min n 16)).map fun i => parseOp (listField b (64 + 8 * i) 8) }

/-- BF16 mode, and positions of a beat (R221). -/
def TideBlock.bf (b : TideBlock) : Bool := b.compute == 1
def TideBlock.lanes (b : TideBlock) : Nat := if b.bf then 512 else 256

/-- Levels of a beat's pairwise tree. -/
def TideBlock.tree (b : TideBlock) : Nat := if b.bf then 9 else 8

/-- The generator step, where a stage sequencer's step takes its place (spec/14 R389). -/
def TideBlock.withStep (b : TideBlock) (step : Nat) : TideBlock := { b with step := step }

/-! ### What an operation is -/

/-- REDUCE or ROWSTAT along loop position 0: one value per row. -/
def TideOp.isRow (o : TideOp) : Bool := (o.code == 0x30 && o.axis == 0) || o.code == 0x40

/-- REDUCE along loop position 1 or above. -/
def TideOp.isAxis (o : TideOp) : Bool := o.code == 0x30 && o.axis != 0

/-- SOFTMAX or NORM. -/
def TideOp.isFused (o : TideOp) : Bool := o.code == 0x20 && (o.mod == 0x11 || o.mod == 0x12)

/-- An operation with a mask result. -/
def TideOp.isMask (o : TideOp) : Bool := o.code == 0x10 || o.code == 0x11 || (o.code == 0x28 && o.mod2 == 1)

/-- GATHER, SCATTER, SCATTER_ADD. -/
def TideOp.isIndexed (o : TideOp) : Bool := o.code == 0x48 || o.code == 0x49 || o.code == 0x4A
def TideOp.isScatter (o : TideOp) : Bool := o.code == 0x49 || o.code == 0x4A

/-- A CONVERT that rounds stochastically. -/
def TideOp.isStochastic (o : TideOp) : Bool := o.code == 0x09 && o.mod % 4 == 2

/-- An operand byte unless it is 0xFF. -/
def given (x : Nat) : List Nat := if x = 0xFF then [] else [x]

/-- The operand bytes that carry values, in order A, B, C. -/
def TideOp.values (o : TideOp) : List Nat :=
  match o.code with
  | 0x01 => [o.a, o.b]
  | 0x02 => [o.a, o.b]
  | 0x03 => [o.a, o.b]
  | 0x04 => [o.a, o.b, o.c]
  | 0x05 => [o.a, o.b]
  | 0x06 => [o.a, o.b]
  | 0x07 => [o.a]
  | 0x08 => [o.a]
  | 0x09 => [o.a]
  | 0x10 => [o.a, o.b]
  | 0x12 => [o.a, o.b]
  | 0x20 =>
    if o.mod ≤ 5 then [o.a]
    else if o.mod = 0x10 then [o.a] ++ given o.b ++ given o.c
    else if o.mod = 0x11 then [o.a] ++ given o.b
    else if o.mod = 0x12 then [o.a, o.b]
    else given o.a ++ given o.b ++ given o.c
  | 0x30 => [o.a]
  | 0x38 => (if o.mod % 8 = 3 then [o.a, o.b] else [o.a]) ++ given o.c
  | 0x40 => [o.a]
  | 0x49 => [o.a]
  | 0x4A => [o.a]
  | _ => []

/-- The operand bytes that name masks. -/
def TideOp.maskUses (o : TideOp) : List Nat :=
  (if o.code = 0x11 then (if o.mod = 4 then [o.a] else [o.a, o.b]) else [])
    ++ (if o.code = 0x38 then given o.mod2 else []) ++ given o.mask

/-- The operand bytes that must name constants (RAND, stochastic CONVERT). -/
def TideOp.constUses (o : TideOp) : List Nat :=
  if o.code = 0x28 then (if o.mod2 = 1 then [o.a, o.b] else [o.a]) else if o.isStochastic then [o.b] else []

/-- Micro-program slots an operation names (R276, R290). -/
def TideOp.slot (o : TideOp) : Option Nat :=
  if o.code = 0x20 ∧ o.mod = 0x10 ∧ 64 ≤ o.mod2 / 2 then some (o.mod2 / 2 - 64)
  else if o.code = 0x20 ∧ 0x20 ≤ o.mod ∧ o.mod ≤ 0x3F then some (o.mod - 0x20)
  else none

/-- Results an operation uses. -/
def TideOp.uses (o : TideOp) : List Nat :=
  ((o.values ++ o.maskUses).filter fun x => decide (0x10 ≤ x) && decide (x < 0x20)).map fun x => x - 0x10

/-! ### Field checks of one operation (R230, R231, R265) -/

/-- Whether MOD and MOD2 of an SFN operation are permitted (R265). -/
def sfnModsOk (mod mod2 : Nat) : Bool :=
  let arg := mod2 / 2
  let compat := mod2 % 2 == 1
  if mod ≤ 5 then arg == 0 && (!compat || [0, 1, 2, 4].contains mod)
  else if mod = 0x10 then !compat && (decide (arg ≤ 5) || (decide (64 ≤ arg) && decide (arg ≤ 95)))
  else if mod = 0x11 then !compat && arg == 0
  else if mod = 0x12 then !compat && decide (arg ≤ 1)
  else decide (0x20 ≤ mod) && decide (mod ≤ 0x3F) && mod2 == 0

/-- Whether the opcode is permitted and its modifiers are. -/
def TideOp.modsOk (o : TideOp) : Bool :=
  match o.code with
  | 0x09 =>
    decide (o.mod % 4 ≤ 2) && decide (1 ≤ o.mod2) && decide (o.mod2 ≤ 0x0B)
      && (o.mod2 != 0x0B || (bits o.mod 2 2 != 3 && decide (1 ≤ o.mod / 16) && decide (o.mod / 16 ≤ 8)))
  | 0x10 => decide (o.mod ≤ 7)
  | 0x11 => decide (o.mod ≤ 4)
  | 0x12 => o.mask != 0xFF
  | 0x20 => sfnModsOk o.mod o.mod2
  | 0x28 => decide (o.mod ≤ 3) && decide (o.mod2 ≤ 1)
  | 0x30 => decide (o.mod ≤ 4)
  | 0x38 => decide (o.mod % 8 ≤ 3) && decide (o.mod < 16) && decide (o.axis ≤ 1)
  | 0x40 => decide (o.mod ≤ 4)
  | c => (decide (1 ≤ c) && decide (c ≤ 8)) || c == 0x48 || c == 0x49 || c == 0x4A

/-- Whether operation `i` names results, streams and constants it may (R230, R231, R235); `earlier` are the operations
before it. -/
def TideOp.operandsOk (o : TideOp) (earlier : List TideOp) (reads : Nat) : Bool :=
  let res := fun (x : Nat) => if 0x10 ≤ x ∧ x < 0x20 then earlier[x - 0x10]? else none
  (o.values.all fun x =>
      decide (x < reads) || (decide (0x20 ≤ x) && decide (x < 0x28)) || x == 0x30 || x == 0x31
        || match res x with
           | some p => !p.isMask && !p.isAxis && !p.isScatter
           | none => false)
    && (o.maskUses.all fun x => match res x with
         | some p => p.isMask
         | none => false)
    && o.constUses.all fun x => decide (0x20 ≤ x) && decide (x < 0x28)

/-- Whether OUT is permitted (R231, R259). -/
def TideOp.outOk (o : TideOp) (writes : Nat) : Bool :=
  if o.isScatter then o.out == 8 else o.out == 0xF || (decide (o.out < writes) && !o.isMask)

/-! ### Sweeps (R235, R278) -/

/-- The level of each operation: the sweep in which its operands are all at hand. A row result and what SOFTMAX and NORM
write are at hand one sweep later (log 23). -/
def opLevels : List TideOp → List (Nat × Nat) → List Nat
  | [], _ => []
  | o :: t, done =>
    let l := (o.uses.map fun j => (done.getD j (0, 0)).2).foldl max 0
    l :: opLevels t (done ++ [(l, if o.isRow || o.isFused then l + 1 else l)])

/-- The number of the last sweep. -/
def lastSweep (ops : List TideOp) : Nat :=
  (((opLevels ops []).zip ops).map fun e => if e.2.isFused then e.1 + 1 else e.1).foldl max 0

/-- Operations and what they need in sweep `sweep`, from operation `n − 1` down. -/
def closeOver (ops : List TideOp) (levels : List Nat) (extra : Nat → List Nat) (sweep : Nat) : Nat → List Nat → List Nat
  | 0, set => set
  | n + 1, set =>
    let set' := match ops[n]? with
      | some o =>
        if set.contains n then
          set ++ (o.uses ++ extra n).filter fun j =>
            !set.contains j && !((ops[j]?.map TideOp.isRow).getD false && decide (levels.getD j 0 < sweep))
        else set
      | none => set
    closeOver ops levels extra sweep n set'

/-- The operations of a sweep before the last: the reductions, statistics and fused forms of that level, and what feeds
them. -/
def sweepOps (ops : List TideOp) (extra : Nat → List Nat) (sweep : Nat) : List Nat :=
  let levels := opLevels ops []
  let base := (List.range ops.length).filter fun i =>
    match ops[i]? with
    | some o => (o.isRow || o.isFused) && levels.getD i 0 == sweep
    | none => false
  closeOver ops levels extra sweep ops.length base

/-- The operations of sweep `sweep` in ascending order. -/
def opsInSweep (ops : List TideOp) (extra : Nat → List Nat) (sweep : Nat) : List Nat :=
  let last := lastSweep ops
  let levels := opLevels ops []
  let set :=
    if sweep < last then sweepOps ops extra sweep
    else
      let before := (List.range last).flatMap (sweepOps ops extra)
      let base := (List.range ops.length).filter fun i =>
        match ops[i]? with
        | some o =>
          if o.isRow then levels.getD i 0 == last
          else !before.contains i || o.isFused || o.out != 0xF
        | none => false
      closeOver ops levels extra last ops.length base
  (List.range ops.length).filter set.contains

/-- Whether each operation is row-uniform (R234); `broadcast` are the column-broadcast streams. RAND, a stochastic CONVERT and a SCAN
give each position a value of its own and are not; a reduction of uniform operands (`reductions`) is one value, for which its unit
still looks at the row's positions. -/
def uniformOps (broadcast : Nat → Bool) (reductions : Bool) : List TideOp → List TideOp → List Bool → List Bool
  | [], _, _ => []
  | o :: t, earlier, done =>
    let able := (decide (o.code ≤ 0x12) && !o.isStochastic) || (o.code == 0x20 && !o.isFused) || (reductions && o.isRow)
    let ok := fun (x : Nat) =>
      (decide (0x20 ≤ x) && decide (x < 0x28)) || (decide (x < 8) && broadcast x)
        || (decide (0x10 ≤ x) && decide (x < 0x20)
            && (((earlier[x - 0x10]?).map TideOp.isRow).getD false || done.getD (x - 0x10) false))
    let u := able && (o.values ++ o.maskUses).all ok
    u :: uniformOps broadcast reductions t (earlier ++ [o]) (done ++ [u])

/-! ### Beat intervals (Table 09-5, Table 10-1) -/

/-- S-unit cycles of an SFN operation in FP32 mode. -/
def TideOp.sfnCycles (o : TideOp) (program : Nat → Option MicroProgram) : Nat :=
  let cp := match o.slot.bind program with
    | some m => imgCycles m.image
    | none => 0
  if o.mod = 0x10 then (if o.slot.isSome then cp + 1 else if o.mod2 / 2 = 5 then 2 else 1)
  else if 0x20 ≤ o.mod then cp
  else 1

/-- Cycles of the operations of a beat; `fetches` are the segments fetched in it (R287). -/
def beatCycles (bf : Bool) (program : Nat → Option MicroProgram) (fetches : Nat) (ops : List TideOp) : Nat :=
  let n := fun (p : TideOp → Bool) => (ops.filter p).length
  let f := if bf then 2 else 1
  let sum := fun (l : List Nat) => l.foldl (· + ·) 0
  let stats := ((ops.filter fun o => o.code == 0x40).map fun o => (o.a, o.mask)).eraseDups.length
  let s := sum ((ops.filter fun o => o.code == 0x20).map fun o => o.sfnCycles program)
  let slow := if ops.any fun o => o.code == 0x38 && o.axis == 1 then 2 else 1
  [n fun o => decide (1 ≤ o.code) && decide (o.code ≤ 9), (n (fun o => decide (0x10 ≤ o.code) && decide (o.code ≤ 0x12)) + 1) / 2,
    f * s + 4 * fetches, f * n (fun o => o.code == 0x28 || o.isStochastic), f * n (fun o => o.code == 0x30), f * stats,
    f * n (fun o => o.code == 0x38), n TideOp.isIndexed].foldl max slow

/-! ### Lanes -/

/-- What an operation gives for a beat: values with their valid bits, or a mask. -/
inductive Wave where
  | vals (l : List Lane)
  | mask (l : List Bool)
deriving DecidableEq, Repr

def Wave.lanes : Wave → List Lane
  | .vals l => l
  | .mask _ => []
def Wave.bools : Wave → List Bool
  | .mask l => l
  | .vals _ => []

/-- The lane of a stream element that takes no part. -/
def deadLane : Lane := { valid := false, bits := zero32 }
def liveLane (x : F32) : Lane := { valid := true, bits := x }

/-- An invalid result: operand A's value where A is valid, else +0 (R237). -/
def invalidLane (a : Lane) : Lane := { valid := false, bits := if a.valid then a.bits else zero32 }

/-- Position i of each operand. -/
def laneOperands (ops : List (List Lane)) (i : Nat) : List Lane := ops.map fun l => l.getD i deadLane

/-- Whether an operation acts at position i: its operands valid, its mask bit, if named, 1 (R237). -/
def actsAt (mask : Option (List Bool)) (i : Nat) (ops : List Lane) : Bool :=
  ops.all (fun l => l.valid) && match mask with
    | some m => m.getD i false
    | none => true

/-- A function of values applied at the positions of a list. -/
def mapLanes (ps : List Nat) (mask : Option (List Bool)) (ops : List (List Lane)) (f : List F32 → F32) : List Lane :=
  ps.map fun i =>
    let l := laneOperands ops i
    if actsAt mask i l then liveLane (f (l.map fun x => x.bits)) else invalidLane (l.headD deadLane)

/-- The result of a class A operation but CONVERT: computed exactly, rounded once (R242, R243). -/
def aluValue (bf : Bool) (code : Nat) (x : List F32) : F32 :=
  let v := fun i => val (x.getD i zero32)
  toMode bf (match code with
    | 0x01 => (v 0).add (v 1)
    | 0x02 => (v 0).sub (v 1)
    | 0x03 => (v 0).mul (v 1)
    | 0x04 => ((v 0).mul (v 1)).add (v 2)
    | 0x05 => numMin (v 0) (v 1)
    | 0x06 => numMax (v 0) (v 1)
    | 0x07 => (v 0).abs
    | _ => (v 0).neg)

/-- An FP32 value rounded once to the compute mode. -/
def settle (bf : Bool) (x : F32) : F32 := if bf then toMode true (val x) else x

/-- MASKOP (Table 09-4). -/
def maskOp (mod : Nat) (a b : Bool) : Bool :=
  match mod with
  | 0 => a && b
  | 1 => a || b
  | 2 => a != b
  | 3 => a && !b
  | _ => !a

/-! ### Reductions (R244) -/

/-- A beat of a row taken into a reduction; `tree` levels of pairwise sums. -/
def reduceBeat (kind tree : Nat) (st : OpState) (xs : List Lane) : OpState :=
  let live := (xs.filter fun x => x.valid).map fun x => x.bits
  match kind with
  | 0 =>
    let t := pairSum tree (xs.map fun x => if x.valid then x.bits else zero32)
    { st with run := some (match st.run with
        | some a => fadd a t
        | none => t) }
  | 1 => { st with run := live.foldl (fun m x => some (match m with
      | some y => fmax y x
      | none => x)) st.run }
  | 2 => { st with run := live.foldl (fun m x => some (match m with
      | some y => fmin y x
      | none => x)) st.run }
  | 3 => { st with seen := st.seen + live.length }
  | _ => { st with run := match live.getLast? with
      | some x => some x
      | none => st.run }

/-- A reduction's value; none for LAST of no element. -/
def reduceResult (kind : Nat) (st : OpState) : Option F32 :=
  match kind with
  | 0 => some (st.run.getD zero32)
  | 1 => some (st.run.getD ninf32)
  | 2 => some (st.run.getD inf32)
  | 3 => some (to32 (.ofNat st.seen))
  | _ => st.run

/-- Element x taken into accumulator k of a reduction along position 1 or above. -/
def axisTake (kind k : Nat) (st : OpState) (x : F32) : OpState :=
  let old := tget none st.acc k
  let new := match old with
    | none => x
    | some y => match kind with
      | 0 => fadd y x
      | 1 => fmax y x
      | 2 => fmin y x
      | _ => x
  { st with acc := tset none st.acc k (some new), cnt := tset 0 st.cnt k (tget 0 st.cnt k + 1) }

/-- Accumulator k's value. -/
def axisResult (kind k : Nat) (st : OpState) : Option F32 :=
  match kind with
  | 0 => some ((tget none st.acc k).getD zero32)
  | 1 => some ((tget none st.acc k).getD ninf32)
  | 2 => some ((tget none st.acc k).getD inf32)
  | 3 => some (to32 (.ofNat (tget 0 st.cnt k)))
  | _ => tget none st.acc k

/-! ### Scans (R246 to R248) -/

/-- The identity's second component. -/
def scanIdentity (kind : Nat) : F32 := if kind = 1 then ninf32 else if kind = 2 then inf32 else zero32

/-- a ⊕ b on FP32 values, for ADD, MAX and MIN. -/
def scanOp (kind : Nat) (a b : F32) : F32 := if kind = 1 then fmax a b else if kind = 2 then fmin a b else fadd a b

/-- ⊕ on pairs (multiplier, value); the multiplier serves LINEAR alone. -/
def scanJoin (kind : Nat) (a b : F32 × F32) : F32 × F32 :=
  if kind = 3 then (fmul b.1 a.1, ffma b.1 a.2 b.2) else (one32, scanOp kind a.2 b.2)

/-- A state applied to a pair. -/
def scanApply (kind : Nat) (h : F32) (p : F32 × F32) : F32 := if kind = 3 then ffma p.1 h p.2 else scanOp kind h p.2

/-- A position of the fixed pattern: the partial combination, whether a segment starts at or before it in the beat, the
initial value of that segment. -/
structure ScanCell where
  part  : F32 × F32
  start : Bool
  init  : Option F32
deriving DecidableEq, Repr

/-- One step of the pattern at distance d. -/
def scanStep (kind : Nat) (l : List ScanCell) (d : Nat) : List ScanCell :=
  l.zipIdx.map fun e =>
    if e.2 < d then e.1
    else match l[e.2 - d]? with
      | none => e.1
      | some p =>
        if e.1.start then e.1
        else { part := scanJoin kind p.part e.1.part, start := p.start, init := p.init }

/-- The inclusive results of a beat, from the carry before it. -/
def scanInclusive (kind tree : Nat) (carry : F32) (cells : List ScanCell) : List F32 :=
  (((List.range tree).map fun k => 2 ^ k).foldl (scanStep kind) cells).map fun c =>
    if c.start then (match c.init with
      | some i => scanApply kind i c.part
      | none => c.part.2)
    else scanApply kind carry c.part

/-- The exclusive results: each element takes the inclusive result before it, a segment's first its initial value or the
identity. -/
def scanExclusive (kind : Nat) (carry : F32) (cells : List ScanCell) (inc : List F32) : List F32 :=
  ((cells.zip (carry :: inc)).map fun e => if e.1.start then e.1.init.getD (scanIdentity kind) else e.2)

/-- The state of a sequence of R248 after an element: from the state before it. -/
def scanNext (kind : Nat) (valid : Bool) (h : Option F32) (p : F32 × F32) : Option F32 :=
  match h with
  | none => if valid then some p.2 else none
  | some h => some (scanApply kind h (if valid then p else (one32, scanIdentity kind)))

/-! ### Row statistics (R249, R250) -/

/-- A valid element x at position i taken into a row's statistics. -/
def statTake (st : OpState) (i : Nat) (x : F32) : OpState :=
  let s := st.shift.getD x
  let d := fsub x s
  { st with
    shift := some s
    acc := tset none st.acc i (some (fadd ((tget none st.acc i).getD zero32) d))
    aux := tset 0 st.aux i (ffma d d (tget 0 st.aux i))
    run := some (match st.run with
      | some m => fmax m x
      | none => x)
    special := st.special || !(val x).isFin
    seen := st.seen + 1 }

/-- A beat of a row taken into its statistics. -/
def statBeat (st : OpState) (xs : List Lane) : OpState :=
  xs.zipIdx.foldl (fun st e => if e.1.valid then statTake st e.2 e.1.bits else st) st

/-- The mean and the variances: mean, variance, sample variance, whether the clamp acted. -/
structure RowStats where
  mean     : F32
  variance : F32
  sample   : F32
  clamped  : Bool
deriving DecidableEq, Repr

/-- The row results of R249 with the cases of R250. -/
def statResult (tree : Nat) (st : OpState) : RowStats :=
  if st.seen = 0 then { mean := zero32, variance := zero32, sample := zero32, clamped := false }
  else if st.special then { mean := nan32, variance := nan32, sample := nan32, clamped := false }
  else
    let s1 := pairSum tree ((List.range (2 ^ tree)).map fun i => (tget none st.acc i).getD zero32)
    let s2 := pairSum tree ((List.range (2 ^ tree)).map fun i => tget 0 st.aux i)
    let n := to32 (.ofNat st.seen)
    let mean := fadd (st.shift.getD zero32) (fdiv s1 n)
    let d := fsub s2 (fdiv (fmul s1 s1) n)
    if (val d).lt .zero ∨ d = 0x80000000 then { mean := mean, variance := zero32, sample := zero32, clamped := true }
    else
      { mean := mean, variance := fdiv d n, clamped := false
        sample := if st.seen ≤ 1 then zero32 else fdiv d (to32 (.ofNat (st.seen - 1))) }

/-- What ROWSTAT gives for its MOD. -/
def rowStat (mod tree : Nat) (st : OpState) : F32 :=
  match mod with
  | 0 => (statResult tree st).mean
  | 1 => (statResult tree st).variance
  | 2 => (statResult tree st).sample
  | 3 => st.run.getD ninf32
  | _ => to32 (.ofNat st.seen)

/-! ### Soft maximum (R279, R280) -/

/-- An element's class with its z. -/
inductive Logit where
  | counted (z : F32) | masked | excluded
deriving DecidableEq, Repr

/-- −2^127, which a masked element takes for the maximum. -/
abbrev maskedLogit : F32 := 0xFF000000

/-- log2 e rounded to FP32. -/
abbrev log2e32 : F32 := 0x3FB8AA3B

/-- EXP2((z − M) × L). -/
def softExp (z m : F32) : F32 := builtin 2 false (fmul (fsub z m) log2e32)

/-- Sweep 1 over a beat. `seen` counts counted elements, `special` says whether a masked one was met. -/
def softBeat (tree : Nat) (st : OpState) (xs : List Logit) : OpState :=
  let zs := xs.filterMap fun x => match x with
    | .counted z => some z
    | .masked => some maskedLogit
    | .excluded => none
  match zs with
  | [] => st
  | z :: t =>
    let mb := t.foldl fmax z
    let m := match st.run with
      | some m => fmax m mb
      | none => mb
    let sum := pairSum tree (xs.map fun x => match x with
      | .counted z => softExp z m
      | _ => zero32)
    { st with
      run := some m
      sum := match st.run with
        | some old => ffma st.sum (softExp old m) sum
        | none => sum
      special := st.special || xs.contains .masked
      seen := st.seen + (xs.filter fun x => x != .masked && x != .excluded).length }

/-- What sweep 2 needs of a row: M and r; nothing for a row with no element. -/
def softRow (st : OpState) : List F32 :=
  match st.run with
  | some m => [m, builtin 4 false st.sum]
  | none => []

/-- Sweep 2 for an element. -/
def softLane (row : List F32) (x : Logit) (a : Lane) : Lane :=
  match x, row with
  | .counted z, [m, r] => liveLane (fmul (softExp z m) r)
  | .masked, _ => liveLane zero32
  | _, _ => invalidLane a

/-! ### Normalisation (R281) -/

/-- Sweep 1 of the RMS form over a beat. -/
def rmsBeat (st : OpState) (xs : List Lane) : OpState :=
  xs.zipIdx.foldl (fun st e =>
    if e.1.valid then { st with aux := tset 0 st.aux e.2 (ffma e.1.bits e.1.bits (tget 0 st.aux e.2)), seen := st.seen + 1 }
    else st) st

/-- What sweep 2 needs of a row: q, or MEAN and VARIANCE; nothing for a row with no valid element. -/
def normRow (rms : Bool) (tree : Nat) (st : OpState) : List F32 :=
  if st.seen = 0 then []
  else if rms then
    [fdiv (pairSum tree ((List.range (2 ^ tree)).map fun i => tget 0 st.aux i)) (to32 (.ofNat st.seen))]
  else [(statResult tree st).mean, (statResult tree st).variance]

/-- Sweep 2 for an element x with ε. -/
def normValue (row : List F32) (x e : F32) : F32 :=
  match row with
  | [q] => fmul x (builtin 5 false (fadd q e))
  | [m, v] => fmul (fsub x m) (builtin 5 false (fadd v e))
  | _ => zero32

end Sys2Proof.Machine
end

