-- ==== Sys2Proof/Machine/Tideway.lean ====
section
/-!
DEFINITION. The Tideway engines (chapter 09) and their special-function units (chapter 10) at work: release checks, one
beat of a task, gather and scatter, completion and failures, and the commands that load micro-programs and ask the
Harbour's reference units.
-/
namespace Sys2Proof.Machine

/-! ### A task on an engine -/

/-- A task's block as its record holds it. -/
def Task.block (t : Task) : TideBlock := parseBlock (recOperation t.record)

/-- A running task's block, its step resolved (spec/14 R389). -/
def EngineTask.block (x : EngineTask) : TideBlock := x.task.block.withStep x.step

/-- A descriptor of a task by its number. -/
def Task.stream (t : Task) (i : Nat) : Desc := t.descs.getD i (parseDesc [])

/-- The numbers of the index descriptor and of the gather source or scatter destination (R229). -/
def TideBlock.indexAt (b : TideBlock) : Nat := b.reads + b.writes
def TideBlock.sourceAt (b : TideBlock) : Nat := b.reads + b.writes + 1

/-- Roles of the descriptors in order. -/
def TideBlock.roles (b : TideBlock) : List DescRole :=
  List.replicate b.reads .read ++ List.replicate b.writes .write
    ++ (if b.indexed then [.index, if b.ops.any TideOp.isScatter then .destination else .source] else [])

/-- The task shape (R225). -/
def Task.shape (t : Task) : List Nat := (t.stream 0).shape

/-- The highest-numbered mask result below operation n: the mask stream of MASK_SOURCE 2 there (log 24). -/
def maskBelow (ops : List TideOp) (n : Nat) : Option Nat :=
  (List.range (min n ops.length)).reverse.find? fun i => ((ops[i]?).map TideOp.isMask).getD false

/-- The first operation that takes operand byte x as a value. -/
def firstUse (ops : List TideOp) (x : Nat) : Option Nat :=
  (List.range ops.length).find? fun i => ((ops[i]?).map fun o => o.values.contains x).getD false

/-- The operation that feeds write stream k. -/
def feeder (ops : List TideOp) (k : Nat) : Option Nat :=
  (List.range ops.length).find? fun i => ((ops[i]?).map fun o => !o.isScatter && o.out == k).getD false

/-- The mask operations that operation i needs through descriptors with MASK_SOURCE 2. -/
def Task.maskDeps (t : Task) (b : TideBlock) (i : Nat) : List Nat :=
  match b.ops[i]? with
  | none => []
  | some o =>
    let m := fun (j at_ : Nat) => if (t.stream j).maskSource = 2 then (maskBelow b.ops at_).toList else []
    ((o.values.filter fun x => decide (x < 8)).flatMap fun x => m x ((firstUse b.ops x).getD i))
      ++ (if o.out < b.writes then m (b.reads + o.out) i else [])
      ++ (if o.isIndexed then m b.sourceAt i else [])

/-! ### Release (R260, R318) -/

/-- Bytes of a row of E elements in its stored form, in whole lines (R235). -/
def Desc.rowBytes (d : Desc) (e : Nat) : Nat :=
  let n := if elemBytes d.format ≠ 0 then e * elemBytes d.format
    else if isPacked d.format then (e + 1) / 2
    else d.planes * ((e + 7) / 8)
  let n := n + (if d.scaleMode = 1 then (e + 31) / 32 else 0)
  (n + 127) / 128 * 128

/-- A power of two. -/
def isPowerOfTwo (n : Nat) : Bool := decide (0 < n) && n == 2 ^ n.log2

/-- What an operation asks of the task shape and the store (R224, R245, R248, R249, R290). -/
def opShapeOk (b : TideBlock) (shape : List Nat) (loaded : Nat → Bool) (o : TideOp) : Bool :=
  let e := shape.getD 0 1
  (o.code != 0x30 || o.axis == 0 ||
      (!b.pack && decide (o.axis < shape.length) && decide (shapeCount (shape.take o.axis) ≤ b.lanes)))
    && (o.code != 0x38 || o.axis == 0 || (!b.pack && decide (1 < shape.length) && decide (e ≤ b.lanes)))
    && (!(o.code == 0x40 || (o.code == 0x20 && o.mod == 0x12)) || decide (e ≤ 2 ^ 24))
    && (match o.slot with
      | some k => loaded k
      | none => true)
    && (!o.isIndexed || b.indexed)

/-- The operation words, one by one. -/
def opsOk (b : TideBlock) (shape : List Nat) (loaded : Nat → Bool) : List TideOp → List TideOp → Bool
  | [], _ => true
  | o :: t, earlier =>
    o.modsOk && o.operandsOk earlier b.reads && o.outOk b.writes && opShapeOk b shape loaded o
      && opsOk b shape loaded t (earlier ++ [o])

/-- Check 3 where it concerns the operation block alone; DETAIL is 0x100. -/
def blockOk (b : TideBlock) (shape : List Nat) (loaded : Nat → Bool) : Bool :=
  let e := shape.getD 0 1
  let count := fun (p : TideOp → Bool) => (b.ops.filter p).length
  decide (1 ≤ b.count) && decide (b.count ≤ 16) && decide (b.compute ≤ 1)
    && opsOk b shape loaded b.ops []
    && ((List.range b.writes).all fun k => count (fun o => !o.isScatter && o.out == k) == 1)
    && decide (count (fun o => o.code == 0x20 && o.mod == 0x11) ≤ 1)
    && decide (count (fun o => o.code == 0x20 && o.mod == 0x12) ≤ 1)
    && decide (count TideOp.isIndexed ≤ 1)
    && (!b.pack || (isPowerOfTwo e && decide (2 * e ≤ b.lanes)))
    && decide (b.element + shapeCount shape ≤ 2 ^ 48)
    && (!b.stage || (decide (4 ≤ b.stageCount) && decide (b.stageCount ≤ 32) && decide (b.stageRoom + b.stageCount ≤ 1536)))

/-- The shape a write stream must have (R225). -/
def writeShape (o : TideOp) (shape : List Nat) : List Nat :=
  if o.isRow then shape.set 0 1 else if o.isAxis then shape.set o.axis 1 else shape

/-- The properties of a scaled write (R252). -/
def scaledWriteOk (d : Desc) : Bool :=
  d.scaleMode != 1 || (d.stepAt 0 == 1 && d.shape.getD 0 0 % 32 == 0
    && (List.range (d.dims - 1)).all fun j => d.stepAt (j + 1) % 32 == 0)

/-- The loop position of a gather source's or scatter destination's indexed dimension. -/
def Desc.indexedAt (d : Desc) : Nat := ((List.range d.dims).find? fun j => d.dimAt j == d.indexedDim).getD 0

/-- Whether descriptor j suits the block (R225, R252, R258, R259). A mask stream must come before the operation whose stream it masks;
a stream that no operation uses, and one whose elements are no elements of the mask stream, needs none (spec/07 R183, log 173). -/
def Task.descOk (t : Task) (b : TideBlock) (j : Nat) : Bool :=
  let d := t.stream j
  let shape := t.shape
  let masked := fun (at_ : Option Nat) => d.maskSource != 2 || ((at_.bind (maskBelow b.ops)).isSome)
  if j < b.reads then d.shape == shape && ((firstUse b.ops j).isNone || masked (firstUse b.ops j))
  else if j < b.indexAt then
    match (feeder b.ops (j - b.reads)).bind (fun i => (b.ops[i]?).map fun o => (i, o)) with
    | some (i, o) =>
      d.shape == writeShape o shape && scaledWriteOk d && (o.isRow || o.isAxis || masked (some i))
    | none => false
  else if j = b.indexAt then d.dims == 1 && d.format == 0x0C
  else
    let use := (List.range b.ops.length).find? fun i => ((b.ops[i]?).map TideOp.isIndexed).getD false
    d.onCliff && masked use
      && (match use.bind (b.ops[·]?) with
        | none => true
        | some o =>
          d.shape.set d.indexedAt ((t.stream b.indexAt).extents.getD 0 0) == shape
            && (o.code != 0x4A || [1, 2, 3].contains d.format))

/-- Staging for Cliff streams, and room for two rows of each Cliff read stream where a task runs in sweeps (R227, R235). -/
def Task.stagingRoom (t : Task) (b : TideBlock) : Bool :=
  let cliff := fun j => (t.stream j).onCliff
  let e := t.shape.getD 0 1
  let reads := (List.range b.reads ++ (if b.ops.any fun o => o.code == 0x48 then [b.sourceAt] else [])).filter cliff
  (b.stage || !(List.range t.descs.length).any cliff)
    && (lastSweep b.ops == 0
      || decide (2 * (reads.map fun j => (t.stream j).rowBytes e).foldl (· + ·) 0 ≤ (if b.stage then b.stageCount * 0x40000 else 0)))

/-- The staging area as a footprint. -/
def TideBlock.staging (b : TideBlock) : List Interval := if b.stage then stagingParts b.stageRoom b.stageCount else []

/-- The numbers of the write descriptors, the scatter destination among them. -/
def TideBlock.writers (b : TideBlock) : List Nat :=
  ((List.range b.writes).map fun k => b.reads + k) ++ (if b.ops.any TideOp.isScatter then [b.sourceAt] else [])

/-- Check 4: the number of a descriptor that overlaps where it must not (R186). -/
def Task.tideOverlap (t : Task) (b : TideBlock) : Option Nat :=
  let all := List.range t.descs.length
  match all.find? fun j => meets b.staging (t.stream j).footprint with
  | some j => some j
  | none => b.writers.find? fun w => all.any fun j =>
      j != w && meets (t.stream w).footprint (t.stream j).footprint
        && !(decide (j < b.reads) && decide (w < b.indexAt) && sameInPlace (t.stream w) (t.stream j))

/-- The write descriptor of a speculative task that leaves its shadow rooms (R318). -/
def Task.tideShadow (t : Task) (b : TideBlock) : Option Nat :=
  if !t.runAhead then none
  else if b.ops.any TideOp.isScatter || !inShadow t.record b.staging then some detailRecord
  else b.writers.find? fun w => !inShadow t.record (t.stream w).footprint

/-- The generator step at release: its sentinel takes the stage sequencer's step; none where no sequencer gives one
(spec/14 R389). -/
def State.resolveStep (s : State) (part step : Nat) : Option Nat := if step = 0xFFFFFFFF then s.stageStep part else some step

/-- Checks 3 and 4 of R260, in order, once the descriptors have passed theirs. -/
def State.tideChecks (s : State) (t : Task) (b : TideBlock) : Option Reject :=
  if !blockOk b t.shape (fun k => (s.program (t.unit - 1) k).isSome) then some (.invalid detailRecord)
  else match (List.range t.descs.length).find? fun j => !t.descOk b j with
    | some j => some (.invalid j)
    | none =>
      if !t.stagingRoom b then some (.invalid detailRecord)
      else if (s.resolveStep t.part b.step).isNone then some (.invalid detailRecord)
      else match t.tideShadow b with
        | some j => some (.invalid j)
        | none => (t.tideOverlap b).map fun j => .done St.overlap j none

/-- A task at its release: the counts, its descriptors, then the rest. -/
def State.tidePrepare (s : State) (t : Task) : Except Reject EngineTask :=
  let b := t.block
  let n := b.reads + b.writes + (if b.indexed then 2 else 0)
  if 8 < b.reads ∨ 4 < b.writes ∨ recDescs t.record ≠ n ∨ b.reads + b.writes = 0 then .error (.invalid detailRecord)
  else match s.fetchDescs t.agent t.runAhead true (b.ops.any TideOp.isMask) 0 ((recDescAddrs t.record).zip b.roles) with
    | .error x => .error x
    | .ok ds =>
      let t := { t with descs := ds }
      match s.tideChecks t b with
      | some x => .error x
      | none => .ok { task := t, step := (s.resolveStep t.part b.step).getD 0 }

/-- Whether engine n can take a task: none running, none still completing (R221). -/
def State.tideCanAccept (s : State) (n : Nat) : Bool :=
  (s.engine n).running.isNone && !s.finished.any fun t => t.unit == n + 1

/-- A Tideway task's release, and whether it took place; it does not where it waits. -/
def State.tideRelease (s : State) (t : Task) : State × Bool :=
  match s.tidePrepare t with
  | .ok x =>
    let s := { (s.passDescs t).setEngine (t.unit - 1) { s.engine (t.unit - 1) with running := some { x with draw := s.fresh } } with
      fresh := s.fresh + 1 }
    (s, true)
  | .error x => s.rejectTask t x

/-! ### The place of a beat (R223, R224) -/

/-- A beat: the task, its block, its shape, the row's extent, elements of the task, the first element and the number of
elements, whether it is the first and the last beat of its rows. -/
structure Beat where
  x      : EngineTask
  b      : TideBlock
  shape  : List Nat
  extent : Nat
  total  : Nat
  first  : Nat
  count  : Nat
  firstBeat : Bool
  lastBeat  : Bool
deriving DecidableEq, Repr

/-- Rows of a group, and beats of a row. -/
def TideBlock.groupRows (b : TideBlock) (e : Nat) : Nat := if b.pack then b.lanes / max 1 e else 1
def TideBlock.rowBeats (b : TideBlock) (e : Nat) : Nat := if b.pack then 1 else (e + b.lanes - 1) / b.lanes

/-- The beat a task is at. -/
def EngineTask.at (x : EngineTask) : Beat :=
  let b := x.block
  let shape := x.task.shape
  let e := shape.getD 0 1
  let total := shapeCount shape
  let first := x.group * b.groupRows e * e + x.beat * b.lanes
  { x := x, b := b, shape := shape, extent := e, total := total, first := first
    count := if b.pack then min (b.groupRows e * e) (total - first) else min b.lanes (e - x.beat * b.lanes)
    firstBeat := x.beat == 0, lastBeat := x.beat + 1 == b.rowBeats e }

/-- The packed row of position i. -/
def Beat.chunk (v : Beat) (i : Nat) : Nat := if v.b.pack then i / v.extent else 0

/-- Packed rows of the beat. -/
def Beat.chunks (v : Beat) : Nat := if v.b.pack then v.count / v.extent else 1

/-- The positions of packed row p. -/
def Beat.chunkOf {α : Type} (v : Beat) (p : Nat) (l : List α) : List α :=
  if v.b.pack then (l.drop (p * v.extent)).take v.extent else l

/-- Positions at which packed rows begin. -/
def Beat.rowStarts (v : Beat) : List Nat := (List.range v.chunks).map fun p => p * v.extent

/-- The loop indices of position i. -/
def Beat.indices (v : Beat) (i : Nat) : List Nat := unrank v.shape (v.first + i)

/-! ### Work in progress within a beat -/

/-- What a beat has come to so far: results, streams read, operation states, row results, the special-function unit,
counts, blocks whose reads were suppressed, rows in which the clamp acted, row latches, column-broadcast elements. -/
structure Work where
  waves   : Tab (Option Wave) := []
  streams : Tab (Option (List Lane)) := []
  ops     : Tab OpState := []
  rows    : Tab (List (List F32)) := []
  clamped : List Nat := []
  seg     : SegEnv := {}
  saturated : Nat := 0
  nans    : Nat := 0
  clamps  : Nat := 0
  maskedRows : Nat := 0
  clampedRows : Nat := 0
  blocks  : List Nat := []
  latches : List RowLatch := []
  broadcasts : Tab (Option Lane) := []
deriving DecidableEq, Repr

/-- The result of operation i. -/
def Work.wave (w : Work) (i : Nat) : Wave := (tget none w.waves i).getD (.vals [])
def Work.setWave (w : Work) (i : Nat) (x : Wave) : Work := { w with waves := tset none w.waves i (some x) }

/-- The mask an operand byte names. -/
def Work.maskOf (w : Work) (x : Nat) : Option (List Bool) :=
  if 0x10 ≤ x ∧ x < 0x20 then some (w.wave (x - 0x10)).bools else none

/-- The lanes of an operand byte (Table 09-3); index operands and constants are exact (R243). -/
def Work.operand (w : Work) (v : Beat) (x : Nat) : List Lane :=
  if x < 8 then (tget none w.streams x).getD []
  else if 0x10 ≤ x ∧ x < 0x20 then (w.wave (x - 0x10)).lanes
  else if 0x20 ≤ x ∧ x < 0x28 then List.replicate v.count (liveLane (v.b.consts.getD (x - 0x20) zero32))
  else (List.range v.count).map fun i => liveLane (to32 (.ofNat ((v.indices i).getD (x - 0x30) 0)))

/-- The mask stream of a descriptor with MASK_SOURCE 2 at operation n. -/
def Work.maskStream (w : Work) (v : Beat) (n : Nat) : List Bool :=
  match maskBelow v.b.ops n with
  | some m => (w.wave m).bools
  | none => []

/-- A value entering the engine: FP32, then BF16 in BF16 mode (R243). -/
def entering (bf : Bool) (x : Num) : F32 := settle bf (to32 x)

/-! ### Reading streams -/

/-- One element of a descriptor at loop indices, its mask bit given: the lane, and the block of a suppressed read. -/
def State.readLane (s : State) (v : Beat) (d : Desc) (active : Bool) (idx : List Nat) : Except Stop (Lane × Option Nat) :=
  if !active then .ok (deadLane, none)
  else match s.readNum v.x.task.agent d v.x.task.runAhead (d.offsetAt idx) with
    | .error e => .error e
    | .ok none => .ok (deadLane, some (d.blockOf (d.offsetAt idx)))
    | .ok (some x) => .ok (liveLane (entering v.b.bf x), none)

/-- A mask bit that the spec does not state: MASK_SOURCE 2 on a stream whose elements are no elements of the mask stream
(log 173). -/
def Beat.openMask (v : Beat) (j k : Nat) : Bool := Config.openMask v.x.draw j k

/-- The mask bit of a descriptor at loop indices (R183); `stream` is its mask stream's bit for MASK_SOURCE 2. -/
def State.descMask (s : State) (v : Beat) (d : Desc) (idx : List Nat) (stream : Bool) : Except Stop Bool :=
  if d.maskSource = 2 then .ok stream else s.maskBit v.x.task.agent d (rank d.shape idx)

/-- Streams that may hold a latch: the first two that are no column broadcast and whose row occupies at most 16 KiB (R241). -/
def Beat.latched (v : Beat) : List Nat :=
  ((List.range v.b.reads).filter fun j =>
    let d := v.x.task.stream j
    d.stepAt 0 != 0 && decide (d.rowBytes v.extent ≤ 0x4000)).take 2

/-- The address of the first element of position i's row of stream j. -/
def Beat.rowAddr (v : Beat) (j i : Nat) : Nat :=
  let d := v.x.task.stream j
  match d.pieces (d.offsetAt ((v.indices i).set 0 0)) with
  | (a, _, _) :: _ => a
  | [] => 0

/-- Position i within its row. -/
def Beat.rowPos (v : Beat) (i : Nat) : Nat := (v.indices i).getD 0 0

/-- The latch of stream j. -/
def Work.latch (w : Work) (j : Nat) : Option RowLatch := w.latches.find? fun l => l.stream == j

/-- The row that position i's column-broadcast element belongs to, within the beat. -/
def Beat.broadcastKey (v : Beat) (j i : Nat) : Nat := 1024 * j + v.chunk i

/-- The element at position i of stream j where it needs no fetch: its row stands in the stream's latch (R241), or it is a column
broadcast read already in its row (R240). -/
def Work.served (w : Work) (v : Beat) (j i : Nat) : Option Lane :=
  if (v.x.task.stream j).stepAt 0 = 0 then tget none w.broadcasts (v.broadcastKey j i)
  else match w.latch j with
    | some l => if l.addr = v.rowAddr j i then tget none l.row (v.rowPos i) else none
    | none => none

/-- An element read kept: in its stream's latch, which a new row takes over, or as its row's column-broadcast element. -/
def Work.keepElem (w : Work) (v : Beat) (j i : Nat) (x : Lane) : Work :=
  if (v.x.task.stream j).stepAt 0 = 0 then { w with broadcasts := tset none w.broadcasts (v.broadcastKey j i) (some x) }
  else if !v.latched.contains j then w
  else
    let a := v.rowAddr j i
    let old := match w.latch j with
      | some l => if l.addr = a then l.row else []
      | none => []
    { w with latches := { stream := j, addr := a, row := tset none old (v.rowPos i) (some x) } :: w.latches.filter fun l => l.stream != j }

/-- The element at position i of stream j, added to the lanes read so far. -/
def State.streamLane (s : State) (v : Beat) (j : Nat) (mask : List Bool) (acc : Work × List Lane) (i : Nat) : Except Stop (Work × List Lane) :=
  let d := v.x.task.stream j
  match s.descMask v d (v.indices i) (mask.getD i false) with
  | .error e => .error e
  | .ok active =>
    if !active then .ok (acc.1, acc.2 ++ [deadLane])
    else match acc.1.served v j i with
      | some x => .ok (acc.1, acc.2 ++ [x])
      | none => match s.readLane v d true (v.indices i) with
        | .error e => .error e
        | .ok x =>
          let w : Work := { acc.1 with blocks := acc.1.blocks ++ x.2.toList }
          .ok (w.keepElem v j i x.1, acc.2 ++ [x.1])

/-- The mask stream's bits for read stream j. -/
def Work.streamMask (w : Work) (v : Beat) (j : Nat) : List Bool := w.maskStream v ((firstUse v.b.ops j).getD 0)

/-- Read stream j's lanes of a beat. Its MASK_SOURCE 2 mask, where several operations use the stream, is for all of them the mask below
the first (log 188). -/
def State.readStream (s : State) (v : Beat) (w : Work) (j : Nat) : Except Stop Work :=
  match (List.range v.count).foldlM (s.streamLane v j (w.streamMask v j)) (w, []) with
  | .error e => .error e
  | .ok r => .ok { r.1 with streams := tset none r.1.streams j (some r.2) }

/-- The streams an operation takes, read once a beat. -/
def State.readStreams (s : State) (v : Beat) (w : Work) (xs : List Nat) : Except Stop Work :=
  (xs.filter fun x => decide (x < 8) && (tget none w.streams x).isNone).eraseDups.foldlM (fun w j => s.readStream v w j) w

/-! ### Gather and scatter (R187 to R189, R258, R259) -/

/-- Where index position j leads: a position, zero fill, or nothing for an index that its mask turns off: the gathered element is then
inactive and the scattered one dropped, while the check of R188 and the policy's count look at every index (log 174). -/
def State.selectAt (s : State) (v : Beat) (j : Nat) : Except Stop (Option Selected) :=
  let t := v.x.task
  let di := t.stream v.b.indexAt
  let d := t.stream v.b.sourceAt
  match (if di.maskSource = 2 then .ok (v.openMask v.b.indexAt j) else s.maskBit t.agent di j) with
  | .error e => .error e
  | .ok false => .ok none
  | .ok true =>
    match s.readIndex t.agent di t.runAhead j with
    | .error e => .error e
    | .ok k => .ok (some (selectIndex di.indexPolicy (d.extents.getD d.indexedDim 1) k))

/-- The gathered element at position i. -/
def State.gatherLane (s : State) (v : Beat) (active stream : Bool) (i : Nat) : Except Stop (Lane × Option Nat) :=
  if !active then .ok (deadLane, none)
  else
    let d := v.x.task.stream v.b.sourceAt
    let idx := v.indices i
    match s.selectAt v (idx.getD d.indexedAt 0) with
    | .error e => .error e
    | .ok none => .ok (deadLane, none)
    | .ok (some .fault) => .error (.fail St.indexRange 0 false)
    | .ok (some .zero) => .ok (liveLane zero32, none)
    | .ok (some (.at k _)) =>
      match s.descMask v d (idx.set d.indexedAt k) stream with
      | .error e => .error e
      | .ok m => s.readLane v d m (idx.set d.indexedAt k)

/-- The lanes of a GATHER. -/
def State.gatherLanes (s : State) (v : Beat) (w : Work) (n : Nat) (mask : Option (List Bool)) : Except Stop (List (Lane × Option Nat)) :=
  let stream := w.maskStream v n
  (List.range v.count).mapM fun i => s.gatherLane v (match mask with
    | some m => m.getD i false
    | none => true) (stream.getD i false) i

/-- Scatter contributions of a beat, in ascending source position: destination offset and value. -/
def State.scatterWrites (s : State) (v : Beat) (w : Work) (n : Nat) (o : TideOp) : Except Stop (List (Int × F32)) :=
  let d := v.x.task.stream v.b.sourceAt
  let lanes := w.operand v o.a
  let mask := w.maskOf o.mask
  let stream := w.maskStream v n
  let one : Nat → Except Stop (Option (Int × F32)) := fun i =>
    if !actsAt mask i [lanes.getD i deadLane] then .ok none
    else
      let idx := v.indices i
      match s.selectAt v (idx.getD d.indexedAt 0) with
      | .error e => .error e
      | .ok (some (.at k _)) =>
        match s.descMask v d (idx.set d.indexedAt k) (stream.getD i false) with
        | .error e => .error e
        | .ok m => .ok (if m then some (d.offsetAt (idx.set d.indexedAt k), (lanes.getD i deadLane).bits) else none)
      | .ok (some .fault) => .error (.fail St.indexRange 0 false)
      | .ok _ => .ok none
  match (List.range v.count).mapM one with
  | .error e => .error e
  | .ok l => .ok (l.filterMap id)

/-- SCATTER_ADD's contributions one by one: read, add, convert, write. -/
def State.scatterAdd (s : State) (g : Agent) (d : Desc) : List (Int × F32) → Except Stop State
  | [] => .ok s
  | (o, y) :: t =>
    match s.readNum g d false o with
    | .error e => .error e
    | .ok x =>
      match s.writeElems g d [(o, fadd (to32 (x.getD .zero)) y)] with
      | .error e => .error e
      | .ok u => State.scatterAdd u g d t

/-- Contributions to a Cove line of 256 bytes that an earlier one of the beat updated (R259). -/
def hazards (d : Desc) (ws : List (Int × F32)) : Nat :=
  let lines := ws.map fun w => match d.pieces w.1 with
    | (a, _, _) :: _ => a / 256
    | [] => 0
  lines.length - lines.eraseDups.length

/-! ### Evaluating one operation (R237, R238, R242 to R256, R265 to R281) -/

/-- The draw of position i for stream identifier bits `id`. -/
def Beat.drawAt (v : Beat) (id : F32) (i : Nat) : List Nat :=
  draw v.b.key v.b.step v.b.micro id.toNat (v.b.element + v.first + i)

/-- A constant by its operand byte. -/
def Beat.constant (v : Beat) (x : Nat) : F32 := v.b.consts.getD (x - 0x20) zero32

/-- CONVERT's rounding at position i. -/
def Beat.rounding (v : Beat) (o : TideOp) (i : Nat) : Rnd :=
  match o.mod % 4 with
  | 0 => .near
  | 1 => .zero
  | _ => .stoch ((v.drawAt (v.constant o.b) i).getD 0 0)

/-- CONVERT at the positions of a list, its saturations and lost NaNs counted. -/
def Work.convert (w : Work) (v : Beat) (o : TideOp) (mask : Option (List Bool)) (a : List Lane) (ps : List Nat) :
    List Lane × Work :=
  let t := (targetOf o.mod2 (o.mod / 16) (bits o.mod 2 2)).getD (.twos 32)
  ps.foldl (fun acc i =>
    let x := a.getD i deadLane
    if actsAt mask i [x] then
      let c := t.convert (v.rounding o i) (val x.bits)
      (acc.1 ++ [liveLane (settle v.b.bf (to32 c.value))],
        { acc.2 with saturated := acc.2.saturated + (if c.saturated then 1 else 0)
                     nans := acc.2.nans + (if c.nanLost then 1 else 0) })
    else (acc.1 ++ [invalidLane x], acc.2)) ([], w)

/-- A micro-program on a lane, its clamps counted. -/
def Work.runProgram (w : Work) (m : MicroProgram) (slot : Nat) (a b c : F32) : F32 × Work :=
  let r := microEval m slot w.seg a b c
  (r.1, { w with seg := r.2.2, clamps := w.clamps + (if r.2.1 then 1 else 0) })

/-- BIAS_ACT and MICRO on a lane's operands A, B, C. -/
def Work.sfnLane (w : Work) (o : TideOp) (program : Nat → Option MicroProgram) (a : F32) (b c : Option F32) : F32 × Work :=
  let run := fun (w : Work) (k : Nat) (a b c : F32) => match program k with
    | some m => w.runProgram m k a b c
    | none => (a, w)
  if o.mod = 0x10 then
    let y := match b with
      | some b => fadd a b
      | none => a
    let r := match o.slot with
      | some k => run w k y zero32 zero32
      | none => (activation (o.mod2 / 2) y, w)
    (match c with
      | some c => fmul r.1 c
      | none => r.1, r.2)
  else run w (o.mod - 0x20) a (b.getD zero32) (c.getD zero32)

/-- An element-wise SFN operation at the positions of a list. -/
def Work.sfn (w : Work) (v : Beat) (o : TideOp) (program : Nat → Option MicroProgram) (mask : Option (List Bool)) (ps : List Nat) :
    List Lane × Work :=
  let get := fun (x i : Nat) => if x = 0xFF then none else some ((w.operand v x).getD i deadLane)
  ps.foldl (fun acc i =>
    let a := get o.a i
    let b := if o.mod ≤ 5 then none else get o.b i
    let c := if o.mod ≤ 5 then none else get o.c i
    if actsAt mask i (a.toList ++ b.toList ++ c.toList) then
      let x := (a.map fun l => l.bits).getD zero32
      let r := if o.mod ≤ 5 then (builtin o.mod (o.mod2 % 2 == 1) x, acc.2)
        else acc.2.sfnLane o program x (b.map fun l => l.bits) (c.map fun l => l.bits)
      (acc.1 ++ [liveLane (settle v.b.bf r.1)], r.2)
    else (acc.1 ++ [invalidLane (a.getD deadLane)], acc.2)) ([], w)

/-- The class A and M operations, RAND and the element-wise SFN forms at the positions of a list. -/
def Work.elementwise (w : Work) (v : Beat) (o : TideOp) (program : Nat → Option MicroProgram) (ps : List Nat) : Wave × Work :=
  let mask := w.maskOf o.mask
  let opnds := o.values.map (w.operand v)
  let a := w.operand v o.a
  let bit := fun (i : Nat) => match mask with
    | some m => m.getD i false
    | none => true
  match o.code with
  | 0x09 =>
    let r := w.convert v o mask a ps
    (.vals r.1, r.2)
  | 0x10 => (.mask (ps.map fun i =>
      let l := laneOperands opnds i
      actsAt mask i l && fcmp o.mod (l.getD 0 deadLane).bits (l.getD 1 deadLane).bits), w)
  | 0x11 =>
    let ma := (w.maskOf o.a).getD []
    let mb := (w.maskOf o.b).getD []
    (.mask (ps.map fun i => bit i && maskOp o.mod (ma.getD i false) (mb.getD i false)), w)
  | 0x12 => (.vals (ps.map fun i =>
      let l := (w.operand v (if bit i then o.a else o.b)).getD i deadLane
      if l.valid then liveLane (settle v.b.bf l.bits) else l), w)
  | 0x20 =>
    let r := w.sfn v o program mask ps
    (.vals r.1, r.2)
  | 0x28 =>
    let y := fun i => (v.drawAt (v.constant o.a) i).getD o.mod 0
    if o.mod2 = 1 then (.mask (ps.map fun i => bit i && bernoulli (v.constant o.b) (y i)), w)
    else (.vals (ps.map fun i =>
      if bit i then liveLane (settle v.b.bf (uniform (y i))) else invalidLane (liveLane (v.constant o.a))), w)
  | c => (.vals (mapLanes ps mask opnds (aluValue v.b.bf c)), w)

/-- Row results, or a row-uniform result, spread over the positions of the beat. -/
def Beat.spread (v : Beat) (isMask : Bool) (rows : List (List F32)) : Wave :=
  let at_ := fun i => rows.getD (v.chunk i) []
  if isMask then .mask ((List.range v.count).map fun i => (at_ i).getD 0 0 != 0)
  else .vals ((List.range v.count).map fun i => match at_ i with
    | [x] => liveLane x
    | [x, ok] => { valid := ok != 0, bits := x }
    | _ => deadLane)

/-- A row-uniform operation: evaluated in the first beat of its rows, once a row, and kept (R234). -/
def Work.uniform (w : Work) (v : Beat) (n : Nat) (o : TideOp) (program : Nat → Option MicroProgram) : Work :=
  let w := if v.firstBeat then
      let r := w.elementwise v o program v.rowStarts
      let rows := match r.1 with
        | .vals l => l.map fun x => [x.bits, if x.valid then 1 else 0]
        | .mask l => l.map fun m => [if m then 1 else 0]
      { r.2 with rows := tset [] r.2.rows n rows }
    else w
  w.setWave n (v.spread o.isMask (tget [] w.rows n))

/-- The lanes an operation reduces or scans: valid where it acts. -/
def Work.acting (w : Work) (v : Beat) (o : TideOp) (opnds : List Nat) : List Lane :=
  let mask := w.maskOf o.mask
  let ls := opnds.map (w.operand v)
  (List.range v.count).map fun i =>
    let l := laneOperands ls i
    { l.headD deadLane with valid := actsAt mask i l }

/-- The state an operation brings into packed row p: that of the beat before, or a new one at the row's start. -/
def Work.stateAt (w : Work) (v : Beat) (n : Nat) : OpState :=
  if v.firstBeat then {} else tget {} w.ops (16 * v.x.sweep + n)

/-- The states an operation leaves, one for each packed row; the last is kept for the next beat. -/
def Work.rowStates (w : Work) (v : Beat) (n : Nat) (f : Nat → OpState → OpState) : List OpState × Work :=
  let sts := (List.range v.chunks).map fun p => f p (w.stateAt v n)
  (sts, { w with ops := tset {} w.ops (16 * v.x.sweep + n) (sts.getLastD {}) })

/-- Rows in which the clamp acted, each counted once (R250). -/
def Work.clampRows (w : Work) (rows : List Nat) : Work :=
  let new := rows.filter fun p => !w.clamped.contains p
  { w with clamped := w.clamped ++ new, clampedRows := w.clampedRows + new.length }

/-- The positions of a list at which a predicate holds. -/
def indicesWhere {α : Type} (p : α → Bool) (l : List α) : List Nat := (l.zipIdx.filter fun e => p e.1).map fun e => e.2

/-- REDUCE and ROWSTAT along loop position 0. -/
def Work.rowOp (w : Work) (v : Beat) (n : Nat) (o : TideOp) : Work :=
  let xs := w.acting v o [o.a]
  let r := w.rowStates v n fun p st =>
    if o.code = 0x30 then reduceBeat o.mod v.b.tree st (v.chunkOf p xs) else statBeat st (v.chunkOf p xs)
  if !v.lastBeat then r.2
  else
    let rows := r.1.map fun st =>
      if o.code = 0x30 then (reduceResult o.mod st).toList.map (settle v.b.bf) else [settle v.b.bf (rowStat o.mod v.b.tree st)]
    let w := { r.2 with rows := tset [] r.2.rows n rows }
    if o.code = 0x40 ∧ (o.mod = 1 ∨ o.mod = 2) then
      w.clampRows (indicesWhere (fun st => (statResult v.b.tree st).clamped) r.1)
    else w

/-- The logits of a beat: operands A and B, the mask, by R279. -/
def Work.logits (w : Work) (v : Beat) (o : TideOp) : List Logit :=
  let a := w.operand v o.a
  let b := if o.b = 0xFF then none else some (w.operand v o.b)
  let mask := w.maskOf o.mask
  (List.range v.count).map fun i =>
    let x := a.getD i deadLane
    if !x.valid then .excluded
    else if actsAt mask i [] then .counted (match b with
      | some l => fmul x.bits (l.getD i deadLane).bits
      | none => x.bits)
    else .masked

/-- Sweep 1 of SOFTMAX and NORM. -/
def Work.fusedForm (w : Work) (v : Beat) (n : Nat) (o : TideOp) : Work :=
  let rms := o.mod2 / 2 == 1
  let soft := o.mod == 0x11
  let zs := w.logits v o
  let xs := w.acting v o [o.a, o.b]
  let r := w.rowStates v n fun p st =>
    if soft then softBeat v.b.tree st (v.chunkOf p zs)
    else if rms then rmsBeat st (v.chunkOf p xs)
    else statBeat st (v.chunkOf p xs)
  if !v.lastBeat then r.2
  else
    let rows := r.1.map fun st => if soft then softRow st else normRow rms v.b.tree st
    let w := { r.2 with rows := tset [] r.2.rows n rows }
    if soft then { w with maskedRows := w.maskedRows + (r.1.filter fun st => st.special && st.seen == 0).length }
    else if rms then w
    else w.clampRows (indicesWhere (fun st => (statResult v.b.tree st).clamped) r.1)

/-- Sweep 2 of SOFTMAX and NORM. -/
def Work.fusedWrite (w : Work) (v : Beat) (n : Nat) (o : TideOp) : Work :=
  let rows := tget [] w.rows n
  let row := fun i => rows.getD (v.chunk i) []
  let a := w.operand v o.a
  let set := fun (l : Lane) => if l.valid then liveLane (settle v.b.bf l.bits) else l
  if o.mod = 0x11 then
    let zs := w.logits v o
    w.setWave n (.vals ((List.range v.count).map fun i =>
      set (softLane (row i) (zs.getD i .excluded) (a.getD i deadLane))))
  else
    let e := w.operand v o.b
    let mask := w.maskOf o.mask
    w.setWave n (.vals ((List.range v.count).map fun i =>
      let x := a.getD i deadLane
      let y := e.getD i deadLane
      if actsAt mask i [x, y] then set (liveLane (normValue (row i) x.bits y.bits)) else invalidLane x))

/-- The pair (multiplier, value) of a scan at position i: LINEAR multiplies by A and adds B. -/
def scanPair (linear : Bool) (a b : List Lane) (i : Nat) : F32 × F32 :=
  if linear then ((a.getD i deadLane).bits, (b.getD i deadLane).bits) else (one32, (a.getD i deadLane).bits)

/-- SCAN along loop position 0 (R246, R247). A result whose initial value is invalid is invalid (R237). -/
def Work.scanRow (w : Work) (v : Beat) (n : Nat) (o : TideOp) : Work :=
  let kind := o.mod % 8
  let a := w.operand v o.a
  let b := w.operand v o.b
  let acts := w.acting v o (if kind = 3 then [o.a, o.b] else [o.a])
  let flags := w.maskOf o.mod2
  let init := if o.c = 0xFF then none else some (w.operand v o.c)
  let live := fun (i : Nat) => (acts.getD i deadLane).valid && (init.map fun l => (l.getD i deadLane).valid).getD true
  let cells := (List.range v.count).map fun i =>
    let start := (v.firstBeat && (i == 0 || (v.b.pack && i % v.extent == 0))) || ((flags.map fun f => f.getD i false).getD false)
    { part := if (acts.getD i deadLane).valid then scanPair (kind == 3) a b i else (one32, scanIdentity kind)
      start := start, init := if start then init.map fun l => (l.getD i deadLane).bits else none : ScanCell }
  let old := w.stateAt v n
  let carry := old.run.getD zero32
  let incs := (List.range v.chunks).map fun p => scanInclusive kind v.b.tree carry (v.chunkOf p cells)
  let outs := (List.range v.chunks).flatMap fun p =>
    if o.mod.testBit 3 then scanExclusive kind carry (v.chunkOf p cells) (incs.getD p []) else incs.getD p []
  let w := { w with ops := tset {} w.ops (16 * v.x.sweep + n) { old with run := (incs.getLastD []).getLast? } }
  w.setWave n (.vals ((List.range v.count).map fun i =>
    if live i then liveLane (settle v.b.bf (outs.getD i zero32)) else invalidLane (a.getD i deadLane)))

/-- SCAN along loop position 1: each position its own sequence (R248). -/
def Work.scanAxis (w : Work) (v : Beat) (n : Nat) (o : TideOp) : Work :=
  let kind := o.mod % 8
  let a := w.operand v o.a
  let b := w.operand v o.b
  let acts := w.acting v o (if kind = 3 then [o.a, o.b] else [o.a])
  let flags := w.maskOf o.mod2
  let init := if o.c = 0xFF then none else some (w.operand v o.c)
  let live := fun (i : Nat) => (acts.getD i deadLane).valid && (init.map fun l => (l.getD i deadLane).valid).getD true
  let key := 16 * v.x.sweep + n
  let old := tget {} w.ops key
  let r := (List.range v.count).map fun i =>
    let restart := (v.indices i).getD 1 0 == 0 || ((flags.map fun f => f.getD i false).getD false)
    let h := if restart then (match init with
        | some l => some (l.getD i deadLane).bits
        | none => if kind = 3 then some zero32 else none)
      else tget none old.acc i
    let h' := scanNext kind (acts.getD i deadLane).valid h (scanPair (kind == 3) a b i)
    (h, h')
  let out := fun (e : Option F32 × Option F32) => (if o.mod.testBit 3 then e.1 else e.2).getD (scanIdentity kind)
  let st := { old with acc := tsetMany none [] 0 (r.map fun e => e.2) }
  { w with ops := tset {} w.ops key st }.setWave n (.vals ((List.range v.count).map fun i =>
    if live i then liveLane (settle v.b.bf (out (r.getD i (none, none)))) else invalidLane (a.getD i deadLane)))

/-- REDUCE along loop position 1 or above: the accumulators, and the results where a run ends. -/
def Work.reduceAxis (w : Work) (v : Beat) (n : Nat) (o : TideOp) : Work :=
  let xs := w.acting v o [o.a]
  let width := shapeCount (v.shape.take o.axis)
  let key := 16 * v.x.sweep + n
  let r := xs.zipIdx.foldl (fun (acc : OpState × List Lane) e =>
    let k := (v.first + e.2) % width
    let at_ := (v.indices e.2).getD o.axis 0
    let st := if at_ = 0 then { acc.1 with acc := terase acc.1.acc k, cnt := terase acc.1.cnt k } else acc.1
    let st := if e.1.valid then axisTake o.mod k st e.1.bits else st
    let lane := if at_ + 1 = v.shape.getD o.axis 1 then (match axisResult o.mod k st with
        | some y => liveLane (settle v.b.bf y)
        | none => deadLane)
      else deadLane
    (st, acc.2 ++ [lane])) (tget {} w.ops key, [])
  { w with ops := tset {} w.ops key r.1 }.setWave n (.vals r.2)

/-- Operation n in a beat: streams read as it needs them, its result, what it keeps. -/
def State.evalOp (s : State) (v : Beat) (levels : List Nat) (uniform : List Bool) (w : Work) (n : Nat) : Except Stop Work :=
  match v.b.ops[n]? with
  | none => .ok w
  | some o =>
    match s.readStreams v w o.values with
    | .error e => .error e
    | .ok w =>
      let program := s.program (v.x.task.unit - 1)
      if uniform.getD n false then .ok (w.uniform v n o program)
      else if o.isRow then .ok (w.rowOp v n o)
      else if o.isFused then
        .ok (if levels.getD n 0 = v.x.sweep then w.fusedForm v n o else w.fusedWrite v n o)
      else if o.isAxis then .ok (w.reduceAxis v n o)
      else if o.code = 0x38 then .ok (if o.axis = 0 then w.scanRow v n o else w.scanAxis v n o)
      else if o.code = 0x48 then
        match s.gatherLanes v w n (w.maskOf o.mask) with
        | .error e => .error e
        | .ok ls =>
          let w' : Work := { w with blocks := w.blocks ++ ls.filterMap fun x => x.2 }
          .ok (w'.setWave n (.vals (ls.map fun x => x.1)))
      else if o.isScatter then .ok w
      else
        let r := w.elementwise v o program (List.range v.count)
        .ok (r.2.setWave n r.1)

/-! ### Writing -/

/-- What operation n writes to its stream in a beat: loop indices of the write stream, values, positions. -/
def Beat.results (v : Beat) (w : Work) (n : Nat) (o : TideOp) (levels : List Nat) (last : Nat) : List (List Nat × F32 × Nat) :=
  if o.isRow then
    if v.x.sweep = levels.getD n 0 ∧ v.lastBeat = true then
      (tget [] w.rows n).zipIdx.filterMap fun e => match e.1 with
        | x :: _ => some ((v.indices (e.2 * v.extent)).set 0 0, x, e.2 * v.extent)
        | [] => none
    else []
  else if v.x.sweep ≠ last then []
  else
    (w.wave n).lanes.zipIdx.filterMap fun e =>
      if e.1.valid then some (if o.isAxis then (v.indices e.2).set o.axis 0 else v.indices e.2, e.1.bits, e.2) else none

/-- The addresses that elements at offsets occupy as they are written, whole blocks of 32 with their scale bytes where scaled. -/
def Desc.writeAddrs (d : Desc) (os : List Int) : List Nat :=
  (if d.scaleMode = 1 then
    let bs := (os.map fun o => o.toNat / 32).eraseDups
    (bs.flatMap fun b => (d.blockOffsets b).flatMap fun o => (d.pieces o).map (·.1)) ++ bs.map fun b => d.scaleBase + b
  else os.flatMap fun o => (d.pieces o).map (·.1)).eraseDups

/-- The native Cliff addresses that elements at offsets occupy. -/
def State.cliffBytes (s : State) (g : Agent) (d : Desc) (os : List Int) : List Nat :=
  ((d.writeAddrs os).filter fun a => !houseAddr a).filterMap fun a =>
    match s.place g a true false with
    | .ok (.at n) => some n
    | _ => none

/-- What a beat has written: the Cliff bytes that its Coves have accepted, the blocks written in part with their descriptors' numbers,
the House lines. -/
structure Written where
  cliff    : List Nat := []
  partials : List (Nat × Nat) := []
  lines    : List Nat := []
deriving DecidableEq, Repr

/-- Elements written through descriptor j. A Cliff block goes to its Cove once it is whole (R227). -/
def State.writeBeat (s : State) (v : Beat) (j : Nat) (acc : Written) (ws : List (Int × F32))
    (write : State → Except Stop State) : Except Stop (State × Written) :=
  let d := v.x.task.stream j
  let os := ws.map fun w => w.1
  match write s with
  | .error e => .error e
  | .ok t =>
    let new := s.cliffBytes v.x.task.agent d os
    let before := v.x.accepted ++ acc.cliff
    let all := before ++ new
    let blocks := blocksOf new
    let whole := blocks.filter fun b => coversBlock all b && !coversBlock before b
    .ok (t.passWrite (writeReq v.x.task.unit d) (fun _ => true) whole,
      { cliff := acc.cliff ++ new
        partials := acc.partials.filter (fun e => !whole.contains e.1) ++ (blocks.filter fun b => !coversBlock all b).map fun b => (b, j)
        lines := (acc.lines ++ houseLines (d.writeAddrs os)).eraseDups })

/-- The writes of operation n. -/
def State.writeOp (s : State) (v : Beat) (w : Work) (levels : List Nat) (last n : Nat) (acc : Written) :
    Except Stop (State × Written) :=
  match v.b.ops[n]? with
  | none => .ok (s, acc)
  | some o =>
    let g := v.x.task.agent
    if o.isScatter then
      if v.x.sweep ≠ last then .ok (s, acc)
      else
        let d := v.x.task.stream v.b.sourceAt
        match s.scatterWrites v w n o with
        | .error e => .error e
        | .ok ws =>
          if o.code = 0x49 then s.writeBeat v v.b.sourceAt acc ws fun s => s.writeElems g d ws
          else (s.bump Pd.hazardWait (hazards d ws)).writeBeat v v.b.sourceAt acc ws fun s => s.scatterAdd g d ws
    else if o.out < v.b.writes then
      let d := v.x.task.stream (v.b.reads + o.out)
      let stream := w.maskStream v n
      let one : (List Nat × F32 × Nat) → Except Stop (Option (Int × F32)) := fun e =>
        match s.descMask v d e.1 (if o.isRow || o.isAxis then v.openMask (v.b.reads + o.out) (rank d.shape e.1) else stream.getD e.2.2 false) with
        | .error x => .error x
        | .ok m => .ok (if m then some (d.offsetAt e.1, e.2.1) else none)
      match (v.results w n o levels last).mapM one with
      | .error e => .error e
      | .ok ws => s.writeBeat v (v.b.reads + o.out) acc (ws.filterMap id) fun s => s.writeElems g d (ws.filterMap id)
    else .ok (s, acc)

/-! ### One beat (R223 to R241) -/

/-- The next place of a task after a beat, `last` its last sweep; none when it has ended. -/
def EngineTask.next (x : EngineTask) (last : Nat) : Option EngineTask :=
  let v := x.at
  if !v.lastBeat then some { x with beat := x.beat + 1 }
  else if x.sweep < last then some { x with sweep := x.sweep + 1, beat := 0 }
  else
    let rows := v.total / max 1 v.extent
    let y := { x with group := x.group + 1, sweep := 0, beat := 0, rowResults := [], clamped := [] }
    if y.group * v.b.groupRows v.extent < rows then some y else none

/-- The code of a task that met no failure (R260). -/
def Task.goodCode (t : Task) : BitVec 16 :=
  if 0 < t.maskedRows then St.rowMasked else if 0 < t.clampCount then St.clamped else St.ok

/-- The blocks that a task has written in part go to their Coves as partial writes (R227). -/
def State.flushPartials (s : State) (x : EngineTask) : State :=
  ((x.partials.filter fun e => !coversBlock x.accepted e.1).eraseDups).foldl (fun s e =>
    s.passWrite (writeReq x.task.unit (x.task.stream e.2)) (fun _ => false) [e.1]) s

/-- Engine n without a task: nothing of it outlasts the task (R222). -/
def State.idleEngine (s : State) (n : Nat) : State :=
  (s.setEngine n { s.engine n with running := none, latches := [] }).clearUnit (n + 1)

/-- The task of engine n has ended well. -/
def State.tideEnd (s : State) (n : Nat) (x : EngineTask) : State :=
  ((s.flushPartials x).idleEngine n).endTask x.task x.task.goodCode 0

/-- The parts of a task's write footprints. -/
def Task.tideOutputs (t : Task) : List Interval :=
  t.block.writers.flatMap fun w => (t.stream w).dataParts ++ (t.stream w).scaleParts

/-- The task of engine n ends with a failure; its write footprints are undefined but for what its Coves have accepted
(R261). -/
def State.tideFail (s : State) (n : Nat) (x : EngineTask) (code : BitVec 16) : State :=
  let t := ((s.flushPartials x).idleEngine n).endTask x.task code 0
  t.blur x.task.agent x.task.tideOutputs x.accepted

/-- A beat that does not go on: it waits, or its task fails. -/
def State.tideStop (s : State) (n : Nat) (x : EngineTask) (e : Stop) : State :=
  let t := s.noteStop x.task.agent e
  match e with
  | .wait => t.bump Pd.houseWait
  | .snoop _ => t.bump Pd.cliffWait
  | .fail code _ _ => t.tideFail n x code

/-- What a beat's evaluation leaves in the engine and the counters. -/
def State.keepWork (s : State) (n : Nat) (v : Beat) (w : Work) (wr : Written) : State :=
  let blocks := w.blocks.eraseDups.length
  let t := v.x.task
  let task := { t with clampCount := t.clampCount + w.clampedRows, maskedRows := t.maskedRows + w.maskedRows
                       suppressed := t.suppressed + blocks }
  let x := { v.x with task := task, ops := w.ops, rowResults := w.rows, clamped := w.clamped
                      accepted := (v.x.accepted ++ wr.cliff).eraseDups, broadcasts := w.broadcasts
                      partials := (v.x.partials ++ wr.partials).eraseDups }
  let count := fun (s : State) (e : Nat × Nat) => if e.2 = 0 then s else s.bump e.1 e.2
  let s := [(Pd.convertSaturated, w.saturated), (Pd.nanConverted, w.nans), (Pd.seamClamps, w.clamps),
    (Pd.maskedRows, w.maskedRows), (Pd.clampedRows, w.clampedRows), (Pd.substitutions, w.seg.subs),
    (Pd.coefficientFetches, w.seg.fetches), (Pd.suppressedCount, blocks)].foldl count s
  { s with fresh := w.seg.fresh }.setEngine n { s.engine n with running := some x, segments := w.seg.cache, latches := w.latches }

/-- The writes of operations in turn. -/
def State.writeOps (s : State) (v : Beat) (w : Work) (levels : List Nat) (last : Nat) (acc : Written) :
    List Nat → Except Stop (State × Written)
  | [] => .ok (s, acc)
  | i :: t =>
    match s.writeOp v w levels last i acc with
    | .error e => .error e
    | .ok r => State.writeOps r.1 v w levels last r.2 t

/-- What a beat begins with: its task's states, the rows that an earlier sweep reduced, its latches; a row's first beat has no
broadcast element yet. -/
def State.beatWork (s : State) (n : Nat) (v : Beat) : Work :=
  let levels := opLevels v.b.ops []
  let w : Work := { ops := v.x.ops, rows := v.x.rowResults, clamped := v.x.clamped
                    seg := { cache := (s.engine n).segments, fresh := s.fresh }
                    latches := (s.engine n).latches, broadcasts := if v.firstBeat then [] else v.x.broadcasts }
  (List.range v.b.ops.length).foldl (fun w i =>
    if ((v.b.ops[i]?).map TideOp.isRow).getD false ∧ levels.getD i 0 < v.x.sweep then w.setWave i (v.spread false (tget [] w.rows i))
    else w) w

/-- The operations of a beat's sweep. -/
def Beat.selected (v : Beat) : List Nat := opsInSweep v.b.ops (v.x.task.maskDeps v.b) v.x.sweep

/-- Which operations are row-uniform (R234): `masked` takes column broadcasts with a mask as uniform too. Their value is one for the row;
which positions it is valid at, their masks say, so they are evaluated position by position and counted once a row. -/
def Beat.uniform (v : Beat) (masked : Bool) : List Bool :=
  uniformOps (fun j => (v.x.task.stream j).stepAt 0 == 0 && (masked || (v.x.task.stream j).maskSource == 0)) masked v.b.ops [] []

/-- The beat's operations evaluated. -/
def State.evalBeat (s : State) (n : Nat) (v : Beat) : Except Stop Work :=
  v.selected.foldlM (s.evalOp v (opLevels v.b.ops []) (v.uniform false)) (s.beatWork n v)

/-- The beat's operations evaluated and its writes made. -/
def State.runBeat (s : State) (n : Nat) (v : Beat) : Except Stop (State × Work × Written) :=
  match s.evalBeat n v with
  | .error e => .error e
  | .ok w =>
    match s.writeOps v w (opLevels v.b.ops []) (lastSweep v.b.ops) {} v.selected with
    | .error e => .error e
    | .ok r => .ok (r.1.keepWork n v w r.2, w, r.2)

/-! ### What a beat asks for (R226, R227, spec/06 R144, spec/07 R189) -/

/-- What a beat reads: addresses in House lines and, for Cliff streams, requests and the blocks they bring into staging. -/
structure Needs where
  addrs  : List Nat := []
  reqs   : List CliffReq := []
  staged : List Nat := []
deriving DecidableEq, Repr

/-- What read stream j needs for a beat whose masks are known: the elements its latch does not serve. A Cliff stream asks for the
blocks its staging rooms lack, with what its next elements need of the same windows (R144, R227). -/
def State.streamNeeds (s : State) (v : Beat) (w0 w : Work) (j : Nat) : Needs :=
  let t := v.x.task
  let d := t.stream j
  let g := t.agent
  let ahead := t.runAhead || d.prefetch
  let active := fun (i : Nat) => match s.descMask v d (v.indices i) ((w.streamMask v j).getD i false) with
    | .ok b => b
    | .error _ => false
  let lanes := (List.range v.count).filter fun i => active i && (w0.served v j i).isNone
  let masks := if d.maskSource = 1 then (List.range v.count).map fun i => d.maskBase + rank d.shape (v.indices i) / 8 else []
  let as := lanes.flatMap fun i => d.elemAddrs (d.offsetAt (v.indices i))
  let held := (s.unitPort t.unit).staged
  let lacking := (s.unitBlocks g ahead false as).filter fun b => !held.contains b
  if lacking.isEmpty then { addrs := masks ++ as }
  else
    let windows := (lacking.map (windowOf (isAlias d.base))).eraseDups
    let later := if d.maskSource ≠ 0 then [] else
      (List.range (min (v.total - v.first) (if elemBytes d.format = 0 then 81920 else 40960 / elemBytes d.format))).flatMap fun i =>
        d.elemAddrs (d.offsetAt (unrank v.shape (v.first + i)))
    let more := (s.unitBlocks g ahead false later).filter fun b =>
      !held.contains b && !lacking.contains b && windows.contains (windowOf (isAlias d.base) b)
    { addrs := masks ++ as, reqs := requestsFor t.unit t.agent.user d (lacking ++ more), staged := lacking ++ more }

/-- What a gather or a SCATTER_ADD needs: the index tensor's lines, the masks', and the blocks of each slice selected, a request for each
index, so that the Coves merge those of one line (spec/07 R189). -/
def State.indexNeeds (s : State) (v : Beat) (reads : Bool) : Needs :=
  let t := v.x.task
  let di := t.stream v.b.indexAt
  let d := t.stream v.b.sourceAt
  let js := ((List.range v.count).map fun i => (v.indices i).getD d.indexedAt 0).eraseDups
  let slice := fun (j : Nat) => match s.selectAt v j with
    | .ok (some (.at k _)) => (((List.range v.count).filter fun i => (v.indices i).getD d.indexedAt 0 == j).map fun i =>
        (v.indices i).set d.indexedAt k)
    | _ => []
  let slices := js.map slice
  let as := slices.map fun l => l.flatMap fun idx => d.elemAddrs (d.offsetAt idx)
  let masks := if d.maskSource = 1 then slices.flatMap fun l => l.map fun idx => d.maskBase + rank d.shape idx / 8 else []
  let imasks := if di.maskSource = 1 then js.map fun j => di.maskBase + j / 8 else []
  let index := js.flatMap fun j => di.elemAddrs (di.offsetAt [j])
  let ahead := t.runAhead || d.prefetch
  { addrs := index ++ imasks ++ masks
    reqs := (if di.onCliff then requestsFor t.unit t.agent.user di (s.unitBlocks t.agent (t.runAhead || di.prefetch) false index) else [])
      ++ (if reads then as.flatMap fun l => requestsFor t.unit t.agent.user d (s.unitBlocks t.agent ahead false l) else []) }

/-- What a beat asks for, its masks taken from a first look at its operations. -/
def State.beatNeeds (s : State) (n : Nat) (v : Beat) : List Needs :=
  let w0 := s.beatWork n v
  let w := match s.evalBeat n v with
    | .ok w => w
    | .error _ => w0
  let ops := v.selected.filterMap fun i => v.b.ops[i]?
  let js := ((ops.flatMap TideOp.values).filter fun x => decide (x < v.b.reads)).eraseDups
  js.map (s.streamNeeds v w0 w)
    ++ ((ops.filter TideOp.isIndexed).map fun o => s.indexNeeds v (o.code != 0x49))

/-- A task's beginning: its staging rooms must serve it, its indices are checked or acted on (R187, R188, R227). -/
inductive Begun where
  | go (s : State) (x : EngineTask) | range (position : Nat) | stop (e : Stop)
deriving DecidableEq, Repr

/-- Indices that a policy acts on, `n` positions from j. -/
def State.actedIndices (s : State) (t : Task) (b : TideBlock) : Nat → Nat → Except Stop Nat
  | _, 0 => .ok 0
  | j, n + 1 =>
    let d := t.stream b.sourceAt
    match s.readIndex t.agent (t.stream b.indexAt) t.runAhead j, State.actedIndices s t b (j + 1) n with
    | .error e, _ => .error e
    | _, .error e => .error e
    | .ok k, .ok c => .ok (if 0 ≤ k ∧ k < ((d.extents.getD d.indexedDim 1 : Nat) : Int) then c else c + 1)

/-- The first beat's preparations. -/
def State.beginTask (s : State) (x : EngineTask) : Begun :=
  let t := x.task
  let b := x.block
  let rooms := if b.stage then stagingRooms b.stageRoom b.stageCount else []
  if (t.descs.any s.inFencedIsland) then .stop (.fail St.fenced 0 false)
  else match s.stagingOk t.agent rooms with
    | .error e => .stop e
    | .ok _ =>
      if x.started then .go s x
      else
      let di := t.stream b.indexAt
      let d := t.stream b.sourceAt
      let count := di.extents.getD 0 0
      let start := fun (s : State) (t : Task) => Begun.go (rooms.foldl State.blurRoom s) { x with task := t, started := true }
      if !b.indexed then start s t
      else if di.indexPolicy = 0 then
        match s.firstBadIndex t.agent di t.runAhead (d.extents.getD d.indexedDim 1) 0 count with
        | .error e => .stop e
        | .ok (some j) => .range j
        | .ok none => start s t
      else match s.actedIndices t b 0 count with
        | .error e => .stop e
        | .ok k => start (s.bump Pd.policyActs k) { t with policyCount := k }

/-- A beat issued: evaluated, written, counted; the last one ends the task. `staged` are the Cliff blocks it has brought into its
staging rooms. -/
def State.issueBeat (s : State) (n : Nat) (x : EngineTask) (staged : List Nat) : State :=
  let v := x.at
  match s.runBeat n v with
  | .error e => s.tideStop n x e
  | .ok (t, w, wr) =>
    let counted := v.selected.filter fun i => v.firstBeat || !(v.uniform true).getD i false
    let cycles := beatCycles v.b.bf (s.program n) w.seg.fetches (counted.filterMap fun i => v.b.ops[i]?)
    let t := (t.bump Pd.busyCycles cycles).bump Pd.beats
    let t := t.setEngine n { t.engine n with cycle := (t.engine n).cycle + cycles }
    let t := t.beatDone (n + 1) staged (1024 * (if x.block.stage then x.block.stageCount else 0)) wr.lines.length
    match (t.engine n).running with
    | none => t
    | some y => match y.next (lastSweep v.b.ops) with
      | some z => t.setEngine n { t.engine n with running := some z }
      | none => t.tideEnd n y

/-- A beat whose task serves: it asks for its accesses once, and issues when every one has been answered. A cycle in which it does not
is counted under the first cause of R236 that holds; 64 line writes at the port are as many as its eight transfers hold
(log 175). -/
def State.tryBeat (s : State) (n : Nat) (x : EngineTask) : State :=
  let u := n + 1
  let needs := if (s.unitPort u).begun then [] else s.beatNeeds n x.at
  let s := if (s.unitPort u).begun then s else s.ask u (houseLines (needs.flatMap (·.addrs))) (needs.flatMap (·.reqs))
  let s := (s.pump u).noteStaged u (needs.flatMap (·.staged))
  match (s.unitPort u).failed with
  | some c => s.tideFail n x c
  | none =>
    if s.cliffPending u then s.bump Pd.cliffWait
    else if (s.unitPort u).lacksLines then s.bump Pd.houseWait
    else if 64 ≤ (s.unitPort u).writes then s.bump Pd.writeWait
    else s.issueBeat n x (s.unitPort u).arriving

/-- TIDEWAY_BEAT: engine n tries to issue its task's next beat. A throttle idle cycle issues none (R41, R236, log 21); a
beat that the Cliffs, a room or the host's copy of a line holds up leaves the task where it was. -/
def execTidewayBeat (n : Nat) (s : State) : Res :=
  match (s.engine n).running with
  | none => .next s
  | some x =>
    if s.halted (n + 2) then .next s
    else if s.throttled (s.engine n).cycle then
      .next (((s.setEngine n { s.engine n with cycle := (s.engine n).cycle + 1 }).bump Pd.engineThrottleIdle).bump Pd.throttleCycles)
    else match s.beginTask x with
      | .stop e => .next (s.tideStop n x e)
      | .range j => .next ((s.idleEngine n).endTask x.task St.indexRange j)
      | .go t y => .next ((t.setEngine n { t.engine n with running := some y }).tryBeat n y)

/-! ### Fences (R262) -/

/-- Engine n out of service, its running task completed with FENCED. -/
def State.fenceEngine (s : State) (n : Nat) (engineState : Nat) : State :=
  let s := s.setFlags Pd.enginesFenced (2 ^ n)
  let s := s.wr Pd.engineState n engineState
  let s := match (s.engine n).running with
    | some x => s.tideFail n x St.fenced
    | none => s
  s.setUnitPort (n + 1) {}

/-! ### Micro-programs (R289, R290) -/

/-- Engines that MP_ENGINES names and that are not fenced. -/
def State.namedEngines (s : State) : List Nat := (List.range 64).filter fun n => (s.reg Pd.mpEngines).testBit n && !s.engineFenced n

/-- Whether a released or running task of a named engine uses a slot: those that wait for rooms or to run again are released
(spec/11 R295). -/
def State.slotInUse (s : State) (slot : Nat) : Bool :=
  let uses := fun (t : Task) => t.block.ops.any fun o => o.slot == some slot
  s.namedEngines.any fun n =>
    ((s.engine n).running.any fun x => uses x.task) || (s.specOf (n + 1)).any (fun x => !x.started && uses x.task)
      || (tget [] s.reruns (n + 1)).any uses

/-- A slot of the named engines set, their coefficient caches emptied. -/
def State.setSlot (s : State) (slot : Nat) (m : Option MicroProgram) : State :=
  s.namedEngines.foldl (fun s n =>
    { s with programs := tset none s.programs (32 * n + slot) m }.setEngine n { s.engine n with segments := [] }) s

/-- MP_LAST_ERROR written. -/
def State.setMpError (s : State) (code : BitVec 16) (check place : Nat) : State :=
  s.setReg Pd.mpLastError (leNat (codeBytes code ++ [BitVec.ofNat 8 check, BitVec.ofNat 8 place, 0, 0, 0, 0]))

/-- A write to MP_LOAD. A load that succeeds is measured (spec/18 R462). -/
def serveMpLoad : Serve := fun _ _ r s =>
  if 31 < r.value then refuse s St.invalidValue
  else if s.slotInUse r.value then refuse s St.busy
  else
    let image := s.rdBytes Pd.mpImage 2048 0 2048
    match loadFault image with
    | some (check, place) => refuse (s.setMpError St.microprogramInvalid check place) St.microprogramInvalid
    | none =>
      let t := s.setSlot r.value (some { image := image, bounds := clampBounds image })
      { state := (t.setMpError St.ok 0 0).extend 5 (shake256 (image ++ natLE 8 (s.reg Pd.mpEngines) ++ natLE 1 r.value)) }

/-- MP_LOAD. -/
def execMpLoad (o : Origin) (slot : BitVec 8) (s : State) : Res :=
  .next (s.receiveOwn serveMpLoad (ownWrite o Pd.mpLoad 0 (natLE 1 slot.toNat)))

/-- A write to MP_UNLOAD. -/
def serveMpUnload : Serve := fun _ _ r s =>
  if 31 < r.value then refuse s St.invalidValue
  else if s.slotInUse r.value then refuse s St.busy
  else { state := s.setSlot r.value none }

/-- MP_UNLOAD. -/
def execMpUnload (o : Origin) (slot : BitVec 8) (s : State) : Res :=
  .next (s.receiveOwn serveMpUnload (ownWrite o Pd.mpUnload 0 (natLE 1 slot.toNat)))

/-! ### The Harbour's reference units (R257, R271) -/

/-- SFN_CHECK_RESULT. -/
def State.sfnResult (s : State) : Nat :=
  let f := s.reg Pd.sfnCheckFunction
  (builtin (f % 256) (f.testBit 8) (BitVec.ofNat 32 (s.reg Pd.sfnCheckInput))).toNat

/-- GEN_CHECK_RESULT. -/
def State.genResult (s : State) : List Byte :=
  let c := s.rdBytes Pd.genCheckCounter 16 0 16
  (generator (s.reg Pd.genCheckKey) (listField c 0 4) (listField c 4 4) (listField c 8 4) (listField c 12 4)).flatMap (natLE 4)

/-- A write to SFN_CHECK_FUNCTION or SFN_CHECK_INPUT. -/
def serveSfnCheck : Serve := fun _ _ r s =>
  if r.key = Pd.sfnCheckFunction ∧ !(decide (r.value % 256 ≤ 5) && sfnModsOk (r.value % 256) (r.value / 256)) then
    refuse s St.invalidValue
  else { state := s.setReg r.key r.value }

/-- SFN_CHECK: a write to SFN_CHECK_INPUT (`input`) or to SFN_CHECK_FUNCTION; the result is that of the two entries. -/
def execSfnCheck (o : Origin) (input : Bool) (value : BitVec 32) (s : State) : Res :=
  .next (s.receiveOwn serveSfnCheck
    (if input then ownWrite o Pd.sfnCheckInput 0 (natLE 4 value.toNat) else ownWrite o Pd.sfnCheckFunction 0 (natLE 2 value.toNat)))

/-- A write to GEN_CHECK_KEY or GEN_CHECK_COUNTER. -/
def serveGenCheck : Serve := fun _ _ r s =>
  if r.key = Pd.genCheckKey then { state := s.setReg Pd.genCheckKey r.value }
  else { state := s.wrBytes Pd.genCheckCounter 16 r.offset r.data }

/-- GEN_CHECK: a write to GEN_CHECK_KEY (`key`) or into GEN_CHECK_COUNTER. -/
def execGenCheck (o : Origin) (key : Bool) (offset : Nat) (bytes : List Byte) (s : State) : Res :=
  .next (s.receiveOwn serveGenCheck
    (if key then ownWrite o Pd.genCheckKey 0 bytes else ownWrite o Pd.genCheckCounter offset bytes))

end Sys2Proof.Machine
end

