-- ==== Sys2Proof/Machine/Tasks.lean ====
section
/-!
DEFINITION. Tasks, chapter 11: task lists and their heads, release, completion, handovers, signals, speculative tasks, and
what follows from a counter's change (`State.settle`).
-/
namespace Sys2Proof.Machine

/-! ### Stage failures (spec/14 R384) -/

def stageState (w : Nat) : Nat := byteField w 77 1
def stagePhase (w : Nat) : Nat := byteField w 78 2

/-- The stage sequencer of partition p fails, if it runs, is held or is stopping. -/
def State.failStage (s : State) (p : Nat) (code : BitVec 16) : State :=
  let w := s.rd Pd.stageTable p
  if [1, 2, 4].contains (stageState w) then
    let r := natLE 2 p ++ codeBytes code ++ natLE 4 (stagePhase w) ++ natLE 8 s.time
    ((s.wr Pd.stageTable p (setByteField w 77 1 3)).setReg Pd.stageFailure (leNat r)).record 0x01 code 8 p r
  else s

/-- The counters of a stage sequencer: DONE and its 2M + 2 gates (spec/14 R379). -/
def stageCounters (w : Nat) : List Nat :=
  (byteField w 8 4 % 2 ^ 17) :: (List.range (2 * byteField w 2 2 + 2)).map fun k => byteField w 4 4 % 2 ^ 17 + k

/-- Every stage sequencer that has a BROKEN counter fails (R384). -/
def State.failBrokenStages (s : State) : State :=
  (List.range 16).foldl (fun s p =>
    if (stageCounters (s.rd Pd.stageTable p)).any fun c => ctrState (s.ctr c) == 3 then s.failStage p St.broken else s) s

/-- A partition's counters break, and with them the stages that use them (R314, R315). -/
def State.breakCounters (s : State) (p : Nat) : State := (s.breakPartition p).failBrokenStages

/-! ### Signals (R309, R311, R312) -/

def sigOp (r : List Byte) (i : Nat) : Nat := recField r (128 + 16 * i) 1
def sigApply (r : List Byte) (i : Nat) : Nat := recField r (129 + 16 * i) 1 % 4
def sigModule (r : List Byte) (i : Nat) : Nat := recField r (130 + 16 * i) 1
def sigTag (r : List Byte) (i : Nat) : Nat := recField r (131 + 16 * i) 1 % 4
def sigCounter (r : List Byte) (i : Nat) : Nat := recField r (132 + 16 * i) 4 % 2 ^ 17
def sigOperand (r : List Byte) (i : Nat) : Nat := recField r (136 + 16 * i) 8

/-- Whether signal entry i uses only permitted values (R297). -/
def sigOk (r : List Byte) (i : Nat) : Bool :=
  decide (1 ≤ sigOp r i) && decide (sigOp r i ≤ 5) && (decide (sigModule r i < 64) || sigModule r i == 0xFF)

/-- Signal entry i of a task sent: to a counter here, to another module, or, an INIT naming another module, refused here
(R306). -/
def State.sendSignalEntry (s : State) (t : Task) (i : Nat) : State :=
  let r := t.record
  let tag := (sigTag r i + t.pass) % 4
  let src := CtrSource.task t.unit t.part
  let c := sigCounter r i
  if sigModule r i = 0xFF ∨ sigModule r i = s.position then s.ctrOp src (sigOp r i) tag c (sigOperand r i)
  else if sigOp r i = 5 then s.refuseOp src c .init tag St.misuse
  else s.sendSignal (sigModule r i) (sigOp r i) tag c (sigOperand r i % 2 ^ 32)

/-- A task's signals with an APPLY of a list, in entry order; of a record refused for a signal entry, that entry is not
sent. -/
def State.sendSignals (s : State) (t : Task) (apply : List Nat) : State :=
  ((List.range (min 8 (recSignals t.record))).filter fun i => apply.contains (sigApply t.record i) && sigOk t.record i).foldl
    (fun s i => s.sendSignalEntry t i) s

/-! ### Lists -/

/-- The list's STATE set. -/
def State.setListState (s : State) (u p st : Nat) : State := s.setListRec u p (setByteField (s.listRec u p) 21 1 st)

/-- CURSOR at the next record; PASS advances when it wraps (R293). -/
def State.advanceList (s : State) (u p : Nat) : State :=
  let w := s.listRec u p
  s.setListRec u p (if listCursor w + 1 < listLength w then setByteField w 18 2 (listCursor w + 1)
    else setByteField (setByteField w 18 2 0) 20 1 ((listPass w + 1) % 256))

/-- Whether a task of list p of unit u is released and not yet completed; a task that is being committed has completed (R309,
R322). -/
def State.listRunning (s : State) (u p : Nat) : Bool :=
  { s with endings := s.endings.filter fun e => !e.commit }.inFlight.any fun t => t.unit == u && t.part == p

/-- A list that is STOPPING and has no running task stops (R294). -/
def State.stopIfDone (s : State) (u p : Nat) : State :=
  if listState (s.listRec u p) = 2 ∧ s.listRunning u p = false then s.setListState u p 0 else s

/-! ### Completion records (R309, R310) -/

/-- The FLAGS of a completion record. -/
def Task.flags (t : Task) (committed discarded : Bool) : Nat :=
  bit01 t.speculative + 2 * bit01 committed + 4 * bit01 discarded + 8 * bit01 t.rerun

/-- The completion record of Table 11-9. -/
def Task.completion (t : Task) : List Byte :=
  natLE 4 (recTaskId t.record) ++ codeBytes t.code ++ natLE 1 (t.flags false false) ++ natLE 1 t.pass ++ natLE 4 t.policyCount
    ++ natLE 4 t.clampCount ++ natLE 4 t.maskedRows ++ natLE 4 t.detail ++ natLE 4 t.suppressed ++ natLE 4 0

/-- Where it lies. -/
def State.completionAddr (s : State) (t : Task) : Nat := listCompletion (s.listRec t.unit t.part) + 32 * t.position

/-- The completion record written; none where the write waits. A record that cannot be written leaves its bytes undefined
and the task failed with that access's code. The sequencer's accesses are its unit's (log 32). -/
def State.writeCompletion (s : State) (t : Task) : State × Option Task :=
  let a := s.completionAddr t
  match s.unitWrites t.agent a t.completion with
  | .ok u => (u.passBytes t.agent true a 32, some t)
  | .error x =>
    let u := s.noteStop t.agent x
    match x with
    | .fail c _ _ => (u.blur t.agent [((a : Int), (a : Int) + 31)] [], some { t with code := c, detail := 0 })
    | _ => (u, none)

/-- CODE and FLAGS of a completion record written again at a resolution, where it still can be (R322, R323). -/
def State.rewriteCompletion (s : State) (t : Task) (flags : Nat) : State :=
  match s.unitWrites t.agent (s.completionAddr t + 4) (codeBytes t.code ++ natLE 1 flags) with
  | .ok u => u.passBytes t.agent true (s.completionAddr t + 4) 3
  | .error _ => s

/-- The list of a failed task fails (R313); its head, if it has read one, stays with what it has latched and taken (R299, log 33). -/
def State.failList (s : State) (t : Task) : State :=
  let s := s.setListState t.unit t.part 3
  ((s.bump Pd.tasksFailed).record 0x01 t.code 8 t.part t.completion).failStage t.part t.code

/-- A failed task's signals are sent and its list fails. -/
def State.failTask (s : State) (t : Task) : State := (s.sendSignals t [1, 2]).failList t

/-! ### Heads (R295, R297) -/

/-- Whether a handover entry uses only permitted values (R116, R297, Table 11-7). -/
def handoverOk (h : Nat) (speculative : Bool) : Bool :=
  let w := handoverWord h
  let r := handoverRoom h
  decide (r < 1536) && (wordOwner w).isSome && (speculative || !handoverShadow h)
    && (!w.testBit 15 || ((wordReader w).isSome && decide (1504 ≤ r) && wordReader w != wordOwner w))

/-- Check 1 of R297, with the rules of R318 that the record alone shows. -/
def recordOk (r : List Byte) (u p : Nat) : Bool :=
  let kindUnit := if u = 0 then (1, 0) else if u = 65 then (3, 0) else (2, u - 1)
  (recKind r, recUnit r) == kindUnit && recPartition r == p
    && decide (recGuards r ≤ 4) && decide (recSignals r ≤ 8) && decide (recHandovers r ≤ 16) && decide (recDescs r ≤ 16)
    && (List.range (min 4 (recGuards r))).all (fun i => decide (1 ≤ guardKind r i) && decide (guardKind r i ≤ 4))
    && (List.range (min 8 (recSignals r))).all (sigOk r)
    && (handoverEntries r).all (fun h => handoverOk h (recSpeculative r))
    && (!recSpeculative r || (decide (recKind r ≤ 2) && decide (2 ≤ recGuards r) && guardKind r 0 != 3 && guardKind r 1 != 3))

/-- A guard whose counter ends the task: fenced, or BROKEN (R316, R317). -/
def State.guardLost (s : State) (r : List Byte) (i : Nat) : Option (BitVec 16) :=
  if s.ctrFenced (guardCounter r i) then some St.fenced
  else if ctrState (s.ctr (guardCounter r i)) = 3 then some St.broken
  else none

/-- Check 2 of R297: the first guard whose counter does not suit it, with the code. -/
def State.guardFault (s : State) (r : List Byte) : Option (BitVec 16 × Nat) :=
  (List.range (min 4 (recGuards r))).findSome? fun i =>
    match s.guardLost r i with
    | some c => some (c, guardCounter r i)
    | none => if guardSuits (guardKind r i) (s.ctr (guardCounter r i)) then none else some (St.misuse, guardCounter r i)

/-- The task that a list's head stands for. -/
def State.headTask (s : State) (u p : Nat) (r : List Byte) : Task :=
  let w := s.listRec u p
  { unit := u, part := p, position := listCursor w, pass := listPass w, record := r, descs := [], speculative := recSpeculative r }

/-- A head completes without release; nothing changes while its completion record has to wait. -/
def State.completeHead (s : State) (u p : Nat) (t : Task) : State :=
  let o := s.writeCompletion t
  match o.2 with
  | none => o.1
  | some t => ((o.1.setHead (listKey u p) none).advanceList u p).failTask t

/-- Whether a unit takes no further task until the next Landfall. -/
def State.seqFenced (s : State) (u : Nat) : Bool := s.unitFenced (unitOwner u)

/-- What of a speculative task's write footprints leaves its shadow rooms, as its descriptors stand in memory (R318): a
descriptor's number, or 0x100 for the operation block. Descriptors that cannot be read or are not valid are found at release
(R297; log 176). -/
def State.specFault (s : State) (t : Task) : Option Nat :=
  if !t.runAhead then none
  else if t.unit = 0 then
    match s.fetchDescs t.agent true false false 0 ((recDescAddrs t.record).zip t.headOp.roles) with
    | .ok ds => ({ t with descs := ds }).headShadow
    | .error _ => none
  else if t.block.ops.any TideOp.isScatter || !inShadow t.record t.block.staging then some detailRecord
  else
    match s.fetchDescs t.agent true true (t.block.ops.any TideOp.isMask) 0 ((recDescAddrs t.record).zip t.block.roles) with
    | .ok ds => ({ t with descs := ds }).tideShadow t.block
    | .error _ => none

/-- The record at CURSOR as read becomes the head, or completes at once. -/
def State.newHead (s : State) (u p : Nat) (r : List Byte) : State :=
  let t := s.headTask u p r
  if !recordOk r u p then s.completeHead u p { t with code := St.descriptorInvalid, detail := detailRecord }
  else match s.specFault t with
  | some i => s.completeHead u p { t with code := St.descriptorInvalid, detail := i }
  | none => match s.guardFault r with
    | some f =>
      let s := if f.1 = St.misuse then s.bump Pd.misuseCount else s
      s.completeHead u p { t with code := f.1, detail := f.2 }
    | none =>
      let n := recGuards r
      s.setHead (listKey u p) (some
        { record := r
          latched := (List.range n).map fun i => guardKind r i != 3 && s.guardNow r t.pass i
          taken := List.replicate n false })

/-- The head of list p of unit u read (R295). -/
def State.loadHead (s : State) (u p : Nat) : State :=
  let w := s.listRec u p
  let g := agentOf u p
  let a := listBase w + 1024 * listCursor w
  match s.unitBytes g false a 1024 with
  | .ok r => (s.passBytes g false a 1024).newHead u p (r.getD [])
  | .error x =>
    let s := s.noteStop g x
    match x with
    | .fail c _ _ => s.completeHead u p { s.headTask u p [] with code := c }
    | _ => s

/-! ### Handovers (R116 to R119, R309) -/

/-- The check of R119: waits, passes, or gives the code and the room in place of the task's own. -/
def State.handoverPrecheck (s : State) (t : Task) : List Nat → Except Unit (Option (BitVec 16 × Nat))
  | [] => .ok none
  | h :: hs =>
    match s.handoverCheck (handoverRoom h) (handoverWord h) with
    | some c =>
      if c = St.busy then .error ()
      else if c = St.conflict ∧ t.speculative ∧ !t.rerun ∧ handoverShadow h then s.handoverPrecheck t hs
      else .ok (some (c, handoverRoom h))
    | none => s.handoverPrecheck t hs

/-- Handovers carried out in order as far as they go: the state, what is left, and the room now draining. A room fenced
meanwhile is passed over; one PENDING or WIPING is waited for. -/
def State.handOn (commit : Bool) : List Nat → State → State × List Nat × Option Nat
  | [], s => (s, [], none)
  | h :: hs, s =>
    let r := handoverRoom h
    let own := commit && handoverShadow h
    match s.handoverCheck r (handoverWord h) with
    | some c =>
      if c = St.busy then (s, h :: hs, none)
      else if c = St.conflict ∧ own then
        let t := s.beginHandover r (handoverWord h) .commit
        if t.roomPending r then (t, hs, some r) else State.handOn commit hs t
      else State.handOn commit hs s
    | none =>
      if s.sameOwnership r (handoverWord h) then State.handOn commit hs s
      else
        let t := s.beginHandover r (handoverWord h) .task
        if t.roomPending r then (t, hs, some r) else State.handOn commit hs t

/-- What follows a task's completion: its list may stop; an Estuary task counts for its partition's stage (spec/14 R382). -/
def State.afterTask (s : State) (t : Task) : State :=
  let s := s.stopIfDone t.unit t.part
  if t.unit = 65 then
    let x := s.stage t.part
    s.setStage t.part { x with estuaryDone := x.estuaryDone + 1, overflow := x.overflow || t.code == St.overflow }
  else s

/-- The handovers of a task are done: its signals are sent; a commit is marked and counted (R322). -/
def State.handedOver (s : State) (e : Ending) : State :=
  let s := s.sendSignals e.task [0, 2]
  if e.commit then
    ((s.rewriteCompletion e.task (e.task.flags true false)).bump Pd.specCommitted).stopIfDone e.task.unit e.task.part
  else s.afterTask e.task

/-- An ending taken as far as it goes. -/
def State.runEnding (s : State) (e : Ending) : State :=
  if (match e.current with
      | some r => s.roomPending r
      | none => false) then { s with endings := s.endings ++ [e] }
  else
    let o := State.handOn e.commit e.left s
    if o.2.1.isEmpty && o.2.2.isNone then o.1.handedOver e
    else { o.1 with endings := o.1.endings ++ [{ e with current := o.2.2, left := o.2.1 }] }

/-- Every ending taken as far as it goes. -/
def State.runEndings (s : State) : State := s.endings.foldl (fun s e => s.runEnding e) { s with endings := [] }

/-! ### Units (R295) -/

/-- Whether a speculative task of unit u has not started yet. -/
def State.specWaiting (s : State) (u : Nat) : Bool := (s.specOf u).any fun x => !x.started

/-- Whether unit u can accept a task. -/
def State.unitAccepts (s : State) (u : Nat) : Bool :=
  !s.seqFenced u && !s.underTest u && (if u = 0 then s.headCanAccept else if u = 65 then s.estCanAccept else s.tideCanAccept (u - 1))

/-- A task released to its unit, and whether it was. -/
def State.unitRelease (s : State) (t : Task) : State × Bool :=
  if t.unit = 0 then s.headRelease t else if t.unit = 65 then s.estRelease t else s.tideRelease t

/-! ### Speculative tasks (R318 to R323) -/

/-- The shadow rooms a record names, each once. -/
def shadowRooms (r : List Byte) : List Nat :=
  ((handoverEntries r).filterMap fun h => if handoverShadow h then some (handoverRoom h) else none).eraseDups

/-- The ownership word that hands a room to a task's unit. -/
def unitWord (t : Task) (shadow : Bool) : Nat := makeWord t.part (unitOwner t.unit) none 0 + bit01 shadow * 2 ^ 61

/-- Rooms handed to a task's unit, but for fenced ones. -/
def State.takeRooms (s : State) (t : Task) (shadow : Bool) (rooms : List Nat) : State :=
  (rooms.filter fun r => !s.roomFenced r).foldl (fun s r => s.beginHandover r (unitWord t shadow) .task) s

/-- Whether a room may be handed over: neither PENDING nor WIPING nor another task's shadow room. -/
def State.roomFree (s : State) (r : Nat) : Bool :=
  s.roomFenced r || !(s.roomPending r || s.roomWiping r || s.roomShadow r)

/-- A discarded task's room: wiped, back with the owner it had at release, GENERATION advanced (R323). -/
def State.returnRoom (s : State) (e : Nat × Nat) : State :=
  if s.roomFenced e.1 then s
  else
    let gen := (bits (s.ownerWord e.1) 32 8 + 1) % 256
    (s.setOwnerWord e.1 (wordFields e.2 + gen * 2 ^ 32 + 2 ^ 60)).setRoom e.1
      { s.room e.1 with newWord := none, marker := false, readerMarker := false, refusalSeen := false }

/-- A task discarded (R323). -/
def State.discardSpec (s : State) (x : SpecTask) : State :=
  let s := x.rooms.foldl (fun s e => s.returnRoom e) s
  let t := { x.task with code := St.discarded }
  ((s.rewriteCompletion t (t.flags false true)).sendSignals t [3]).bump Pd.specDiscarded

/-- A task to run again at once, ahead of its list's head (R322). -/
def State.rerunSpec (s : State) (x : SpecTask) : State :=
  let t := { x.task with rerun := true, code := St.ok, detail := 0, policyCount := 0, clampCount := 0, maskedRows := 0
                         suppressed := 0, descs := [] }
  { s.bump Pd.specRerun with reruns := tset [] s.reruns t.unit (tget [] s.reruns t.unit ++ [t]) }

/-- A resolution takes effect (R322, R323). -/
def State.resolveSpec (s : State) (x : SpecTask) : State :=
  if x.commit && !x.discard && !isFailure x.task.code && x.task.suppressed == 0 then
    let hs := handoverEntries x.task.record
    { s with endings := s.endings ++ [{ task := x.task, current := none, commit := true
                                        left := hs.filter handoverShadow ++ hs.filter fun h => !handoverShadow h }] }
  else
    let s := s.discardSpec x
    if x.commit && !x.discard then s.rerunSpec x else s

/-- Whether a resolution can take effect: the task has ended and a guard has latched. -/
def SpecTask.ready (x : SpecTask) : Bool := x.done && (x.commit || x.discard)

/-- The resolutions of unit u that are ready. -/
def State.resolveUnit (s : State) (u : Nat) : State :=
  let l := s.specOf u
  (l.filter SpecTask.ready).foldl (fun s x => s.resolveSpec x) (s.setSpec u (l.filter fun x => !x.ready))

/-- A speculative task of unit u starts once it holds its shadow rooms. -/
def State.startSpec (s : State) (u : Nat) : State :=
  match (s.specOf u).find? fun x => !x.started with
  | none => s
  | some x =>
    if s.unitAccepts u && (shadowRooms x.task.record).all (fun r => s.roomFenced r || !s.roomPending r) then
      let o := s.unitRelease x.task
      if o.2 then o.1.setSpec u ((o.1.specOf u).map fun y => if y = x then { y with started := true } else y) else o.1
    else s

/-- What G0 and G1 say from release on: latching counts from then (R321; log 34). -/
def State.watchSpec (s : State) (x : SpecTask) : SpecTask :=
  let r := x.task.record
  if s.guardNow r x.task.pass 1 || (s.guardLost r 0).isSome then { x with discard := true }
  else if s.guardNow r x.task.pass 0 then { x with commit := true }
  else x

/-! ### What follows from a change (R299, R316, R317, R321) -/

/-- Why a head ends its task without release: its unit is fenced, or a guard that still waits names a lost counter. -/
def State.headDoom (s : State) (u : Nat) (h : Head) : Option (BitVec 16 × Nat) :=
  if s.seqFenced u then some (St.fenced, 0)
  else (List.range (recGuards h.record)).findSome? fun i =>
    if h.latched.getD i false || h.taken.getD i false then none
    else (s.guardLost h.record i).map fun c => (c, guardCounter h.record i)

/-- Heads that can no longer be released complete. -/
def State.doomHeads (s : State) : State :=
  s.heads.foldl (fun s e =>
    match e.2 with
    | none => s
    | some h =>
      let u := e.1 / 16
      let p := e.1 % 16
      if listState (s.listRec u p) != 1 then s
      else match s.headDoom u h with
        | none => s
        | some f => s.completeHead u p { s.headTask u p h.record with code := f.1, detail := f.2 }) s

/-- Unresolved tasks whose commit guard is lost: discarded (R316, R317). -/
def State.dropLost (s : State) : State :=
  { s with spec := tmap [] (fun _ l => l.map fun x =>
      if !x.commit && !x.discard && (s.guardLost x.task.record 0).isSome then { x with discard := true } else x) s.spec }

/-- Handovers whose outgoing owner or reader has been fenced meanwhile: it counts as drained at once (spec/05 R117). -/
def State.drainFenced (s : State) : State :=
  (s.rooms.filter fun e => e.2.newWord.isSome).foldl (fun s e =>
    let s := if (s.room e.1).marker && s.unitFenced (s.roomOwnerOf e.1) then s.markerReturn e.1 false else s
    if (s.room e.1).readerMarker && (s.roomReaderOf e.1).any s.unitFenced then s.markerReturn e.1 true else s) s

/-- One round of what follows. -/
def State.settleOnce (s : State) : State :=
  let units := s.spec.map (·.1)
  let s := s.drainFenced.dropLost.runEndings
  let s := units.foldl (fun s u => s.resolveUnit u) s
  (units.foldl (fun s u => s.startSpec u) s).doomHeads

/-- `n` rounds. -/
def State.settleN : Nat → State → State
  | 0, s => s
  | n + 1, s => State.settleN n s.settleOnce

/-- What follows from a change of a counter, a room or a unit, until nothing more does. -/
def State.settle (s : State) : State :=
  State.settleN (2 * (s.endings.length + (s.spec.flatMap (·.2)).length + s.heads.length) + 1) s

/-! ### Task lists (R293, R294) -/

/-- Bytes written from an offset into a field of records of `size` bytes, as record i takes them. -/
def overlay (size i old off : Nat) (bytes : List Byte) : Nat :=
  leNat ((List.range size).map fun j =>
    let pos := size * i + j
    if off ≤ pos ∧ pos < off + bytes.length then bytes.getD (pos - off) 0 else BitVec.ofNat 8 (byteField old j 1))

/-- The records that a write covers. -/
def covered (size off n : Nat) : List Nat := (List.range ((off + n - 1) / size + 1 - off / size)).map (off / size + ·)

/-- A list record with its reserved bits and SPEC_OPEN zero. -/
def listClean (w : Nat) : Nat := bits w 0 44 + bits w 64 44 * 2 ^ 64 + byteField w 16 6 * 2 ^ 128

/-- What START checks. -/
def listStartable (w : Nat) : Bool :=
  let b := listBase w
  let c := listCompletion w
  decide (1 ≤ listLength w) && decide (listCursor w < listLength w) && b % 1024 == 0 && c % 32 == 0
    && inOneArea ((b : Int), (b : Int) + 1024 * (listLength w : Int) - 1)
    && inOneArea ((c : Int), (c : Int) + 32 * (listLength w : Int) - 1)

/-- Whether two list records differ in more than STATE. -/
def listChanged (old new : Nat) : Bool := setByteField old 21 1 0 != setByteField new 21 1 0

/-- Why a record may not become another (R294). -/
def listRefusal (old new : Nat) : Option (BitVec 16) :=
  let so := listState old
  let sn := listState new
  if so ≠ sn ∧ !((sn == 1 && (so == 0 || so == 3)) || (sn == 0 && (so == 1 || so == 2))) then some St.invalidValue
  else if sn = 1 ∧ so ≠ 1 ∧ !listStartable new then some St.invalidValue
  else if so ≠ 0 ∧ listChanged old new then some St.busy
  else none

/-- List record i replaced: stored, started or stopped. A write to bytes other than STATE and SPEC_OPEN while the list is stopped
discards what the head has taken, whatever it writes (R294). -/
def State.putList (s : State) (i new : Nat) (written : Bool) : State :=
  let u := i / 16
  let p := i % 16
  let old := s.listRec u p
  let so := listState old
  let s := if so = 0 ∧ written then (s.setHead i none).setListRec u p (setByteField new 21 1 so) else s
  if listState new = 1 ∧ so ≠ 1 then
    let s := s.setListState u p 1
    if byteField (s.rd Pd.partitionState p) 0 1 = 2 then s.wr Pd.partitionState p 0 else s
  else if listState new = 0 ∧ so = 1 then (s.setListState u p 2).stopIfDone u p
  else s

/-- Whether a write of `n` bytes from an offset covers bytes of list record i before STATE. -/
def writesRecord (i off n : Nat) : Bool := decide (off < 32 * i + 21) && decide (32 * i < off + n)

/-- A dictionary write of list records: all or none. -/
def serveTaskLists : Serve := fun _ _ q s =>
  let plan := (covered 32 q.offset q.data.length).map fun i =>
    (i, s.rd Pd.taskLists i, listClean (overlay 32 i (s.rd Pd.taskLists i) q.offset q.data))
  let faults := plan.filterMap fun e => listRefusal e.2.1 e.2.2
  if faults.contains St.invalidValue then refuse s St.invalidValue
  else match faults with
    | c :: _ => refuse s c
    | [] => { state := plan.foldl (fun s e => s.putList e.1 e.2.2 (writesRecord e.1 q.offset q.data.length)) s }

/-- TASK_LIST_WRITE. -/
def execTaskListWrite (o : Origin) (offset : Nat) (bytes : List Byte) (s : State) : Res :=
  .next (s.receiveOwn serveTaskLists (ownWrite o Pd.taskLists offset bytes))

/-- TASK_LIST_START: 1 written to STATE. -/
def execTaskListStart (o : Origin) (unit part : Nat) (s : State) : Res :=
  .next (s.receiveOwn serveTaskLists (ownWrite o Pd.taskLists (32 * listKey unit part + 21) [1]))

/-- TASK_LIST_STOP: 0 written to STATE. -/
def execTaskListStop (o : Origin) (unit part : Nat) (s : State) : Res :=
  .next (s.receiveOwn serveTaskLists (ownWrite o Pd.taskLists (32 * listKey unit part + 21) [0]))

/-- A list record as a READ sees it: SPEC_OPEN counts the list's unresolved tasks. -/
def State.listView (s : State) (i : Nat) : Nat :=
  setByteField (s.rd Pd.taskLists i) 22 1 ((s.specOf (i / 16)).filter fun x => x.task.part == i % 16).length

/-- HEAD_LOAD: a running list without a head reads the record at CURSOR. -/
def execHeadLoad (unit part : Nat) (s : State) : Res :=
  if s.working && decide (unit < 66) && decide (part < 16) && listState (s.listRec unit part) == 1 then
    match s.headOf (listKey unit part) with
    | none => .next (s.loadHead unit part).settle
    | some _ => .next s
  else .next s

/-! ### Release (R295, R299, R320) -/

/-- Whether every guard of a head but CONSUME guards, and the resolution guards of a speculative task, has latched. -/
def Head.open (h : Head) : Bool :=
  (List.range (recGuards h.record)).all fun i =>
    guardKind h.record i == 3 || h.latched.getD i false || (recSpeculative h.record && decide (i < 2))

/-- The CONSUME guards of a head taken in ascending order as far as they go (R299). -/
def State.takeGuards (s : State) (h : Head) : List Nat → State × Head
  | [] => (s, h)
  | i :: is =>
    if guardKind h.record i ≠ 3 ∨ h.taken.getD i false then s.takeGuards h is
    else match s.consume (guardCounter h.record i) with
      | none => (s.askBack (counterLine (guardCounter h.record i)), h)
      | some t => t.takeGuards { h with taken := h.taken.set i true } is

/-- Whether a head has every guard. -/
def Head.free (h : Head) : Bool :=
  h.open && (List.range (recGuards h.record)).all fun i => guardKind h.record i != 3 || h.taken.getD i false

/-- A head has been taken: it leaves its list (R295). -/
def State.headTaken (s : State) (u p : Nat) : State :=
  { ((s.setHead (listKey u p) none).advanceList u p).bump Pd.tasksReleased with lastPart := tset 15 s.lastPart u p }

/-- Whether a speculative head can be released: a resolution slot is free (R320), and so are its shadow rooms. -/
def State.specFree (s : State) (u : Nat) (h : Head) : Bool :=
  !recSpeculative h.record || (decide ((s.specOf u).length < 4) && (shadowRooms h.record).all s.roomFree)

/-- A head with every guard is released; a speculative one first takes its shadow rooms. Nothing is released where the unit's
descriptors have to be waited for. -/
def State.releaseHead (s : State) (u p : Nat) (h : Head) : State :=
  let t := s.headTask u p h.record
  if !t.speculative then
    let o := s.unitRelease t
    if o.2 then o.1.headTaken u p else o.1
  else
    let rooms := (shadowRooms h.record).filter fun r => !s.roomFenced r
    let x := s.watchSpec { task := t, rooms := rooms.map fun r => (r, s.ownerWord r) }
    let s := (s.headTaken u p).takeRooms t true rooms
    (s.setSpec u (s.specOf u ++ [x])).startSpec u

/-- The partitions in the order in which unit u looks at its lists (R295). -/
def State.partOrder (s : State) (u : Nat) : List Nat := (List.range 16).map fun k => (tget 15 s.lastPart u + 1 + k) % 16

/-- The first list with a satisfied head that can be released releases it. -/
def State.releaseFrom (u : Nat) : List Nat → State → State
  | [], s => s
  | p :: ps, s =>
    match s.headOf (listKey u p) with
    | none => State.releaseFrom u ps s
    | some h =>
      if listState (s.listRec u p) != 1 || s.rebuild == some p || !h.open || !s.specFree u h then State.releaseFrom u ps s
      else
        let o := s.takeGuards h (List.range (recGuards h.record))
        let t := o.1.setHead (listKey u p) (some o.2)
        if o.2.free then t.releaseHead u p o.2 else State.releaseFrom u ps t

/-- A discarded task runs again: its unit is given the rooms it had as shadow rooms, then it is released (R322; log 28). -/
def State.releaseRerun (s : State) (u : Nat) (t : Task) : State :=
  let rooms := (shadowRooms t.record).filter fun r => !s.roomFenced r
  let due := rooms.filter fun r => decide (s.roomOwnerOf r ≠ unitOwner u)
  if rooms.any (fun r => s.roomPending r) || due.any (fun r => !s.roomFree r) then s
  else
    let s := s.takeRooms t false due
    if due.any fun r => s.roomPending r then s
    else
      let o := s.unitRelease t
      if o.2 then { o.1 with reruns := tset [] o.1.reruns u ((tget [] o.1.reruns u).erase t) } else o.1

/-- Unit u takes its next task, if it can: a discarded task to run again, or a head. A partition whose Chart is being rebuilt
releases neither (R165, R295), and a head is released only while POWER_STATE is RUNNING: a task that runs again was released
before (spec/01 R28, log 177). -/
def State.releaseNext (s : State) (u : Nat) : State :=
  if s.specWaiting u || !s.unitAccepts u then s
  else match (tget [] s.reruns u).find? fun t => s.rebuild != some t.part with
    | some t => s.releaseRerun u t
    | none => if s.reg Pd.powerState = 0 then State.releaseFrom u (s.partOrder u) s else s

/-- TASK_RELEASE: sequencer u takes a head whose guards are satisfied (R295). -/
def execTaskRelease (unit : Nat) (s : State) : Res :=
  if s.working && decide (unit < 66) then .next (s.settle.releaseNext unit).settle else .next s

/-! ### Completion (R309, R313) -/

/-- The unit's own count of completed tasks (PD 0x4020.07, 0x4420.07); the Headland's leaves reruns out. -/
def State.countTask (s : State) (t : Task) : State :=
  if t.unit = 0 then (if t.rerun then s else s.bump Pd.tasks) else if t.unit = 65 then s else s.bump Pd.engineTasks

/-- Whether a speculative task's entry is that of a task that has ended. -/
def SpecTask.isTask (x : SpecTask) (t : Task) : Bool :=
  x.started && !x.done && x.task.part == t.part && x.task.position == t.position && x.task.pass == t.pass

/-- A task whose record is written goes on: failed; waiting for its resolution; or handing over. -/
def State.recorded (s : State) (t : Task) : State :=
  let s := s.countTask t
  if t.speculative && !t.rerun then
    let s := s.setSpec t.unit ((s.specOf t.unit).map fun x => if x.isTask t then { x with task := t, done := true } else x)
    let s := if isFailure t.code then s.failList t else s
    s.stopIfDone t.unit t.part
  else if isFailure t.code then (s.failTask t).afterTask t
  else { s with endings := s.endings ++ [{ task := t, current := none, left := handoverEntries t.record, commit := false }] }

/-- A task that has ended in its unit completes. -/
def State.completeTask (s : State) (t : Task) : State :=
  let check : Except Unit (Option (BitVec 16 × Nat)) :=
    if isFailure t.code then .ok none else s.handoverPrecheck t (handoverEntries t.record)
  match check with
  | .error _ => s
  | .ok f =>
    let t' := match f with
      | some f => { t with code := f.1, detail := f.2 }
      | none => t
    let o := s.writeCompletion t'
    match o.2 with
    | none => o.1
    | some t' => { o.1 with finished := o.1.finished.erase t }.recorded t'

/-- TASK_COMPLETE: the next task of unit u that has ended completes, once the one before it has handed over. -/
def execTaskComplete (unit : Nat) (s : State) : Res :=
  if s.working then
    let s := s.settle
    match s.finished.find? fun t => t.unit == unit with
    | none => .next s
    | some t => if s.endings.any fun e => e.task.unit == unit then .next s else .next (s.completeTask t).settle
  else .next s

/-! ### Rooms that tasks wait for -/

/-- HANDOVER_MARKER_RETURN: a unit whose requests still wait at the room keeps its marker (spec/05 R117). -/
def execHandoverMarkerReturn (room : Nat) (reader : Bool) (s : State) : Res :=
  if s.roomPending room && s.markerReady room reader then .next (s.markerReturn room reader).settle else .next s

/-- A partition whose rooms are all wiped is reset: PARTITION_STATE is NORMAL and the write is answered (R315). -/
def State.endPartitionReset (s : State) (p : Nat) : State :=
  if s.rd Pd.partitionState p = 3 ∧ (List.range 1536).all (fun r => !(s.roomWiping r && wordPartition (s.ownerWord r) == p)) then
    (s.gdp.inflight.filter fun x => decide (x.wait = .partReset p)).foldl (fun s x => s.answer x St.ok) (s.wr Pd.partitionState p 0)
  else s

/-- ROOM_WIPE_DONE (spec/05 R132). -/
def execRoomWipeDone (room : Nat) (s : State) : Res :=
  if s.roomWiping room then .next ((s.wiped room).endPartitionReset (wordPartition (s.ownerWord room))).settle else .next s

/-! ### Counter operations as commands (Table 11-5) -/

/-- Whether an operation reaches a counter: the module works and the counter exists. -/
def State.reachesBank (s : State) (c : Nat) : Bool := s.working && decide (c < 131072)

/-- COUNTER_ADD. The dictionary has no such operation. -/
def execCounterAdd (src : CtrSource) (counter : Nat) (operand : BitVec 32) (s : State) : Res :=
  if s.reachesBank counter && src != .dictionary then .next (s.ctrOp src 1 0 counter operand.toNat).settle else .next s

/-- COUNTER_SUBTRACT. -/
def execCounterSubtract (src : CtrSource) (counter : Nat) (operand : BitVec 32) (s : State) : Res :=
  if s.reachesBank counter && src != .dictionary then .next (s.ctrOp src 2 0 counter operand.toNat).settle else .next s

/-- COUNTER_SET. -/
def execCounterSet (src : CtrSource) (counter : Nat) (operand : BitVec 32) (s : State) : Res :=
  if s.reachesBank counter && src != .dictionary then .next (s.ctrOp src 3 0 counter operand.toNat).settle else .next s

/-- ARRIVE. -/
def execArrive (src : CtrSource) (counter : Nat) (tag : BitVec 2) (s : State) : Res :=
  if s.reachesBank counter then .next (s.ctrOp src 4 tag.toNat counter 0).settle else .next s

/-- INIT; one of the dictionary in a form that is not permitted is refused there and changes nothing. -/
def execInit (src : CtrSource) (counter : Nat) (word : BitVec 64) (s : State) : Res :=
  if s.reachesBank counter && !(src == .dictionary && !initForm word.toNat) then
    .next (s.ctrOp src 5 0 counter word.toNat).settle
  else .next s

/-! ### Partition reset and pre-emption (R314, R315) -/

/-- A task ended at once with ABORTED: it counts as completed, its record is written where it can be, no signal is sent, its
failure is counted and recorded (R313, R315). -/
def State.abortTask (s : State) (t : Task) : State :=
  let o := (s.countTask t).writeCompletion { t with code := St.aborted, detail := 0 }
  let t := o.2.getD { t with code := St.aborted, detail := 0 }
  (o.1.bump Pd.tasksFailed).record 0x01 t.code 8 p t.completion
where p := t.part

/-- A partition's tasks taken out of their units: the running ones end where they are, their outputs undefined as those of a
failed task (spec/08 R470, spec/09 R261). -/
def State.stopUnits (s : State) (p : Nat) : State :=
  let h := s.headland
  let s := ((h.running.toList ++ h.shadow.toList ++ h.draining).filter fun a => a.task.part == p).foldl
    (fun s a => s.headFail a St.aborted) s
  let gone := s.headland.rerun.filter fun t => t.part == p
  let s := ({ s with headland := { s.headland with rerun := s.headland.rerun.filter fun t => t.part != p } }).spoil St.aborted gone
  let s := s.engines.foldl (fun s e => match e.2.running with
    | some x => if x.task.part = p then s.tideFail e.1 x St.aborted else s
    | none => s) s
  let s := (s.estuary.tasks.filter fun e => e.task.part == p).foldl (fun s e => s.estEnd e St.aborted none) s
  let waiting := (s.spec.flatMap fun e => (e.2.filter fun x => !x.started && x.task.part == p).map (·.task))
    ++ (s.reruns.flatMap (·.2)).filter fun t => t.part == p
  { s with finished := s.finished ++ waiting
           reruns := tmap [] (fun _ l => l.filter fun t => t.part != p) s.reruns }

/-- A partition's room: straight to the Harbour, wiped, its pending handover and its units' requests gone (R132). -/
def State.resetRoom (s : State) (r : Nat) : State :=
  let w := s.ownerWord r
  let gen := (bits w 32 8 + 1) % 256
  let keep := fun (q : RoomReq) => decide (q.principal = none ∨ q.principal = some .harbour)
  let x := s.room r
  let s := (s.setOwnerWord r (makeWord (wordPartition w) .harbour none gen + 2 ^ 60)).answerHandover r St.aborted
  s.setRoom r { x with ownerQ := x.ownerQ.filter keep, dmaQ := x.dmaQ.filter keep, portBQ := x.portBQ.filter keep
                       newWord := none, marker := false, readerMarker := false, refusalSeen := false }

/-- The rooms of a partition that are not fenced. -/
def State.partRooms (s : State) (p : Nat) : List Nat :=
  (List.range 1536).filter fun r => wordPartition (s.ownerWord r) == p && !s.roomFenced r

/-- A partition's lists back to zero, their heads gone. -/
def State.zeroLists (s : State) (p : Nat) : State :=
  (List.range 66).foldl (fun s u => (s.setListRec u p 0).setHead (listKey u p) none) s

/-- A partition reset (R315). -/
def State.resetPartition (s : State) (p : Nat) : State :=
  let s := s.stopUnits p
  let tasks := s.finished.filter fun t => t.part == p
  let s := tasks.foldl (fun s t => s.abortTask t) { s with
    finished := s.finished.filter fun t => t.part != p
    endings := s.endings.filter fun e => e.task.part != p }
  let dropped := (s.spec.flatMap (·.2)).filter fun x => x.task.part == p
  let s := dropped.foldl (fun s x =>
    let s := x.rooms.foldl (fun s e => s.returnRoom e) s
    let t := { x.task with code := St.discarded }
    (s.rewriteCompletion t (t.flags false true)).bump Pd.specDiscarded) s
  let s := { s with spec := tmap [] (fun _ l => l.filter fun x => x.task.part != p) s.spec }
  let s := (s.partRooms p).foldl (fun s r => s.resetRoom r) (s.zeroLists p)
  (s.breakCounters p).wr Pd.partitionState p 3

/-- PARTITION_RESET's write; its answer waits until the rooms are wiped. -/
def servePartitionReset : Serve := fun _ _ q s =>
  let p := q.value
  if 16 ≤ p then refuse s St.invalidValue
  else
    let s := (s.resetPartition p).settle.endPartitionReset p
    if s.rd Pd.partitionState p = 3 then { state := s, wait := some (.partReset p) } else { state := s }

/-- PARTITION_PREEMPT's write: the partition's lists go to STOPPING; one without a running task stops at once. -/
def servePartitionPreempt : Serve := fun _ _ q s =>
  let p := q.value
  if 16 ≤ p then refuse s St.invalidValue
  else
    { state := (List.range 66).foldl (fun s u => (s.setListState u p 2).stopIfDone u p) (s.wr Pd.partitionState p 1) }

/-- PARTITION_PREEMPT. -/
def execPartitionPreempt (o : Origin) (part : BitVec 8) (s : State) : Res :=
  .next (s.receiveOwn servePartitionPreempt (ownWrite o Pd.partitionPreempt 0 [part]))

/-- PREEMPT_COMPLETE: no task of the partition runs any longer; its unresolved tasks are discarded, its counters break and
the partition is PREEMPTED (R314). -/
def execPreemptComplete (part : Nat) (s : State) : Res :=
  if s.rd Pd.partitionState part = 1 ∧ s.partTasks part = false then
    let open_ := (s.spec.flatMap (·.2)).filter fun x => x.task.part == part
    let s := open_.foldl (fun s x => s.discardSpec x) { s with
      spec := tmap [] (fun _ l => l.filter fun x => x.task.part != part) s.spec }
    .next ((s.breakCounters part).wr Pd.partitionState part 2).settle
  else .next s

end Sys2Proof.Machine
end

