-- ==== Sys2Proof/Machine/Host.lean ====
section
/-!
DEFINITION. The host link, chapter 04: training and resets, the CXL mailbox, the installation windows of a gate, coherence,
mirrors and the status page. What the CXL specification alone fixes (return codes, layouts of mailbox payloads) is log 38.
-/
namespace Sys2Proof.Machine

/-! ### The link (R90, R91) -/

/-- Table 04-1: width, speed in GT/s, flit mode. -/
def linkSupported (width speed flit : Nat) : Bool :=
  [4, 8, 16].contains width && (match speed with
    | 64 => flit == 1 || flit == 2
    | 32 => decide (flit ≤ 2)
    | 16 => flit == 0
    | _ => false)

/-- LINK_TRAINED: the trained result; a narrower or slower link is recorded, and mirror lines that waited for the link follow (R106).
The Harbour must run (Table 01-4). -/
def execLinkTrained (width speed flit : Nat) (s : State) : Res :=
  if 3 ≤ s.power.step ∧ linkSupported width speed flit then
    let t := (((s.setReg Pd.linkState 2).setReg Pd.linkWidth width).setReg Pd.linkSpeed speed).setReg Pd.flitMode flit
    .next (if width < 16 ∨ speed < 64 then
        t.record 0x02 St.ok 0 noUnit [BitVec.ofNat 8 width, BitVec.ofNat 8 speed, BitVec.ofNat 8 flit]
      else t).retryMirrors
  else .next s

/-! ### Coherence (R101) -/

/-- A line added to the snoop filter; one full gives back its least recently added line. -/
def State.track (s : State) (line : Nat) : State :=
  if s.host.filter.contains line then s
  else
    let s := if 262144 ≤ s.host.filter.length then
        match s.host.filter with
        | old :: rest =>
          let t := ((s.bump Pd.snoopEvictions).sendSnoop old).1
          { t with host := { t.host with filter := rest } }
        | [] => s
      else s
    { s with host := { s.host with filter := s.host.filter ++ [line] } }

/-- The 64-byte lines of bytes a to a + n − 1. -/
def linesOf (a n : Nat) : List Nat := if n = 0 then [] else (List.range ((a + n - 1) / 64 + 1 - a / 64)).map (a / 64 + ·)

/-- Cove requests whose lines are all given up are taken by their Coves, none before an earlier one of its requester (spec/06 R152);
counter operations whose lines are follow. -/
def State.retrySnoops (s : State) : State :=
  (s.host.snoopWaits.foldl (fun (s : State) (e : CliffReq × Ecc) =>
    if (s.trackedLines e.1.addr e.1.blocks).isEmpty && !s.behind e.1 e.1.addr then s.coveAccept e.1 e.2 e.1.addr
    else { s with host := { s.host with snoopWaits := s.host.snoopWaits ++ [e] } })
    { s with host := { s.host with snoopWaits := [] } }).retryOps.settle

/-- The host has given up a line of this module. -/
def State.released (s : State) (line : Nat) : State :=
  ({ s with host := { s.host with filter := s.host.filter.filter fun l => l != line
                                  snooped := s.host.snooped.filter fun l => l != line } }).retrySnoops

/-- BISNP_RESPONSE: for a line of this module, the waiting accesses proceed; one of another module is relayed to it. -/
def execBisnpResponse (position line : Nat) (s : State) : Res :=
  if s.reg Pd.linkState ≠ 2 then .next s
  else if position = s.position then .next (s.released line)
  else .next (s.sendTransfer position .snoop
    [{ s.newPacket 7 position [1] with address := BitVec.ofNat 44 (64 * line) }]).1

/-- A line in the Harbour's cache of 2,048 lines, the oldest making room. -/
def State.cacheLine (s : State) (line : Nat) (dirty : Bool) : State :=
  let l := s.host.cacheLines.filter fun e => e.1 != line
  { s with host := { s.host with cacheLines := (if 2048 ≤ l.length then l.drop 1 else l) ++ [(line, dirty)] } }

/-- H2D_SNOOP: the Harbour answers whether it holds the line and gives it up. -/
def execH2dSnoop (line : Nat) (s : State) : Res :=
  if s.reg Pd.linkState ≠ 2 then .next s
  else
    let e := s.host.cacheLines.find? fun e => e.1 == line
    .next ({ s with host := { s.host with cacheLines := s.host.cacheLines.filter fun e => e.1 != line } }.emit
      (.snoopReply line e.isSome (match e with
        | some e => e.2
        | none => false)))

/-! ### Link resets -/

/-- The host link controller reset: requests in flight are discarded, the host holds no line any longer, mirror lines in
flight are written again with the newest state (R91, R106). LINK_WIDTH, LINK_SPEED and FLIT_MODE keep what the link last trained to:
R90 does not say what they read while it is not up (DESIGN CHOICE, log 180). -/
def State.linkReset (s : State) : State :=
  ({ s with host := { s.host with
      windows := [], filter := [], snooped := [], cacheLines := []
      mirrors := tmap {} (fun _ m => { m with inFlight := none, waiting := m.waiting || m.inFlight.isSome }) s.host.mirrors } }).retrySnoops

/-- LINK_DOWN: a link-down event, counted, or a reset from the host after which the link trains again. -/
def execLinkDown (event : LinkEvent) (s : State) : Res :=
  if s.reg Pd.linkState = 0 then .next s
  else match event with
    | .linkDown => .next ((s.linkReset.setReg Pd.linkState 3).bump Pd.linkDowns)
    | .hotReset => .next (s.linkReset.setReg Pd.linkState 1)
    | .secondaryBusReset => .next (s.linkReset.setReg Pd.linkState 1)

/-- FUNCTION_LEVEL_RESET: the mailbox, the MSI-X table and the function's CXL.io configuration are cleared, and nothing else; responses
still owed on the mailbox are not sent, but a write on its way to flash goes on. -/
def execFunctionLevelReset (s : State) : Res :=
  .next { s with host := { s.host with
                   policy := [0, 0, 0, 0]
                   function := { s.host.function with bars := [0, 0, 0], msixOn := false, msix := List.replicate 32 0 } }
                 gdp := { s.gdp with inflight := s.gdp.inflight.filter fun x => !(decide (x.req.path = .mailbox) && decide (x.wait ≠ .flash)) } }

/-! ### The mailbox (R93, R94; log 38) -/

/-- The opcodes of Table 04-3, and the bytes of a payload. -/
def mailboxOpcodes : List Nat := [0x0100, 0x0101, 0x0102, 0x0103, 0x0200, 0x0300, 0x0301, 0x0400, 0x0401, 0xC400]
def mailboxPayload : Nat := 8192

/-- A mailbox command answered: return code 0 success, 2 invalid input, 0x15 unsupported for every opcode that Table 04-3 does not have;
vector 4 follows. -/
def State.mailboxReply (s : State) (opcode code : Nat) (payload : List Byte) : Res :=
  let o : Output := if mailboxOpcodes.contains opcode then .mailbox opcode code (payload.take mailboxPayload) else .mailbox opcode 0x15 []
  if s.reg Pd.linkState = 2 then .next ((s.emit o).vector 4) else .next s

/-- An event record as the mailbox returns it: the entry's number and the status code. -/
def eventBytes (e : Nat × BitVec 16) : List Byte := natLE 8 e.1 ++ codeBytes e.2

/-- The handle of an event record. -/
def eventHandle (e : Nat × BitVec 16) : Nat := e.1 % 65536

/-- GET_EVENT_RECORDS. -/
def execGetEventRecords (log : Nat) (s : State) : Res :=
  match s.host.logs[log]? with
  | none => s.mailboxReply 0x0100 2 []
  | some l => s.mailboxReply 0x0100 0 (natLE 1 (bit01 l.overflow) ++ natLE 2 l.records.length ++ l.records.flatMap eventBytes)

/-- CLEAR_EVENT_RECORDS. -/
def execClearEventRecords (log : Nat) (handles : List Nat) (s : State) : Res :=
  match s.host.logs[log]? with
  | none => s.mailboxReply 0x0101 2 []
  | some l =>
    if s.reg Pd.linkState ≠ 2 then .next s
    else
      let l := { records := l.records.filter fun e => !handles.contains (eventHandle e), overflow := false }
      ({ s with host := { s.host with logs := s.host.logs.set log l } }).mailboxReply 0x0101 0 []

/-- GET_EVENT_INTERRUPT_POLICY. -/
def execGetEventInterruptPolicy (s : State) : Res :=
  s.mailboxReply 0x0102 0 (s.host.policy.map (BitVec.ofNat 8))

/-- SET_EVENT_INTERRUPT_POLICY: per log, no interrupt or MSI-X (vector 3). -/
def execSetEventInterruptPolicy (modes : List Nat) (s : State) : Res :=
  if modes.length ≠ 4 ∨ modes.any (fun m => decide (1 < m)) then s.mailboxReply 0x0103 2 []
  else if s.reg Pd.linkState ≠ 2 then .next s
  else ({ s with host := { s.host with policy := modes } }).mailboxReply 0x0103 0 []

/-- GET_FW_INFO: the running bank, its build and its security version. -/
def execGetFwInfo (s : State) : Res :=
  match s.power.booted with
  | none => s.mailboxReply 0x0200 0 [0]
  | some i => s.mailboxReply 0x0200 0 (natLE 1 (i + 1) ++ natLE 4 (s.bank i).build ++ natLE 4 (s.bank i).secVersion)

/-- The device timestamp in nanoseconds; 0 until it is set. -/
def State.deviceTime (s : State) : BitVec 64 :=
  match s.host.timestamp with
  | none => 0
  | some d => d + BitVec.ofNat 64 (1000 * s.time)

/-- GET_TIMESTAMP. -/
def execGetTimestamp (s : State) : Res := s.mailboxReply 0x0300 0 (natLE 8 s.deviceTime.toNat)

/-- SET_TIMESTAMP. -/
def execSetTimestamp (value : BitVec 64) (s : State) : Res :=
  if s.reg Pd.linkState ≠ 2 then .next s
  else ({ s with host := { s.host with timestamp := some (value - BitVec.ofNat 64 (1000 * s.time)) } }).mailboxReply 0x0301 0 []

/-- The Command Effects Log: opcode and effects of each command of Table 04-3. -/
def commandEffects : List Byte :=
  ([(0x0100, 0), (0x0101, 0x10), (0x0102, 0), (0x0103, 0x08), (0x0200, 0), (0x0300, 0), (0x0301, 0x08), (0x0400, 0), (0x0401, 0),
    (0xC400, 0)] : List (Nat × Nat)).flatMap fun e => natLE 2 e.1 ++ natLE 2 e.2

/-- The identifier of the Command Effects Log. -/
def effectsLogId : List Byte :=
  [0x0d, 0xa9, 0xc0, 0xb5, 0xbf, 0x41, 0x4b, 0x78, 0x8f, 0x79, 0x96, 0xb1, 0x62, 0x3b, 0x3f, 0x17]

/-- GET_SUPPORTED_LOGS. -/
def execGetSupportedLogs (s : State) : Res :=
  s.mailboxReply 0x0400 0 (natLE 8 1 ++ effectsLogId ++ natLE 4 commandEffects.length)

/-- GET_LOG: the Command Effects Log, the only one there is. -/
def execGetLog (s : State) : Res := s.mailboxReply 0x0401 0 commandEffects

/-! ### Features (R92, R96) -/

/-- The features of Table 04-2. -/
inductive CxlFeature where
  | cxlIo | bar0 | bar2 | bar4 | msix | doe | doeDiscovery | cmaSpdm | tableAccess | cxlCache | hdmDb | backInvalidate
  | dvsecDevices | dvsecRegisterLocator | dvsecFlexBusPort | dvsecGpf | dvsecNonCxlFunctionMap
  | rasCapability | linkCapability | hdmDecoderCapability | deviceStatus | primaryMailbox | memoryDeviceStatus | secondaryMailbox
  | hdmH | hdmD | multipleLogicalDevices | portBasedRouting | globalFabricMemory | dynamicCapacity | tsp | cxlIde
  | globalPersistentFlush | cxlReset
deriving DecidableEq, Repr

/-- Whether the module implements a feature; the capability bit of an absent one reads as zero. -/
def CxlFeature.present : CxlFeature → Bool
  | .dvsecGpf | .dvsecNonCxlFunctionMap | .secondaryMailbox | .hdmH | .hdmD | .multipleLogicalDevices | .portBasedRouting
  | .globalFabricMemory | .dynamicCapacity | .tsp | .cxlIde | .globalPersistentFlush | .cxlReset => false
  | .cxlIo | .bar0 | .bar2 | .bar4 | .msix | .doe | .doeDiscovery | .cmaSpdm | .tableAccess | .cxlCache | .hdmDb | .backInvalidate
  | .dvsecDevices | .dvsecRegisterLocator | .dvsecFlexBusPort | .rasCapability | .linkCapability | .hdmDecoderCapability
  | .deviceStatus | .primaryMailbox | .memoryDeviceStatus => true

/-- The capability bit of a feature as the host reads it. -/
def capabilityBit (f : CxlFeature) : Nat := bit01 f.present

/-- The bytes of a window that a gate presents for B bays: one slice for each of B × 16 positions (Table 04-5). -/
def windowSize (slice bays : Nat) : Nat := 16 * bays * slice

/-! ### The status page (R108, Table 04-7) -/

/-- The page as its sources stand. -/
def State.statusPage (s : State) : List Byte :=
  natLE 8 (s.reg Pd.powerState * 2 ^ 56 + s.reg Pd.seaState * 2 ^ 48 + s.reg Pd.throttleLevel * 2 ^ 40)
    ++ padTo 56 (natLE 8 s.time) ++ [1, 2, 3, 4, 5, 6, 7].flatMap (fun r => natLE 8 (s.opStatus r)) ++ natLE 8 0
    ++ padTo 64 (natLE 2 (s.reg Pd.straps) ++ natLE 32 Config.serial.toNat)

/-- STATUS_PAGE_REFRESH. -/
def execStatusPageRefresh (s : State) : Res :=
  .next { s with host := { s.host with status := tsetMany 0 [] 0 s.statusPage } }

/-! ### Accesses by device physical address (R95, R154) -/

/-- A unit or the Harbour at a device physical address: House rooms by principal, Cliffs by address. `host`: the access comes
from the host itself, which need not ask for its own lines. -/
def State.dpaPlace (s : State) (g : Agent) (host : Bool) (a : Nat) (write : Bool) : Except Stop Nat :=
  if inHouse ((a : Int), (a : Int)) then
    match s.housePlace g a write with
    | .ok (.at n) => .ok n
    | .ok .suppressed => .ok a
    | .error x => .error x
  else match s.physCheck a with
    | .fail c => .error (.fail c a write)
    | .ok n =>
      if !host && s.host.filter.contains (n / 64) then .error (.snoop (n / 64))
      else if !write && s.blockBad n then .error (.fail St.uncorrectable a write)
      else .ok n

/-- Where each of consecutive bytes is read. -/
def State.dpaPlaces (s : State) (g : Agent) (host : Bool) : Nat → Nat → Except Stop (List Nat)
  | _, 0 => .ok []
  | a, n + 1 =>
    match s.dpaPlace g host a false, s.dpaPlaces g host (a + 1) n with
    | .error x, _ => .error x
    | _, .error x => .error x
    | .ok k, .ok ks => .ok (k :: ks)

/-- Where each enabled byte goes. -/
def State.dpaTargets (s : State) (g : Agent) (host : Bool) : Nat → List (Option Byte) → Except Stop (List (Nat × Byte))
  | _, [] => .ok []
  | a, none :: bs => s.dpaTargets g host (a + 1) bs
  | a, some b :: bs =>
    match s.dpaPlace g host a true, s.dpaTargets g host (a + 1) bs with
    | .error x, _ => .error x
    | _, .error x => .error x
    | .ok k, .ok l => .ok ((k, b) :: l)

/-- Bytes written where they go; Cliff blocks pass through their Coves, those written whole are sound again (spec/06 R146, R153,
R160). -/
def State.putTargets (s : State) (u : CliffUser) (l : List (Nat × Byte)) : State :=
  let s := { s with mem := l.foldl (fun m (e : Nat × Byte) => tset 0 m e.1 e.2) s.mem }
  let ns := l.map (·.1)
  let s := (blocksOf ns).foldl (fun s n => if coversBlock ns n then s.heal n else s) s
  s.passWrite (plainReq u true) (coversBlock ns) (blocksOf ns)

/-- What an access gives: it waits, or it is done with a code and the bytes read. -/
abbrev Served2 := State × Option (BitVec 16 × List Byte)

/-- The bytes of the counter window's read side from an offset: state words in STATE, zeros elsewhere; none where a counter
is unreachable (R102, R317). -/
def State.counterBytes (s : State) (off n : Nat) : Option (List Byte) :=
  (List.range n).foldl (fun acc i =>
    let k := (off + i) / 8
    match acc with
    | none => none
    | some l =>
      if k < 131072 ∧ s.ctrFenced k then none
      else some (l ++ [BitVec.ofNat 8 (if k < 131072 then byteField (s.ctr k) ((off + i) % 8) 1 else 0)])) (some [])

/-- Bytes read at a device physical address: memory, counters or the status page. A read that meets an uncorrectable block ends with
UNCORRECTABLE; one through a window completes as refused, though R100's list does not name it (DESIGN CHOICE, log 181). -/
def State.dpaRead (s : State) (g : Agent) (host : Bool) (a n : Nat) : Served2 :=
  if 0x0C1000000000 ≤ a ∧ a + n ≤ 0x0C1000400000 then
    match s.counterBytes (a - 0x0C1000000000) n with
    | some l => (s, some (St.ok, l))
    | none => (s, some (St.fenced, []))
  else if 0x0C2000000000 ≤ a ∧ a + n ≤ 0x0C2000010000 then
    (s, some (St.ok, tgetMany 0 s.host.status (a - 0x0C2000000000) n))
  else match s.dpaPlaces g host a n with
    | .ok ks => (s.passRead (plainReq g.user false) (blocksOf ks), some (St.ok, ks.map s.byteAt))
    | .error x =>
      match x with
      | .fail c _ _ => (s.noteStop g x, some (c, []))
      | _ => (s.noteStop g x, none)

/-- Enabled bytes written at a device physical address, all or none. -/
def State.dpaWrite (s : State) (g : Agent) (host : Bool) (a : Nat) (data : List (Option Byte)) : Served2 :=
  match s.dpaTargets g host a data with
  | .ok l => (s.putTargets g.user l, some (St.ok, []))
  | .error x =>
    match x with
    | .fail c _ _ => (s.noteStop g x, some (c, []))
    | _ => (s.noteStop g x, none)

/-- The Harbour at work. -/
def harbourAgent : Agent := { owner := .harbour, user := .harbour, part := 0 }

/-! ### The windows (R96 to R102) -/

/-- Bytes of a position's slice of a window, how many of them are mapped, and the DPA they begin at (Table 04-5). -/
def windowSlice : Window → Nat
  | .cliff => 0x20000000000
  | .counter => 0x10000000
  | .house => 0x20000000
  | .status => 0x10000
def windowMapped : Window → Nat
  | .cliff => aliasBytes
  | .counter => 0x400000
  | .house => 0x18000000
  | .status => 0x10000
def windowBase : Window → Nat
  | .cliff => aliasBase
  | .counter => 0x0C1000000000
  | .house => 0x0C0000000000
  | .status => 0x0C2000000000

/-- The lines that a host read of `n` bytes may leave with the host: of the Cliff window by native address, and of the counters (R101). -/
def hostLines (a n : Nat) : List Nat :=
  if windowBase .counter ≤ a ∧ a < windowBase .counter + windowMapped .counter then linesOf a n
  else if aliasBase ≤ a ∧ a < aliasBase + aliasBytes then
    ((List.range n).filterMap fun i => (cliffNative (a + i)).map (· / 64)).eraseDups
  else []

/-- A request's completion to the host; a refusal is counted (R100). -/
def State.windowDone (s : State) (r : WindowReq) (refused : Bool) : State :=
  let s := { s with host := { s.host with windows := s.host.windows.filter fun x => x.id != r.id } }
  let s := if refused then s.bump Pd.windowRefused else s
  s.emit (.windowDone r.id refused (if refused || r.write then [] else r.data.map fun b => b.getD 0))

/-- The counter operations of a write: for each counter whose eight bytes are all enabled, sub-range, counter, operand;
and whether a counter's bytes are enabled in part or a STATE word is written, which is refused (R102, Table 04-6). -/
def counterWrites (off : Nat) (data : List (Option Byte)) : List (Nat × Nat × Nat) × Bool :=
  let at_ := fun (pos : Nat) => if off ≤ pos then (data[pos - off]?).join else none
  let ks := (List.range ((off + data.length + 7) / 8 - off / 8)).map (off / 8 + ·)
  let bytes := fun (k : Nat) => (List.range 8).map fun i => at_ (8 * k + i)
  let full := ks.filter fun k => (bytes k).all Option.isSome
  let part := ks.filter fun k => (bytes k).any Option.isSome && !(bytes k).all Option.isSome
  ((full.filter fun k => decide (131072 ≤ k)).map fun k => (k / 131072, k % 131072, leNat ((bytes k).map fun b => b.getD 0) % 2 ^ 32),
   !part.isEmpty || full.any fun k => decide (k < 131072))

/-- One operation of the host at a counter here; whether it is refused. -/
def State.hostOp (s : State) (o : Nat × Nat × Nat) : State × Bool :=
  let bad := (s.ctrRefusal .host o.2.1 1).isSome
  (match o.1 with
    | 1 => s.ctrAdd .host o.2.1 o.2.2
    | 2 => s.ctrSubtract .host o.2.1 o.2.2
    | _ => s.ctrSet .host o.2.1 o.2.2, bad)

/-- Whether the Tide Tables let host requests for a window through: class HO on the Cove fill paths for the Cliffs (fabric 4), and on the
House crossbar for the rooms (spec/02 R57, R59). -/
def State.windowMoves (s : State) : Window → Bool
  | .cliff => s.classMoves 4 4
  | .house => s.classMoves 1 4
  | _ => true

/-- A local request served; whether it is done. Before READY, and in a class without slots, host traffic waits (R57, R59); a counter whose
line the host may hold is asked back first (R101). -/
def State.serveWindow (s : State) (r : WindowReq) : State × Bool :=
  if !s.working || !s.windowMoves r.window then (s, false)
  else if r.window = .counter ∧ r.write then
    let w := counterWrites r.offset r.data
    let held := w.1.filter fun x => s.ctrHeld x.2.1
    if !held.isEmpty then (held.foldl (fun s x => s.askBack (counterLine x.2.1)) s, false)
    else
    let o := w.1.foldl (fun (o : State × Bool) x =>
      let y := o.1.hostOp x
      (y.1, o.2 || y.2)) (s, w.2)
    (o.1.settle.windowDone r o.2, true)
  else
    let a := windowBase r.window + r.offset
    let o := if r.write then s.dpaWrite harbourAgent true a r.data else s.dpaRead harbourAgent true a r.size
    match o.2 with
    | none => (o.1, false)
    | some (c, l) =>
      if c ≠ St.ok then (o.1.windowDone r true, true)
      else if r.write then (o.1.windowDone r false, true)
      else (((hostLines a r.size).foldl (fun s l => s.track l) o.1).windowDone { r with data := enableAll l } false, true)

/-- Local requests that wait, served in their order as far as they go. -/
def State.serveWindows : List WindowReq → State → State
  | [], s => s
  | r :: rs, s =>
    let o := s.serveWindow r
    if o.2 then State.serveWindows rs o.1 else o.1

/-- The requests for this module's own position that wait. -/
def State.retryWindows (s : State) : State := State.serveWindows (s.host.windows.filter (·.local_)) s

/-- Consecutive enabled bytes of a write: offset and bytes of each run. -/
def enabledRuns : Nat → List (Option Byte) → List (Nat × List Byte)
  | _, [] => []
  | a, none :: t => enabledRuns (a + 1) t
  | a, some b :: t =>
    match enabledRuns (a + 1) t with
    | (a', bs) :: rest => if a' = a + 1 then (a, b :: bs) :: rest else (a, [b]) :: (a', bs) :: rest
    | [] => [(a, [b])]

/-- WRITE packets of a run of bytes at an address for the Harbour as principal. -/
def State.writePackets (s : State) (dest a : Nat) (bytes : List Byte) : List Packet :=
  (pieces 256 bytes.length bytes).zipIdx.map fun e =>
    { s.newPacket 1 dest e.1 with address := BitVec.ofNat 44 (a + 256 * e.2), length := BitVec.ofNat 8 (e.1.length - 1) }

/-- READ packets of `n` bytes at an address. -/
def State.readPackets (s : State) (dest a n : Nat) : List Packet :=
  (List.range ((n + 255) / 256)).map fun i =>
    { s.newPacket 2 dest [] with address := BitVec.ofNat 44 (a + 256 * i), length := BitVec.ofNat 8 (min 256 (n - 256 * i) - 1) }

/-- The transfers a forwarded request needs. -/
def State.windowTransfers (s : State) (r : WindowReq) : List (List Packet) :=
  let a := windowBase r.window + r.offset
  if !r.write then [s.readPackets r.target a r.size]
  else if r.window = .counter then
    (counterWrites r.offset r.data).1.map fun o =>
      [{ s.newPacket 4 r.target [] with
          signalValid := true, sigOp := BitVec.ofNat 3 o.1, sigCounter := BitVec.ofNat 17 o.2.1, sigOperand := BitVec.ofNat 32 o.2.2 }]
  else (enabledRuns a r.data).map fun e => s.writePackets r.target e.1 e.2

/-- A request in flight replaced. -/
def State.setWindow (s : State) (r : WindowReq) : State :=
  { s with host := { s.host with windows := s.host.windows.map fun x => if x.id = r.id then r else x } }

/-- Whether a part of some request is on its way to a position: sent and not acknowledged. -/
def State.windowUnderWay (s : State) (target : Nat) : Bool :=
  (s.unacked target).any fun t => match t.purpose with
    | .window _ => true
    | _ => false

/-- A request sent over the Causeway. Where its target cannot be reached it waits for the limit of R99. -/
def State.sendWindow (s : State) (r : WindowReq) : State :=
  (s.windowTransfers r).foldl (fun (s : State) t =>
    let o := s.sendTransfer r.target (.window r.id) t
    if o.2 then o.1 else o.1.setWindow { r with sent := true, lost := true }) (s.setWindow { r with sent := true })

/-- Requests that wait at the gate sent in their order: one for a target once nothing of an earlier one, timed out or not, is on its
way there. So requests for one target take effect in a single order (R98, R100, R104; log 179). -/
def State.sendWindows (s : State) : State :=
  (s.host.windows.filter fun r => !r.local_ && !r.sent).foldl (fun s r => if s.windowUnderWay r.target then s else s.sendWindow r) s

/-- A request forwarded over the Causeway (R98). -/
def State.forwardWindow (s : State) (r : WindowReq) : State :=
  let r := { r with bad := r.bad || (r.write && r.window == .counter && (counterWrites r.offset r.data).2) }
  if (s.windowTransfers r).isEmpty then s.windowDone r r.bad
  else ({ s with host := { s.host with windows := s.host.windows ++ [r] } } : State).sendWindows

/-- A window request arrives at the gate: refused where nothing is mapped, served here, or forwarded. -/
def State.windowRequest (s : State) (w : Window) (offset size : Nat) (write : Bool) (data : List (Option Byte)) : State :=
  let target := offset / windowSlice w
  let off := offset % windowSlice w
  let r : WindowReq := { id := s.host.nextWindow, window := w, target := target, offset := off, size := size, write := write
                         data := data, local_ := target == s.position }
  let s := { s with host := { s.host with nextWindow := s.host.nextWindow + 1 } }
  if 16 * s.host.bays ≤ target ∨ windowMapped w < off + size ∨ (w = .status ∧ write) then s.windowDone r true
  else if r.local_ then ({ s with host := { s.host with windows := s.host.windows ++ [r] } }).retryWindows
  else s.forwardWindow r

/-- HOST_WINDOW_READ. -/
def execHostWindowRead (w : Window) (offset size : Nat) (s : State) : Res :=
  if s.reg Pd.linkState = 2 ∧ 0 < size then .next (s.windowRequest w offset size false (List.replicate size none)) else .next s

/-- HOST_WINDOW_WRITE. -/
def execHostWindowWrite (w : Window) (offset : Nat) (data : List (Option Byte)) (s : State) : Res :=
  if s.reg Pd.linkState = 2 ∧ 0 < data.length then .next (s.windowRequest w offset data.length true data) else .next s

/-- WINDOW_TIMEOUT: a request still open 1 ms after its arrival is refused (R99). -/
def execWindowTimeout (id : Nat) (s : State) : Res :=
  match s.host.windows.find? fun r => r.id == id with
  | none => .next s
  | some r => .next ((s.bump Pd.windowTimeouts).windowDone r true)

/-- Whether a transfer of a request is still unacknowledged. -/
def State.windowOpen (s : State) (r : WindowReq) : Bool := (s.unacked r.target).any fun t => t.purpose == .window r.id

/-- A transfer of a forwarded request has been answered with a code. UNREACHABLE completes nothing before the limit of R99
(spec/12 R340), whatever becomes of the request's other transfers; a refused counter operation is counted (R102). -/
def State.windowAnswer (s : State) (id : Nat) (code : BitVec 16) : State :=
  match s.host.windows.find? fun r => r.id == id with
  | none => s
  | some r =>
    if code = St.unreachable then s.setWindow { r with lost := true }
    else
      let refused := code != St.ok
      let s := if refused && r.write && r.window == .counter then s.bump Pd.counterRefused else s
      let r := { r with bad := r.bad || refused }
      let s := s.setWindow r
      if r.lost || s.windowOpen r then s else s.windowDone r r.bad

/-- Bytes of a forwarded read have arrived, from an offset of the request; whether it has them all. -/
def State.windowData (s : State) (id off : Nat) (bytes : List Byte) : State × Bool :=
  match s.host.windows.find? fun r => r.id == id with
  | none => (s, true)
  | some r =>
    let d := r.data.zipIdx.map fun e => if off ≤ e.2 ∧ e.2 < off + bytes.length then bytes[e.2 - off]? else e.1
    let r := { r with data := d }
    (s.setWindow r, d.all Option.isSome)

/-! ### Mirrors (R105, R106) -/

/-- A record's mirror line has been written: its vector is sent, and the newest state follows where it changed meanwhile. -/
def State.mirrorDone (s : State) (i : Nat) : State :=
  match (s.mirror i).inFlight with
  | none => s
  | some v =>
    let s := s.setMirror i { s.mirror i with inFlight := none }
    let s := if 8 ≤ v then s.vector v else s
    if (s.mirror i).waiting then s.tryMirror i else s

/-- MIRROR_WRITE_DONE: at the gate, where the line was written by this module. -/
def execMirrorWriteDone (record : Nat) (s : State) : Res :=
  if record < 256 ∧ s.isGate then .next (s.mirrorDone record) else .next s

/-- Whether a mirror record may be written: VECTOR 1 to 7 is refused (Table 04-8). -/
def mirrorRecordOk (w : Nat) : Bool := mirrorVector w == 0 || decide (8 ≤ mirrorVector w)

/-- A mirror record with its reserved bits zero. -/
def mirrorClean (w : Nat) : Nat := mirrorLineOf w * 2 ^ 70 + bits w 25 7 * 2 ^ 25 + mirrorCounter w

/-- A dictionary write of mirror records: those it covers count their sequence numbers anew (R105). -/
def serveMirrorTable : Serve := fun _ _ q s =>
  let plan := (covered 16 q.offset q.data.length).map fun i => (i, overlay 16 i (s.rd Pd.mirrorTable i) q.offset q.data)
  if plan.any fun e => !mirrorRecordOk e.2 then refuse s St.invalidValue
  else
    { state := plan.foldl (fun s e => (s.wr Pd.mirrorTable e.1 (mirrorClean e.2)).setMirror e.1
        { sequence := 0, inFlight := (s.mirror e.1).inFlight, waiting := false }) s }

end Sys2Proof.Machine
end

