-- ==== Sys2Proof/Machine/Stages.lean ====
section
/-!
DEFINITION. The stage sequencers of chapter 14: the record of Table 14-1, phases and gates, and the steps of R382 that
lead from one boundary to the next. The commands are in Training.lean.
-/
namespace Sys2Proof.Machine

/-! ### The record (Table 14-1) -/

/-- Sequencer p's record. -/
def State.stageRec (s : State) (p : Nat) : Nat := s.rd Pd.stageTable p
def State.setStageRec (s : State) (p w : Nat) : State := s.wr Pd.stageTable p w

def stgStages (w : Nat) : Nat := byteField w 0 1
def stgIndex (w : Nat) : Nat := byteField w 1 1
def stgMicro (w : Nat) : Nat := byteField w 2 2
def stgBase (w : Nat) : Nat := byteField w 4 4 % 2 ^ 17
def stgDone (w : Nat) : Nat := byteField w 8 4 % 2 ^ 17
def stgEstuary (w : Nat) : Nat := byteField w 22 2
def stgScaling (w : Nat) : Bool := w.testBit 192
def stgAgree (w : Nat) : Nat := byteField w 25 1
def stgScaleMin (w : Nat) : Int := toSigned 8 (byteField w 26 1)
def stgScaleMax (w : Nat) : Int := toSigned 8 (byteField w 27 1)
def stgGrowth (w : Nat) : Nat := byteField w 28 2
def stgWord (w : Nat) : Nat := byteField w 32 8 % 2 ^ 44
def stgVote (w : Nat) : Nat := byteField w 40 8 % 2 ^ 44
def stgResult (w : Nat) : Nat := byteField w 48 8 % 2 ^ 44
def stgLoss (w : Nat) : Nat := byteField w 56 8 % 2 ^ 44
def stgGroups (w : Nat) : Nat := byteField w 64 8
def stgStep (w : Nat) : Nat := byteField w 72 4
def stgScale (w : Nat) : Int := toSigned 8 (byteField w 76 1)
def stgClean (w : Nat) : Nat := byteField w 80 2
def withStep (w v : Nat) : Nat := setByteField w 72 4 v
def withScale (w : Nat) (e : Int) : Nat := setByteField w 76 1 (ofSigned 8 e)
def withState (w v : Nat) : Nat := setByteField w 77 1 v
def withPhase (w v : Nat) : Nat := setByteField w 78 2 v
def withClean (w v : Nat) : Nat := setByteField w 80 2 v

/-- A record with its reserved bits zero. -/
def stageClean (w : Nat) : Nat :=
  let low := fun (o n b : Nat) (x : Nat) => setByteField x o n (byteField x o n % 2 ^ b)
  setByteField (setByteField (low 24 1 1 (low 56 8 44 (low 48 8 44 (low 40 8 44 (low 32 8 44 (low 8 4 17 (low 4 4 17 w))))))) 30 2 0)
    82 46 0

/-! ### Phases (R377) -/

/-- Warm-up forwards w. -/
def warmUps (w : Nat) : Nat := min (stgStages w - stgIndex w - 1) (stgMicro w)

/-- Whether phase k, from 1 to 2M, is a forward phase. -/
def isForward (w k : Nat) : Bool :=
  let v := warmUps w
  decide (k ≤ v) || (decide (k ≤ v + 2 * (stgMicro w - v)) && (k - v) % 2 == 1)

/-- The gate count of phase k (R379). -/
def gateCount (w k : Nat) : Nat :=
  let m := stgMicro w
  if k = 2 * m + 1 then byteField w 14 1
  else if k = 2 * m + 2 then byteField w 15 1
  else if isForward w k then byteField w 12 1 else byteField w 13 1

/-- The done count of phase k. -/
def doneCount (w k : Nat) : Nat :=
  let m := stgMicro w
  if k = 2 * m + 1 then 1
  else if k = 2 * m + 2 then byteField w 20 2
  else if isForward w k then byteField w 16 2 else byteField w 18 2

/-! ### What the sequencer does (R381, R382, R387) -/

/-- 2^e as FP32, e from −126 to 126. -/
def pow32 (e : Int) : F32 := BitVec.ofNat 32 ((e + 127).toNat % 256 * 2 ^ 23)

/-- Bytes the Harbour writes by DPA; a line the host may hold is asked back (spec/04 R101). A range that is no longer usable
takes nothing. -/
def State.harbourWrite (s : State) (a : Nat) (bs : List Byte) : State :=
  if s.rangeUsable a bs.length then
    let ns := (List.range bs.length).map fun i => nativeOf (a + i)
    ((((ns.map (· / 64)).eraseDups.foldl State.askBack s).viewWrite a bs).passWrite (plainReq .harbour true) (coversBlock ns)) (blocksOf ns)
  else s

/-- Bytes the Harbour reads by DPA. -/
def State.harbourRead (s : State) (a n : Nat) : List Byte := s.viewBytes a n

/-- The step word of Table 14-2. -/
def stepWord (e : Int) (apply : F32) (step : Nat) : List Byte :=
  natLE 4 (pow32 e).toNat ++ natLE 4 (pow32 (-e)).toNat ++ natLE 4 apply.toNat ++ natLE 4 step

/-- Phase k opened: its gate counter takes its gate count (R379). -/
def State.openPhase (s : State) (p k : Nat) : State :=
  let w := s.stageRec p
  let s := s.setStageRec p (withPhase w k)
  ((s.ctrOp .dictionary 1 0 (stgBase w + k - 1) (gateCount w k)).failBrokenStages).settle

/-- A step begins (R382, R426): the Estuary tasks are counted anew, each group's NEXT_STEP is noted, phase 1 opens. -/
def State.beginStep (s : State) (p : Nat) : State :=
  let noted := (List.range 64).map fun g => (g, grpNextStep (s.groupRec g), s.rd Pd.lastReduction g)
  let x := s.stage p
  (s.setStage p { x with estuaryDone := 0, overflow := false, waiting := false, clearing := false, noted := noted }).openPhase p 1

/-- DONE of a sequencer, whether it holds the done count of phase k, and that count subtracted. -/
def State.phaseReady (s : State) (p k : Nat) : Bool :=
  let w := s.stageRec p
  let c := s.ctr (stgDone w)
  ctrState c == 1 && !s.ctrFenced (stgDone w) && decide (doneCount w k ≤ ctrValue c)
def State.takeDone (s : State) (p k : Nat) : State := (s.ctrOp .dictionary 2 0 (stgDone (s.stageRec p)) (doneCount (s.stageRec p) k))

/-- What comes after a boundary: the next phase, the wait for the Estuary after phase 2M, or a new step (R382). -/
def State.goOn (s : State) (p : Nat) : State :=
  let w := s.stageRec p
  let k := stagePhase w
  let m := stgMicro w
  if k < 2 * m then s.openPhase p (k + 1)
  else if k = 2 * m then s.setStage p { s.stage p with waiting := true }
  else s.beginStep p

/-- A sequencer leaves its hold: it runs on, or stops where it was stopping (R416). -/
def State.resumeStage (s : State) (p : Nat) : State :=
  let w := s.stageRec p
  let x := s.stage p
  if stageState w ≠ 2 then s
  else if x.stopAfter then (s.setStage p { x with stopAfter := false }).setStageRec p (withState w 0)
  else (s.setStageRec p (withState w 1)).goOn p

/-- Whether a partition's step has begun and is not at its end: PHASE from 1 to 2M + 1 or the update phase open. -/
def stepUnderWay (w : Nat) : Bool := decide (0 < stagePhase w) && decide (stagePhase w ≤ 2 * stgMicro w)

end Sys2Proof.Machine
end

