-- ==== Sys2Proof/Machine/Stow.lean ====
section
/-!
DEFINITION. Stowing, chapter 16: configuration, requests and boundaries, partners, the image, its transfers and its end.
-/
namespace Sys2Proof.Machine

/-! ### Configuration (Table 16-2) -/

/-- Partition p's stow configuration. -/
def State.stowCfg (s : State) (p : Nat) : Nat := s.rd Pd.stowConfig p

def cfgAuto (w : Nat) : Bool := w.testBit 0
def cfgHostCopy (w : Nat) : Nat := bits w 1 2
def cfgPartner (w i : Nat) : Nat := byteField w (4 + i) 1
def cfgPeers (w : Nat) : Nat := byteField w 8 8
def cfgGroups (w : Nat) : Nat := byteField w 16 8
def cfgTable (w : Nat) : Nat := byteField w 24 8 % 2 ^ 44
def cfgCount (w : Nat) : Nat := byteField w 32 4
def cfgRepeat (w : Nat) : Nat := byteField w 36 4
def cfgArea (w i : Nat) : Nat := byteField w (40 + 8 * i) 8 % 2 ^ 44
def cfgSlotBytes (w : Nat) : Nat := byteField w 72 8
def cfgHostArea (w : Nat) : Nat := byteField w 80 8
def cfgHostSlot (w : Nat) : Nat := byteField w 88 8

/-- A configuration with its reserved bits zero. -/
def stowClean (w : Nat) : Nat :=
  let low := fun (o : Nat) (x : Nat) => setByteField x o 8 (byteField x o 8 % 2 ^ 44)
  setByteField (setByteField (low 24 (low 40 (low 48 (low 56 (low 64 (w % 2 ^ 768)))))) 0 1 (byteField w 0 1 % 8)) 1 3 0

/-- Whether every byte of a range lies in backed Cliff memory, in either view (Table 04-4). -/
def rangeBacked (a len : Nat) : Bool :=
  if isNative a then decide (natLocal a + len ≤ cliffBytes) else isAlias a && decide (a - aliasBase + len ≤ aliasBytes)

/-- Whether a record's fields are in their ranges (R419). -/
def stowCfgOk (w : Nat) : Bool :=
  cfgHostCopy w != 3 && [0, 1, 2, 3].all (fun i => (decide (cfgPartner w i < 64) || cfgPartner w i == 0xFF) && cfgArea w i % 0x200000 == 0)
    && decide (cfgCount w ≤ 1024) && cfgTable w % 16 == 0 && rangeBacked (cfgTable w) (16 * cfgCount w)
    && cfgSlotBytes w % 0x200000 == 0 && cfgHostArea w % 4096 == 0 && cfgHostSlot w % 4096 == 0

/-- Whether a stow or restore run names a partition. -/
def State.runNames (s : State) (p : Nat) : Bool :=
  (s.opActive 3 && (s.stow.run.elim false fun r => r.parts.any fun e => e.1 == p))
    || (s.opActive 4 && (s.stow.restore.elim false fun r => r.part == p))

/-- A write of STOW_CONFIG (R419). -/
def serveStowConfig : Serve := fun _ _ q s =>
  let p := q.offset / 256
  if q.data.length ≠ 256 ∨ q.offset % 256 ≠ 0 then refuse s St.typeMismatch
  else if !stowCfgOk (stowClean q.value) then refuse s St.invalidValue
  else if s.runNames p then refuse s St.busy
  else { state := s.wr Pd.stowConfig p (stowClean q.value) }

/-- A receive record (R420): source, slot 0, bytes of a slot. -/
def recvSource (w : Nat) : Nat := byteField w 0 1
def recvBase (w : Nat) : Nat := byteField w 8 8 % 2 ^ 44
def recvBytes (w : Nat) : Nat := byteField w 16 8

/-- A receive record with its reserved bytes zero. -/
def recvClean (w : Nat) : Nat := recvSource w + recvBase w * 2 ^ 64 + recvBytes w * 2 ^ 128

/-- A write of STOW_RECEIVE: every record it covers must name a backed area. -/
def serveStowReceive : Serve := fun _ _ q s =>
  let plan := (covered 32 q.offset q.data.length).map fun i => (i, recvClean (overlay 32 i (s.rd Pd.stowReceive i) q.offset q.data))
  if plan.any fun e => !rangeBacked (recvBase e.2) (2 * recvBytes e.2) then refuse s St.invalidValue
  else { state := plan.foldl (fun s e => s.wr Pd.stowReceive e.1 e.2) s }

/-- Whether a source may write n bytes at an address: no other position's receive area holds them, or its own does (R420,
log 39). -/
def State.stowMayWrite (s : State) (src a n : Nat) : Bool :=
  let rs := (List.range 16).map fun i => s.rd Pd.stowReceive i
  let holds := fun w => recvBytes w != 0 && decide (recvBase w < a + n) && decide (a < recvBase w + 2 * recvBytes w)
  !rs.any (fun w => holds w && recvSource w != src) || rs.any fun w => holds w && recvSource w == src

/-! ### The image (R424 to R426) -/

/-- The region table's entries: address and length. -/
def State.regions (s : State) (w : Nat) : List (Nat × Nat) :=
  (List.range (cfgCount w)).map fun i =>
    let b := s.harbourRead (cfgTable w + 16 * i) 16
    (listField b 0 8 % 2 ^ 44, listField b 8 8)

/-- Whether every region is aligned and backed. -/
def State.regionsOk (s : State) (w : Nat) : Bool :=
  (s.regions w).all fun e => e.1 % 256 == 0 && e.2 % 256 == 0 && rangeBacked e.1 e.2

/-- Up to the next multiple of 256. -/
def align256 (n : Nat) : Nat := (n + 255) / 256 * 256

/-- Bytes padded with zeros to a multiple of 256. -/
def pad256 (bs : List Byte) : List Byte := padTo (align256 bs.length) bs

/-- The groups of a mask, ascending. -/
def maskGroups (m : Nat) : List Nat := (List.range 64).filter fun g => m.testBit g

/-- Blocks of a group's tensor, as its descriptors give them; none where there is no group or they cannot be read. -/
def State.groupBlocks (s : State) (g : Nat) : Nat :=
  if grpMembers (s.groupRec g) = 0 ∨ grpOp (s.groupRec g) = 3 then 0
  else match s.groupPlaces g with
    | some x => blocksFor (tensorElements (s.groupRec g) x.descs)
    | none => 0

/-- A carried group's record: NEXT_STEP as it stood when the recorded step's phase 1 opened (R426). -/
def State.carriedRec (s : State) (p g : Nat) : Nat :=
  let v := s.groupView g
  if stepUnderWay (s.stageRec p) then
    match (s.stage p).noted.find? fun e => e.1 == g with
    | some e => setByteField v 72 4 e.2.1
    | none => v
  else v

/-- A carried group's part of the body: its record, then its scale table. -/
def State.groupPart (s : State) (p g : Nat) : List Byte :=
  padTo 256 (natLE 128 (s.carriedRec p g)) ++ pad256 (s.harbourRead (grpScale (s.groupRec g)) (4 * s.groupBlocks g))

/-- The persistent counters of a partition (PD 0x5010.07), ascending, with their state words. -/
def State.carriedCounters (s : State) (p : Nat) : List (Nat × Nat) :=
  ((s.pd.filter fun e => e.1 / 16777216 == Pd.persistentCounters).flatMap fun e =>
    (List.range 8).filterMap fun j =>
      let c := 8 * (e.1 % 16777216) + j
      if e.2.testBit j ∧ ctrPart (s.ctr c) = p then some (c, s.ctr c) else none)

/-- The body: region list, groups, counters, regions. -/
def State.imageBody (s : State) (p : Nat) : List Byte :=
  let w := s.stowCfg p
  pad256 ((s.regions w).flatMap fun e => natLE 8 e.1 ++ natLE 8 e.2)
    ++ (maskGroups (cfgGroups w)).flatMap (fun g => s.groupPart p g)
    ++ pad256 ((s.carriedCounters p).flatMap fun e => natLE 8 e.1 ++ natLE 8 e.2)
    ++ (s.regions w).flatMap fun e => s.harbourRead e.1 e.2

/-- The bytes of the body, counted. -/
def State.bodyBytes (s : State) (p : Nat) : Nat :=
  let w := s.stowCfg p
  align256 (16 * cfgCount w) + (maskGroups (cfgGroups w)).foldl (fun n g => n + 256 + align256 (4 * s.groupBlocks g)) 0
    + align256 (16 * (s.carriedCounters p).length) + (s.regions w).foldl (fun n e => n + e.2) 0

/-- Blocks of a body, and bytes of its image. -/
def bodyBlocks (body : Nat) : Nat := (body + 0x1FFFFF) / 0x200000
def imageSize (body : Nat) : Nat := 8192 + align256 body + align256 (4 * bodyBlocks body)

/-- The header without its last four bytes, COMPLETE clear (Table 16-3). -/
def State.imageHeader (s : State) (p : Nat) (i : StowImage) : List Byte :=
  let w := s.stageRec p
  let c := s.stowCfg p
  let single := !i.toHost && (i.partner.isNone || i.sameFeed)
  let flags := 2 * bit01 (i.phase != 0) + 4 * bit01 single + 8 * bit01 i.sameFeed + 16 * bit01 i.toHost
  padTo 4092 (natLE 4 0x574F5453 ++ natLE 1 1 ++ natLE 1 p ++ natLE 1 s.position ++ natLE 1 flags ++ natLE 4 i.number
    ++ natLE 1 (bits (s.reg Pd.straps) 0 4) ++ natLE 1 (i.partner.elim 0xFF fun e => e.2) ++ natLE 1 i.feed ++ natLE 1 0
    ++ natLE 4 i.step ++ natLE 2 i.phase ++ natLE 1 (ofSigned 8 (stgScale w)) ++ natLE 1 0 ++ natLE 2 (stgClean w) ++ natLE 2 0
    ++ natLE 4 (s.rd Pd.lastLoss p) ++ natLE 32 (s.rd Pd.dataCursor p) ++ natLE 128 (s.rd Pd.keyTable p)
    ++ natLE 8 (cfgGroups c) ++ natLE 4 (s.carriedCounters p).length ++ natLE 4 (cfgCount c) ++ natLE 8 i.bytes ++ natLE 8 i.started)

/-- A header with its CRC. -/
def sealHeader (h : List Byte) : List Byte := h ++ natLE 4 (crc32 h).toNat

/-- The header with COMPLETE set, its flags as the image ends: HOST_COPY where a host copy has been written, SINGLE_FEED where none
has and no partner on another feed holds the image (R422). -/
def StowImage.finalHeader (i : StowImage) (host : Bool) : List Byte :=
  let f := (i.header.getD 7 0).toNat
  let f := setBits (setBits f 2 1 (bit01 (!host && (i.partner.isNone || i.sameFeed)))) 4 1 (bit01 host)
  sealHeader (i.header.set 7 (BitVec.ofNat 8 (setBits f 0 1 1)))

/-! ### Partners (R421, log 41) -/

/-- What is learnt of a candidate over the Causeway: whether its receive table names this module, and its FEED. Both are
answers of another module: free values. -/
def candidateNames (v : Nat) : Bool := v % 2 == 1
def candidateFeed (v : Nat) : Nat := v / 2 % 16

/-- The candidates that are reachable and name this module: candidate, position, feed. -/
def State.candidates (s : State) (w : Nat) (tried : List Nat) : List Nat → State × List (Nat × Nat × Nat)
  | [] => (s, [])
  | i :: is =>
    let q := cfgPartner w i
    let v := s.free
    let ok := decide (q < 64) && q != s.position && !tried.contains i && (s.route q).isSome && candidateNames v
    let r := State.candidates (if q < 64 then s.used else s) w tried is
    (r.1, if ok then (i, q, candidateFeed v) :: r.2 else r.2)

/-- Whether two feeds are known to differ (spec/01 R34). -/
def otherFeed (a b : Nat) : Bool := a != b && a != 0xF && b != 0xF

/-- The partner of an image: the first candidate on another feed, else the first at all, with SAME_FEED. -/
def State.choosePartner (s : State) (w : Nat) (tried : List Nat) : State × Option (Nat × Nat × Nat) × Bool :=
  let own := bits (s.reg Pd.straps) 0 4
  let r := s.candidates w tried [0, 1, 2, 3]
  match r.2.find? fun e => otherFeed own e.2.2 with
  | some e => (r.1, some e, false)
  | none => (r.1, r.2.head?, !r.2.isEmpty)

/-! ### Transfers (R423, R429) -/

/-- The slot of a destination of a partition that does not hold its newest image. -/
def State.stowSlot (s : State) (p dest : Nat) : Nat := tget 0 s.stow.nextSlot (5 * p + dest)

/-- Bytes of an image written at its partner, in transfers of 2,048 bytes. -/
def State.toPartner (s : State) (p : Nat) (i : StowImage) (off : Nat) (bs : List Byte) : State :=
  match i.partner with
  | none => s
  | some (c, q) =>
    let w := s.stowCfg p
    let a := cfgArea w c + i.slot * cfgSlotBytes w + off
    (pieces 2048 bs.length bs).zipIdx.foldl (fun s e =>
      (s.sendTransfer q (.stow p) (s.writePackets q (a + 2048 * e.2) e.1)).1) s

/-- Bytes of an image written to host memory over CXL.cache, line by line. -/
def State.toHostCopy (s : State) (p : Nat) (i : StowImage) (off : Nat) (bs : List Byte) : State :=
  if i.toHost then
    let w := s.stowCfg p
    let a := cfgHostArea w + i.hostSlot * cfgHostSlot w + off
    (pieces 64 bs.length bs).zipIdx.foldl (fun s e => s.emit (.hostWrite (a + 64 * e.2) e.1)) s
  else s

/-- The block table. -/
def blockTable (crcs : List (BitVec 32)) : List Byte := pad256 (crcs.flatMap fun c => natLE 4 c.toNat)

/-- An image's body and block table behind a header whose COMPLETE is clear. -/
def State.sendImage (s : State) (p : Nat) (i : StowImage) (out : State → Nat → List Byte → State) : State :=
  let body := s.imageBody p
  let s := out s 0 (sealHeader i.header)
  let s := out s 8192 body
  out s (8192 + align256 body.length) (blockTable i.crcs)

/-- An image of the run, set. -/
def State.setImage (s : State) (i : StowImage) : State :=
  match s.stow.run with
  | none => s
  | some r =>
    let l := if r.images.any fun x => x.part == i.part then r.images.map fun x => if x.part = i.part then i else x else r.images ++ [i]
    { s with stow := { s.stow with run := some { r with images := l } } }

/-- The image of a partition in the run. -/
def State.imageOf (s : State) (p : Nat) : Option StowImage :=
  s.stow.run.bind fun r => r.images.find? fun i => i.part == p

/-- An image begins (R421 to R424): its partner chosen, its header, body and block table on their way. -/
def State.startImage (s : State) (p : Nat) (held : Bool) : State :=
  let s := if (s.op 3).state = 1 then s.opBegin 3 else s
  let w := s.stowCfg p
  let st := s.stageRec p
  let body := s.imageBody p
  let size := imageSize body.length
  let c := s.choosePartner w []
  let s := c.1
  let partner := if cfgSlotBytes w < size then none else c.2.1
  let number := tget 0 s.stow.numbers p + 1
  let noOther := partner.isNone || c.2.2
  let toHost := (cfgHostCopy w == 2 || (cfgHostCopy w == 1 && noOther)) && decide (size ≤ cfgHostSlot w)
  let i : StowImage :=
    { part := p, step := stgStep st, phase := if stepUnderWay st then stagePhase st else 0, number := number, started := s.time
      bytes := size, crcs := (pieces 0x200000 body.length body).map crc32, header := [], held := held
      partner := partner.map fun e => (e.1, e.2.1), feed := partner.elim 0xFF fun e => e.2.2, sameFeed := partner.isSome && c.2.2
      slot := partner.elim 0 fun e => s.stowSlot p e.1, hostSlot := s.stowSlot p 4, toHost := toHost }
  let i := { i with header := s.imageHeader p i }
  let later := fun (h : HeldImage) =>
    { h with partner := if h.part = p ∧ h.partner.isSome ∧ (i.partner.map fun e => (e.2, e.1, i.slot)) = h.partner then none else h.partner
             host := if h.part = p ∧ i.toHost ∧ h.host = some i.hostSlot then none else h.host }
  let x := s.stage p
  let s := { s.setStage p { x with stowTarget := none } with
    stow := { s.stow with numbers := tset 0 s.stow.numbers p number, held := s.stow.held.map later } }
  let s := s.setImage i
  let s := s.sendImage p i fun s o b => s.toPartner p i o b
  s.sendImage p i fun s o b => s.toHostCopy p i o b

/-! ### Requests (R415 to R417) -/

/-- Whether a partition can be stowed: its regions hold and some destination's slot takes the image (R428). -/
def State.stowable (s : State) (p : Nat) : Bool :=
  let w := s.stowCfg p
  let size := imageSize (s.bodyBytes p)
  s.regionsOk w && ((decide (size ≤ cfgSlotBytes w) && [0, 1, 2, 3].any fun i => decide (cfgPartner w i < 64))
    || (cfgHostCopy w != 0 && decide (size ≤ cfgHostSlot w)))

/-- The slots of a run. -/
def runSlots (parts : List (Nat × Nat)) : Nat := parts.length + parts.foldl (fun n e => n + e.2) 0

/-- A partition joins the run's list, in ascending order. -/
def joinParts (parts : List (Nat × Nat)) (p blocks : Nat) : List (Nat × Nat) :=
  if parts.any fun e => e.1 == p then parts
  else (parts.filter fun e => decide (e.1 < p)) ++ [(p, blocks)] ++ parts.filter fun e => decide (p < e.1)

/-- A run opened for partitions, DEFERRED until one of them holds. -/
def State.openRun (s : State) (ps : List Nat) : State :=
  let parts := ps.map fun p => (p, bodyBlocks (s.bodyBytes p))
  { s.opStart 3 1 (runSlots parts) with stow := { s.stow with run := some { parts := parts, images := [] } } }

/-- A partition named by the run that waits, or by a new one; while one is RUNNING it waits for the next (R417). -/
def State.nameInRun (s : State) (p : Nat) : State :=
  match (s.op 3).state, s.stow.run with
  | 1, some r =>
    let parts := joinParts r.parts p (bodyBlocks (s.bodyBytes p))
    { s.setOp 3 { s.op 3 with slots := runSlots parts } with stow := { s.stow with run := some { r with parts := parts } } }
  | 2, _ => s
  | _, _ => s.openRun [p]

/-- A request with a target (R417): satisfied by an image of the run that is recent enough, else it waits, the lower of two
targets kept. -/
def State.requestStow (s : State) (p target : Nat) : State :=
  match (if s.opActive 3 then s.imageOf p else none) with
  | some i =>
    if target ≤ i.step then s
    else
      let x := s.stage p
      s.setStage p { x with stowTarget := some (min target (x.stowTarget.getD target)) }
  | none =>
    let x := s.stage p
    (s.setStage p { x with stowTarget := some (min target (x.stowTarget.getD target)) }).nameInRun p

/-- Whether a waiting request of a partition may be taken with the run as it is. -/
def State.mayTake (s : State) (p : Nat) : Bool :=
  s.opActive 3 && (s.stow.run.elim false fun r => (r.parts.any fun e => e.1 == p) && !r.images.any fun i => i.part == p)

/-- Requests for partitions whose sequencer is STOPPED or FAILED, taken at once (R416). -/
def State.takeStows (s : State) : State :=
  (List.range 16).foldl (fun s p =>
    if (s.stage p).stowTarget.isSome && s.mayTake p && [0, 3].contains (stageState (s.stageRec p)) then s.startImage p false else s) s

/-- A boundary reached in RUNNING or STOPPING (R383, R416): a request whose target is reached holds the sequencer for its
image; otherwise a sequencer that was stopping stops, and one that runs goes on. -/
def State.boundary (s : State) (p : Nat) : State :=
  let w := s.stageRec p
  let x := s.stage p
  let due := match x.stowTarget with
    | some t => decide (t ≤ stgStep w) && s.mayTake p
    | none => false
  if due then
    ((s.setStage p { x with stopAfter := stageState w == 4 }).setStageRec p (withState w 2)).startImage p true
  else if stageState w = 4 then
    let held := if stepUnderWay w then s.stow.held.filter (fun h => h.part != p) else s.stow.held
    ({ s with stow := { s.stow with held := held } }.setStageRec p (withState w 0)).takeStows
  else s.goOn p

/-- The GDP WRITE of a target to another module's STOW_REQUEST (R415); its SEQUENCE is a free value. -/
def State.tellPeer (s : State) (q target : Nat) : State :=
  let m : GdpMsg := { version := 1, opcode := 2, seq := BitVec.ofNat 16 s.free, target := BitVec.ofNat 8 q, source := 0xFF
                      flags := BitVec.ofNat 8 (4 * roleCode .peer), sub := 3, index := 0x6830, status := 0, offset := 0
                      length := 4, payload := natLE 4 target }
  (s.used.emit (.gdpForward q .peer m)).sendGdp q (roleCode .peer) (msgBytes m)

/-- An automatic request of a partition, told to its PEERS. -/
def State.autoRequest (s : State) (p target : Nat) : State :=
  let peers := (List.range 64).filter fun q => (cfgPeers (s.stowCfg p)).testBit q && q != s.position
  peers.foldl (fun s q => s.tellPeer q target) (s.requestStow p target)

/-- Whether automatic requests are made for a partition: AUTO, RUNNING, and something to stow to. -/
def State.autoPart (s : State) (p : Nat) : Bool := cfgAuto (s.stowCfg p) && stageState (s.stageRec p) == 1 && s.stowable p

/-- A write of STOW_REQUEST: an automatic request of every AUTO partition that runs, not passed on (R415). -/
def serveStowRequest : Serve := fun _ _ q s =>
  { state := ((List.range 16).foldl (fun s p => if s.autoPart p then s.requestStow p q.value else s) s).takeStows }

/-- STOW_REQUEST. -/
def execStowRequest (o : Origin) (target : BitVec 32) (s : State) : Res :=
  .next (s.receiveOwn serveStowRequest (ownWrite o Pd.stowRequest 0 (natLE 4 target.toNat)))

/-- A Stow START (R428). -/
def serveStowStart : Serve := fun _ _ q s =>
  let parts := (List.range 16).filter fun p => (listField q.data 0 2).testBit p
  let when_ := listField q.data 2 1
  let t := listField q.data 4 4
  if parts.isEmpty ∨ 1 < when_ ∨ parts.any fun p => !s.stowable p then refuse s St.invalidValue
  else if s.opBusy 3 then refuse s St.busy
  else if s.opActive 4 then refuse s St.conflict
  else
    let s := s.openRun parts
    let s := parts.foldl (fun s p =>
      let x := s.stage p
      let target := if t = 0 then stgStep (s.stageRec p) + (1 - when_) else t
      s.setStage p { x with stowTarget := some (min target (x.stowTarget.getD target)) }) s
    let s := s.takeStows
    acceptedStart s 3 ((s.op 3).state == 1)

/-- STOW_START. -/
def execStowStart (o : Origin) (mask : BitVec 16) (whenNext : BitVec 8) (target : BitVec 32) (s : State) : Res :=
  .next (s.receiveOwn serveStowStart (ownWrite o Pd.stowStart 0
    (natLE 2 mask.toNat ++ [whenNext, 0] ++ natLE 4 target.toNat)))

/-! ### The end of an image (R430, R431) -/

/-- The result record of an image (Table 16-5). -/
def imageRecord (i : StowImage) (code : BitVec 16) (partner host : Bool) : List Byte :=
  codeBytes code ++ natLE 1 i.part ++ natLE 1 (bit01 partner + 2 * bit01 host) ++ natLE 1 (i.partner.elim 0xFF fun e => e.2)
    ++ natLE 1 i.feed ++ [0, 0] ++ natLE 4 i.step ++ natLE 4 i.number

/-- The result slots of an image: its own, then its blocks'. -/
def State.fillImage (s : State) (i : StowImage) (code : BitVec 16) (partner host : Bool) : State :=
  match s.stow.run with
  | none => s
  | some r =>
    let before := r.parts.filter fun e => decide (e.1 < i.part)
    let mine := (r.parts.find? fun e => e.1 == i.part).elim 0 (·.2)
    let base := r.parts.length + before.foldl (fun n e => n + e.2) 0
    let block : BitVec 16 := if partner || host then St.ok else if code = St.aborted then St.aborted else St.unreachable
    ((i.crcs.zipIdx.take mine).foldl (fun s e => s.opFill 3 (base + e.2)
      (codeBytes block ++ natLE 1 i.part ++ natLE 1 (bit01 partner + 2 * bit01 host) ++ natLE 4 e.2 ++ natLE 4 e.1.toNat ++ natLE 4 0)) s).opFill
      3 before.length (imageRecord i code partner host)

/-- The run ends once every partition's image has (R430); requests that waited open the next. -/
def State.endStowRun (s : State) : State :=
  match s.stow.run with
  | none => s
  | some r =>
    let codes := r.images.filterMap (·.ended)
    if codes.length < r.parts.length then s
    else
      let bad := (codes.filter fun c => c == St.stowIncomplete || c == St.aborted).length
      let s := if bad = 0 then s.opEnd 3 3 (if codes.any (· == St.singleFeed) then St.singleFeed else St.ok)
        else if bad < codes.length then s.opEnd 3 3 St.partialRun
        else s.opEnd 3 4 St.stowIncomplete
      let s := { s with stow := { s.stow with run := none } }
      let next := (List.range 16).filter fun p => (s.stage p).stowTarget.isSome
      if next.isEmpty then s else s.openRun next

/-- An image ends with a code and the destinations that hold it whole. -/
def State.endImage (s : State) (i : StowImage) (code : BitVec 16) (partner host : Bool) : State :=
  let rec_ := imageRecord i code partner host
  let s := s.fillImage i code partner host
  let s := s.record (if code = St.stowIncomplete then 0x01 else 0x0A) code 8 i.part rec_
  let last := codeBytes code ++ natLE 1 (bit01 partner + 2 * bit01 host) ++ [0] ++ natLE 4 i.step ++ natLE 4 i.number
    ++ natLE 4 (s.time - i.started) ++ natLE 8 s.time
  let s := s.wr Pd.lastStow i.part (leNat last)
  let s := if code = St.ok ∨ code = St.singleFeed then s.bump Pd.stowsCompleted else s
  let s := if code = St.singleFeed then s.bump Pd.singleFeedStows else s
  let s := s.bump Pd.stowBytes (i.bytes * (bit01 partner + bit01 host))
  let flip := fun (t : Tab Nat) (k : Nat) => tset 0 t k (1 - tget 0 t k)
  let slots := if partner then flip s.stow.nextSlot (5 * i.part + i.partner.elim 0 fun e => e.1) else s.stow.nextSlot
  let slots := if host then flip slots (5 * i.part + 4) else slots
  let kept : HeldImage :=
    { part := i.part, step := i.step, held := i.held, partner := if partner then i.partner.map fun e => (e.2, e.1, i.slot) else none
      host := if host then some i.hostSlot else none }
  let held := s.stow.held.filter fun h => h.part != i.part || h.step != i.step
  let s := { s with stow := { s.stow with nextSlot := slots, held := if partner || host then held ++ [kept] else held } }
  let s := if partner || host then s.setStage i.part { s.stage i.part with sinceStow := 0 } else s
  let s := s.setImage { i with ended := some code }
  (s.endStowRun.resumeStage i.part).takeStows

/-- The header with COMPLETE set, once the rest is at its partner (R423). -/
def State.sendFinal (s : State) (i : StowImage) : State :=
  if i.finalSent then s
  else
    let i := { i with finalSent := true }
    (s.setImage i).toPartner i.part i 0 (i.finalHeader i.hostDone)

/-- STOW_IMAGE_DONE: an unreachable partner is replaced once by the next candidate; else the image ends (R430). An image that no
destination holds, with no partner at all and no host copy, ends STOW_INCOMPLETE as R430 says; SINGLE_FEED, which R2 and R422 speak of
too, is not recorded beside it (DESIGN CHOICE, log 178). -/
def execStowImageDone (part : Nat) (outcome : StowOutcome) (s : State) : Res :=
  match s.imageOf part with
  | none => .next s
  | some i =>
    if i.ended.isSome then .next s
    else
      let host := i.toHost && (i.hostDone || outcome.host)
      let s := if host && !i.hostDone then s.toHostCopy part i 0 (i.finalHeader true) else s
      let i := { i with hostDone := host }
      let s := s.setImage i
      let ends := fun (s : State) (partner : Bool) =>
        let s := if partner then s.sendFinal i else s
        let code : BitVec 16 := if (partner && !i.sameFeed) || host then St.ok else if partner then St.singleFeed else St.stowIncomplete
        s.endImage i code partner host
      if outcome.unreachable && i.partner.isSome && !i.restarted then
        let tried := i.tried ++ (i.partner.map fun e => e.1).toList
        let c := s.choosePartner (s.stowCfg part) tried
        match c.2.1 with
        | none => .next (ends c.1 false)
        | some e =>
          let i := { i with partner := some (e.1, e.2.1), feed := e.2.2, sameFeed := c.2.2, slot := c.1.stowSlot part e.1
                            tried := tried, restarted := true, finalSent := false }
          let i := { i with header := c.1.imageHeader part i }
          let s := c.1.setImage i
          .next (s.sendImage part i fun s o b => s.toPartner part i o b)
      else .next (ends s (outcome.partner && i.partner.isSome && !outcome.unreachable))

/-- The last transfer of an image's body has been acknowledged: its final header follows, once it is known whether a host copy that is
under way has been written (R422). -/
def State.stowAcked (s : State) (p : Nat) : State :=
  match s.imageOf p with
  | none => s
  | some i =>
    if i.ended.isNone && (!i.toHost || i.hostDone) && !(s.causeway.unacked.any fun e => e.2.any fun t => t.purpose == .stow p) then s.sendFinal i else s

/-! ### The check page (R427) -/

/-- What a group's last reduction says of the step that ends: its contributors and whether a block was carried in FP32. -/
def State.stepReduction (s : State) (p g : Nat) : Option (Nat × Bool) :=
  let now := s.rd Pd.lastReduction g
  match (s.stage p).noted.find? fun e => e.1 == g with
  | some e =>
    if e.2.2 = now then none
    else
      let full := 2 ^ grpCount (s.groupRec g) - 1
      some (full - byteField now 8 8 &&& full, byteField now 20 4 != 0)
  | none => none

/-- The check page of a step with its loss. -/
def State.checkPage (s : State) (p step : Nat) (loss : F32) : List Byte :=
  let gs := maskGroups (cfgGroups (s.stowCfg p))
  let found := fun g => if gs.contains g then s.stepReduction p g else none
  let fallback := gs.any fun g => match s.stepReduction p g with
    | some x => x.2
    | none => false
  let page := padTo 64 (natLE 4 step ++ natLE 4 loss.toNat ++ natLE 1 (1 + 2 * bit01 fallback))
    ++ (List.range 64).flatMap (fun g => natLE 8 (match found g with
      | some x => x.1
      | none => 0))
  let page := padTo 4092 page
  page ++ natLE 4 (crc32 page).toNat

/-- The step with number `step` has ended: its check page goes to every destination that still holds the image. -/
def State.writeCheckPages (s : State) (p step : Nat) (loss : F32) : State :=
  let mine := s.stow.held.filter fun h => h.part == p && h.step == step
  let page := s.checkPage p step loss
  let w := s.stowCfg p
  let s := mine.foldl (fun s h =>
    let s := match h.partner with
      | some (q, c, slot) =>
        (pieces 2048 page.length page).zipIdx.foldl (fun s e =>
          (s.sendTransfer q (.stow p) (s.writePackets q (cfgArea w c + slot * cfgSlotBytes w + 4096 + 2048 * e.2) e.1)).1) s
      | none => s
    match h.host with
    | some slot => (pieces 64 page.length page).zipIdx.foldl (fun s e =>
        s.emit (.hostWrite (cfgHostArea w + slot * cfgHostSlot w + 4096 + 64 * e.2) e.1)) s
    | none => s) s
  { s with stow := { s.stow with held := s.stow.held.filter fun h => !(h.part == p && h.step == step) } }

/-! ### A partition reset ends its image (R430, spec/11 R315) -/

/-- The image of a partition ends ABORTED, and its hold with the reset. -/
def State.abortImage (s : State) (p : Nat) : State :=
  match s.imageOf p with
  | some i => if i.ended.isNone then s.endImage i St.aborted false false else s
  | none => s

/-- PARTITION_RESET's write (spec/11 R315): the partition reset, and a stow image of it ended. -/
def servePartReset : Serve := fun role e q s =>
  let r := servePartitionReset role e q s
  if isFailure r.status then r else { r with state := r.state.abortImage q.value }

/-- PARTITION_RESET. -/
def execPartitionReset (o : Origin) (part : BitVec 8) (s : State) : Res :=
  .next (s.receiveOwn servePartReset (ownWrite o Pd.partitionReset 0 [part]))

end Sys2Proof.Machine
end

