-- ==== Sys2Proof/Machine/Restore.lean ====
section
/-!
DEFINITION. Restoring, chapter 16: the image read from a partner or from host memory, and what is made of it (R432 to
R434).
-/
namespace Sys2Proof.Machine

/-! ### Reading the image (R432) -/

/-- Where a slot's bytes begin among those read. -/
def slotKey (slot : Nat) : Nat := slot * 2 ^ 42

/-- Bytes of a slot as read. -/
def RestoreRun.read (r : RestoreRun) (slot off n : Nat) : List Byte := tgetMany 0 r.bytes (slotKey slot + off) n

/-- Whether a slot's header as read heads a whole image (R423, R433). -/
def RestoreRun.headerOk (r : RestoreRun) (slot : Nat) : Bool :=
  let h := r.read slot 0 4096
  listField h 0 4 == 0x574F5453 && listField h 4 1 == 1 && (listField h 7 1).testBit 0
    && listField h 4092 4 == (crc32 (h.take 4092)).toNat

/-- STOW_NUMBER of a slot's header. -/
def RestoreRun.number (r : RestoreRun) (slot : Nat) : Nat := listField (r.read slot 8 4) 0 4

/-- The slot a restore takes: the newest complete image, or the other (R432). -/
def RestoreRun.pick (r : RestoreRun) : Option Nat :=
  let whole := [0, 1].filter fun i => r.headerOk i
  let newest := match whole with
    | [a, b] => if r.number a < r.number b then some b else some a
    | [a] => some a
    | _ => none
  if r.other then newest.bind fun n => if r.headerOk (1 - n) then some (1 - n) else none else newest

/-- The restore run, set. -/
def State.setRestore (s : State) (r : RestoreRun) : State := { s with stow := { s.stow with restore := some r } }

/-- n bytes of a slot asked for from an offset: READ transfers to the partner, of at most 2 MiB, or lines of host memory. -/
def State.askSlot (s : State) (r : RestoreRun) (slot off n : Nat) : State :=
  let w := s.stowCfg r.part
  let cuts := (List.range ((n + 0x1FFFFF) / 0x200000)).map fun i => (off + 0x200000 * i, min 0x200000 (n - 0x200000 * i))
  if r.source = 0 then
    let q := cfgPartner w r.cand
    cuts.foldl (fun s e => (s.sendTransfer q (.restore (slotKey slot + e.1))
      (s.readPackets q (cfgArea w r.cand + slot * cfgSlotBytes w + e.1) e.2)).1) s
  else
    let a := cfgHostArea w + slot * cfgHostSlot w + off
    let lines := (List.range ((n + 63) / 64)).map fun i => (a / 64 + i, slotKey slot + off + 64 * i)
    (lines.foldl (fun s e => s.emit (.hostRead (64 * e.1) 64)) s).setRestore { r with lines := r.lines ++ lines }

/-- The next candidate from number c on that can be reached; 4: none. -/
def State.nextCandidate (s : State) (w : Nat) (c : Nat) : Nat :=
  ((List.range 4).find? fun i => decide (c ≤ i) && decide (cfgPartner w i < 64) && cfgPartner w i != s.position
    && (s.route (cfgPartner w i)).isSome).getD 4

/-- The headers of both slots of a candidate, or of the host area, asked for. -/
def State.askHeaders (s : State) (r : RestoreRun) : State :=
  let c := if r.source = 0 then s.nextCandidate (s.stowCfg r.part) r.cand else 4
  let r := { r with cand := c, bytes := [], seen := [], chosen := none }
  let s := s.setRestore r
  if r.source = 0 ∧ c = 4 then s
  else
    let s := s.askSlot r 0 0 4096
    s.askSlot (s.stow.restore.getD r) 1 0 4096

/-- Everything asked for is here: a slot is chosen and its rest asked for, or the next candidate tried. -/
def State.restoreOn (s : State) : State :=
  match s.stow.restore with
  | none => s
  | some r =>
    let waits := !r.lines.isEmpty || s.causeway.unacked.any fun e => e.2.any fun t => match t.purpose with
      | .restore _ => true
      | _ => false
    if waits || r.chosen.isSome then s
    else match r.pick with
      | some slot =>
        let r := { r with chosen := some slot }
        let size := listField (r.read slot 208 8) 0 8 % 2 ^ 42
        (s.setRestore r).askSlot r slot 4096 (size - 4096)
      | none => if r.source = 0 ∧ r.cand < 4 then s.askHeaders { r with cand := r.cand + 1 } else s

/-- Bytes that have come for a restore; whether the transfer of `count` packets they are of is complete. -/
def State.restoreBytes (s : State) (key index count : Nat) (bytes : List Byte) : State × Bool :=
  match s.stow.restore with
  | none => (s, true)
  | some r =>
    let seen := if (tget [] r.seen key).contains index then tget [] r.seen key else index :: tget [] r.seen key
    (s.setRestore { r with bytes := tsetMany 0 r.bytes (key + 256 * index) bytes, seen := tset [] r.seen key seen },
     decide (count ≤ seen.length))

/-- Whether every task list of a partition is STOPPED or FAILED. -/
def State.listsStill (s : State) (p : Nat) : Bool :=
  (List.range 66).all fun u => [0, 3].contains (listState (s.listRec u p))

/-- A Restore START (R432). The groups it can check are those the configuration carries (log 43). -/
def serveRestoreStart : Serve := fun _ _ q s =>
  let p := listField q.data 0 1
  let source := listField q.data 1 1
  let slot := listField q.data 2 1
  let force := listField q.data 3 1 % 2
  if 16 ≤ p ∨ 1 < source ∨ 1 < slot then refuse s St.invalidValue
  else if s.opBusy 4 then refuse s St.busy
  else if s.opActive 3 then refuse s St.conflict
  else if !([0, 3].contains (stageState (s.stageRec p))) || !s.listsStill p || (maskGroups (cfgGroups (s.stowCfg p))).any (fun g => s.groupBusy g) then
    refuse s St.busy
  else
    let r : RestoreRun :=
      { part := p, source := source, other := slot == 1, force := if force = 1 then some (listField q.data 4 4) else none }
    let fresh := (List.range 1536).filter fun n => !s.sharedMode n
    let s := (s.opStart 4 2 (1 + bodyBlocks (s.bodyBytes p))).setReg Pd.conflictOccasion 3
    let s := fresh.foldl (fun s n => s.wr Pd.conflictCounters n 0) s
    let s := s.askHeaders r
    acceptedStart s 4 false

/-- RESTORE_START. -/
def execRestoreStart (o : Origin) (part source slot flags : BitVec 8) (forced : BitVec 32) (s : State) : Res :=
  .next (s.receiveOwn serveRestoreStart (ownWrite o Pd.restoreStart 0 ([part, source, slot, flags] ++ natLE 4 forced.toNat)))

/-- D2H_COMPLETION: a line of host memory arrives for a restore; the completion of a write changes nothing here. -/
def execD2hCompletion (line : Nat) (bytes : List Byte) (s : State) : Res :=
  match s.stow.restore with
  | none => .next s
  | some r =>
    match r.lines.find? fun e => e.1 == line with
    | none => .next s
    | some e =>
      let r := { r with lines := r.lines.erase e, bytes := tsetMany 0 r.bytes e.2 (padTo 64 bytes) }
      .next ((s.setRestore r).cacheLine line false).restoreOn

/-! ### What the image holds (R424) -/

/-- A part of the body: where it begins, and what follows it. -/
structure ImageParts where
  regions  : List (Nat × Nat)
  groups   : List (Nat × Nat × List Byte)
  counters : List (Nat × Nat)
  data     : Nat
deriving DecidableEq, Repr

/-- The groups of a body from an offset: number, record, scale table; the table is as long as the group's descriptors say
(log 43). Answers the offset after them. -/
def State.readGroups (s : State) (body : Nat → Nat → List Byte) (p : Nat) : Nat → List Nat → Nat × List (Nat × Nat × List Byte)
  | off, [] => (off, [])
  | off, g :: gs =>
    let w := listField (body off 128) 0 128
    let t := (s.wr Pd.groupTable g w).setEstGroup g { part := p, descs := [] }
    let n := 4 * t.groupBlocks g
    let r := State.readGroups s body p (off + 256 + align256 n) gs
    (r.1, (g, w, body (off + 256) n) :: r.2)

/-- The parts of the chosen slot's body. -/
def State.imageParts (s : State) (r : RestoreRun) (slot : Nat) : ImageParts :=
  let h := r.read slot 0 4096
  let body := fun o n => r.read slot (8192 + o) n
  let regions := (List.range (listField h 204 4)).map fun i =>
    (listField (body (16 * i) 16) 0 8 % 2 ^ 44, listField (body (16 * i) 16) 8 8)
  let g := s.readGroups body r.part (align256 (16 * regions.length)) (maskGroups (listField h 192 8))
  let counters := (List.range (listField h 200 4)).map fun i =>
    let b := body (g.1 + 16 * i) 16
    (listField b 0 4, listField b 8 8)
  { regions := regions, groups := g.2, counters := counters, data := g.1 + align256 (16 * counters.length) }

/-- Why steps 1 to 3 of R433 fail. -/
def State.restoreFault (s : State) (r : RestoreRun) : Option (BitVec 16) :=
  match r.chosen with
  | none => some St.stowIncomplete
  | some slot =>
    let h := r.read slot 0 4096
    if !r.headerOk slot then some St.stowIncomplete
    else if listField h 5 1 ≠ r.part ∨ listField h 6 1 ≠ s.position then some St.invalidValue
    else if r.force.isNone && listField h 32 4 != listField h 16 4 then some St.stowMismatch
    else if !(s.imageParts r slot).regions.all fun e => s.rangeUsable e.1 e.2 then some St.invalidValue
    else if (maskGroups (listField h 192 8)).any fun g => s.groupBusy g then some St.busy
    else none

/-- Bytes of native memory made free values: regions a failed restore leaves undefined. -/
def State.undefine (s : State) (a n : Nat) : State :=
  let bs := (List.range n).map fun i => BitVec.ofNat 8 (Config.free (s.fresh + i))
  { s.viewWrite a bs with fresh := s.fresh + n }

/-- Step 4: a group's record and scale table; a micro-batch image's CARRY is cleared. -/
def State.restoreGroup (s : State) (p : Nat) (micro : Bool) (x : Nat × Nat × List Byte) : State :=
  let g := x.1
  let w := setByteField x.2.1 76 2 0
  let e := s.estuary
  let s := { s.wr Pd.groupTable g w with
    estuary := { e with sums := e.sums.filter fun y => y.group != g, reds := e.reds.filter fun y => y.1 / 2 ^ 32 != g
                        groups := tset {} e.groups g { part := p, descs := [] } } }
  let table := if micro then
      (x.2.2.zipIdx.map fun b => if b.2 % 4 = 1 then b.1 &&& 0xFE else b.1)
    else x.2.2
  s.harbourWrite (grpScale w) table

/-- The regions written from the body, in order. -/
def State.restoreRegions (r : RestoreRun) (slot : Nat) : Nat → List (Nat × Nat) → State → State
  | _, [], s => s
  | off, e :: es, s =>
    let s := s.viewWrite e.1 (r.read slot (8192 + off) e.2)
    State.restoreRegions r slot (off + e.2) es s

/-- The blocks of the body with their CRC-32 as read, and whether the block table agrees. -/
def RestoreRun.blocks (r : RestoreRun) (slot : Nat) : List (BitVec 32 × Bool) :=
  let size := listField (r.read slot 208 8) 0 8 % 2 ^ 42
  let n := ((List.range (size / 256 + 1)).find? fun k => imageSize (256 * k) == size).getD 0
  let body := 256 * n
  (List.range (bodyBlocks body)).map fun i =>
    let c := crc32 (r.read slot (8192 + 0x200000 * i) (min 0x200000 (body - 0x200000 * i)))
    (c, c.toNat == listField (r.read slot (8192 + body + 4 * i) 4) 0 4)

/-- Step 7: stage record, loss, cursors and keys. -/
def State.restoreStage (s : State) (r : RestoreRun) (h : List Byte) : State :=
  let p := r.part
  let w := s.stageRec p
  let step := r.force.getD (listField h 16 4)
  let w := setByteField (setByteField (withStep w step) 76 1 (listField h 22 1)) 80 2 (listField h 24 2)
  ((((s.setStageRec p w).wr Pd.lastLoss p (listField h 28 4)).wr Pd.dataCursor p (listField h 32 32)).wr Pd.keyTable p
    (listField h 64 128)).wr Pd.nextCursor p 0

/-- Whether a check page as read is valid. -/
def checkValid (c : List Byte) : Bool := (listField c 8 1).testBit 0 && listField c 4092 4 == (crc32 (c.take 4092)).toNat

/-- Step 8: REPLAY_MASK of the carried groups, and the replay check armed. -/
def State.armReplay (s : State) (r : RestoreRun) (h c : List Byte) : State :=
  let s := (maskGroups (listField h 192 8)).foldl (fun s g =>
    let m := listField c (64 + 8 * g) 8
    if m = 0 then s else s.wr Pd.groupTable g (setByteField (s.groupRec g) 64 8 m)) s
  let fall := s.stow.fallback.filter fun p => p != r.part
  { s.wr Pd.replayCheck r.part (leNat ([0, 0, 1, 0] ++ c.take 4 ++ natLE 4 0 ++ (c.drop 4).take 4)) with
    stow := { s.stow with fallback := if (listField c 8 1).testBit 1 then r.part :: fall else fall } }

/-- The restore ends: its result slots, whose number START fixed from the partition's configuration (spec/03 R86, log 184), its status; a
failure is recorded (spec/17 Table 17-1). -/
def State.endRestore (s : State) (r : RestoreRun) (code : BitVec 16) (blocks : List (BitVec 32 × Bool)) (valid : Bool) : State :=
  let slot := r.chosen.getD 0
  let h := r.read slot 0 4096
  let set_ := r.force.getD (listField h 16 4)
  let rec_ := codeBytes code ++ natLE 1 r.source ++ natLE 1 slot
    ++ (if r.chosen.isSome then natLE 4 (listField h 16 4) ++ natLE 4 (if isFailure code then 0 else set_) else natLE 8 0)
    ++ natLE 4 (bit01 valid)
  let s := s.opFill 4 0 rec_
  let s := (blocks.take ((s.op 4).slots - 1)).zipIdx.foldl (fun s e => s.opFill 4 (1 + e.2)
    (codeBytes (if e.1.2 then St.ok else St.stowIncomplete) ++ [0, 0] ++ natLE 4 e.2 ++ natLE 4 e.1.1.toNat ++ natLE 4 0)) s
  let s := { s with stow := { s.stow with restore := none } }
  if isFailure code then (s.record 0x01 code 8 r.part rec_).opEnd 4 4 code else s.opEnd 4 3 code

/-- RESTORE_DONE: the order of R433 carried out on what has been read. -/
def execRestoreDone (s : State) : Res :=
  match s.stow.restore with
  | none => .next s
  | some r =>
    match s.restoreFault r with
    | some code => .next (s.endRestore r code [] false)
    | none =>
      let slot := r.chosen.getD 0
      let h := r.read slot 0 4096
      let parts := s.imageParts r slot
      let micro := (listField h 7 1).testBit 1
      let s := parts.groups.foldl (fun s x => s.restoreGroup r.part micro x) s
      let s := parts.counters.foldl (fun s e => s.ctrOp .dictionary 5 0 e.1 e.2) s
      let blocks := r.blocks slot
      if blocks.any fun b => !b.2 then
        let s := parts.regions.foldl (fun s e => s.undefine e.1 e.2) s
        .next (s.endRestore r St.stowIncomplete blocks false).settle
      else
        let s := State.restoreRegions r slot parts.data parts.regions s
        let s := s.restoreStage r h
        let c := r.read slot 4096 4096
        let s := if checkValid c then s.armReplay r h c else s
        .next (s.endRestore r St.ok blocks (checkValid c)).settle

/-! ### Transfers end (spec/12 R339) -/

/-- What a transfer was for is told how it ended. -/
def State.transferDone (s : State) (t : Transfer) (code : BitVec 16) : State :=
  match t.purpose with
  | .window id => (s.windowAnswer id code).sendWindows
  | .mirror i =>
    if isFailure code then s.setMirror i { s.mirror i with inFlight := none, waiting := true } else s.mirrorDone i
  | .snoop =>
    if isFailure code then
      let lines := t.packets.map fun k => k.address.toNat / 64
      { s with host := { s.host with snooped := s.host.snooped.filter fun l => !lines.contains l } }
    else s
  | .stow p => if isFailure code then s else s.stowAcked p
  | .restore _ => s.restoreOn
  | _ => s

end Sys2Proof.Machine
end

