-- ==== Sys2Proof/Machine/Islands.lean ====
section
/-!
DEFINITION. Clock islands, chapter 02: fences and what they carry over to, crossings and their credits, slotted fabrics and
their Tide Tables.
-/
namespace Sys2Proof.Machine

/-! ### Fences of units (R48) -/

/-- Codes of Table 02-4. -/
def classCode : TideClass → Nat
  | .af => 0
  | .ts => 1
  | .es => 2
  | .ci => 3
  | .ho => 4
  | .ma => 5

/-- The credit pool of an entry: its class's where it goes into or comes out of a slotted port, else the crossing's (R49,
R52; log 159). -/
def entryPool (e : CrossEntry) : Nat := if e.port.isSome || e.left.isSome then classCode e.cls + 1 else 0

/-- The credits of a pool of a crossing. -/
def Crossing.pool (x : Crossing) (k : Nat) : Nat := x.credits.getD k 0

/-- An entry written: it takes a credit of its pool. -/
def Crossing.push (x : Crossing) (e : CrossEntry) : Crossing :=
  { credits := x.credits.set (entryPool e) (x.pool (entryPool e) - 1), fifo := x.fifo ++ [e] }

/-- An entry removed: the sender gets the credit back. -/
def Crossing.drop (x : Crossing) (e : CrossEntry) : Crossing :=
  { credits := x.credits.set (entryPool e) (x.pool (entryPool e) + 1), fifo := x.fifo.erase e }

/-- The entries that wait in an island's crossings go back to their senders with FENCED (R47). -/
def State.closeCrossings (s : State) (n : Nat) : State :=
  s.crossings.foldl (fun s e =>
    if e.1 / 128 = n ∨ e.1 % 128 = n then
      let s := e.2.fifo.foldl (fun s x => s.emit (.crossingStatus (e.1 / 128) (e.1 % 128) x.tag St.fenced)) s
      s.setCrossing (e.1 / 128) (e.1 % 128) (e.2.fifo.foldl Crossing.drop e.2)
    else s) s

/-- Tasks of unit u that it has not started: released tasks waiting for rooms, and tasks to run again; they end with FENCED
(spec/11 R317). -/
def State.fenceWaiting (s : State) (u : Nat) : State :=
  let waiting := (s.specOf u).filter fun x => !x.started
  let s := (waiting.map (·.task) ++ tget [] s.reruns u).foldl (fun s t => s.endTask t St.fenced 0) s
  { s.setSpec u ((s.specOf u).map fun x => { x with started := true }) with reruns := tset [] s.reruns u [] }

/-- The Headland fenced: its tasks complete with FENCED (spec/08 R218, R470). -/
def State.fenceHeadland (s : State) : State :=
  let s := s.setFlags Pd.islandFenced 2
  let h := s.headland
  let s := (h.running.toList ++ h.shadow.toList ++ h.draining).foldl (fun s a => s.headFail a St.fenced) s
  let done := s.takeFinished fun _ => true
  let s := (done.2.spoil St.fenced done.1).spoil St.fenced s.headland.rerun
  ({ s with headland := { s.headland with rerun := [], failed := [] } }).fenceWaiting 0

/-- Tideway engine n fenced (spec/09 R262). -/
def State.fenceTideway (s : State) (n : Nat) : State := (s.fenceEngine n 2).fenceWaiting (n + 1)

/-- The rooms of House island k. -/
def islandRooms (k : Nat) : List Nat := (List.range 192).map fun i => 192 * k + i

/-- A transpose that runs in a wing ends with FENCED. -/
def State.stopTranspose (s : State) (w : Nat) : State :=
  if (tget none s.transposes w).isSome then
    { s with transposes := tset none s.transposes w none }.emit (.transposeReply w St.fenced)
  else s

/-- Whether a task's descriptors reach Landing rooms. -/
def usesLanding (ds : List Desc) : Bool :=
  ds.any fun d => d.footprint.any fun x => decide ((roomAddr 1504 0 : Int) ≤ x.2) && decide (x.1 < roomAddr 1536 0)

/-- Estuary tasks that satisfy a test end with FENCED, their results undefined (spec/13 R363, R373). -/
def State.fenceEstuaryTasks (s : State) (which : EstTask → Bool) : State :=
  (s.estuary.tasks.filter which).foldl (fun s e =>
    s.estEnd e St.fenced (some (e.place.resultDesc (e.step / max 1 (grpSteps (s.groupRec e.group)))))) s

/-- House island k fenced: its rooms, its counters, the Headland, the engine tasks that use its rooms (spec/09 R261); with island 73
the Landing's Estuary tasks. -/
def State.fenceHouse (s : State) (k : Nat) : State :=
  let s := (islandRooms k).foldl (fun s r => if s.roomFenced r then s else s.fenceRoom r) s
  let s := ((List.range 6).map (6 * k + ·)).foldl (fun s w => s.stopTranspose w) s
  let s := s.fenceHeadland
  let s := (List.range 64).foldl (fun s n => match (s.engine n).running with
    | some x => if (x.task.descs.any s.inFencedIsland) || (x.block.stage && (stagingRooms x.block.stageRoom x.block.stageCount).any fun r => r / 192 == k)
        then s.tideFail n x St.fenced else s
    | none => s) s
  if k = 7 then s.fenceEstuaryTasks fun e => usesLanding (e.task.descs ++ e.place.descs) else s

/-- The Estuary fenced: its tasks complete with FENCED, it takes no further part (spec/13 R363). -/
def State.fenceEstuary (s : State) : State :=
  let s := s.fenceEstuaryTasks fun _ => true
  ({ s with estuary := { s.estuary with sums := [] } }).fenceWaiting 65

/-- Forwarding stops: every port is taken as down, nothing is reached any more, and every transfer and forwarded request of the
module completes with UNREACHABLE (R48). -/
def State.fenceForwarding (s : State) : State :=
  let ports := (List.range 20).filter fun p => [1, 2, 5].contains (s.portState p)
  let s := ports.foldl (fun s p => (s.clearPort p).setPortState p 3) s
  let s := (s.wr Pd.linkMap s.position 0)
  let s : State := { s with power := { s.power with forwarding := false, routed := false } }
  let lost := s.causeway.unacked
  let s : State := { s with causeway := { s.causeway with unacked := [] } }
  let s := lost.foldl (fun s e => e.2.foldl (fun s t => s.transferDone t St.unreachable) s) s
  (s.gdp.inflight.filter fun p => p.wait.isForwarded).foldl (fun s p => s.answer p St.unreachable) s

/-- What the fence of island n carries over to. -/
def State.fenceDependents (s : State) (n : Nat) : State :=
  if n = 1 then s.fenceHeadland
  else if n ≤ 65 then s.fenceTideway (n - 2)
  else if n ≤ 73 then s.fenceHouse (n - 66)
  else if n ≤ 93 then (if s.cliffFenced (n - 74) then s else s.fenceCliff (n - 74))
  else if n = 94 then s.fenceEstuary
  else if n = 95 then s.fenceForwarding
  else if s.portState (n - 96) = 4 then s else s.failPort (n - 96)

/-- An island fenced, with one entry and one vector (R47, R48, spec/15 R408). A fence stops the island, and ISLAND_LOCKED shows
it unlocked, whatever made the fence (log 161). -/
def State.fenceIsland (s : State) (n : Nat) : State :=
  let s := (s.setFlags Pd.islandFenced (2 ^ n)).clearFlags Pd.islandLocked 128 (2 ^ n)
  (((s.closeCrossings n).fenceDependents n).announceFence St.fenced 6 n []).settle

/-- ISLAND_LOCK_LOSS: after READY; the Harbour's makes a module reset, and its Landfall writes the entry. An island fenced
already only shows its clock unlocked (PD 0x2400.02). -/
def execIslandLockLoss (island : Nat) (s : State) : Res :=
  if !s.isReady || decide (116 ≤ island) then .next s
  else if s.islandFenced island then .next (s.clearFlags Pd.islandLocked 128 (2 ^ island))
  else if island = 0 then
    let t := (s.moduleReset false).record 0x01 St.fenced 6 0 []
    .next (if t.mayBoot then t.stepTwo else t)
  else .next (s.fenceIsland island)

/-- ENGINE_CHECK_FAILURE: the engine's island is fenced (spec/09 R262). -/
def execEngineCheckFailure (engine : Nat) (s : State) : Res :=
  if s.isReady && decide (engine < 64) && !s.islandFenced (engine + 2) then .next (s.fenceIsland (engine + 2)) else .next s

/-! ### Crossings (R49) -/

/-- CROSSING_ENTRY: written while the sender holds a credit; a closed crossing refuses it with FENCED (R47). -/
def execCrossingEntry (src dst : Nat) (entry : CrossEntry) (s : State) : Res :=
  let e := { entry with left := none }
  let x := s.crossing src dst
  if s.islandFenced src || s.islandFenced dst then .next (s.emit (.crossingStatus src dst e.tag St.fenced))
  else if x.pool (entryPool e) = 0 then .next s
  else .next (s.setCrossing src dst (x.push e))

/-- The entries of a class that wait at a port. -/
def Port.waiting (x : Port) (c : Nat) : List CrossEntry := x.queues.getD c []

/-- Whether the receiver can take an entry: its class queue at the port has a place (R52). -/
def State.takes (s : State) (e : CrossEntry) : Bool :=
  match e.port with
  | none => true
  | some (f, p) => decide (((s.fabricPort f p).waiting (classCode e.cls)).length < 8)

/-- An entry joins its class queue at the port it is bound for (R52). -/
def State.joinPort (s : State) (e : CrossEntry) : State :=
  match e.port with
  | none => s
  | some (f, p) =>
    let x := s.fabricPort f p
    let c := classCode e.cls
    s.setFabricPort f p { x with queues := x.queues.set c (x.waiting c ++ [e]) }

/-- CROSSING_CREDIT: the receiver removes the oldest entry it can take, and the sender gets its credit back. A class whose
queue is full holds no other back (R52). -/
def execCrossingCredit (src dst : Nat) (s : State) : Res :=
  let x := s.crossing src dst
  match x.fifo.find? s.takes with
  | none => .next s
  | some e => .next ((s.setCrossing src dst (x.drop e)).joinPort e)

/-! ### Slots (R53 to R57, R62) -/

/-- The waiting entry of a class that goes first: in MA the lowest level of R62, then the oldest. -/
def firstWaiting (c : Nat) (q : List CrossEntry) : Option CrossEntry :=
  if c = 5 then
    match (List.range 7).find? fun l => q.any fun e => e.level == l with
    | some l => q.find? fun e => e.level == l
    | none => q.head?
  else q.head?

/-- A port's slot of class c: what moves, and whether maintenance took a host slot (R55). Before READY nothing but
maintenance moves (R57). -/
def slotChoice (ready : Bool) (c : Nat) (queues : List (List CrossEntry)) : Option (CrossEntry × Nat × Bool) :=
  let at_ := fun (k : Nat) => firstWaiting k (queues.getD k [])
  if !ready then (at_ 5).map fun e => (e, 5, false)
  else match at_ c with
    | some e => some (e, c, false)
    | none => if c = 4 then (at_ 5).map fun e => (e, 5, true) else none

/-- An entry as its port moves it into the crossing it writes. -/
def leaving (e : CrossEntry) (f p : Nat) : CrossEntry := { e with port := none, out := none, left := some (f, p) }

/-- Whether the transfer holds a credit for its output (R52). -/
def State.mayLeave (s : State) (e : CrossEntry) : Bool :=
  match e.out with
  | none => true
  | some (a, b) => decide (0 < (s.crossing a b).pool (classCode e.cls + 1))

/-- A transfer moves: into the crossing it writes, where it writes one. -/
def State.leavePort (s : State) (f p : Nat) (e : CrossEntry) : State :=
  let s := s.emit (.slotTransfer f p e.cls e.tag)
  match e.out with
  | none => s
  | some (a, b) => s.setCrossing a b ((s.crossing a b).push (leaving e f p))

/-- TIDE_SLOT: port n of the House crossbar, n below 64, is engine n's, whose transfer of line reads and writes goes in a TS slot
(spec/09 R226, log 175). The port takes up the table in use at its slot 0, then moves at most one transfer, which holds the credit of
its output (R52, R53, R59). -/
def execTideSlot (fabric port : Nat) (s : State) : Res :=
  if fabric = 0 ∨ 4 < fabric then .next s
  else
    let x := s.fabricPort fabric port
    let table := if x.slot = 0 then s.activeTable fabric else x.table.getD (s.activeTable fabric)
    let c := (table.getD x.slot 0).toNat % 8
    let x := { x with slot := (x.slot + 1) % 256, table := some table }
    match (slotChoice s.isReady c x.queues).filter fun m => s.mayLeave m.1 with
    | none =>
      let s := s.setFabricPort fabric port x
      .next (if s.isReady && fabric == 1 && c == 1 && decide (port < 64) && (s.unitPort (port + 1)).waits then s.sendTransferOf (port + 1)
        else s.bump (Pd.idleSlots + fabric - 1))
    | some (e, k, took) =>
      let s := s.setFabricPort fabric port { x with queues := x.queues.set k ((x.waiting k).erase e) }
      let s := if took then s.bump (Pd.hostToMaint + fabric - 1) else s
      .next (s.leavePort fabric port e)

/-! ### Rewriting a table (R58, R59) -/

/-- Classes permitted on a fabric (Table 02-3). -/
def fabricPermits (f c : Nat) : Bool :=
  if f ≤ 2 then decide (c ≤ 5) else if f = 3 then [2, 1, 4, 5].contains c else [4, 5].contains c

/-- Whether a table may be applied to a fabric (R59). -/
def tableValid (f : Nat) (t : List Byte) : Bool :=
  t.all (fun b => fabricPermits f (b.toNat % 8)) && decide (8 ≤ (t.filter fun b => b.toNat % 8 == 5).length)

/-- Whether a task uses a fabric: every task crosses the House, those with Cliff operands the fill paths, the Estuary's the
injection ports; none is on the Harbour's Cliff access (log 36). -/
def taskUses (f : Nat) (t : Task) (ds : List Desc) : Bool :=
  match f with
  | 1 => true
  | 2 => ds.isEmpty || ds.any fun d => !d.footprint.all inHouse
  | 3 => t.unit == 65
  | _ => false

/-- A task's tensors: those of its descriptors, and of the group's for a task of the Estuary (spec/13 R353). -/
def State.tensorsOf (s : State) (t : Task) : List Desc :=
  t.descs ++ if t.unit = 65 then (s.estGroup t.estGroup).descs else []

/-- Whether an entry of a crossing goes into or comes out of a port of a fabric, maintenance aside (R58). -/
def atFabric (e : CrossEntry) (f : Nat) : Bool :=
  (e.port.any (·.1 == f) || e.left.any (·.1 == f)) && e.cls != .ma

/-- Whether a fabric is quiescent; until READY each is (R57, R58). -/
def State.quiescent (s : State) (f : Nat) : Bool :=
  !s.isReady ||
    (!(s.inFlight.any fun t => taskUses f t (s.tensorsOf t))
      && (f != 1 || s.unitPorts.all fun e => !e.2.waits)
      && s.ports.all (fun e => e.1 / 4096 != f || (e.2.queues.take 5).all List.isEmpty)
      && s.crossings.all fun e => e.2.fifo.all fun x => !atFabric x f)

/-- The staged table of a fabric. -/
def State.stagedTable (s : State) (f : Nat) : List Byte := natLE 256 (s.reg (Pd.tideStaged + f - 1))

/-- TIDE_APPLY_RESULT: the status and the fabrics applied. -/
def State.applyResult (s : State) (code : BitVec 16) (fabrics : Nat) : State :=
  s.setReg Pd.tideApplyResult (code.toNat * 65536 + fabrics)

/-- A write of TIDE_APPLY: all or nothing. -/
def serveTideApply : Serve := fun _ _ q s =>
  let set := q.value % 16
  let named := [1, 2, 3, 4].filter fun f => set.testBit (f - 1)
  if named.any fun f => !s.quiescent f then { state := s.applyResult St.notQuiescent 0, status := St.notQuiescent }
  else if named.any fun f => !tableValid f (s.stagedTable f) then
    { state := s.applyResult St.tableInvalid 0, status := St.tableInvalid }
  else
    let s := named.foldl (fun s f => s.setReg (Pd.tideActive + f - 1) (s.reg (Pd.tideStaged + f - 1))) s
    { state := s.resumeTransfers.applyResult St.ok set }

/-- TIDE_APPLY. -/
def execTideApply (o : Origin) (fabrics : BitVec 8) (s : State) : Res :=
  .next (s.receiveOwn serveTideApply (ownWrite o Pd.tideApply 0 [fabrics]))

end Sys2Proof.Machine
end

