-- ==== Sys2Proof/Machine/Causeway.lean ====
section
/-!
DEFINITION. The receiving side of the Causeway, chapter 12: the link layer of a port, forwarding for other modules, the
delivery of transfers end to end, acknowledgements, and the packets of the Estuary (spec/13 R360 to R363).
-/
namespace Sys2Proof.Machine

/-! ### Link layer (R331 to R334) -/

/-- A type that Table 12-3 does not have. -/
def unknownType (t : Nat) : Bool := t == 0 || decide (12 ≤ t)

/-- A packet on its way out of a port: acknowledgement and NACK filled in, CRC computed. A packet sent again carries the credits
it carried before: its receiver accepts each number once, so none is lost or returned twice (R332, R333). -/
def State.restamp (s : State) (p : Nat) (k : Packet) : Packet :=
  let x := s.cport p
  let k := { k with ack := x.nackOwed.getD x.rxSeq, ackValid := x.nackOwed.isNone || x.nackOwed == some x.rxSeq, nack := x.nackOwed.isSome }
  { k with crc := packetCrc k }

/-- A packet sent for the first time: it takes along credits that are owed. -/
def State.stamp (s : State) (p : Nat) (k : Packet) : Packet :=
  let x := s.cport p
  let vc := x.creditOwed.headD 0
  let n := min 15 (x.creditOwed.filter fun v => v == vc).length
  s.restamp p { k with creditVc := BitVec.ofNat 4 vc, credits := BitVec.ofNat 4 n }

/-- What a stamped packet carries is owed no longer. -/
def CausewayPort.paid (x : CausewayPort) (k : Packet) : CausewayPort :=
  let keep := (List.range k.credits.toNat).foldl (fun l _ => l.erase k.creditVc.toNat) x.creditOwed
  { x with nackOwed := none, ackOwed := false, creditOwed := keep }

/-- Packets of the retry buffer sent again from a sequence number onwards; a packet already sent 8 times fails the port. -/
def State.linkResend (s : State) (p : Nat) (seq : BitVec 12) : State :=
  let x := s.cport p
  let again := x.retry.dropWhile fun e => e.1.linkSeq != seq
  if again.isEmpty then s
  else if again.any fun e => decide (8 ≤ e.2) then s.portFails p
  else
    let kept := x.retry.take (x.retry.length - again.length)
    let s := (s.bump Pd.linkResends again.length).setCport p { x with retry := kept ++ again.map fun e => (e.1, e.2 + 1) }
    again.foldl (fun s e =>
      let k := s.restamp p e.1
      (s.setCport p { s.cport p with nackOwed := none, ackOwed := false }).emit (.packet p k)) s

/-- A header's acknowledgement and NACK. -/
def State.linkAck (s : State) (p : Nat) (k : Packet) : State :=
  let x := s.cport p
  let first := (x.retry.head?.elim x.txSeq fun e => e.1.linkSeq)
  let n := (k.ack - first).toNat
  let s := if k.ackValid ∧ n ≤ x.retry.length then s.setCport p { x with retry := x.retry.drop n } else s
  if k.nack then s.linkResend p k.ack else s

/-- Buffers at the other end that a header gives back. -/
def State.linkCredit (s : State) (p : Nat) (k : Packet) : State :=
  let x := s.cport p
  let v := k.creditVc.toNat
  s.setCport p { x with inUse := tset 0 x.inUse v (tget 0 x.inUse v - k.credits.toNat) }

/-- A packet leaves the receive buffer: its credit is owed (R333). -/
def State.freeBuffer (s : State) (p : Nat) (k : Packet) : State :=
  let x := s.cport p
  s.setCport p { x with creditOwed := x.creditOwed ++ [k.vc.toNat] }

/-- Whether a port's sender holds a credit for a channel: one of its 8, or one of the 384 shared (R333). -/
def CausewayPort.hasCredit (x : CausewayPort) (v : Nat) : Bool :=
  decide (tget 0 x.inUse v < 8) || decide (x.inUse.foldl (fun n e => n + (e.2 - 8)) 0 < 384)

/-! ### Forwarding for other modules (R335, R336) -/

/-- The position after this one on the path from one module to another. -/
def State.nextOnPath (s : State) (src dest : Nat) : Option Nat :=
  match s.routeFrom src dest with
  | some r =>
    match (src :: r.path dest).dropWhile fun p => p != s.position with
    | _ :: q :: _ => some q
    | _ => (s.route dest).map fun r => r.firstHop dest
  | none => (s.route dest).map fun r => r.firstHop dest

/-- A packet for another module: put in the queue of its next hop, or discarded and counted. -/
def State.transit (s : State) (k : Packet) : State :=
  let out := if s.power.routed then ((s.nextOnPath k.src.toNat k.dest.toNat).bind fun q => logicalPort s.position q).bind s.physicalOf else none
  match out with
  | none => s.bump Pd.transitDiscarded
  | some p =>
    if s.portState p = 2 then
      (s.bump Pd.transitPackets).enqueue p
        { k with hops := k.hops + 1, vc := BitVec.ofNat 4 (vcOf k.ptype.toNat (k.hops.toNat + 1)), credits := 0, nack := false, ackValid := false }
    else s.bump Pd.transitDiscarded

/-! ### Transfers received (R339, R340) -/

/-- What is being received, or was lately, from a position. -/
def State.incomingOf (s : State) (src : Nat) : List Incoming := tget [] s.causeway.incoming src
def State.setIncoming (s : State) (src : Nat) (e : Incoming) : State :=
  let l := (s.incomingOf src).filter fun x => x.id != e.id
  { s with causeway := { s.causeway with incoming := tset [] s.causeway.incoming src (l ++ [e]) } }

/-- The next transfer number expected from a position. -/
def State.nextFrom (s : State) (src : Nat) : BitVec 16 := tget 0 s.causeway.recvNext src

/-- Whether every packet of a transfer has been made visible. -/
def Incoming.full (e : Incoming) : Bool := decide (e.count ≤ e.seen.length)

/-- Why a signal of another module would be refused. -/
def State.signalRefusal (s : State) (src : Nat) (k : Packet) : Option (BitVec 16) :=
  let c := k.sigCounter.toNat
  match k.sigOp.toNat with
  | 4 =>
    match s.ctrRefusal (.remote src) c 2 with
    | some x => some x
    | none => if (arriveWord (s.ctr c) k.sigTag.toNat).isNone then some St.misuse else none
  | n => if 1 ≤ n ∧ n ≤ 3 then s.ctrRefusal (.remote src) c 1 else some St.misuse

/-- A signal of another module applied; the code of its transfer. A host operation that a gate forwarded shows as the other module's in
LAST_REFUSED_OP, source 2: a SIGNAL has no field that tells it from a task's (DESIGN CHOICE, log 183). -/
def State.applySignal (s : State) (src : Nat) (k : Packet) : State × BitVec 16 :=
  match s.signalRefusal src k with
  | none => (s.ctrOp (.remote src) k.sigOp.toNat k.sigTag.toNat k.sigCounter.toNat k.sigOperand.toNat, St.ok)
  | some c =>
    (if 1 ≤ k.sigOp.toNat ∧ k.sigOp.toNat ≤ 4 then
        s.ctrOp (.remote src) k.sigOp.toNat k.sigTag.toNat k.sigCounter.toNat k.sigOperand.toNat
      else s, c)

/-- A transfer complete here: its signal applied, unless its data were refused, and its acknowledgement sent. -/
def State.finishIncoming (s : State) (src : Nat) (e : Incoming) : State :=
  let o : State × BitVec 16 := match e.signal with
    | none => (s, e.status)
    | some k => if e.status = St.ok then s.applySignal src k else (s, e.status)
  (o.1.setIncoming src { e with done := true, status := o.2, signal := none, parts := [] }).sendAck src e.id o.2

/-- The number expected advanced over complete transfers, whose signals are applied in order; one to a counter whose line the host may
hold waits (spec/04 R101). Done entries are kept for the 1,024 numbers before it. -/
def State.advanceFrom (src : Nat) : Nat → State → State
  | 0, s => s
  | n + 1, s =>
    let next := s.nextFrom src
    match (s.incomingOf src).find? fun e => e.id == next with
    | none => s
    | some e =>
      if !e.full then s
      else if !e.done && e.signal.any (fun k => s.ctrHeld k.sigCounter.toNat) then
        s.askBack (counterLine (e.signal.elim 0 fun k => k.sigCounter.toNat))
      else
        let s := if e.done then s else s.finishIncoming src e
        let l := (s.incomingOf src).filter fun x => !(decide (1024 ≤ (next - x.id).toNat) && decide ((next - x.id).toNat < 32768))
        State.advanceFrom src n { s with causeway := { s.causeway with
          recvNext := tset 0 s.causeway.recvNext src (next + 1), incoming := tset [] s.causeway.incoming src l } }

/-- Signals that waited for a line of the host's tried again, from every position. -/
def State.retrySignals (s : State) : State := s.causeway.incoming.foldl (fun s e => State.advanceFrom e.1 1025 s) s

/-- A packet's part of a transfer is done with a code: noted, and the transfer ended where it is complete and bears no signal
that must wait its turn. -/
def State.notePacket (s : State) (src : Nat) (e : Incoming) (k : Packet) (code : BitVec 16) : State :=
  let e := { e with seen := k.index.toNat :: e.seen, count := k.count.toNat
                    signal := if k.signalValid then some k else e.signal
                    status := if e.status = St.ok then code else e.status }
  let s := if e.full && e.signal.isNone then s.finishIncoming src e else s.setIncoming src e
  (State.advanceFrom src 1025 s).settle

/-- The agent a WRITE's or READ's packet acts as (Table 12-2, PRINCIPAL). -/
def packetAgent (k : Packet) : Agent :=
  { owner := (ownerOfCode k.ownerKind.toNat k.ownerUnit.toNat).getD .harbour, user := .ingress, part := 0 }

/-- The valid bytes of a packet's payload. -/
def packetBytes (k : Packet) : List Byte := k.payload.take (k.length.toNat + 1)

/-- Whether a packet carries an access of the host through another module's windows, as far as it shows: the Harbour's, at an address that
a window maps (spec/04 R98, R101; log 182). -/
def fromHost (k : Packet) : Bool :=
  (packetAgent k).owner == .harbour && decide (0x080000000000 ≤ k.address.toNat)

/-- A READ answered: its bytes, or an acknowledgement with the code (log 26); the host may then hold the lines that it reads. False: it
waits. -/
def State.answerRead (s : State) (src : Nat) (k : Packet) : State × Option (BitVec 16) :=
  let a := k.address.toNat
  let n := k.length.toNat + 1
  let o := s.dpaRead (packetAgent k) false a n
  match o.2 with
  | none => (o.1, none)
  | some (c, l) =>
    if c ≠ St.ok then (o.1.sendAck src k.transfer c, some c)
    else
      let t := if fromHost k then (hostLines a n).foldl (fun s l => s.track l) o.1 else o.1
      match t.route src with
      | none => (t, some c)
      | some r => (t.enqueueTowards (r.firstHop src)
          { t.newPacket 3 src l with
            transfer := k.transfer, count := k.count, index := k.index, last := k.last, length := k.length, address := k.address
            detour := r.rule == 3 }, some c)

/-- Whether this module's endpoints answer: not in module reset, and READY (R340). -/
def toEndpoint (t : Nat) : Bool := t == 1 || t == 2 || t == 4

/-- A READ's transfer is ended by its responses, not by an acknowledgement. -/
def State.noteRead (s : State) (src : Nat) (e : Incoming) (k : Packet) (code : BitVec 16) : State :=
  let e := { e with seen := k.index.toNat :: e.seen, count := k.count.toNat, status := if e.status = St.ok then code else e.status }
  let s := s.setIncoming src { e with done := e.full }
  State.advanceFrom src 1025 s

/-- A relayed snoop or its answer (spec/04 R101). -/
def State.onSnoop (s : State) (src : Nat) (k : Packet) : State × BitVec 16 :=
  let line := k.address.toNat / 64
  if k.payload.headD 0 = 0 then
    if s.isGate then (s.emit (.biSnoop src line), St.ok) else (s, St.unreachable)
  else ((s.released line).retrySignals, St.ok)

/-- A mirror line at the gate (spec/04 R105). -/
def State.onMirror (s : State) (k : Packet) : State × BitVec 16 :=
  if s.isGate then (s.emit (.mirrorLine k.address.toNat (k.payload.take 64)), St.ok) else (s, St.unreachable)

/-- A reduction packet: kept until its transfer is whole, then checked and taken (spec/13 R361 to R363). `fails`: how often an
adder's check failed for its sum. -/
def State.onEstuary (s : State) (src : Nat) (e : Incoming) (k : Packet) (fails : Nat) : State × Bool :=
  let e := if e.seen.contains k.index.toNat then e
    else { e with seen := k.index.toNat :: e.seen, count := k.count.toNat, parts := e.parts ++ [k] }
  if s.islandFenced 94 then (State.advanceFrom src 1025 (s.finishIncoming src { e with seen := List.range e.count, status := St.fenced }), true)
  else if !e.full then (s.setIncoming src e, true)
  else match estParse (e.parts.map (·.payload)) with
    | none =>
      let b := (e.parts.map (·.payload)).headD []
      let g := listField b 193 1
      let r := listField b 196 4
      let s := s.bump Pd.residueLink
      let s := if g < 64 ∧ grpMembers (s.groupRec g) ≠ 0 then s.setReduction g r { s.reduction g r with residue := true } else s
      let l := (s.incomingOf src).filter fun x => x.id != e.id
      (({ s with causeway := { s.causeway with incoming := tset [] s.causeway.incoming src l } }).sendAck src e.id St.residue, true)
    | some m =>
      let fails := if m.kind = 1 ∧ !m.fp32 then min 3 fails else 0
      let s := if 0 < fails then s.bump Pd.residueAdder fails else s
      if 3 ≤ fails then
        (State.advanceFrom src 1025 ((s.fenceIsland 94).finishIncoming src { e with status := St.fenced }), true)
      else if s.msgWaits m then (s.setIncoming src e, false)
      else (State.advanceFrom src 1025 ((State.onMessages 4096 [m] s).finishIncoming src e), true)

/-- A piece of a dictionary message: once all are here the message waits to be served, and its transfer is complete (spec/03
R75). -/
def State.onGdp (s : State) (src : Nat) (e : Incoming) (k : Packet) : State :=
  if e.seen.contains k.index.toNat then s
  else
    let e := { e with seen := k.index.toNat :: e.seen, count := k.count.toNat, parts := e.parts ++ [k] }
    if e.full then
      let bytes := (List.range e.count).flatMap fun i => ((e.parts.find? fun x => x.index.toNat == i).map (·.payload)).getD []
      let s := s.finishIncoming src e
      let s : State := { s with causeway := { s.causeway with gdpIn := s.causeway.gdpIn ++ [(src, k.role.toNat, bytes)] } }
      State.advanceFrom src 1025 s
    else s.setIncoming src e

/-- Whether the module's own fabrics let a WRITE or READ of an address through: class CI on the House crossbar or the Cove fill
paths (R334, spec/02 R59). -/
def State.ingressMoves (s : State) (a : Nat) : Bool := s.classMoves (if a < 0x028000000000 then 2 else 1) 3

/-- A packet of a transfer addressed to this module; whether it leaves the buffer. -/
def State.deliver (s : State) (k : Packet) (fails : Nat) : State × Bool :=
  let src := k.src.toNat
  let t := k.ptype.toNat
  let off := (k.transfer - s.nextFrom src).toNat
  let known := (s.incomingOf src).find? fun e => e.id == k.transfer
  let e : Incoming := known.getD { id := k.transfer, seen := [], count := k.count.toNat, signal := none, done := false, status := St.ok }
  if e.done || decide (32768 ≤ off) then
    if t = 2 ∧ s.isReady then
      let o := s.answerRead src k
      (o.1, o.2.isSome)
    else (if k.last then s.sendAck src k.transfer e.status else s, true)
  else if 1024 < off then (s, true)
  else if !s.isReady && toEndpoint t then
    (State.advanceFrom src 1025
      (s.finishIncoming src { e with seen := List.range e.count, signal := none, status := St.unreachable }), true)
  else if t = 5 then (s.onGdp src e k, true)
  else if t = 6 then (if s.isReady then s.onEstuary src e k fails else (s, true))
  else if e.seen.contains k.index.toNat then (s, true)
  else if (t == 1 || t == 2) && !s.ingressMoves k.address.toNat then (s, false)
  else match t with
    | 1 =>
      if !s.stowMayWrite src k.address.toNat (k.length.toNat + 1) then (s.notePacket src e k St.accessDenied, true)
      else
      let o := s.dpaWrite (packetAgent k) false k.address.toNat (enableAll (packetBytes k))
      match o.2 with
      | none => (o.1, false)
      | some (c, _) => (o.1.notePacket src e k c, true)
    | 2 =>
      let o := s.answerRead src k
      match o.2 with
      | none => (o.1, false)
      | some c => (o.1.noteRead src e k c, true)
    | 4 => (s.notePacket src e k St.ok, true)
    | 7 =>
      let o := s.onSnoop src k
      (o.1.notePacket src e k o.2, true)
    | 8 =>
      let o := s.onMirror k
      (o.1.notePacket src e k o.2, true)
    | _ => (s, true)

/-! ### Transfers sent come to their end (R339) -/

/-- The path on which a transfer is sent again: its own while it is up, else the route now (R338). -/
def State.resendPath (s : State) (d : Nat) (t : Transfer) : List Nat × Bool :=
  if !t.path.isEmpty && s.transferUp t then (t.path, t.detour)
  else match s.route d with
    | some r => (r.path d, r.rule == 3)
    | none => (t.path, t.detour)

/-- A transfer sent again whole, or, after its fourth sending, ended with UNREACHABLE. -/
def State.sendAgain (s : State) (d : Nat) (t : Transfer) : State :=
  if t.sendings < 4 then s.resend d t (s.resendPath d t)
  else (s.endTransfer d t.id).transferDone t St.unreachable

/-- An ACK_E2E from the destination of a transfer. -/
def State.onAck (s : State) (k : Packet) : State :=
  let d := k.src.toNat
  let code := BitVec.ofNat 16 (listField k.payload 0 2)
  match (s.unacked d).find? fun t => t.id == k.transfer with
  | none => s
  | some t =>
    if code = St.residue then s.sendAgain d t
    else ((s.endTransfer d t.id).transferDone t code).settle

/-- A READ_RESPONSE: its bytes go where the READ was for; the last ends it. -/
def State.onReadResponse (s : State) (k : Packet) : State :=
  let d := k.src.toNat
  match (s.unacked d).find? fun t => t.id == k.transfer with
  | none => s
  | some t =>
    match t.purpose with
    | .window id =>
      let o := s.windowData id (256 * k.index.toNat) (packetBytes k)
      if o.2 then (o.1.endTransfer d t.id).transferDone t St.ok else o.1
    | .restore key =>
      let o := s.restoreBytes key k.index.toNat t.packets.length (packetBytes k)
      if o.2 then (o.1.endTransfer d t.id).transferDone t St.ok else o.1
    | _ => s

/-! ### The link map (R336; log 27, log 48) -/

/-- A LINK_STATE packet. -/
def State.onLinkState (s : State) (k : Packet) : State :=
  let entry := listField k.payload 0 4 % 2 ^ 18
  let p := listField k.payload 4 4
  let v := listField k.payload 8 8
  if 64 ≤ p ∨ v ≤ tget 0 s.causeway.versions p then s
  else if p = s.position then
    ({ s with causeway := { s.causeway with versions := tset 0 s.causeway.versions p (v + 1) } }).spreadLinks p none
  else
    let failed := listField k.payload 16 4 % 2 ^ 18
    let vacant := listField k.payload 20 4 % 2 ^ 18
    let newly := failed - (failed &&& tget 0 s.causeway.failedPorts p)
    let s := { s.wr Pd.linkMap p entry with
               causeway := { s.causeway with versions := tset 0 s.causeway.versions p v
                                             failedPorts := tset 0 s.causeway.failedPorts p failed
                                             vacantPorts := tset 0 s.causeway.vacantPorts p vacant } }
    (((s.spreadLinks p none).rerouted).partnerFailed p newly).partnerVacant p vacant

/-! ### A packet arrives -/

/-- An accepted packet taken by its type; whether it leaves the buffer. -/
def State.takePacket (s : State) (k : Packet) (fails : Nat) : State × Bool :=
  match k.ptype.toNat with
  | 10 => (s.onLinkState k, true)
  | 11 => (s, true)
  | t =>
    if k.dest.toNat ≠ s.position then (s.transit k, true)
    else if t = 9 then (s.onAck k, true)
    else if t = 3 then (s.onReadResponse k, true)
    else s.deliver k fails

/-- A packet taken, or held in its buffer while what it is for waits; other packets go on (R345). -/
def State.takeOrHold (s : State) (p : Nat) (k : Packet) (fails : Nat) : State :=
  let o := s.takePacket k fails
  if o.2 then o.1.freeBuffer p k
  else { o.1 with causeway := { o.1.causeway with held := o.1.causeway.held ++ [(p, k)] } }

/-- The held packets tried again, in order. -/
def State.retryHeld (s : State) : State :=
  s.causeway.held.foldl (fun s e => s.takeOrHold e.1 e.2 0) { s with causeway := { s.causeway with held := [] } }

/-- Whether a port's island and forwarding run. -/
def State.portOpen (s : State) (p : Nat) : Bool :=
  s.portState p == 2 && s.power.forwarding && !s.islandFenced 95 && !s.islandFenced (96 + p)

/-- A packet arrives at a port that is up (R331, R332). -/
def State.receivePacket (s : State) (p : Nat) (k : Packet) (fails : Nat) : State :=
  if !s.portOpen p then s
  else if !k.fecOk || k.crc != packetCrc k || unknownType k.ptype.toNat then
    let s := s.bump Pd.crcErrors
    let s := if k.fecOk then s else s.bump Pd.fecUncorrectable
    s.setCport p { s.cport p with nackOwed := some k.linkSeq }
  else
    let s := s.linkAck p k
    if s.portState p ≠ 2 then s
    else
      let x := s.cport p
      if k.linkSeq ≠ x.rxSeq then s.setCport p { x with nackOwed := some x.rxSeq }
      else
        let s := (s.setCport p { x with rxSeq := x.rxSeq + 1, ackOwed := true }).linkCredit p k
        (s.takeOrHold p k fails).retryHeld

/-! ### Commands -/

/-- A packet of a row's type; one of a type the table does not have counts as a CRC error whichever row it comes under. -/
def State.receiveType (s : State) (p : Nat) (k : Packet) (t : Nat) : State :=
  if k.ptype.toNat = t ∨ unknownType k.ptype.toNat then s.receivePacket p k 0 else s

/-- WRITE. -/
def execWrite (port : Nat) (pkt : Packet) (s : State) : Res := .next (s.receiveType port pkt 1)
/-- READ. -/
def execRead (port : Nat) (pkt : Packet) (s : State) : Res := .next (s.receiveType port pkt 2)
/-- READ_RESPONSE. -/
def execReadResponse (port : Nat) (pkt : Packet) (s : State) : Res := .next (s.receiveType port pkt 3)
/-- SIGNAL. -/
def execSignal (port : Nat) (pkt : Packet) (s : State) : Res := .next (s.receiveType port pkt 4)
/-- SNOOP. -/
def execSnoop (port : Nat) (pkt : Packet) (s : State) : Res := .next (s.receiveType port pkt 7)
/-- MIRROR. -/
def execMirror (port : Nat) (pkt : Packet) (s : State) : Res := .next (s.receiveType port pkt 8)
/-- ACK_E2E. -/
def execAckE2e (port : Nat) (pkt : Packet) (s : State) : Res := .next (s.receiveType port pkt 9)
/-- LINK_STATE. -/
def execLinkState (port : Nat) (pkt : Packet) (s : State) : Res := .next (s.receiveType port pkt 10)
/-- NULL. -/
def execNull (port : Nat) (pkt : Packet) (s : State) : Res := .next (s.receiveType port pkt 11)

/-- An ESTUARY packet of a KIND (spec/13 Table 13-4). -/
def State.receiveKind (s : State) (p : Nat) (k : Packet) (kind fails : Nat) : State :=
  if k.ptype.toNat = 6 ∧ listField k.payload 192 1 = kind then s.receivePacket p k fails else s

/-- PARTIAL. -/
def execPartialSum (port : Nat) (pkt : Packet) (adderFails : Nat) (s : State) : Res := .next (s.receiveKind port pkt 1 adderFails)
/-- RESULT. -/
def execResult (port : Nat) (pkt : Packet) (s : State) : Res := .next (s.receiveKind port pkt 2 0)
/-- NOTICE. -/
def execNotice (port : Nat) (pkt : Packet) (s : State) : Res := .next (s.receiveKind port pkt 3 0)
/-- RAISE. -/
def execRaise (port : Nat) (pkt : Packet) (s : State) : Res := .next (s.receiveKind port pkt 4 0)

/-- LINK_RETRY_TIMEOUT: the oldest packet unacknowledged for 2 µs, and those after it, are sent again (R332). -/
def execLinkRetryTimeout (port : Nat) (s : State) : Res :=
  match (s.cport port).retry with
  | [] => .next s
  | e :: _ => if s.portOpen port then .next (s.linkResend port e.1.linkSeq) else .next s

/-- The channel served next at a port: round robin after the last among those with a packet and a credit (R334). -/
def CausewayPort.nextVc (x : CausewayPort) : Option Nat :=
  ((List.range 16).map fun i => (x.lastVc + 1 + i) % 16).find? fun v => !(tget [] x.queues v).isEmpty && x.hasCredit v

/-- A packet leaves a port: numbered, stamped, kept until it is acknowledged. -/
def State.transmit (s : State) (p : Nat) (k : Packet) : State :=
  let x := s.cport p
  let k := s.stamp p { k with linkSeq := x.txSeq }
  let v := k.vc.toNat
  (s.setCport p { x.paid k with
    txSeq := x.txSeq + 1, retry := x.retry ++ [(k, 1)], inUse := tset 0 x.inUse v (tget 0 x.inUse v + 1) }).emit (.packet p k)

/-- PORT_TRANSMIT: one packet, or a NULL packet where the port is idle and something is owed (R332 to R334). -/
def execPortTransmit (port : Nat) (s : State) : Res :=
  let x := s.cport port
  if !s.portOpen port || decide (512 ≤ x.retry.length) then .next s
  else match x.nextVc with
    | some v =>
      match tget [] x.queues v with
      | k :: rest => .next ((s.setCport port { x with queues := tset [] x.queues v rest, lastVc := v }).transmit port k)
      | [] => .next s
    | none =>
      if (x.ackOwed || x.nackOwed.isSome || !x.creditOwed.isEmpty) && x.hasCredit 15 then
        .next (s.transmit port (s.newPacket 11 (s.portNeighbour port) []))
      else .next s

/-- E2E_RESEND_TIMEOUT: a transfer unacknowledged for 100 µs (R339). -/
def execE2eResendTimeout (dest : Nat) (transfer : BitVec 16) (s : State) : Res :=
  match (s.unacked dest).find? fun t => t.id == transfer && decide (0 < t.sendings) with
  | none => .next s
  | some t => .next (s.sendAgain dest t).settle

end Sys2Proof.Machine
end

