-- ==== Sys2Proof/Machine/Landfall.lean ====
section
/-!
DEFINITION. Landfall, chapter 15: its starts, the end of each phase, minimums, numbering and READY.
-/
namespace Sys2Proof.Machine

/-! ### Starts (R393, R394) -/

/-- A Landfall START: accepted, its run begins with the module reset that follows at once. -/
def serveLandfallStart : Serve := fun _ _ q s =>
  let mode := q.value
  if 2 < mode then refuse s St.invalidValue
  else if s.opBusy 1 then refuse s St.busy
  else
    let s := s.opStart 1 2 7981
    acceptedStart { s with landfall := { s.landfall with wanted := mode, startPending := true } } 1 false

/-- The START's module reset, within 1 ms of the response; the run begins at step 2. A tripped module stays as it is until it
leaves TRIPPED (spec/01 R43; log 163). -/
def State.resetForStart (s : State) : State :=
  if s.landfall.startPending && s.power.step != 1 && s.reg Pd.powerState != 3 then
    let t := s.moduleReset true
    if t.mayBoot then t.stepTwo else t
  else s

/-- A Landfall START with a MODE. -/
def startLandfall (o : Origin) (mode : Nat) (s : State) : State :=
  (s.receiveOwn serveLandfallStart (ownWrite o Pd.landfallStart 0 (natLE 1 mode))).resetForStart

/-- LANDFALL_START: MODE 0. -/
def execLandfallStart (o : Origin) (s : State) : Res := .next (startLandfall o 0 s)
/-- LANDFALL_START_COLD: MODE 1. -/
def execLandfallStartCold (o : Origin) (s : State) : Res := .next (startLandfall o 1 s)
/-- LANDFALL_START_WARM: MODE 2. -/
def execLandfallStartWarm (o : Origin) (s : State) : Res := .next (startLandfall o 2 s)

/-! ### Phases and the end of a run (R395, R405 to R407) -/

/-- Whether a Landfall runs in phase ph. -/
def State.inPhase (s : State) (ph : Nat) : Bool := (s.op 1).state == 2 && (s.op 1).phase == ph

/-- PHASE set. -/
def State.setPhase (s : State) (ph : Nat) : State := s.setOp 1 { s.op 1 with phase := ph }

/-- What is recorded of a phase: its number and the run number. -/
def State.phaseDetail (s : State) (ph : Nat) : List Byte := natLE 4 ph ++ natLE 4 (s.op 1).run

/-- A phase has ended: its time and its LANDFALL entry. -/
def State.phaseEnd (s : State) (ph : Nat) : State :=
  (s.wr Pd.phaseTimes ph ((s.time - s.landfall.phaseStart) % 2 ^ 32)).record 0x06 St.ok 0 noUnit (s.phaseDetail ph)

/-- The next phase begins. -/
def State.phaseBegin (s : State) (ph : Nat) : State :=
  { s.setPhase ph with landfall := { s.landfall with phaseStart := s.time } }

/-- Rooms fenced. -/
def State.roomsFenced (s : State) : Nat :=
  (s.pd.filter fun e => e.1 / 16777216 == Pd.roomOwner && e.2.testBit 62).length

/-- Engines that pass. -/
def State.enginesPassing (s : State) : Nat := 64 - popCount 64 (s.reg Pd.enginesFenced)

/-- Whether a line of Table 15-4 is not met; `width`: W is known. -/
def State.wanting (s : State) (width : Bool) : Bool :=
  s.islandFenced 1 || s.islandFenced 94 || s.islandFenced 95 || (width && decide (s.reg Pd.width < 960))
    || decide (s.enginesPassing < 60) || s.reg Pd.cliffsFenced != 0 || decide (32 < s.roomsFenced)
    || (List.range 32).any fun i => s.roomFenced (1504 + i)

/-- The summary record (Table 15-5), and LANDFALL_KIND. -/
def State.fillSummary (s : State) (code : BitVec 16) : State :=
  let l := s.landfall
  let r := codeBytes code ++ natLE 1 l.kind ++ natLE 1 l.failCheck ++ natLE 2 (s.reg Pd.width) ++ natLE 1 s.enginesPassing ++ [0]
    ++ natLE 2 s.roomsFenced ++ natLE 2 l.retrained ++ natLE 4 ((s.time - l.started) / 1000)
  (s.opFill 1 7980 r).setReg Pd.landfallKind l.kind

/-- The run ends FAILED at the phase it is in (R397, R404, R406). -/
def State.failLandfall (s : State) (code : BitVec 16) : State :=
  let ph := (s.op 1).phase
  let s := (s.wr Pd.phaseTimes ph ((s.time - s.landfall.phaseStart) % 2 ^ 32)).fillSummary code
  let s := (s.record 0x01 code 0 noUnit (s.phaseDetail ph)).opEnd 1 4 code
  { s with power := { s.power with alertLandfall := true } }

/-! ### L0 and L1 (R397 to R399) -/

/-- CONVERSION_TIMEOUT: every island but the Harbour's is held off. -/
def execConversionTimeout (s : State) : Res :=
  if s.inPhase 0 then
    let t := s.failLandfall St.degraded
    .next { t.clearFlags Pd.islandLocked 128 (2 ^ 116 - 2) with
      power := { t.power with stageCliffs := false, stageLinks := false, stageHouse := false, forwarding := false } }
  else .next s

/-- LANDFALL_L0_DONE: everything wiped; a Cliff whose bulk zero did not complete is fenced and keeps its bytes behind the
fence; RETIRING pages become RETIRED (spec/06 R160); L1 begins. In RETURN the test port becomes active; in SCRAPPED the run ends here (spec/18 R456, R467). -/
def execLandfallL0Done (notZeroed : BitVec 20) (s : State) : Res :=
  if s.inPhase 0 then
    let failed := (List.range 20).filter fun c => notZeroed.getLsbD c
    let left := fun (a : Nat) => decide (a < 0x028000000000) && failed.contains (natCliff a)
    let s := { s with mem := s.mem.filter fun e => left e.1, badBlocks := s.badBlocks.filter left, poisonBlocks := s.poisonBlocks.filter left
                      estuary := {}, programs := [] }
    let s := (failed.foldl (fun s c => s.fenceCliff c) s).retireAll fun _ => true
    let s : State := { s with security := { s.security with tapActive := s.reg Pd.lifeCycle == 3 } }
    .next (if s.reg Pd.lifeCycle = 4 then (s.phaseEnd 0).failLandfall St.lifecycleDenied else (s.phaseEnd 0).phaseBegin 1)
  else .next s

/-- An island that does not lock: fenced, and with it what depends on it, without an entry or a vector of its own (R398,
R408). A port is failed until the next Landfall; an engine shows as failed at Landfall (spec/09 Table 09-11). -/
def State.quietFence (s : State) (n : Nat) : State :=
  let s := ((s.setFlags Pd.islandFenced (2 ^ n)).clearFlags Pd.islandLocked 128 (2 ^ n)).closeCrossings n
  if 96 ≤ n then s.setPortState (n - 96) 4
  else
    let s := s.fenceDependents n
    if 2 ≤ n ∧ n ≤ 65 then s.wr Pd.engineState (n - 2) 1 else s

/-- PROGRESS noted before what it is measured against changes, since it never decreases (spec/03 Table 03-9). -/
def State.keepProgress (s : State) : State := s.setOp 1 { s.op 1 with progress := s.opProgress 1 }

/-- The first check of R399 that fails, or 0. -/
def State.warmCheck (s : State) : Nat :=
  match s.warmRecord with
  | none => 1
  | some r =>
    if r.straps ≠ s.reg Pd.straps then 2
    else if r.serial ≠ Config.serial then 3
    else if r.stackSerials ≠ (List.range 20).map Config.stackSerial then 4
    else 0

/-- L2 and L3 begin: ports 0 to 17 train, those that forward already excepted (spec/12 R345); the spares stand by. -/
def State.startTraining (s : State) : State :=
  let s := (List.range 18).foldl (fun s p => if s.portState p = 2 ∨ s.islandFenced (96 + p) then s else s.setPortState p 1) s
  let s := [18, 19].foldl (fun s p => if s.portState p = 2 ∨ s.islandFenced (96 + p) then s else s.setPortState p 5) s
  s.phaseBegin 2

/-- The columns' map and states from their tests; W and the pool. -/
def State.mapColumns (s : State) (failed : List Nat) : State :=
  let good := (List.range 1040).filter fun j => !failed.contains j
  let w := min 1024 (1038 - failed.length)
  let s := failed.foldl (fun s j => s.wr Pd.columnState j 2) s
  let s := (good.drop w).foldl (fun s j => s.wr Pd.columnState j 1) s
  let s := (good.take w).zipIdx.foldl (fun s e => s.wr Pd.columnMap e.2 e.1) s
  (s.setReg Pd.width w).setReg Pd.poolFree (good.length - w)

/-- LANDFALL_L1_DONE: islands not locked are fenced, and with island 1 every column (spec/08 R213); the warm checks; L2 and L3, or DEGRADED. -/
def execLandfallL1Done (unlocked : BitVec 116) (s : State) : Res :=
  if s.inPhase 1 then
    let lost := (List.range 116).filter fun n => n != 0 && (unlocked.getLsbD n || s.islandFenced n)
    let s := s.setReg Pd.islandLocked (2 ^ 116 - 1)
    let s := lost.foldl (fun s n => s.quietFence n) s
    let s := if s.islandFenced 1 then s.mapColumns (List.range 1040) else s
    let c := if s.landfall.kind = 2 then s.warmCheck else 0
    let s := s.keepProgress
    let s := { s with landfall := { s.landfall with failCheck := c, kind := if c = 0 then s.landfall.kind else 3 } }
    .next (if s.wanting false then s.failLandfall St.degraded else (s.phaseEnd 1).startTraining)
  else .next s

/-! ### L4 (R402) -/

/-- A unit's slot of L4. -/
def State.fillTest (s : State) (slot : Nat) (r : List Byte) : State :=
  let t := s.opFill 1 slot r
  if (s.op 1).filled < (t.op 1).filled then { t with landfall := { t.landfall with tests := t.landfall.tests + 1 } } else t

/-- An engine's record (Table 15-5). -/
def engineRecord (fault : Nat) : List Byte := padTo 16 (codeBytes (if fault = 0 then St.ok else St.fenced) ++ natLE 1 fault)

/-- A room's record: first failing line, port, kind of bits. -/
def roomRecord (failing : Option (Nat × Nat × Nat)) : List Byte :=
  match failing with
  | none => padTo 16 (codeBytes St.ok ++ natLE 2 0xFFFF)
  | some (line, port, bits_) => padTo 16 (codeBytes St.fenced ++ natLE 2 line ++ natLE 1 port ++ natLE 1 bits_)

/-- L4 begins; engines whose island did not lock have failed already. -/
def State.startTests (s : State) : State :=
  (List.range 64).foldl (fun s n => if s.islandFenced (n + 2) then s.fillTest (7876 + n) (engineRecord 5) else s) (s.phaseBegin 4)

/-- L2 and L3: PHASE reads the one still running; once both have ended, L4 (R395, R406). -/
def State.joinPhases (s : State) : State :=
  let l := s.landfall
  if l.strata = 5120 ∧ l.portsDone = 18 then
    if s.wanting false then (s.setPhase 2).failLandfall St.degraded else s.startTests
  else s.setPhase (if l.strata = 5120 then 3 else 2)

/-! ### L2 and L3 (R400, R401, spec/06 R162) -/

/-- A Cliff's record (Table 15-5). -/
def State.cliffRecord (s : State) (c : Nat) : List Byte :=
  padTo 16 (codeBytes (if s.cliffFenced c then St.fenced else St.ok) ++ natLE 1 (s.cliff c).spareStrata ++ natLE 1 (s.cliff c).failedStrata
    ++ natLE 2 (tget 0 s.landfall.reused c))

/-- L2 has ended: the Cliffs' records. -/
def State.endStrata (s : State) : State :=
  ((List.range 20).foldl (fun s c => s.opFill 1 (7960 + c) (s.cliffRecord c)) s).phaseEnd 2

/-- The run's count of strata with one more; `bad` are the Cliff's failed strata now. -/
def Landfall.stratumEnded (l : Landfall) (cliff bad : Nat) (ok cold : Bool) : Landfall :=
  let warm := l.kind == 2
  { l with strata := l.strata + 1, failedStrata := tset 0 l.failedStrata cliff bad
           retrained := l.retrained + bit01 (warm && cold)
           reused := if warm && ok && !cold then tset 0 l.reused cliff (tget 0 l.reused cliff + 1) else l.reused }

/-- A stratum's result: `bad` are the Cliff's failed strata now, the third fences it, with its entry and its vector (spec/06
R162). The records of the first two stay as they are (spec/03 R86; log 47). -/
def State.stratumResult (s : State) (cliff stratum bad : Nat) (ok : Bool) (record : Vector (BitVec 16) 6) : State :=
  let out := s.islandFenced (74 + cliff) || (s.cliffFenced cliff && decide (bad ≤ 2)) || (!ok && decide (2 < bad))
  let s := if bad = 3 ∧ ok = false then (if s.cliffFenced cliff then s else (s.fenceCliff cliff).announceFence St.fenced 4 cliff []) else s
  let spare := if ok ∨ out then 0 else bad
  let s := s.opFill 1 (256 * cliff + stratum) (codeBytes (if out then St.fenced else St.ok) ++ natLE 1 spare ++ [0]
    ++ record.toList.flatMap fun x => natLE 2 x.toNat)
  let k := s.cliff cliff
  s.setCliff cliff { k with failedStrata := bad, spareStrata := if bad ≤ 2 then bad else 0 }

/-- STRATUM_TRAINING_DONE: a failed stratum takes one of the Cliff's two spares, or the Cliff is fenced. -/
def execStratumTrainingDone (cliff stratum : Nat) (ok cold : Bool) (record : Vector (BitVec 16) 6) (s : State) : Res :=
  if (s.inPhase 2 || s.inPhase 3) && decide (cliff < 20) && decide (stratum < 256) && tget none (s.op 1).results (256 * cliff + stratum) == none then
    let bad := tget 0 s.landfall.failedStrata cliff + (if ok then 0 else 1)
    let s := s.stratumResult cliff stratum bad ok record
    let s : State := { s with landfall := s.landfall.stratumEnded cliff bad ok cold }
    .next (if s.landfall.strata = 5120 then s.endStrata.joinPhases else s)
  else .next s

/-- The lanes of a mask. -/
def maskLanes (m : Nat) : List Nat := (List.range 9).filter fun i => m.testBit i

/-- The training record of a lane: the measurements are the port's own, free values here (PD 0x5420.01). -/
def State.laneRecord (s : State) (p lane : Nat) (code : BitVec 16) : State :=
  (s.opFill 1 (5120 + 9 * p + lane) (codeBytes code ++ natLE 14 s.free)).used

/-- A port that has trained: the logical port it backs and its partner noted, its failed lanes spared (R342). -/
def State.portTrained (s : State) (p l : Nat) (serial : BitVec 256) (position port lanes : Nat) : State :=
  let s := s.wr Pd.portStatus p (2 + l * 2 ^ 8 + position * 2 ^ 16 + port * 2 ^ 24)
  let s := (s.setCport p { partner := serial }).storeLanes p
  (maskLanes lanes).foldl (fun s i => (s.laneFails p i false).laneFails p i true) s

/-- L3 has ended: the lanes of the spare ports are not trained. -/
def State.endPorts (s : State) : State :=
  ((List.range 18).foldl (fun s i => s.opFill 1 (5120 + 162 + i) (List.replicate 16 0)) s).phaseEnd 3

/-- The outcome that counts: no port trains in a fenced island; three failed lanes are a failed port (R342). -/
def effectiveOutcome (fenced : Bool) : PortOutcome → PortOutcome
  | .trained a b c lanes d => if fenced ∨ 3 ≤ (maskLanes lanes).length then .failed else .trained a b c lanes d
  | .absent => if fenced then .failed else .absent
  | .failed => .failed

/-- A lane's code, the lanes that failed and whether the port was retrained cold. -/
def outcomeResult : PortOutcome → BitVec 16 × Nat × Bool
  | .trained _ _ _ m c => (St.ok, m, c)
  | .absent => (St.unreachable, 0, false)
  | .failed => (St.fenced, 0, false)

/-- What the outcome makes of the port. A port that forwards already keeps its link (spec/12 R345). -/
def State.portOutcome (s : State) (port : Nat) : PortOutcome → State
  | .trained serial position back lanes _ => if s.portState port = 2 then s else s.portTrained port 0xFF serial position back lanes
  | .absent => s.setPortState port 0
  | .failed => s.setPortState port 4

/-- The run with one more port ended. -/
def Landfall.portEnded (l : Landfall) (port : Nat) (outcome : PortOutcome) : Landfall :=
  { l with outcomes := tset none l.outcomes port (some outcome), portsDone := l.portsDone + 1
           retrained := l.retrained + bit01 (l.kind == 2 && (outcomeResult outcome).2.2)
           failure := l.failure || outcome == .failed }

/-- A port that trained outside Landfall, its partner's lanes having returned (spec/12 R342): up again, and told all this
module knows of the links (log 27); still down; or failed. -/
def State.portRetrained (s : State) (port : Nat) : PortOutcome → State
  | .trained serial position back lanes _ => ((s.portTrained port (s.portLogical port) serial position back lanes).announceLinks).sendLinkMap port
  | .absent => s.setPortState port 3
  | .failed => s.portFails port

/-- PORT_TRAINING_DONE: in L3 of Landfall, or of a port that trains again. -/
def execPortTrainingDone (port : Nat) (outcome : PortOutcome) (s : State) : Res :=
  if (s.inPhase 2 || s.inPhase 3) && decide (port < 18) && tget none s.landfall.outcomes port == none then
    let outcome := effectiveOutcome (s.islandFenced 95 || s.islandFenced (96 + port)) outcome
    let t : State := s.portOutcome port outcome
    let r := outcomeResult outcome
    let t : State := (List.range 9).foldl (fun t i => t.laneRecord port i (if r.2.1.testBit i then St.fenced else r.1)) t
    let t : State := { t with landfall := t.landfall.portEnded port outcome }
    .next (if t.landfall.portsDone = 18 then t.endPorts.joinPhases else t)
  else if !(s.inPhase 2 || s.inPhase 3) && decide (port < 20) && s.portState port == 1 && (s.requestFor port).isNone && !s.islandFenced 95 then
    .next (s.portRetrained port (effectiveOutcome (s.islandFenced (96 + port)) outcome))
  else .next s

/-! ### The end of L4 (spec/08 R213) -/

/-- The columns' records, once all are tested. -/
def State.fillColumns (s : State) : State :=
  let tested := s.landfall.columns
  let failed := (List.range 1040).filter fun j => decide (2 ≤ tget 0 tested j)
  let s := s.mapColumns failed
  (List.range 1040).foldl (fun s j =>
    let v := tget 0 tested j
    let r := if 2 ≤ v then codeBytes St.fenced ++ natLE 2 0xFFFF ++ natLE 1 (v - 2)
      else codeBytes St.ok ++ natLE 2 ((s.logicalOf j).getD 0xFFFF) ++ [0]
    s.fillTest (5300 + j) (padTo 16 r)) s

/-- L5 begins: the module's own serial number must be the chart's (R404). -/
def State.startTopology (s : State) : State :=
  let s := (s.phaseEnd 4).phaseBegin 5
  let given := s.pd.any fun e => e.1 / 16777216 == Pd.expectedChart
  if given && byteField (s.rd Pd.expectedChart s.position) 0 32 != Config.serial.toNat then s.failLandfall St.topology else s

/-- L4 ends with its last unit. -/
def State.endTests (s : State) : State :=
  if s.landfall.tests = 2640 then (if s.wanting true then s.failLandfall St.degraded else s.startTopology) else s

/-- L4_TEST_DONE: a unit that fails is fenced. The array's columns are mapped once all are tested. -/
def execL4TestDone (unit : TestUnit) (failing : Option (Nat × Nat × Nat)) (s : State) : Res :=
  if !s.inPhase 4 then .next s
  else
    let bad := fun (t : State) => if failing.isSome then { t with landfall := { t.landfall with failure := true } } else t
    match unit with
    | .column j =>
      if j < 1040 ∧ tget 0 s.landfall.columns j = 0 then
        let v := match failing with
          | some f => 2 + f.1
          | none => 1
        let t := bad { s with landfall := { s.landfall with columns := tset 0 s.landfall.columns j v } }
        .next ((if t.landfall.columns.length = 1040 then t.fillColumns else t).endTests)
      else .next s
    | .room r =>
      if r < 1536 ∧ tget none (s.op 1).results (6340 + r) = none then
        let t := if failing.isSome then s.fenceRoom r else s
        .next ((bad (t.fillTest (6340 + r) (roomRecord failing))).endTests)
      else .next s
    | .engine n =>
      if n < 64 ∧ tget none (s.op 1).results (7876 + n) = none then
        let t := if failing.isSome then s.fenceEngine n 1 else s
        .next ((bad (t.fillTest (7876 + n) (engineRecord (failing.elim 0 fun f => max 1 f.1)))).endTests)
      else .next s
    | .stratum _ _ => .next s
    | .port _ => .next s

/-! ### L5 (R403, R404) -/

/-- What the chart expects of a port: partner position and port, 0xFF unconnected (Table 15-2). -/
def State.expected (s : State) (p : Nat) : Nat × Nat :=
  let w := s.rd Pd.expectedChart s.position
  (byteField w (32 + 2 * p) 1, byteField w (33 + 2 * p) 1)

/-- Whether a chart has been given. -/
def State.chartGiven (s : State) : Bool := s.pd.any fun e => e.1 / 16777216 == Pd.expectedChart

/-- A port judged by Table 15-3: its code. `reached`: its partner has reached L5. -/
def State.judge (s : State) (p : Nat) (o : PortOutcome) (reached : Bool) : BitVec 16 :=
  let e := s.expected p
  match o with
  | .failed => St.fenced
  | .absent => if s.chartGiven && e.1 != 0xFF then St.unreachable else St.ok
  | .trained serial position back _ _ =>
    if !s.chartGiven then St.ok
    else if e.1 = 0xFF ∨ position ≠ e.1 ∨ back ≠ e.2 ∨ serial.toNat ≠ byteField (s.rd Pd.expectedChart e.1) 0 32 then St.topology
    else if !reached then St.unreachable
    else St.ok

/-- A port's topology record. -/
def State.topologyRecord (s : State) (p : Nat) (o : PortOutcome) (code : BitVec 16) : List Byte :=
  let found : Nat × Nat × Nat := match o with
    | .trained serial position back _ _ => (position, back, serial.toNat)
    | _ => (0xFF, 0xFF, 0)
  let e := if s.chartGiven then s.expected p else (0xFF, 0xFF)
  codeBytes code ++ natLE 1 found.1 ++ natLE 1 found.2.1 ++ natLE 1 e.1 ++ natLE 1 e.2
    ++ natLE 1 (s.portLogical p) ++ [0] ++ natLE 8 found.2.2

/-- The logical port that a physical port backs: the one that leads to the neighbour found, or, with none found, to the one
expected; its own number where neither is known (spec/12 R329, Table 15-3). -/
def State.backed (s : State) (p : Nat) (o : PortOutcome) : Nat :=
  match o with
  | .trained _ position _ _ _ => (logicalPort s.position position).getD 0xFF
  | _ => if s.chartGiven && (s.expected p).1 != 0xFF then (logicalPort s.position (s.expected p).1).getD 0xFF else p

/-- What the run found on a port. -/
def State.found (s : State) (p : Nat) : PortOutcome := (tget none s.landfall.outcomes p).getD .absent

/-- Whether a port has trained with a partner. -/
def isTrained : PortOutcome → Bool
  | .trained _ _ _ _ _ => true
  | _ => false

/-- The mapping of logical to physical ports: ports that have trained come first, and a logical port is backed once (spec/12
R329). -/
def State.mapPorts (s : State) (vacant : Nat → Bool) : State :=
  let order := (List.range 18).filter (fun p => isTrained (s.found p)) ++ (List.range 18).filter fun p => !isTrained (s.found p)
  let s := (List.range 18).foldl (fun s l => s.wr Pd.logicalPorts l 0xFF) s
  order.foldl (fun s p =>
    let l := s.backed p (s.found p)
    let l := if 18 ≤ l ∨ vacant p ∨ s.rd Pd.logicalPorts l ≠ 0xFF then 0xFF else l
    let s := s.wr Pd.portStatus p (setByteField (s.rd Pd.portStatus p) 1 1 l)
    if l = 0xFF then s else s.wr Pd.logicalPorts l p) s

/-- The neighbour of a link that never trained, as the spare that takes its place will be checked against: the expected one, its
serial number the chart's (spec/12 R343). -/
def State.expectNeighbour (s : State) (p : Nat) : State :=
  let l := s.portLogical p
  if 18 ≤ l then s
  else
    let q := neighbourOf s.position l
    let serial := BitVec.ofNat 256 (byteField (s.rd Pd.expectedChart q) 0 32)
    (s.wr Pd.portStatus p (setByteField (s.rd Pd.portStatus p) 2 1 q)).setCport p
      { s.cport p with partner := if s.chartGiven then serial else (s.cport p).partner }

/-- Whether a port's partner is READY already. -/
def State.partnerReady (s : State) (p : Nat) : Bool :=
  match s.found p with
  | .trained _ position _ _ _ => s.rd Pd.linkMap position != 0
  | _ => false

/-- The ports judged and L6 begun. `all`: every expected partner has reached L5; else a partner that is not READY may have
(a free value: the wait's end does not say which have). -/
def State.endTopology (s : State) (all : Bool) : State :=
  let reached := fun (s : State) (p : Nat) => all || s.partnerReady p
  let s := s.mapPorts fun p => s.judge p (s.found p) true == St.topology
  let s := (List.range 18).foldl (fun s p =>
    let o := s.found p
    let code := s.judge p o (reached s p || s.free % 2 == 1)
    let s := (if reached s p then s else s.used).opFill 1 (7940 + p) (s.topologyRecord p o code)
    let s := if o = .failed then s.expectNeighbour p else s
    { s with landfall := { s.landfall with failure := s.landfall.failure || code == St.topology || code == St.fenced } }) s
  let s := [18, 19].foldl (fun s p => s.opFill 1 (7940 + p) (codeBytes St.ok ++ [0xFF, 0xFF, 0xFF, 0xFF, 0xFF, 0] ++ natLE 8 0)) s
  (s.phaseEnd 5).phaseBegin 6

/-- L5_WAIT_EXPIRY. -/
def execL5WaitExpiry (s : State) : Res := if s.inPhase 5 then .next (s.endTopology false) else .next s

/-- TOPOLOGY_AGREEMENT. -/
def execTopologyAgreement (s : State) : Res := if s.inPhase 5 then .next (s.endTopology true) else .next s

/-! ### L6 (R405) -/

/-- The training records, from the run's slots. -/
def State.writeTraining (s : State) : State :=
  let slot := fun (i : Nat) => leNat ((tget none (s.op 1).results i).getD [])
  let s := (List.range 5120).foldl (fun s i => s.wr Pd.stratumTraining i (slot i)) s
  (List.range 180).foldl (fun s i => s.wr Pd.portTraining i (slot (5120 + i))) s

/-- WARM_RECORD as this run found things. -/
def State.warmNow (s : State) : WarmRecord :=
  { straps := s.reg Pd.straps, serial := Config.serial, stackSerials := (List.range 20).map Config.stackSerial
    ports := (List.range 18).map fun p => match tget none s.landfall.outcomes p with
      | some (.trained serial position back _ _) => { serial := serial, position := position, port := back, trained := true }
      | _ => { serial := 0, position := 0, port := 0, trained := false } }

/-- READY: forwarding and the link map, the working Tide Tables at every port (spec/02 R57), service arbitration, DONE; failed
ports ask for their spares. -/
def State.declareReady (s : State) (code : BitVec 16) : State :=
  let s := s.setReg Pd.ready 1
  let s : State := { s with power := { s.power with routed := true }, ports := s.ports.map fun e => (e.1, { e.2 with table := none }) }
  let s := s.opEnd 1 3 code
  let s := (List.range 18).foldl (fun s p =>
    if s.portState p = 4 ∧ s.portLogical p < 18 then s.requestSpare (s.portLogical p) p else s) s
  s.sendOwnLinks.resumeTransfers.settle

/-- LANDFALL_L6_DONE. -/
def execLandfallL6Done (s : State) : Res :=
  if s.inPhase 6 then
    if s.wanting true then .next (s.failLandfall St.degraded)
    else
      let s := { s.writeTraining with warmRecord := some s.warmNow }
      let code : BitVec 16 := if s.landfall.failure then St.partialRun else if s.landfall.kind = 3 then St.warmRejected else St.ok
      let s := (s.phaseEnd 6).fillSummary code
      .next ((s.record 0x06 code 0 noUnit (s.phaseDetail 6)).declareReady code)
  else .next s

end Sys2Proof.Machine
end

