-- ==== Sys2Proof/Machine/SelfTest.lean ====
section
/-!
DEFINITION. Self-tests and calibrations during work (spec/15 R409 to R411).
-/
namespace Sys2Proof.Machine

/-- Units of a kind of self-test (Table 15-7). -/
def testUnits (kind : Nat) : Nat := [0, 1040, 64, 1536, 5120, 1536, 20].getD kind 0

/-- Whether kind and range are permitted; kind 1 ignores the range, and an empty range names no unit (log 15). -/
def testArgOk (kind first count : Nat) : Bool :=
  kind == 1 || (decide (2 ≤ kind) && decide (kind ≤ 6) && decide (1 ≤ count) && decide (first + count ≤ testUnits kind))

/-- The unit of a slot. -/
def SelfTest.unit (t : SelfTest) (slot : Nat) : Nat := if t.kind = 1 then slot else t.first + slot

/-- Slots of the run. -/
def SelfTest.slots (t : SelfTest) : Nat := if t.kind = 1 then 1040 else t.count

/-- Whether the unit of a slot is already fenced. -/
def State.testFenced (s : State) (t : SelfTest) (slot : Nat) : Bool :=
  let u := t.unit slot
  match t.kind with
  | 1 => s.islandFenced 1 || decide (2 ≤ s.rd Pd.columnState u)
  | 2 => s.engineFenced u
  | 4 => s.cliffFenced (u / 256)
  | 6 => s.islandFenced (96 + u) || s.portState u == 4
  | _ => s.roomFenced u

/-- Whether the target of a slot lets its test start (R410). -/
def State.testTargetIdle (s : State) (t : SelfTest) (slot : Nat) : Bool :=
  let u := t.unit slot
  let room := s.room u
  match t.kind with
  | 1 => !s.inFlight.any fun x => x.unit == 0
  | 2 => !s.inFlight.any fun x => x.unit == u + 1
  | 3 => s.roomOwnerOf u == .harbour && !s.roomPending u && !s.roomWiping u && room.ownerQ.isEmpty && room.dmaQ.isEmpty && room.portBQ.isEmpty
  | _ => !(s.op 3).state == 2 && !(s.op 4).state == 2 && !(s.op 7).state == 2 && !(List.range 16).any fun p => (s.stage p).clearing

/-- The test of a slot starts: a stratum is held, a room under test enters shared mode, which clears its counters unless it is in shared
mode already (spec/05 R130, R131). -/
def State.startTest (s : State) (t : SelfTest) (slot : Nat) : State :=
  let u := t.unit slot
  if t.kind = 4 then
    let k := s.cliff (u / 256)
    s.setCliff (u / 256) { k with recal := (u % 256) :: k.recal.filter fun x => x != u % 256 }
  else if t.kind = 3 then
    let shared := s.sharedMode u
    let s := s.setRoom u { s.room u with underTest := true }
    if shared then s else (s.wr Pd.conflictCounters u 0).setReg Pd.conflictOccasion 2
  else s

/-- The slots whose test is neither under way nor ended. -/
def State.testsToStart (s : State) (t : SelfTest) : List Nat :=
  (List.range t.slots).filter fun i => !t.started.contains i && (tget none (s.op 2).results i).isNone

/-- Every test that may start does; the first takes the run from DEFERRED to RUNNING. -/
def State.startSelfTests (s : State) : State :=
  match s.selfTest with
  | none => s
  | some t =>
    let now := (s.testsToStart t).filter fun i => s.testTargetIdle t i
    if now.isEmpty then s
    else
      let s := now.foldl (fun s i => s.startTest t i) s
      let s : State := { s with selfTest := some { t with started := t.started ++ now } }
      if (s.op 2).state = 1 then s.opBegin 2 else s

/-- The run ends once its slots are filled. -/
def State.endSelfTest (s : State) : State :=
  match s.selfTest with
  | none => s
  | some t =>
    if (s.op 2).filled = t.slots then
      ({ s with selfTest := none } : State).opEnd 2 3 (if t.failed then St.partialRun else St.ok)
    else s

/-- A self-test START: slots of fenced units are filled at once. -/
def serveSelfTestStart : Serve := fun _ _ q s =>
  let kind := listField q.data 0 1
  let first := listField q.data 2 2
  let count := listField q.data 4 2
  if !testArgOk kind first count then refuse s St.invalidValue
  else if s.opBusy 2 then refuse s St.busy
  else if !s.isReady then refuse s St.conflict
  else
    let t : SelfTest := { kind := kind, first := first, count := count, started := [], failed := false }
    let s := s.opStart 2 1 t.slots
    let gone := (List.range t.slots).filter fun i => s.testFenced t i
    let s := gone.foldl (fun s i => s.opFill 2 i (padTo 16 (codeBytes St.fenced))) s
    let s : State := { s with selfTest := some { t with failed := !gone.isEmpty } }
    let s := s.startSelfTests.endSelfTest
    acceptedStart s 2 ((s.op 2).state == 1)

/-- A self-test START of a kind and range. -/
def startSelfTest (o : Origin) (kind first count : Nat) (s : State) : State :=
  s.receiveOwn serveSelfTestStart (ownWrite o Pd.selfTestStart 0 (natLE 2 kind ++ natLE 2 first ++ natLE 2 count ++ [0, 0]))

/-- SELF_TEST_COLUMNS. -/
def execSelfTestColumns (o : Origin) (s : State) : Res := .next (startSelfTest o 1 0 0 s)
/-- SELF_TEST_ENGINES. -/
def execSelfTestEngines (o : Origin) (first count : BitVec 16) (s : State) : Res := .next (startSelfTest o 2 first.toNat count.toNat s)
/-- SELF_TEST_ROOMS. -/
def execSelfTestRooms (o : Origin) (first count : BitVec 16) (s : State) : Res := .next (startSelfTest o 3 first.toNat count.toNat s)
/-- STRATUM_RECALIBRATION. -/
def execStratumRecalibration (o : Origin) (first count : BitVec 16) (s : State) : Res := .next (startSelfTest o 4 first.toNat count.toNat s)
/-- ROOM_SCRUB. -/
def execRoomScrub (o : Origin) (first count : BitVec 16) (s : State) : Res := .next (startSelfTest o 5 first.toNat count.toNat s)
/-- CAUSEWAY_EYE_CHECK. -/
def execCausewayEyeCheck (o : Origin) (first count : BitVec 16) (s : State) : Res := .next (startSelfTest o 6 first.toNat count.toNat s)

/-- SELF_TEST_BEGIN. -/
def execSelfTestBegin (s : State) : Res := .next s.startSelfTests

/-- A column found bad: remapped at once, or left vacant where the pool is empty (R411). -/
def State.columnFailsIdle (s : State) (physical check : Nat) : State :=
  let st := s.rd Pd.columnState physical
  if 2 ≤ st then s
  else
    let s := (s.wr Pd.columnState physical 3).bump Pd.columnFailures
    if st = 1 then (s.setReg Pd.poolFree (s.reg Pd.poolFree - 1)).noteColumn 0xFFFF physical check 0
    else match s.logicalOf physical with
      | none => s.noteColumn 0xFFFF physical check 0
      | some j => if s.poolColumns.isEmpty then (s.noteColumn j physical check 2).loseColumn j else (s.noteColumn j physical check 1).remapColumn j

/-- A unit that failed its test, as a failure after READY (R411); `f`: its failing check. -/
def State.testFails (s : State) (t : SelfTest) (slot : Nat) (f : Nat) : State :=
  let u := t.unit slot
  match t.kind with
  | 1 => s.columnFailsIdle u f
  | 2 => if s.engineFenced u then s else (s.fenceEngine u 1).announceFence St.fenced 2 u []
  | 4 => s.cliffFails (u / 256)
  | 6 => s.laneFails u 0 true
  | _ => s.roomFails u

/-- What a test leaves: the stratum serves again; a room leaves the test with its bytes as the test's patterns left them,
which nothing states. -/
def State.testLeaves (s : State) (t : SelfTest) (slot : Nat) : State :=
  let u := t.unit slot
  if t.kind = 4 then
    let k := s.cliff (u / 256)
    s.setCliff (u / 256) { k with recal := k.recal.filter fun x => x != u % 256 }
  else if t.kind = 3 then (s.setRoom u { s.room u with underTest := false }).blurRoom u
  else s

/-- A unit's record (Table 15-7); the measurements of kinds 4 to 6 are the operand's. -/
def State.testRecord (s : State) (t : SelfTest) (slot : Nat) (failing : Option (Nat × Nat × Nat)) (record : List Byte) : List Byte :=
  let code := codeBytes (if failing.isSome then St.fenced else St.ok)
  match t.kind with
  | 1 => padTo 16 (match failing with
    | some f => codeBytes St.fenced ++ natLE 2 0xFFFF ++ natLE 1 f.1
    | none => codeBytes St.ok ++ natLE 2 ((s.logicalOf slot).getD 0xFFFF))
  | 2 => engineRecord (failing.elim 0 fun f => max 1 f.1)
  | 3 => roomRecord failing
  | 5 => padTo 16 (code ++ (padTo 6 record).drop 2)
  | _ => padTo 16 (code ++ record.drop 2)

/-- SELF_TEST_UNIT_DONE: a unit under test ends. -/
def execSelfTestUnitDone (slot : Nat) (failing : Option (Nat × Nat × Nat)) (record : List Byte) (s : State) : Res :=
  match s.selfTest with
  | none => .next s
  | some t =>
    if t.started.contains slot then
      let s := s.testLeaves t slot
      let s := s.opFill 2 slot (s.testRecord t slot failing record)
      let s : State := { s with selfTest := some { t with started := t.started.filter (fun i => i != slot), failed := t.failed || failing.isSome } }
      let s := match failing with
        | some f => s.testFails t slot f.1
        | none => s
      .next s.endSelfTest.settle
    else .next s

end Sys2Proof.Machine
end

