-- ==== Sys2Proof/Machine/Health.lean ====
section
/-!
DEFINITION. The health monitor and the sea state (spec/16 R413 to R415).
-/
namespace Sys2Proof.Machine

/-- The read-clear counters the monitor watches; it keeps what reads take from them. -/
def watchedCounter (key : Nat) : Bool :=
  [Pd.correctedErrors, Pd.linkResends, Pd.laneFailures, Pd.residueLink, Pd.residueAdder].contains key

/-- A watched counter without its read-clear reads. -/
def State.counterTotal (s : State) (key : Nat) : Nat := s.reg key + tget 0 s.health.cleared key

/-- The totals of corrected reads, resends and residue mismatches. -/
def State.healthTotals (s : State) : Nat × Nat × Nat :=
  (s.counterTotal Pd.correctedErrors, s.counterTotal Pd.linkResends, s.counterTotal Pd.residueLink + s.counterTotal Pd.residueAdder)

/-- Spare rows used in the bank of the module with the fewest free. -/
def State.sparesWorst (s : State) : Nat :=
  (List.range 20).foldl (fun m c => (s.cliff c).usedRows.foldl (fun m e => max m e.2) m) 0

/-- The readings x_0 to x_7 (Table 16-1); `old`: the totals one second ago. -/
def State.healthReadings (s : State) (old : Nat × Nat × Nat) : List Nat :=
  let now := s.healthTotals
  [bit01 ((s.reg Pd.supplyFlags).testBit 0), s.reg Pd.inputRipple, now.1 - old.1, s.sparesWorst, (now.2.1 - old.2.1) / 1000,
    s.counterTotal Pd.laneFailures, now.2.2 - old.2.2, (s.hottest - 85000).toNat]

/-- The score of an input. -/
def State.healthScore (s : State) (i x : Nat) : Nat :=
  if i = 0 then x * s.reg Pd.supplyLevel else min 9 (x * s.rd Pd.weights i / 65536)

/-- The level after a raw level, and the updates the raw level has stayed below it. -/
def nextSea (level below raw : Nat) : Nat × Nat :=
  if level < raw then (raw, 0) else if raw < level then (if below + 1 = 100 then (level - 1, 0) else (level, below + 1)) else (level, 0)

/-- The effects of a change of the sea state (R414, R415). -/
def State.seaChanged (s : State) (old new : Nat) (scores : List Byte) : State :=
  let s := s.record 0x04 St.ok 0 noUnit (padTo 8 (natLE 1 old ++ natLE 1 new) ++ scores)
  let s : State := { s with host := { s.host with status := tsetMany 0 [] 0 s.statusPage } }
  let across := fun (n : Nat) => decide (old < n) != decide (new < n)
  let s := if across 5 || across 8 then s.vector 2 else s
  (List.range 16).foldl (fun s p =>
    if s.autoPart p then
      let step := stgStep (s.stageRec p)
      let s := if old < 5 ∧ 5 ≤ new then s.autoRequest p (step + 1) else s
      if old < 8 ∧ 8 ≤ new then s.autoRequest p step else s
    else s) s

/-- SEA_STATE_UPDATE, every 10 ms; the input's ripple is the sensor's reading. -/
def execSeaStateUpdate (rippleMv : Nat) (s : State) : Res :=
  if s.power.step < 3 then .next s
  else
    let s := s.setReg Pd.inputRipple (rippleMv % 2 ^ 32)
    let s := if 400 < rippleMv then s.setFlags Pd.supplyFlags 8 else s
    let before := s.health.history
    let xs := s.healthReadings (if before.length < 100 then (0, 0, 0) else before.headD (0, 0, 0))
    let scores := xs.zipIdx.map fun e => s.healthScore e.2 e.1
    let raw := scores.foldl max 0
    let old := s.reg Pd.seaState
    let r := nextSea old s.health.below raw
    let history := before ++ [s.healthTotals]
    let s : State := { s with health := { s.health with below := r.2, history := history.drop (history.length - 100) } }
    let s := xs.zipIdx.foldl (fun s e => s.wr Pd.inputReadings e.2 (min e.1 (2 ^ 32 - 1))) s
    let s := scores.zipIdx.foldl (fun s e => s.wr Pd.inputScores e.2 e.1) s
    let s := (s.setReg Pd.seaState r.1).setReg Pd.seaStatePeak (max (s.reg Pd.seaStatePeak) r.1)
    .next (if r.1 = old then s else (s.seaChanged old r.1 (scores.map (BitVec.ofNat 8))).takeStows)

end Sys2Proof.Machine
end

