-- ==== Sys2Proof/Machine/Training.lean ====
section
/-!
DEFINITION. The commands of the stage sequencers, chapter 14: START and STOP, the phases of a step, the agreement, the
loss scale and the end of a step.
-/
namespace Sys2Proof.Machine

/-! ### Writes of records and commands (R376, R381, R383) -/

/-- A write of STAGE_TABLE: STATE, PHASE and CLEAN_STEPS stay as they are. -/
def serveStageTable : Serve := fun _ _ q s =>
  let p := q.offset / 128
  let w := s.stageRec p
  if q.data.length ≠ 128 ∨ q.offset % 128 ≠ 0 then refuse s St.typeMismatch
  else if !([0, 3].any (· == stageState w)) then refuse s St.busy
  else { state := s.setStageRec p (withClean (withPhase (withState (stageClean q.value) (stageState w)) (stagePhase w)) (stgClean w)) }

/-- Whether a record may be started (R381). -/
def stageOk (w : Nat) : Bool :=
  let m := stgMicro w
  decide (1 ≤ stgStages w) && decide (stgStages w ≤ 64) && decide (stgIndex w < stgStages w)
    && decide (1 ≤ m) && decide (m ≤ 1024) && decide (stgBase w + 2 * m + 2 ≤ 131072)
    && [12, 13, 14, 15].all (fun o => decide (byteField w o 1 ≤ 66)) && [16, 18, 20].all (fun o => decide (1 ≤ byteField w o 2))
    && (decide (stgAgree w < 64) || stgAgree w == 0xFF)
    && decide (-126 ≤ stgScaleMin w) && decide (stgScaleMin w ≤ 126) && decide (stgScaleMin w ≤ stgScaleMax w) && decide (stgScaleMax w ≤ 126)
    && decide (1 ≤ stgGrowth w) && decide (stgScaleMin w ≤ stgScale w) && decide (stgScale w ≤ stgScaleMax w)
    && stgWord w % 16 == 0 && rangeBacked (stgWord w) 16 && stgVote w % 256 == 0 && rangeBacked (stgVote w) 256
    && stgResult w % 256 == 0 && rangeBacked (stgResult w) 256
    && (stgLoss w == 0 || (stgLoss w % 4 == 0 && rangeBacked (stgLoss w) 4))

/-- The state word of a counter as START leaves it: COUNTER of partition p, VALUE 0, TARGET 1. -/
def freshCounter (p : Nat) : Nat := 256 + 16 * p + 2

/-- A START: counters, step word, phase 1 (R381). The check pages of images held within a step that failed are not to be
written. -/
def State.startStage (s : State) (p : Nat) : State :=
  let w := s.stageRec p
  let cs := (List.range (2 * stgMicro w + 2)).map fun k => stgBase w + k
  let s := (stgDone w :: cs).foldl (fun s c => s.ctrOp .dictionary 5 0 c (freshCounter p)) s
  let s := s.harbourWrite (stgWord w) (stepWord (stgScale w) zero32 (stgStep w))
  let held := if stageState w = 3 then s.stow.held.filter (fun h => !(h.part == p && h.held)) else s.stow.held
  let s := { s with stow := { s.stow with held := held } }
  let s := s.setStage p { s.stage p with stopAfter := false }
  (s.setStageRec p (withState w 1)).beginStep p

/-- A STOP: RUNNING becomes STOPPING; one that is held stops when its hold ends (R383, R416). -/
def State.stopStage (s : State) (p : Nat) : State :=
  let w := s.stageRec p
  if stageState w = 1 then s.setStageRec p (withState w 4)
  else if stageState w = 2 then s.setStage p { s.stage p with stopAfter := true }
  else s

/-- A write of STAGE_CONTROL. -/
def serveStageControl : Serve := fun _ _ q s =>
  let p := q.value % 16
  let w := s.stageRec p
  match q.value / 256 with
  | 1 =>
    if !([0, 3].any (· == stageState w)) then refuse s St.busy
    else if !stageOk w then refuse s St.invalidValue
    else { state := s.startStage p }
  | 2 => { state := s.stopStage p }
  | _ => refuse s St.invalidValue

/-- STAGE_START. -/
def execStageStart (o : Origin) (part : BitVec 4) (s : State) : Res :=
  .next (s.receiveOwn serveStageControl (ownWrite o Pd.stageControl 0 [BitVec.ofNat 8 part.toNat, 1]))

/-- STAGE_STOP. -/
def execStageStop (o : Origin) (part : BitVec 4) (s : State) : Res :=
  .next (s.receiveOwn serveStageControl (ownWrite o Pd.stageControl 0 [BitVec.ofNat 8 part.toNat, 2]))

/-! ### Phases (R382) -/

/-- Whether a sequencer goes about its step: RUNNING or STOPPING. -/
def stageGoes (w : Nat) : Bool := stageState w == 1 || stageState w == 4

/-- STAGE_PHASE_DONE: a forward or backward phase is done; its micro-batch boundary. -/
def execStagePhaseDone (part : Nat) (s : State) : Res :=
  let w := s.stageRec part
  let k := stagePhase w
  if stageGoes w && decide (1 ≤ k) && decide (k ≤ 2 * stgMicro w) && !(s.stage part).waiting && !(s.stage part).clearing
      && s.phaseReady part k then
    .next (((s.takeDone part k).boundary part).settle)
  else .next s

/-! ### The loss scale (R386) -/

/-- CLEAN_STEPS after an applied step. It says nothing of 65,536 applied steps: a free value (log 44). -/
def State.cleanAfter (s : State) (w : Nat) : State × Nat :=
  if stgClean w = 65535 then (s.used, s.free % 65536) else (s, stgClean w + 1)

/-- The scale settled: the step word with this step's APPLY; then the record's scale; a skipped step is counted and
recorded. -/
def State.settleScale (s : State) (p : Nat) (overflow : Bool) : State :=
  let w := s.stageRec p
  let e := stgScale w
  let s := s.harbourWrite (stgWord w) (stepWord e (if overflow then zero32 else one32) (stgStep w))
  if overflow then
    let e' := max (stgScaleMin w) (e - 1)
    let w := if stgScaling w then withClean (withScale w e') 0 else w
    let s := (s.setStageRec p w).bump Pd.stepsSkipped
    s.record 0x0A St.overflow 8 p (natLE 4 (stgStep w) ++ natLE 1 (ofSigned 8 (stgScale w)))
  else
    let r := s.cleanAfter w
    let w := withClean w r.2
    r.1.setStageRec p (if stgScaling w && decide (stgGrowth w ≤ r.2) then withClean (withScale w (min (stgScaleMax w) (e + 1))) 0 else w)

/-- After the scale: the update phase, once CARRY is cleared in a skipped step. -/
def State.afterScale (s : State) (p : Nat) (overflow : Bool) : State :=
  let s := s.settleScale p overflow
  let x := { s.stage p with waiting := false, clearing := overflow }
  let s := s.setStage p x
  if overflow then s else s.openPhase p (2 * stgMicro (s.stageRec p) + 2)

/-- The agreement contribution of R382. -/
def voteBytes (overflow : Bool) : List Byte :=
  natLE 4 one32.toNat ++ natLE 4 (if overflow then one32 else zero32).toNat ++ natLE 248 0

/-- STAGE_ESTUARY_DONE: the step's Estuary tasks have completed; the vote, or the scale at once. -/
def execStageEstuaryDone (part : Nat) (s : State) : Res :=
  let w := s.stageRec part
  let x := s.stage part
  if stageGoes w && x.waiting && decide (stgEstuary w ≤ x.estuaryDone) then
    if stgAgree w = 0xFF then .next (s.afterScale part x.overflow)
    else
      .next (((s.setStage part { x with waiting := false }).harbourWrite (stgVote w) (voteBytes x.overflow)).openPhase part
        (2 * stgMicro w + 1))
  else .next s

/-- Why the agreement fails (R385). -/
def State.voteFault (s : State) (w : Nat) : Option (BitVec 16) :=
  let g := stgAgree w
  let code := BitVec.ofNat 16 (byteField (s.rd Pd.lastReduction g) 4 2)
  let e0 : F32 := BitVec.ofNat 32 (leNat (s.harbourRead (stgResult w) 4))
  if isFailure code then some code
  else if code = St.late ∨ !(val e0).eqv (Num.ofNat (grpCount (s.groupRec g))) then some St.voteMissing
  else none

/-- STAGE_AGREEMENT_DONE. -/
def execStageAgreementDone (part : Nat) (s : State) : Res :=
  let w := s.stageRec part
  let k := 2 * stgMicro w + 1
  if stageGoes w && stagePhase w == k && !(s.stage part).clearing && s.phaseReady part k then
    let s := s.takeDone part k
    match s.voteFault w with
    | some code => .next ((s.failStage part code).takeStows).settle
    | none =>
      let e1 : F32 := BitVec.ofNat 32 (leNat (s.harbourRead (stgResult w + 4) 4))
      .next (s.afterScale part (Num.zero.lt (val e1))).settle
  else .next s

/-- CARRY cleared in every entry of a group's scale table (R388). -/
def State.clearCarry (s : State) (g : Nat) : State :=
  let a := grpScale (s.groupRec g)
  (List.range (s.groupBlocks g)).foldl (fun s b =>
    let e := leNat (s.harbourRead (a + 4 * b) 4)
    if scaleCarry e then s.harbourWrite (a + 4 * b) (natLE 4 (withCarry e false)) else s) s

/-- CARRY_CLEAR: every group of GROUP_MASK is idle in a skipped step. -/
def execCarryClear (part : Nat) (s : State) : Res :=
  let w := s.stageRec part
  let gs := maskGroups (stgGroups w)
  if stageGoes w && (s.stage part).clearing && !gs.any (fun g => s.groupBusy g) then
    let s := gs.foldl (fun s g => s.clearCarry g) s
    let s := s.setStage part { s.stage part with clearing := false }
    .next (s.openPhase part (2 * stgMicro w + 2)).settle
  else .next s

/-! ### The end of a step (R382, R425, R427, R434) -/

/-- The data cursor at a step boundary. -/
def State.promoteCursor (s : State) (p step : Nat) : State :=
  let n := s.rd Pd.nextCursor p
  if n % 2 ^ 32 = step then (s.wr Pd.dataCursor p n).wr Pd.nextCursor p 0 else s

/-- Whether a replayed loss agrees with the one recorded. -/
def lossAgrees (loss check tolerance : F32) (fallback : Bool) : Bool :=
  let d := ((val loss).sub (val check)).abs
  loss == check || (fallback && !d.isNan && !((val tolerance).mul (val check).abs).isNan
    && !(((val tolerance).mul (val check).abs).lt d))

/-- The replay check of a partition at the end of step `step` (R434). -/
def State.replayCheck (s : State) (p step : Nat) (loss : F32) : State :=
  let r := s.rd Pd.replayCheck p
  if byteField r 2 1 = 1 ∧ byteField r 4 4 = step then
    let ok := lossAgrees loss (BitVec.ofNat 32 (byteField r 12 4)) (BitVec.ofNat 32 (s.reg Pd.lossTolerance)) (s.stow.fallback.contains p)
    let code : BitVec 16 := if ok then St.ok else St.lossMismatch
    let r := setByteField (setByteField (setByteField r 0 2 code.toNat) 2 1 2) 8 4 loss.toNat
    (s.wr Pd.replayCheck p r).record (if ok then 0x0A else 0x01) code 8 p (natLE 16 r)
  else s

/-- The repeated automatic request of a partition (R415). -/
def State.repeatStow (s : State) (p : Nat) : State :=
  let n := (s.stage p).sinceStow + 1
  let s := s.setStage p { s.stage p with sinceStow := n }
  let k := cfgRepeat (s.stowCfg p)
  if k ≠ 0 ∧ n % k = 0 ∧ 5 ≤ s.reg Pd.seaState ∧ s.autoPart p = true then s.autoRequest p (stgStep (s.stageRec p) + 1) else s

/-- STAGE_UPDATE_DONE: the update phase is done; the step boundary. STEP counts modulo 2^32 (log 44). -/
def execStageUpdateDone (part : Nat) (s : State) : Res :=
  let w := s.stageRec part
  let k := 2 * stgMicro w + 2
  if stageGoes w && stagePhase w == k && s.phaseReady part k then
    let s := s.takeDone part k
    let w := s.stageRec part
    let old := stgStep w
    let loss : F32 := if stgLoss w = 0 then zero32 else BitVec.ofNat 32 (leNat (s.harbourRead (stgLoss w) 4))
    let step := (old + 1) % 2 ^ 32
    let s := ((s.wr Pd.lastLoss part loss.toNat).setStageRec part (withStep w step)).bump Pd.stepsCompleted
    let s := (s.harbourWrite (stgWord w) (stepWord (stgScale w) zero32 step)).promoteCursor part step
    let s := ((s.writeCheckPages part old loss).replayCheck part old loss).repeatStow part
    .next (s.boundary part).settle
  else .next s

end Sys2Proof.Machine
end

