-- ==== Sys2Proof/Machine/Views.lean ====
section
/-!
DEFINITION. What a READ of a dictionary entry sees: the entry's stored value, or what the module forms when it is read
(the entry table that ends each chapter). The Strandline's entries, read through cursor and window (spec/17 R447).
-/
namespace Sys2Proof.Machine

/-! ### The Strandline's areas (spec/17 R437, R441, R447) -/

/-- The slot an entry lies in: a permanent slot, or 1,024 + the circulating slot. -/
def strandSlot (n : Nat) : Nat := if n < 1024 then n else 1024 + (n - 1024) % 8192

/-- Every entry made and not lost, in flash or waiting for it. -/
def Strand.all (x : Strand) : List Entry := x.flash ++ x.unflushed

/-- The entries whose slot no later entry has taken. -/
def Strand.held (x : Strand) : List Entry :=
  x.all.filter fun e => !x.all.any fun f => strandSlot f.number == strandSlot e.number && decide (e.number < f.number)

/-- The circulating entries held. -/
def Strand.circulating (x : Strand) : List Nat := (x.held.map (·.number)).filter fun n => decide (1024 ≤ n)

/-- OLDEST_CIRCULATING. -/
def Strand.oldest (x : Strand) : Nat := x.circulating.foldl min x.next

/-- An entry's 508 bytes before its CRC (Table 17-2). -/
def Entry.body (e : Entry) : List Byte :=
  let flags := 1 + 2 * bit01 e.permanent + 4 * bit01 e.warningFlush + 8 * bit01 e.incomplete
  padTo 508 (padTo 480 (padTo 96 (natLE 8 e.number ++ natLE 8 e.time ++ natLE 4 e.run ++ natLE 1 e.trigger ++ natLE 1 flags ++ codeBytes e.code
    ++ natLE 1 e.unitKind ++ natLE 1 e.seaState ++ natLE 1 e.lifeCycle ++ natLE 1 e.watch.length ++ natLE 4 e.unit ++ e.detail)
    ++ e.watch.flatMap fun v => natLE 8 v.toNat) ++ natLE 4 e.watchCrc.toNat)

/-- An entry's 512 bytes. -/
def Entry.bytes (e : Entry) : List Byte := e.body ++ natLE 4 (crc32 e.body).toNat

/-- The number a source's cursor holds. -/
def State.cursorValue (s : State) (src : Source) : Nat :=
  match s.cursorOf src with
  | some c => c.entry
  | none => (s.strand.next + 2 ^ 64 - 1) % 2 ^ 64

/-- The window of a source. -/
def State.windowBytes (s : State) (src : Source) : List Byte :=
  let n := s.cursorValue src
  match s.strand.held.find? fun e => e.number == n with
  | some e => e.bytes
  | none => padTo 512 (natLE 8 n)

/-! ### Entries formed when they are read -/

/-- PWRGOOD_IN, ALERT_N and THERM_N (spec/01 R44, PD 0x2040.01). -/
def State.sidebandView (s : State) : Nat :=
  let causes := bit01 ((s.reg Pd.supplyFlags).testBit 0) + 2 * bit01 (s.reg Pd.throttleLevel != 0) + 4 * bit01 s.power.thermN
    + 8 * bit01 (decide (5 ≤ s.reg Pd.seaState)) + 16 * bit01 s.power.alertLandfall + 32 * bit01 (s.reg Pd.strapMismatch != 0)
  bit01 s.power.pwrgood + 2 * bit01 (causes &&& s.reg Pd.alertEnable != 0) + 4 * bit01 s.power.thermN

/-- ARBITRATION_MODE (spec/05 R130). -/
def State.arbitrationView (s : State) : Nat :=
  if (s.op 1).state = 2 ∨ (s.op 4).state = 2 then 1
  else if s.selfTest.any fun t => t.kind == 3 && (s.op 2).state == 2 then 2 else 0

/-- WARM_RECORD, 1,424 bytes (Table 15-9). -/
def State.warmBytes (s : State) : List Byte :=
  match s.warmRecord with
  | none => List.replicate 1424 0
  | some r =>
    padTo 704 ([1, 0] ++ natLE 2 r.straps ++ natLE 32 r.serial.toNat ++ r.stackSerials.flatMap fun x => natLE 32 x.toNat)
      ++ r.ports.flatMap fun p => padTo 40 (natLE 32 p.serial.toNat ++ natLE 1 p.position ++ natLE 1 p.port ++ natLE 1 (bit01 p.trained))

/-- A record of FW_BANKS. -/
def State.bankRecord (s : State) (i : Nat) : List Byte :=
  let b := s.bank i
  [BitVec.ofNat 8 (bit01 b.valid), BitVec.ofNat 8 (bit01 (s.power.booted == some i)), 0, 0] ++ natLE 4 b.secVersion ++ natLE 8 b.build
    ++ natLE 64 b.digest.toNat

/-- SPARES_FREE of a bank of a Cliff. -/
def State.sparesView (s : State) (c bank : Nat) : Nat :=
  (16 - tget 0 (s.cliff c).usedRows bank) + 32 * (4 - tget 0 (s.cliff c).usedGroups bank)

/-- An entry of a long operation's group (Table 03-8), a unit of it. -/
def State.opView (s : State) (r sub u : Nat) : List Byte :=
  match sub with
  | 2 => natLE 8 (s.opStatus r)
  | 3 => natLE 8 (s.opStatus r) ++ natLE 4 (s.op r).run ++ natLE 4 0
  | 5 => (tget none (s.op r).results u).getD []
  | 6 => natLE 4 (s.op r).slots
  | _ => []

/-- Sensor readings and counts of an event that no command tells of: nothing fixes their values (log 4). -/
def unknownReading (key : Nat) : Bool :=
  [Pd.inputCurrent, Pd.inputPower, Pd.fecCorrected].contains key || (decide (Pd.blockPower ≤ key) && decide (key < Pd.blockPower + 8))

/-- Which of `n` consecutive sub-indices from `base` an entry is. -/
def subOf (base n key : Nat) : Option Nat := if base ≤ key ∧ key < base + n then some (key - base) else none

/-- Unit `u` of an entry with sub-indices that is formed when it is read. -/
def State.formedSub (s : State) (key u : Nat) : Option (List Byte) :=
  match subOf Pd.cliffCapacity 20 key with
  | some c => some (natLE 8 (s.cliffCapacity c))
  | none => match subOf Pd.sparesFree 20 key with
    | some c => some (natLE 2 (s.sparesView c u))
    | none => match subOf Pd.chartActive 16 key with
      | some p => some (natLE 1 (bit01 (tget none s.chartBase p).isSome))
      | none => match subOf Pd.measurement 8 key with
        | some i => some (natLE 64 (s.security.measure.getD i 0))
        | none => none

/-- Unit `u` of a scalar or of one table that is formed when it is read. -/
def State.formedOne (s : State) (src : Source) (u : Nat) : Nat → Option (List Byte)
  | 0x100001 => some (natLE 32 Config.serial.toNat)
  | 0x101001 => some (natLE 1952 Config.identityKey)
  | 0x180002 => some ([0xFE, 0x80, 0, 0, 0, 0, 0, 0] ++ natLE 8 Config.interfaceId.toNat)
  | 0x180003 => some (natLE 1 (if s.reg Pd.plcaNodeId = 0 then bits (s.reg Pd.straps) 8 2 * 16 + bits (s.reg Pd.straps) 4 4 + 1 else s.reg Pd.plcaNodeId))
  | 0x203002 => some (natLE 2 s.power.liveStraps.toNat)
  | 0x204001 => some (natLE 1 s.sidebandView)
  | 0x340003 => some (natLE 192 ((List.range 1536).foldl (fun m r => m + bit01 (s.roomFenced r) * 2 ^ r) 0))
  | 0x340004 => some (natLE 1 s.arbitrationView)
  | 0x380002 => some (natLE 8 s.capacityBacked)
  | 0x380004 => some (natLE 4 (s.retiredRecords.filter fun e => e.2.2.1 == 2).length)
  | 0x380005 => some (natLE 4 (s.retiredRecords.filter fun e => e.2.2.1 == 1).length)
  | 0x401001 => some (natLE 2 (s.columnEntry u))
  | 0x441003 => some s.genResult
  | 0x482001 => some (s.directoryRecord (u / 32) (u % 32))
  | 0x483003 => some (natLE 4 s.sfnResult)
  | 0x501001 => some (natLE 8 (if s.ctrFenced u then 0 else s.ctr u))
  | 0x502001 => some (natLE 32 (s.listView u))
  | 0x545001 => some (s.routeRecord u)
  | 0x581001 => some (natLE 128 (s.groupView u))
  | 0x642002 => some s.warmBytes
  | 0x700003 => some (natLE 8 s.strand.next)
  | 0x700004 => some (natLE 8 s.strand.oldest)
  | 0x700005 => some (natLE 2 ((s.strand.held.filter fun e => decide (e.number < 1024)).length))
  | 0x700006 => some (natLE 2 s.strand.unflushed.length)
  | 0x701001 => some (natLE 8 (s.cursorValue src))
  | 0x701002 => some (s.windowBytes src)
  | 0x741001 => some (natLE 32 s.security.challenge)
  | 0x743004 => some (s.bankRecord u)
  | _ => none

/-- Unit `u` of an entry as a READ sees it. -/
def State.viewUnit (s : State) (src : Source) (e : EntryInfo) (key u : Nat) : List Byte :=
  if unknownReading key then natLE e.unit s.free
  else match opRowOf key with
    | some r => padTo e.unit (s.opView r (key - opBase r) u)
    | none => match s.formedOne src u key with
      | some b => b
      | none => match s.formedSub key u with
        | some b => b
        | none => natLE e.unit (s.rd key u)

/-- Bytes `off` to `off + n − 1` of an entry as a READ sees them. -/
def State.view (s : State) (src : Source) (e : EntryInfo) (key off n : Nat) : List Byte :=
  (((covered e.unit off n).flatMap (s.viewUnit src e key)).drop (off % e.unit)).take n

end Sys2Proof.Machine
end

