-- ==== Sys2Proof/Machine/Strandline.lean ====
section
/-!
DEFINITION. The Strandline recorder, chapter 17: entries and their watch values, flash, cursors, clearing; the CXL event
logs fed from it (spec/04 R94).
-/
namespace Sys2Proof.Machine

/-! ### The watch list (R442, R443) -/

/-- The entry a watch record names, if it is in use. -/
def watchedKey (w : Nat) : Option Nat := if w.testBit 0 then some (bits w 8 24) else none

/-- Whether an entry may be watched: a number that the host can read or write. -/
def watchable (key : Nat) : Bool :=
  match entryInfo key with
  | some e => (decide (e.type ≤ 5) || e.type == 8) && e.accHost != 0
  | none => false

/-- Whether the records of a whole list keep the two rules of R442. -/
def watchOk (l : List Nat) : Bool :=
  let used := l.filterMap watchedKey
  (l.take used.length).all (·.testBit 0) && used.all watchable

/-- A watched entry's value: zero-extended, an I32 sign-extended. -/
def State.watchValue (s : State) (key : Nat) : BitVec 64 :=
  match entryInfo key with
  | none => 0
  | some e =>
    let v := leNat (s.view .mailbox e key 0 e.size)
    if e.type = 4 then (BitVec.ofNat 32 v).signExtend 64 else BitVec.ofNat 64 v

/-- Whether a watched value is not read in time: with an island fenced, what its entry needs may not answer (log 4). -/
def State.watchLost (s : State) (i : Nat) : Bool := s.reg Pd.islandFenced != 0 && (Config.free (s.fresh + i)).testBit 0

/-- The records of the watch list. -/
def State.watchList (s : State) : List Nat := (List.range 48).map (s.rd Pd.watchList)

/-! ### Making an entry (R438, R440, R441) -/

/-- The CXL event log a trigger's class goes to: 1 warnings, 2 failures (Table 17-1). -/
def eventLogOf (trigger : Nat) : Option Nat :=
  if trigger = 0x01 then some 2 else if [0x02, 0x03, 0x05, 0x09, 0x0B].contains trigger then some 1 else none

/-- An entry joins its event log; a full log overflows; vector 3 follows where the policy says so (spec/04 R94, R107). -/
def State.addEvent (s : State) (number : Nat) (trigger : Nat) (code : BitVec 16) : State :=
  match eventLogOf trigger with
  | none => s
  | some i =>
    let l := s.host.logs.getD i {}
    if 64 ≤ l.records.length then { s with host := { s.host with logs := s.host.logs.set i { l with overflow := true } } }
    else
      let s : State := { s with host := { s.host with logs := s.host.logs.set i { l with records := l.records ++ [(number, code)] } } }
      if s.host.policy.getD i 0 = 1 then s.vector 3 else s

/-- An occurrence becomes the next entry, its number taken from the 256 reserved or reserving the next 256. -/
def State.makeEntry (s : State) (o : Occurrence) : State :=
  let x := s.strand
  let n := x.next
  let keys := s.watchList.filterMap watchedKey
  let lost := fun (i : Nat) => s.watchLost i
  let e : Entry :=
    { number := n, time := o.time, run := s.reg Pd.landfallCount % 2 ^ 32, trigger := o.trigger, permanent := decide (n < 1024)
      warningFlush := false, incomplete := (List.range keys.length).any lost, code := o.code, unitKind := o.unitKind
      seaState := s.reg Pd.seaState, lifeCycle := s.reg Pd.lifeCycle, unit := o.unit, detail := padTo 64 o.detail
      watch := keys.zipIdx.map fun k => if lost k.2 then 0 else ({ s with fresh := s.fresh + keys.length + k.2 } : State).watchValue k.1
      watchCrc := crc32 (s.watchList.flatMap (natLE 4)) }
  let s : State :=
    { s with strand := { x with unflushed := x.unflushed ++ [e], next := n + 1
                                reserved := if x.reserved ≤ n then 256 * (n / 256 + 1) else x.reserved }
             fresh := s.fresh + 2 * keys.length }
  (s.bump Pd.entriesMade).addEvent n o.trigger o.code

/-- Once there is room, what was dropped is told in one OVERRUN entry (R444). -/
def State.tellOverrun (s : State) : State :=
  if s.strand.dropped = 0 then s
  else ({ s with strand := { s.strand with dropped := 0 } } : State).record 0x0B St.ok 0 noUnit (natLE 8 s.strand.dropped)

/-- STRANDLINE_ENTRY: the oldest waiting occurrence. -/
def execStrandlineEntry (s : State) : Res :=
  match s.strand.queue with
  | [] => .next s
  | o :: rest => .next (({ s with strand := { s.strand with queue := rest } } : State).tellOverrun.makeEntry o)

/-! ### Flash (R437, R445) -/

/-- The areas of flash with an entry in its slot. -/
def Strand.store (x : Strand) (e : Entry) : List Entry := (x.flash.filter fun f => strandSlot f.number != strandSlot e.number) ++ [e]

/-- STRANDLINE_FLASH_WRITE: the oldest entry waiting; a CLEAR whose entry it is gets its response. A warning flush lasts
until nothing waits. -/
def execStrandlineFlashWrite (s : State) : Res :=
  match s.strand.unflushed with
  | [] => .next { s with strand := { s.strand with flushing := s.strand.flushing && !s.strand.queue.isEmpty } }
  | e :: rest =>
    let x := s.strand
    let t : State :=
      { s with strand := { x with unflushed := rest, flash := x.store { e with warningFlush := x.flushing }
                                  flushing := x.flushing && !(rest.isEmpty && x.queue.isEmpty) } }
    match t.gdp.inflight.find? fun p => p.wait == .clear e.number with
    | some p => .next (t.answer p St.ok)
    | none => .next t

/-! ### Cursor and window (R447, R448) -/

/-- A source's cursor becomes the most recently used; of 17, the one used least recently is dropped. -/
def State.useCursor (s : State) (c : StrandCursor) : State :=
  { s with strand := { s.strand with cursors := (c :: s.strand.cursors.filter fun x => x.source != c.source).take 16 } }

/-- A read through a source's cursor is a use of it. -/
def State.touchCursor (s : State) (src : Source) : State :=
  match s.cursorOf src with
  | some c => s.useCursor c
  | none => s

/-- A write of CURSOR. -/
def serveCursor : Serve := fun _ _ q s =>
  { state := s.useCursor { source := pathSource q.path, entry := q.value, signed := if q.auth = .unsigned then none else some s.time } }

/-- CURSOR. -/
def execCursor (o : Origin) (auth : Auth) (entry : BitVec 64) (s : State) : Res :=
  .next (s.receiveOwn serveCursor (ownWrite o Pd.cursor 0 (natLE 8 entry.toNat) auth))

/-- A read of WINDOW, whole or a piece. -/
def serveWindow : Serve := fun _ e q s =>
  let n := readLength e q.offset q.hdr.length.toNat
  { state := s.touchCursor (pathSource q.path), payload := ((s.windowBytes (pathSource q.path)).drop q.offset).take n }

/-- WINDOW. -/
def execWindow (o : Origin) (offset length : Nat) (s : State) : Res :=
  .next (s.receiveOwn serveWindow (ownReq o 1 Pd.window offset length [] .unsigned))

/-! ### Software events, clearing, the watch list -/

/-- A write of SOFTWARE_EVENT; a piece stands at its offset (PD 0x7020.01). -/
def serveSoftwareEvent : Serve := fun _ _ q s =>
  { state := s.record 0x08 St.ok 0 noUnit (List.replicate q.offset 0 ++ q.data) }

/-- SOFTWARE_EVENT. -/
def execSoftwareEvent (o : Origin) (bytes : List Byte) (s : State) : Res :=
  .next (s.receiveOwn serveSoftwareEvent (ownWrite o Pd.softwareEvent 0 bytes))

/-- A write of CLEAR (R449): the CLEAR entry is the first after the clear; its response waits for flash. With no circulating
entry held, the numbers it tells are not stated (log 4). -/
def serveClear : Serve := fun _ _ q s =>
  let c := q.value
  if c < s.strand.oldest then { state := s }
  else
    let gone := s.strand.circulating.filter fun n => decide (n ≤ c)
    let lo := if gone.isEmpty then s.free else gone.foldl min c
    let hi := if gone.isEmpty then s.used.free else gone.foldl max 0
    let nonce := match q.auth with
      | .signed n _ => n.toNat
      | .unsigned => 0
    let stay := fun (l : List Entry) => l.filter fun e => !(decide (1024 ≤ e.number) && decide (e.number ≤ c))
    let s := if gone.isEmpty then s.used.used else s
    let s : State := { s with strand := { s.strand with flash := stay s.strand.flash, unflushed := stay s.strand.unflushed } }
    let s := s.setReg Pd.clears ((s.reg Pd.clears + 1) % 2 ^ 32)
    let n := s.strand.next
    { state := s.makeEntry { trigger := 0x09, code := St.ok, unitKind := 0, unit := noUnit, time := s.time
                             detail := natLE 8 lo ++ natLE 8 hi ++ natLE 32 nonce }
      wait := some (.clear n) }

/-- CLEAR. -/
def execClear (o : Origin) (auth : Auth) (upTo : BitVec 64) (s : State) : Res :=
  .next (s.receiveOwn serveClear (ownWrite o Pd.clear 0 (natLE 8 upTo.toNat) auth))

/-- A write of WATCH_LIST, checked against the whole list it would leave; reserved bits are ignored. -/
def serveWatchList : Serve := fun _ _ q s =>
  let new := (List.range 48).map fun i =>
    let w := overlay 4 i (s.rd Pd.watchList i) q.offset q.data
    bits w 8 24 * 256 + w % 2
  if !watchOk new then refuse s St.invalidValue
  else { state := new.zipIdx.foldl (fun s e => s.wr Pd.watchList e.2 e.1) s }

/-- WATCH_LIST. -/
def execWatchList (o : Origin) (offset : Nat) (bytes : List Byte) (s : State) : Res :=
  .next (s.receiveOwn serveWatchList (ownWrite o Pd.watchList offset bytes))

end Sys2Proof.Machine
end

