-- ==== Sys2Proof/Machine/Security.lean ====
section
/-!
DEFINITION. Life cycle, firmware images, measurements and attestation (chapter 18).
-/
namespace Sys2Proof.Machine

/-! ### Life-cycle transitions (R452 to R455) -/

/-- Whether a transition is listed and its condition and signature are there (Table 18-1). `under`: signed under the return
key. -/
def State.transitionOk (s : State) (to_ : Nat) (signed under : Bool) : Bool :=
  let officer := signed && !under
  match s.reg Pd.lifeCycle, to_ with
  | 0, 1 => s.reg Pd.identityCertificates != 0
  | 1, 2 => officer && s.reg Pd.soKey != 0
  | 2, 3 => officer
  | 3, 1 => signed && under
  | 1, 4 => officer
  | 2, 4 => officer
  | 3, 4 => signed
  | _, _ => false

/-- The persistent entries that a return to PROVISIONED keeps: identity, life-cycle and security entries but the officer's
key, the Strandline's, LANDFALL_COUNT, the retired list and the fuse map. -/
def keptOnReturn (key : Nat) : Bool :=
  !(entryInfo key).any (·.persistent)
    || [Pd.identityCertificates, Pd.lifeCycle, Pd.minSecurityVersion, Pd.landfallCount, Pd.retiredList].contains key
    || isFuse key || key / 65536 == 0x70

/-- What a transition changes before its reset. -/
def State.changeLife (s : State) (to_ : Nat) : State :=
  let s := if s.reg Pd.lifeCycle = 3 ∧ to_ = 1 then { s with pd := resetStore keptOnReturn s.pd, warmRecord := none } else s
  let s := if to_ = 4 then { s with security := { s.security with keyDisabled := true } } else s
  s.setReg Pd.lifeCycle to_

/-- A write of LIFECYCLE_REQUEST. `under`: a staged return key was in effect when it came. -/
def serveLifecycle (under : Bool) : Serve := fun _ _ q s =>
  let signed := q.auth != .unsigned
  if !s.transitionOk q.value signed (signed && under) then refuse s St.lifecycleDenied
  else if s.opActive 3 || s.opActive 4 || s.opActive 5 || s.opActive 6 then refuse s St.busy
  else { state := s.changeLife q.value }

/-- After its response, an accepted transition makes its entry and resets the module (R455). -/
def State.afterTransition (s t : State) : State :=
  if t.reg Pd.lifeCycle = s.reg Pd.lifeCycle then t
  else if t.reg Pd.powerState = 3 then t.record 0x07 St.ok 0 noUnit []
  else
    let t := (t.record 0x07 St.ok 0 noUnit []).moduleReset false
    if t.mayBoot then t.stepTwo else t

/-- A request for a state. -/
def requestLife (o : Origin) (auth : Auth) (to_ : Nat) (s : State) : State :=
  s.afterTransition (s.receiveOwn (serveLifecycle s.security.returnOk) (ownWrite o Pd.lifecycleRequest 0 (natLE 1 to_) auth))

/-- LIFECYCLE_TO_PROVISIONED. -/
def execLifecycleToProvisioned (o : Origin) (auth : Auth) (s : State) : Res := .next (requestLife o auth 1 s)
/-- LIFECYCLE_TO_MISSION. -/
def execLifecycleToMission (o : Origin) (auth : Auth) (s : State) : Res := .next (requestLife o auth 2 s)
/-- LIFECYCLE_TO_RETURN. -/
def execLifecycleToReturn (o : Origin) (auth : Auth) (s : State) : Res := .next (requestLife o auth 3 s)
/-- LIFECYCLE_TO_SCRAPPED. -/
def execLifecycleToScrapped (o : Origin) (auth : Auth) (s : State) : Res := .next (requestLife o auth 4 s)

/-- A verdict of the security engine: the command's operand, or, where the command has none, a free value (log 7). -/
def State.verdict (s : State) (given : Option Bool) : Bool := given.getD (s.free % 2 == 1)

/-- The state after a verdict. -/
def State.judged (s : State) (given : Option Bool) : State := if given.isSome then s else s.used

/-- A write into RETURN_KEY_STAGE; `given`: whether the key now staged has the fused digest (R454). -/
def serveReturnKey (given : Option Bool) : Serve := fun _ _ q s =>
  let x := s.security
  let written := x.returnBytes ||| ((2 ^ q.data.length - 1) * 2 ^ q.offset)
  let x := { x with returnKey := tsetMany 0 x.returnKey q.offset q.data, returnBytes := written
                    returnOk := written == 2 ^ 1952 - 1 && s.verdict given }
  { state := ({ s with security := x } : State).judged given }

/-- RETURN_KEY_STAGE. -/
def execReturnKeyStage (o : Origin) (offset : Nat) (bytes : List Byte) (digestMatches : Bool) (s : State) : Res :=
  .next (s.receiveOwn (serveReturnKey (some digestMatches)) (ownWrite o Pd.returnKeyStage offset bytes))

/-! ### Firmware images (R458 to R461) -/

/-- FW_STATE: state, failing check, code, bytes staged and programmed. -/
def State.setFw (s : State) (st check : Nat) (code : BitVec 16) (staged programmed : Nat) : State :=
  s.setReg Pd.fwState (st + check * 2 ^ 8 + code.toNat * 2 ^ 16 + staged * 2 ^ 32 + programmed * 2 ^ 64)

/-- Whether a bank is being programmed. -/
def State.programming (s : State) : Bool := byteField (s.reg Pd.fwState) 0 1 == 2

/-- A write into FW_STAGE: each piece begins where the previous one ended (R460). -/
def serveFwStage : Serve := fun _ _ q s =>
  if q.offset ≠ s.security.staged then refuse s St.badOffset
  else if s.programming then refuse s St.busy
  else
    let n := q.offset + q.data.length
    let x := s.security
    { state := ({ s with security := { x with stage := tsetMany 0 (if q.offset = 0 then [] else x.stage) q.offset q.data, staged := n } } : State).setFw
        1 0 St.ok n 0 }

/-- FW_STAGE. -/
def execFwStage (o : Origin) (offset : Nat) (bytes : List Byte) (s : State) : Res :=
  .next (s.receiveOwn serveFwStage (ownWrite o Pd.fwStage offset bytes))

/-- A field of the staged header. -/
def State.stagedField (s : State) (lo n : Nat) : Nat := leNat (tgetMany 0 s.security.stage lo n)

/-- The first check of R459 that the staged image fails, or 0; the image key's digest and the signature are verdicts. -/
def State.imageCheck (s : State) (keyMatches verifies : Bool) : Nat :=
  let body := s.security.staged - 8192
  if s.security.staged < 8192 ∨ s.stagedField 0 4 ≠ 0x4D524648 ∨ s.stagedField 4 1 ≠ 1 ∨ s.stagedField 5 1 ≠ 1 ∨ s.stagedField 12 4 ≠ body then 1
  else if !keyMatches then 2
  else if shake256 (tgetMany 0 s.security.stage 8192 body) ≠ s.stagedField 24 64 then 3
  else if !verifies then 4
  else if s.stagedField 8 4 < s.reg Pd.minSecurityVersion then 5
  else 0

/-- The bank that does not hold the running image; bank 0 where none runs. -/
def State.otherBank (s : State) : Nat := if s.power.booted = some 0 then 1 else 0

/-- A bank set. -/
def State.setBank (s : State) (i : Nat) (b : Bank) : State :=
  if i = 0 then { s with security := { s.security with bank0 := b } } else { s with security := { s.security with bank1 := b } }

/-- A write of FW_COMMIT. -/
def serveFwCommit (keyMatches verifies : Option Bool) : Serve := fun _ _ q s =>
  if q.value ≠ 1 then refuse s St.invalidValue
  else if s.programming then refuse s St.busy
  else
    let k := s.verdict keyMatches
    let s := s.judged keyMatches
    let check := s.imageCheck k (s.verdict verifies)
    let s := s.judged verifies
    let n := s.security.staged
    let t : State := { s with security := { s.security with staged := 0 } }
    if check = 0 then
      let b : Bank :=
        { valid := false, secVersion := s.stagedField 8 4, build := s.stagedField 16 8, digest := BitVec.ofNat 512 (s.stagedField 24 64)
          headerDigest := BitVec.ofNat 512 (shake256 (tgetMany 0 s.security.stage 0 2336)), written := 0 }
      { state := (t.setBank t.otherBank b).setFw 2 0 St.ok n 0 }
    else refuse (t.setFw 4 check St.imageInvalid 0 0) St.imageInvalid

/-- FW_COMMIT. -/
def execFwCommit (o : Origin) (value : BitVec 8) (keyMatches verifies : Bool) (s : State) : Res :=
  .next (s.receiveOwn (serveFwCommit (some keyMatches) (some verifies)) (ownWrite o Pd.fwCommit 0 [value]))

/-- FW_PROGRAM_DONE: the bank's last byte is written and the bank valid. -/
def execFwProgramDone (s : State) : Res :=
  if s.programming then
    let n := byteField (s.reg Pd.fwState) 4 4
    let i := s.otherBank
    let newest := max s.security.bank0.written s.security.bank1.written + 1
    .next ((s.setBank i { s.bank i with valid := true, written := newest }).setFw 3 0 St.ok n n)
  else .next s

/-- Register 4 after a write of a persistent entry with a SECURITY or MISSION lock (Table 18-4). -/
def State.measureLocked (s : State) : State := s.extend 4 (shake256 s.lockedEntryBytes)

/-- A write of MIN_SECURITY_VERSION (R461). -/
def serveMinVersion : Serve := fun _ _ q s =>
  let running := s.power.booted.elim 0 fun i => (s.bank i).secVersion
  if q.value < s.reg Pd.minSecurityVersion ∨ running < q.value then refuse s St.invalidValue
  else { state := (s.setReg Pd.minSecurityVersion q.value).measureLocked }

/-- MIN_SECURITY_VERSION. -/
def execMinSecurityVersion (o : Origin) (auth : Auth) (value : BitVec 32) (s : State) : Res :=
  .next (s.receiveOwn serveMinVersion (ownWrite o Pd.minSecurityVersion 0 (natLE 4 value.toNat) auth))

/-- A write of a digest to MEASUREMENT_EXTEND: register 6 or 7 (R462). -/
def serveExtend : Serve := fun _ _ q s => { state := s.extend (6 + (q.key - Pd.measurementExtend)) q.value }

/-- MEASUREMENT_EXTEND: register 7 if `register`, else 6. -/
def execMeasurementExtend (o : Origin) (register : Bool) (digest : List Byte) (s : State) : Res :=
  .next (s.receiveOwn serveExtend (ownWrite o (Pd.measurementExtend + bit01 register) 0 digest))

/-- A write of RETIRED_LIST_CLEAR. -/
def serveRetiredClear : Serve := fun _ _ q s =>
  if q.value ≠ 1 then refuse s St.invalidValue
  else if s.reg Pd.lifeCycle ≠ 3 then refuse s St.lifecycleDenied
  else { state := s.zeroUnits Pd.retiredList 8192 }

/-- RETIRED_LIST_CLEAR. -/
def execRetiredListClear (o : Origin) (value : BitVec 8) (s : State) : Res :=
  .next (s.receiveOwn serveRetiredClear (ownWrite o Pd.retiredListClear 0 [value]))

/-! ### Attestation (R465, R466) -/

/-- An SPDM response, where the firmware runs: response code and payload. -/
def State.spdmReply (s : State) (code : Nat) (payload : List Byte) : State :=
  if 3 ≤ s.power.step then s.emit (.spdm code payload) else s

/-- The SPDM error response: 1 InvalidRequest, 4 UnexpectedRequest, 5 Unspecified. -/
def State.spdmError (s : State) (e : Nat) : State := s.spdmReply 0x7F (natLE 2 e)

/-- The certificate chain of slot 0 (PD 0x1010.02). -/
def State.certChain (s : State) : List Byte :=
  let all := s.rdBytes Pd.identityCertificates 16384 0 16384
  (all.drop 4).take (listField all 0 4)

/-- Whether the test port could reach the identity key's use: RETURN and SCRAPPED. -/
def State.keyExposed (s : State) : Bool := decide (3 ≤ s.reg Pd.lifeCycle) || s.security.keyDisabled

/-- Whether signatures are refused and algorithms agreed. -/
def State.spdmGate (s : State) (signed : Bool) : Option Nat :=
  if !s.security.spdmNegotiated then some 4 else if signed && s.keyExposed then some 5 else none

/-- A response signed with the identity key: its nonce and signature are the security engine's, free values here. -/
def State.spdmSigned (s : State) (code : Nat) (payload : List Byte) : State :=
  (s.spdmReply code (payload ++ natLE 32 s.free ++ natLE 3309 s.used.free)).used.used

/-- GET_VERSION: SPDM 1.3. -/
def execGetVersion (s : State) : Res :=
  .next (({ s with security := { s.security with spdmNegotiated := false } } : State).spdmReply 0x04 ([1] ++ natLE 2 0x1300))

/-- GET_CAPABILITIES: certificates, challenges, signed measurements. -/
def execGetCapabilities (s : State) : Res := .next (s.spdmReply 0x61 (natLE 4 0x16))

/-- NEGOTIATE_ALGORITHMS: what the requester offers of SHA3-512 and ML-DSA-65 is selected. -/
def execNegotiateAlgorithms (hashOk asymOk : Bool) (s : State) : Res :=
  .next (({ s with security := { s.security with spdmNegotiated := hashOk && asymOk } } : State).spdmReply 0x63
    (natLE 4 (if hashOk then 0x20 else 0) ++ natLE 2 (if asymOk then 0x41 else 0)))

/-- GET_DIGESTS. -/
def execGetDigests (s : State) : Res :=
  match s.spdmGate false with
  | some e => .next (s.spdmError e)
  | none => .next (s.spdmReply 0x01 ([1] ++ natLE 64 (sha3 s.certChain)))

/-- GET_CERTIFICATE: a portion of the chain, and how much remains. -/
def execGetCertificate (slot offset length : Nat) (s : State) : Res :=
  match s.spdmGate false with
  | some e => .next (s.spdmError e)
  | none =>
    let chain := s.certChain
    if slot ≠ 0 ∨ chain.length < offset then .next (s.spdmError 1)
    else
      let part := (chain.drop offset).take length
      .next (s.spdmReply 0x02 (natLE 2 part.length ++ natLE 2 (chain.length - offset - part.length) ++ part))

/-- CHALLENGE: signed with the identity key, over a transcript that holds the requester's nonce. -/
def execChallenge (slot : Nat) (nonce : BitVec 256) (s : State) : Res :=
  match s.spdmGate true with
  | some e => .next (s.spdmError e)
  | none =>
    if slot ≠ 0 then .next (s.spdmError 1)
    else .next (s.spdmSigned 0x03 (natLE 64 (sha3 s.certChain) ++ natLE 32 nonce.toNat))

/-- Measurement block i: register i − 1. -/
def State.measurementBlock (s : State) (i : Nat) : List Byte := natLE 1 i ++ natLE 64 (s.security.measure.getD (i - 1) 0)

/-- GET_MEASUREMENTS: block 0 asks how many there are, 0xFF for all. -/
def execGetMeasurements (signed : Bool) (block : Nat) (s : State) : Res :=
  match s.spdmGate signed with
  | some e => .next (s.spdmError e)
  | none =>
    let blocks := if block = 0xFF then [1, 2, 3, 4, 5, 6, 7, 8] else if 1 ≤ block ∧ block ≤ 8 then [block] else []
    if block ≠ 0 ∧ blocks.isEmpty then .next (s.spdmError 1)
    else
      let payload := natLE 1 (if block = 0 then 8 else blocks.length) ++ blocks.flatMap s.measurementBlock
      .next (if signed then s.spdmSigned 0x60 payload else s.spdmReply 0x60 payload)

/-! ### The test port in RETURN (R467) -/

/-- A TAP instruction selected and its data register shifted, while the port is active. -/
def State.tap (s : State) (instr : BitVec 8) (bits value : Nat) : State :=
  if s.security.tapActive then ({ s with security := { s.security with tapInstr := instr } } : State).emit (.tap bits value) else s

/-- IDCODE. -/
def execIdcode (s : State) : Res := .next (s.tap 0x01 32 (s.reg Pd.jtagIdcode))

/-- BYPASS, and every code that is none of Table 18-5. -/
def execBypass (s : State) : Res := .next (s.tap 0xFF 1 0)

/-- ISLAND_HALT: the clocks of the islands named are halted, the others run; what is shifted out is not stated. -/
def execIslandHalt (islands : BitVec 128) (s : State) : Res :=
  if s.security.tapActive then
    .next (({ s with security := { s.security with halted := islands &&& (2 ^ 116 - 1) } } : State).tap 0x11 128 (s.free % 2 ^ 128)).used
  else .next s

end Sys2Proof.Machine
end

