-- ==== Sys2Proof/Machine/Dictionary.lean ====
section
/-!
DEFINITION. Dictionary messages: what an entry does when it is read or written (chapter 3 and the entry table that ends
each chapter), cancelling, persistent writes, forwarded responses and the duplicate cache.
-/
namespace Sys2Proof.Machine

/-! ### Reading (spec/03 R66, R84, R86) -/

/-- A read-clear entry read by a role that clears it; the health monitor keeps its own count (spec/16 R413). -/
def State.clearRead (s : State) (key : Nat) : State :=
  let h := s.health
  let s := if watchedCounter key then
      { s with health := { h with cleared := tset 0 h.cleared key (tget 0 h.cleared key + s.reg key) } }
    else s
  s.setReg key 0

/-- A final status word read counts as read (spec/03 R84). -/
def State.statusRead (s : State) (r : Nat) : State :=
  if 3 ≤ (s.op r).state then s.setOp r { s.op r with unread := false } else s

/-- Whether a read covers a long operation's whole status word. -/
def coversStatus (r key off n : Nat) : Bool := key == opBase r + 2 || (key == opBase r + 3 && off == 0 && decide (8 ≤ n))

/-- What reading does. -/
def State.afterRead (s : State) (role : Role) (e : EntryInfo) (q : Req) (off n : Nat) : State :=
  let s := if e.access role = 5 then s.clearRead q.key else s
  let s := if unknownReading q.key then s.used else s
  let s := if q.key = Pd.cursor ∨ q.key = Pd.window then s.touchCursor (pathSource q.path) else s
  match opRowOf q.key with
  | some r => if coversStatus r q.key off n then s.statusRead r else s
  | none => s

/-- A READ. -/
def serveRead : Serve := fun role e q s =>
  let n := readLength e q.offset q.hdr.length.toNat
  let off := if e.records then q.offset * e.size else if e.type = 7 then q.offset else 0
  let waiting := match opRowOf q.key with
    | some r => q.key == opBase r + 5 && (tget none (s.op r).results q.offset).isNone
    | none => false
  if waiting then refuse s St.pending
  else { state := s.afterRead role e q off n, payload := s.view (pathSource q.path) e q.key off n }

/-! ### Writing plain entries -/

/-- The values an entry permits, where its table restricts them. -/
def valueOk (key v : Nat) : Bool :=
  let within := fun (lo hi : Nat) => decide (lo ≤ v) && decide (v ≤ hi)
  if key = Pd.plcaNodeId then within 1 254
  else if key = Pd.throttleStart then within 80000 95000
  else if key = Pd.gateBays then within 1 4
  else if key = Pd.rowWeakThreshold then within 1 15
  else if key = Pd.laneFailUncorrectable then within 1 1000
  else if key = Pd.laneFailBer then within 0x358637BD 0x3951B717
  else if key = Pd.spareWait then within 100 600000
  else if key = Pd.landfallMode ∨ key = Pd.readPolicy then within 0 1
  else if key = Pd.l5Wait then within 100 10000
  else if key = Pd.warmL5Wait then within 20 3000
  else if key = Pd.supplyLevel then within 0 9
  else if key = Pd.lossTolerance then within 0 0x3F800000 || v == 0x80000000
  else true

/-- The bits of a scalar that are not reserved (spec/00 R13). -/
def scalarMask (key : Nat) : Nat := if key = Pd.alertEnable then 0x3F else 2 ^ 64 - 1

/-- The bits of a byte of an entry that are not reserved: of Table 15-2, of a Tide Table's slots (Table 02-4), of a program image and its
step words (Tables 10-6 and 10-7). -/
def byteMask (key pos : Nat) : Nat :=
  if key = Pd.expectedChart then (if 68 ≤ pos % 80 then 0 else 0xFF)
  else if Pd.tideStaged ≤ key ∧ key ≤ Pd.tideStaged + 3 then 0x07
  else if key = Pd.mpImage then
    if pos = 4 then 0x07
    else if pos = 6 ∨ pos = 7 ∨ (16 ≤ pos ∧ pos < 64) ∨ (508 ≤ pos ∧ pos < 512) then 0
    else if 64 ≤ pos ∧ pos < 256 ∧ pos % 4 = 1 then 0xC1
    else 0xFF
  else 0xFF

/-- The bits of a write-one-to-clear entry that a write may clear (Tables 01-11 and 01-12). -/
def clearMask (key : Nat) : Nat := if key = Pd.supplyFlags then 0x1E else if key = Pd.thermalFlags then 0x0A else 0xFF

/-- Write-one-to-clear bytes, from an offset. -/
def State.clearBits (s : State) (key unit : Nat) : Nat → List Byte → State
  | _, [] => s
  | off, b :: bs =>
    let old := byteField (s.rd key (off / unit)) (off % unit) 1
    let mask := if unit = 1 then clearMask key else byteField (clearMask key) (off % unit) 1
    let new := old &&& (0xFF ^^^ (b.toNat &&& mask))
    State.clearBits (s.wr key (off / unit) (setByteField (s.rd key (off / unit)) (off % unit) 1 new)) key unit (off + 1) bs

/-- A write to an entry that only stores, or clears, its bits. -/
def serveStore : Serve := fun role e q s =>
  let key := q.key
  if e.access role = 3 then { state := s.clearBits key e.unit q.offset q.data }
  else if e.type = 7 then
    let data := q.data.zipIdx.map fun b => b.1 &&& BitVec.ofNat 8 (byteMask key (q.offset + b.2))
    { state := s.wrBytes key e.unit q.offset data }
  else if !valueOk key q.value then refuse s St.invalidValue
  else { state := s.setReg key (q.value &&& scalarMask key) }

/-- A write of an entry whose content register 4 measures (spec/18 Table 18-4). -/
def serveMeasured : Serve := fun role e q s =>
  let x := serveStore role e q s
  if isFailure x.status then x else { x with state := x.state.measureLocked }

/-- A write of DATA_CURSOR: only while the partition's sequencer is STOPPED or FAILED (spec/16 R425). -/
def serveDataCursor : Serve := fun role e q s =>
  let parts := covered 32 q.offset q.data.length
  if parts.all fun p => [0, 3].contains (stageState (s.stageRec p)) then serveStore role e q s else refuse s St.busy

/-! ### Cancelling (spec/03 Table 03-8) -/

/-- What a cancelled run leaves: nothing of it waits any longer. -/
def State.dropRun (s : State) (r : Nat) : State :=
  match r with
  | 2 => { s with selfTest := none }
  | 3 =>
    let parts := s.stow.run.elim [] (·.parts)
    let s := parts.foldl (fun s e => s.setStage e.1 { s.stage e.1 with stowTarget := none }) s
    { s with stow := { s.stow with run := none } }
  | 7 => { s with rebuild := none }
  | _ => s

/-- A write of CANCEL: a DEFERRED run of that number ends ABORTED. -/
def serveCancel (r : Nat) : Serve := fun _ _ q s =>
  if (s.op r).state = 1 ∧ (s.op r).run = q.value then { state := ((s.opEnd r 5 St.aborted).recordAborted r).dropRun r }
  else refuse s St.busy

/-! ### Which entry does what -/

/-- A START by its row of Table 03-7. -/
def serveStart (r : Nat) : Serve :=
  match r with
  | 1 => serveLandfallStart
  | 2 => serveSelfTestStart
  | 3 => serveStowStart
  | 4 => serveRestoreStart
  | 5 => serveRepair
  | 6 => serveBulkCopy
  | _ => serveRebuildStart

/-- A write of chapters 1 to 10. -/
def serveUnits (key : Nat) : Serve :=
  if key = Pd.powerDown then servePowerDown
  else if key = Pd.tideApply then serveTideApply
  else if key = Pd.mirrorTable then serveMirrorTable
  else if key = Pd.roomOwner then serveRoomOwner
  else if key = Pd.unpinTensor then serveUnpin
  else if key = Pd.genCheckKey ∨ key = Pd.genCheckCounter then serveGenCheck
  else if key = Pd.mpLoad then serveMpLoad
  else if key = Pd.mpUnload then serveMpUnload
  else if key = Pd.sfnCheckFunction ∨ key = Pd.sfnCheckInput then serveSfnCheck
  else serveStore

/-- A write of chapters 11 to 16. -/
def serveWork (key : Nat) : Serve :=
  if key = Pd.counterState then serveInit State.settle
  else if key = Pd.taskLists then serveTaskLists
  else if key = Pd.partitionReset then servePartReset
  else if key = Pd.partitionPreempt then servePartitionPreempt
  else if key = Pd.spareConnect then serveSpareConnect
  else if key = Pd.groupTable then serveGroup
  else if key = Pd.stageTable then serveStageTable
  else if key = Pd.stageControl then serveStageControl
  else if key = Pd.stowConfig then serveStowConfig
  else if key = Pd.stowReceive then serveStowReceive
  else if key = Pd.stowRequest then serveStowRequest
  else if key = Pd.dataCursor then serveDataCursor
  else serveStore

/-- A write of chapters 17 and 18. `under`: a staged return key is in effect. -/
def serveSecurity (under : Bool) (key : Nat) : Serve :=
  if key = Pd.lifecycleRequest then serveLifecycle under
  else if key = Pd.watchList then serveWatchList
  else if key = Pd.cursor then serveCursor
  else if key = Pd.softwareEvent then serveSoftwareEvent
  else if key = Pd.clear then serveClear
  else if key = Pd.soKey ∨ key = Pd.readPolicy then serveMeasured
  else if key = Pd.returnKeyStage then serveReturnKey none
  else if key = Pd.measurementExtend ∨ key = Pd.measurementExtend + 1 then serveExtend
  else if key = Pd.fwStage then serveFwStage
  else if key = Pd.fwCommit then serveFwCommit none none
  else if key = Pd.minSecurityVersion then serveMinVersion
  else if key = Pd.retiredListClear then serveRetiredClear
  else serveStore

/-- A WRITE or SIGNED_WRITE. -/
def serveWrite (under : Bool) : Serve := fun role e q s =>
  let key := q.key
  match opRowOf key with
  | some r => if key = opBase r + 1 then serveStart r role e q s else serveCancel r role e q s
  | none =>
    if key < 0x500000 then (if key / 65536 = 0x10 then serveSecurity under key role e q s else serveUnits key role e q s)
    else if key < 0x700000 then serveWork key role e q s
    else serveSecurity under key role e q s

/-- What any entry does. -/
def serveEntry (under : Bool) : Serve := fun role e q s =>
  if q.isRead then serveRead role e q s else serveWrite under role e q s

/-- What follows a request's response: a Landfall START's reset, a transition's reset (spec/15 R393, spec/18 R455). -/
def State.afterRequest (s t : State) : State :=
  let t := if t.landfall.startPending && !s.landfall.startPending then t.resetForStart else t
  s.afterTransition t

/-- A GDP message received on a path. `verifies`: what the security engine says of a SIGNED_WRITE's signature. -/
def State.message (s : State) (path : GdpPath) (m : GdpMsg) (verifies : Bool) : State :=
  s.afterRequest (s.receiveMsg (serveEntry s.security.returnOk) path m verifies)

/-- The message that arrived bytes spell (spec/03 Table 03-5A): a WRITE, a SIGNED_WRITE or a response has LENGTH bytes of payload,
and what follows is padding. -/
def parseGdp (b : List Byte) : GdpMsg :=
  let op := b.getD 1 0
  let len := listField b 16 2
  { version := b.getD 0 0, opcode := op, seq := BitVec.ofNat 16 (listField b 2 2), target := b.getD 4 0, source := b.getD 5 0
    flags := b.getD 6 0, sub := b.getD 7 0, index := BitVec.ofNat 16 (listField b 8 2), status := BitVec.ofNat 16 (listField b 10 2)
    offset := BitVec.ofNat 32 (listField b 12 4), length := BitVec.ofNat 16 len
    payload := if op = 2 ∨ op = 5 ∨ 0x80 ≤ op.toNat then (b.drop 20).take len else [] }

/-- A dictionary message that has arrived over the Causeway: a response goes to its requester, a request is served with the ROLE
its packets bear (spec/03 R70, R75). -/
def State.arrived (s : State) (verifies : Bool) (e : Nat × Nat × List Byte) : State :=
  let m := parseGdp e.2.2
  if 0x80 ≤ m.opcode.toNat then s.relay m else s.message (.causeway e.1 (roleOfCode e.2.1) (m.flags.getLsbD 1)) m verifies

/-- A packet of TYPE 5 at a port: passed on, or kept until its message is whole and served (spec/12 R330). -/
def State.gdpPacket (s : State) (p : Nat) (k : Packet) (verifies : Bool) : State :=
  let s := s.receiveType p k 5
  s.causeway.gdpIn.foldl (fun s e => s.arrived verifies e) { s with causeway := { s.causeway with gdpIn := [] } }

/-- A GDP message, or a packet that carries a piece of one. -/
def State.onPath (s : State) (path : GdpPath) (m : GdpMsg) (verifies : Bool) : State :=
  match path with
  | .packet p k => s.gdpPacket p k verifies
  | _ => s.message path m verifies

/-! ### The commands -/

/-- GDP_READ. -/
def execGdpRead (path : GdpPath) (msg : GdpMsg) (s : State) : Res := .next (s.onPath path msg false)
/-- DICTIONARY_WRITE. -/
def execDictionaryWrite (path : GdpPath) (msg : GdpMsg) (s : State) : Res := .next (s.onPath path msg false)
/-- DESCRIBE. -/
def execDescribe (path : GdpPath) (msg : GdpMsg) (s : State) : Res := .next (s.onPath path msg false)
/-- NEXT. -/
def execNext (path : GdpPath) (msg : GdpMsg) (s : State) : Res := .next (s.onPath path msg false)
/-- SIGNED_WRITE. -/
def execSignedWrite (path : GdpPath) (msg : GdpMsg) (verifies : Bool) (s : State) : Res := .next (s.onPath path msg verifies)

/-- LONG_OP_STATUS_READ: of RUN_STATUS if `runStatus`, else of STATUS. -/
def execLongOpStatusRead (o : Origin) (op : Nat) (runStatus : Bool) (offset length : Nat) (s : State) : Res :=
  .next (s.receiveOwn serveRead (ownReq o 1 (opBase op + 2 + bit01 runStatus) offset length [] .unsigned))

/-- CANCEL. -/
def execCancel (o : Origin) (op : Nat) (run : BitVec 32) (s : State) : Res :=
  .next (s.receiveOwn (serveCancel op) (ownWrite o (opBase op + 4) 0 (natLE 4 run.toNat)))

/-- GDP_RESPONSE: the response of another module goes to its requester (spec/03 R75, R76). -/
def execGdpResponse (arrival : GdpArrival) (s : State) : Res :=
  match arrival with
  | .packet p k => .next (s.gdpPacket p k false)
  | .whole msg => .next (s.relay msg)

/-- GDP_FORWARD_TIMEOUT (spec/03 R76). -/
def execGdpForwardTimeout (target : Nat) (seq : BitVec 16) (s : State) : Res :=
  match s.forwardedTo target seq none with
  | none => .next s
  | some p => .next (s.answer p St.timeout)

/-- PERSISTENT_WRITE_DONE: the value is in flash; while a warning flush lasts every other flash write waits (spec/03 R67,
spec/17 R445). -/
def execPersistentWriteDone (path : GdpPath) (seq : BitVec 16) (s : State) : Res :=
  match s.unanswered (pathSource path) seq with
  | none => .next s
  | some p => if p.wait = .flash ∧ s.strand.flushing = false then .next (s.answer p St.ok) else .next s

/-- DUPLICATE_CACHE_EXPIRY (spec/03 R80). -/
def execDuplicateCacheExpiry (path : GdpPath) (seq : BitVec 16) (s : State) : Res :=
  .next { s with gdp := { s.gdp with cache := s.gdp.cache.filter fun x => !(x.source == pathSource path && x.seq == seq) } }

/-- DEBUG_ACCESS: a GDP message shifted in at the test port, in the management role (spec/18 R467). -/
def execDebugAccess (msg : GdpMsg) (s : State) : Res :=
  if s.security.tapActive then
    .next (({ s with security := { s.security with tapInstr := 0x10 } } : State).message .testPort msg false)
  else .next s

end Sys2Proof.Machine
end

