-- ==== Sys2Proof/Machine/Dispatch.lean ====
section
/-!
DEFINITION. The dispatch of a command to its meaning, one arm per constructor of `Instr`.
-/
namespace Sys2Proof.Machine

def exec (i : Instr) (s : State) : Host.Outcome State Fault Refusal :=
  match i with
  -- chapter 01: power
  | .powerUp inputMv pwrgood resetN straps => Sys2Proof.Machine.execPowerUp inputMv pwrgood resetN straps s
  | .harbourBootDone ok0 ok1 => Sys2Proof.Machine.execHarbourBootDone ok0 ok1 s
  | .supplyWarning inputMv pwrgood => Sys2Proof.Machine.execSupplyWarning inputMv pwrgood s
  | .supplyWarningClear inputMv pwrgood => Sys2Proof.Machine.execSupplyWarningClear inputMv pwrgood s
  | .undervoltageReset inputMv => Sys2Proof.Machine.execUndervoltageReset inputMv s
  | .powerDown o value => Sys2Proof.Machine.execPowerDown o value s
  | .quiesceComplete => Sys2Proof.Machine.execQuiesceComplete s
  | .moduleReset lowNs => Sys2Proof.Machine.execModuleReset lowNs s
  | .resetNRelease => Sys2Proof.Machine.execResetNRelease s
  | .strapCheck live => Sys2Proof.Machine.execStrapCheck live s
  | .thermalSample junctions => Sys2Proof.Machine.execThermalSample junctions s
  | .trippedResetRelease hottest => Sys2Proof.Machine.execTrippedResetRelease hottest s
  -- chapter 02: islands and the Tide Table
  | .islandLockLoss island => Sys2Proof.Machine.execIslandLockLoss island s
  | .crossingEntry src dst entry => Sys2Proof.Machine.execCrossingEntry src dst entry s
  | .crossingCredit src dst => Sys2Proof.Machine.execCrossingCredit src dst s
  | .tideSlot fabric port => Sys2Proof.Machine.execTideSlot fabric port s
  | .tideApply o fabrics => Sys2Proof.Machine.execTideApply o fabrics s
  -- chapter 03: the dictionary
  | .gdpRead path msg => Sys2Proof.Machine.execGdpRead path msg s
  | .dictionaryWrite path msg => Sys2Proof.Machine.execDictionaryWrite path msg s
  | .describe path msg => Sys2Proof.Machine.execDescribe path msg s
  | .next path msg => Sys2Proof.Machine.execNext path msg s
  | .signedWrite path msg verifies => Sys2Proof.Machine.execSignedWrite path msg verifies s
  | .gdpResponse arrival => Sys2Proof.Machine.execGdpResponse arrival s
  | .gdpForwardTimeout target seq => Sys2Proof.Machine.execGdpForwardTimeout target seq s
  | .persistentWriteDone path seq => Sys2Proof.Machine.execPersistentWriteDone path seq s
  | .duplicateCacheExpiry path seq => Sys2Proof.Machine.execDuplicateCacheExpiry path seq s
  | .longOpStatusRead o op runStatus offset length => Sys2Proof.Machine.execLongOpStatusRead o op runStatus offset length s
  | .cancel o op run => Sys2Proof.Machine.execCancel o op run s
  -- chapter 04: the host link
  | .linkTrained width speed flit => Sys2Proof.Machine.execLinkTrained width speed flit s
  | .linkDown event => Sys2Proof.Machine.execLinkDown event s
  | .functionLevelReset => Sys2Proof.Machine.execFunctionLevelReset s
  | .getEventRecords log => Sys2Proof.Machine.execGetEventRecords log s
  | .clearEventRecords log handles => Sys2Proof.Machine.execClearEventRecords log handles s
  | .getEventInterruptPolicy => Sys2Proof.Machine.execGetEventInterruptPolicy s
  | .setEventInterruptPolicy modes => Sys2Proof.Machine.execSetEventInterruptPolicy modes s
  | .getFwInfo => Sys2Proof.Machine.execGetFwInfo s
  | .getTimestamp => Sys2Proof.Machine.execGetTimestamp s
  | .setTimestamp value => Sys2Proof.Machine.execSetTimestamp value s
  | .getSupportedLogs => Sys2Proof.Machine.execGetSupportedLogs s
  | .getLog => Sys2Proof.Machine.execGetLog s
  | .hostWindowRead w offset size => Sys2Proof.Machine.execHostWindowRead w offset size s
  | .hostWindowWrite w offset data => Sys2Proof.Machine.execHostWindowWrite w offset data s
  | .windowTimeout id => Sys2Proof.Machine.execWindowTimeout id s
  | .h2dSnoop line => Sys2Proof.Machine.execH2dSnoop line s
  | .bisnpResponse position line => Sys2Proof.Machine.execBisnpResponse position line s
  | .mirrorWriteDone record => Sys2Proof.Machine.execMirrorWriteDone record s
  | .statusPageRefresh => Sys2Proof.Machine.execStatusPageRefresh s
  -- chapter 05: the House
  | .roomRequest room req => Sys2Proof.Machine.execRoomRequest room req s
  | .roomCycle room ecc => Sys2Proof.Machine.execRoomCycle room ecc s
  | .roomOwner o room word => Sys2Proof.Machine.execRoomOwner o room word s
  | .handoverMarkerReturn room reader => Sys2Proof.Machine.execHandoverMarkerReturn room reader s
  | .tileTranspose who wing offset elemBytes => Sys2Proof.Machine.execTileTranspose who wing offset elemBytes s
  | .squareTranspose who wing offset elemBytes q => Sys2Proof.Machine.execSquareTranspose who wing offset elemBytes q s
  | .transposeDone done => Sys2Proof.Machine.execTransposeDone done s
  | .roomWipeDone room => Sys2Proof.Machine.execRoomWipeDone room s
  -- chapter 06: Cliffs, Coves and Charts
  | .coveRequest req ecc => Sys2Proof.Machine.execCoveRequest req ecc s
  | .coveSchedule cliff stratum => Sys2Proof.Machine.execCoveSchedule cliff stratum s
  | .stratumAccessDone cliff stratum ecc => Sys2Proof.Machine.execStratumAccessDone cliff stratum ecc s
  | .bankRefresh cliff stratum bank => Sys2Proof.Machine.execBankRefresh cliff stratum bank s
  | .softReplacementDone cliff stratum bank => Sys2Proof.Machine.execSoftReplacementDone cliff stratum bank s
  | .stratumFailure cliff stratum => Sys2Proof.Machine.execStratumFailure cliff stratum s
  | .stratumRecalDone cliff stratum ok => Sys2Proof.Machine.execStratumRecalDone cliff stratum ok s
  | .unpinTensor o tensor => Sys2Proof.Machine.execUnpinTensor o tensor s
  | .unpinDone => Sys2Proof.Machine.execUnpinDone s
  | .chartWalkDone user part addr => Sys2Proof.Machine.execChartWalkDone user part addr s
  | .repairRowPermanent o cliff stratum bank row => Sys2Proof.Machine.execRepairRowPermanent o cliff stratum bank row s
  | .repairColumnGroup o cliff stratum bank group => Sys2Proof.Machine.execRepairColumnGroup o cliff stratum bank group s
  | .repairRetirePages o cliff => Sys2Proof.Machine.execRepairRetirePages o cliff s
  | .repairDone fuseTook => Sys2Proof.Machine.execRepairDone fuseTook s
  | .bulkCopyStart o source dest length => Sys2Proof.Machine.execBulkCopyStart o source dest length s
  | .bulkCopyDone => Sys2Proof.Machine.execBulkCopyDone s
  | .chartRebuildStart o part => Sys2Proof.Machine.execChartRebuildStart o part s
  | .chartRebuildBegin => Sys2Proof.Machine.execChartRebuildBegin s
  | .chartRebuildDone => Sys2Proof.Machine.execChartRebuildDone s
  -- chapter 08: the Headland
  | .headlandCycle feedReady drainCredit => Sys2Proof.Machine.execHeadlandCycle feedReady drainCredit s
  | .columnFailure physical check => Sys2Proof.Machine.execColumnFailure physical check s
  | .columnRemap => Sys2Proof.Machine.execColumnRemap s
  -- chapters 09 and 10: the Tideway engines
  | .tidewayBeat engine => Sys2Proof.Machine.execTidewayBeat engine s
  | .engineCheckFailure engine => Sys2Proof.Machine.execEngineCheckFailure engine s
  | .mpLoad o slot => Sys2Proof.Machine.execMpLoad o slot s
  | .mpUnload o slot => Sys2Proof.Machine.execMpUnload o slot s
  | .sfnCheck o input value => Sys2Proof.Machine.execSfnCheck o input value s
  | .genCheck o key offset bytes => Sys2Proof.Machine.execGenCheck o key offset bytes s
  -- chapter 11: tasks and counters
  | .taskListWrite o offset bytes => Sys2Proof.Machine.execTaskListWrite o offset bytes s
  | .taskListStart o unit part => Sys2Proof.Machine.execTaskListStart o unit part s
  | .taskListStop o unit part => Sys2Proof.Machine.execTaskListStop o unit part s
  | .headLoad unit part => Sys2Proof.Machine.execHeadLoad unit part s
  | .taskRelease unit => Sys2Proof.Machine.execTaskRelease unit s
  | .taskComplete unit => Sys2Proof.Machine.execTaskComplete unit s
  | .counterAdd src counter operand => Sys2Proof.Machine.execCounterAdd src counter operand s
  | .counterSubtract src counter operand => Sys2Proof.Machine.execCounterSubtract src counter operand s
  | .counterSet src counter operand => Sys2Proof.Machine.execCounterSet src counter operand s
  | .arrive src counter tag => Sys2Proof.Machine.execArrive src counter tag s
  | .init src counter word => Sys2Proof.Machine.execInit src counter word s
  | .partitionReset o part => Sys2Proof.Machine.execPartitionReset o part s
  | .partitionPreempt o part => Sys2Proof.Machine.execPartitionPreempt o part s
  | .preemptComplete part => Sys2Proof.Machine.execPreemptComplete part s
  -- chapter 12: the Causeway
  | .write port pkt => Sys2Proof.Machine.execWrite port pkt s
  | .read port pkt => Sys2Proof.Machine.execRead port pkt s
  | .readResponse port pkt => Sys2Proof.Machine.execReadResponse port pkt s
  | .signal port pkt => Sys2Proof.Machine.execSignal port pkt s
  | .snoop port pkt => Sys2Proof.Machine.execSnoop port pkt s
  | .mirror port pkt => Sys2Proof.Machine.execMirror port pkt s
  | .ackE2e port pkt => Sys2Proof.Machine.execAckE2e port pkt s
  | .linkState port pkt => Sys2Proof.Machine.execLinkState port pkt s
  | .null port pkt => Sys2Proof.Machine.execNull port pkt s
  | .linkRetryTimeout port => Sys2Proof.Machine.execLinkRetryTimeout port s
  | .portTransmit port => Sys2Proof.Machine.execPortTransmit port s
  | .e2eResendTimeout dest transfer => Sys2Proof.Machine.execE2eResendTimeout dest transfer s
  | .laneFailure port lane how => Sys2Proof.Machine.execLaneFailure port lane how s
  | .portSignalLoss port => Sys2Proof.Machine.execPortSignalLoss port s
  | .portSignalReturn port => Sys2Proof.Machine.execPortSignalReturn port s
  | .spareConnect o port => Sys2Proof.Machine.execSpareConnect o port s
  | .sparePortTrained port neighbour => Sys2Proof.Machine.execSparePortTrained port neighbour s
  | .spareWaitExpiry record => Sys2Proof.Machine.execSpareWaitExpiry record s
  -- chapter 13: the Estuary
  | .groupTable o offset bytes => Sys2Proof.Machine.execGroupTable o offset bytes s
  | .estuarySendBegin => Sys2Proof.Machine.execEstuarySendBegin s
  | .partialSum port pkt adderFails => Sys2Proof.Machine.execPartialSum port pkt adderFails s
  | .result port pkt => Sys2Proof.Machine.execResult port pkt s
  | .notice port pkt => Sys2Proof.Machine.execNotice port pkt s
  | .raise port pkt => Sys2Proof.Machine.execRaise port pkt s
  | .collectorDeadline group block => Sys2Proof.Machine.execCollectorDeadline group block s
  | .ownerDeadline group block => Sys2Proof.Machine.execOwnerDeadline group block s
  | .resultWaitExpiry group => Sys2Proof.Machine.execResultWaitExpiry group s
  -- chapter 14: stage sequencers
  | .stageStart o part => Sys2Proof.Machine.execStageStart o part s
  | .stageStop o part => Sys2Proof.Machine.execStageStop o part s
  | .stagePhaseDone part => Sys2Proof.Machine.execStagePhaseDone part s
  | .stageEstuaryDone part => Sys2Proof.Machine.execStageEstuaryDone part s
  | .stageAgreementDone part => Sys2Proof.Machine.execStageAgreementDone part s
  | .carryClear part => Sys2Proof.Machine.execCarryClear part s
  | .stageUpdateDone part => Sys2Proof.Machine.execStageUpdateDone part s
  -- chapter 15: Landfall and self-test
  | .landfallStart o => Sys2Proof.Machine.execLandfallStart o s
  | .landfallStartCold o => Sys2Proof.Machine.execLandfallStartCold o s
  | .landfallStartWarm o => Sys2Proof.Machine.execLandfallStartWarm o s
  | .conversionTimeout => Sys2Proof.Machine.execConversionTimeout s
  | .landfallL0Done notZeroed => Sys2Proof.Machine.execLandfallL0Done notZeroed s
  | .landfallL1Done unlocked => Sys2Proof.Machine.execLandfallL1Done unlocked s
  | .stratumTrainingDone cliff stratum ok cold record => Sys2Proof.Machine.execStratumTrainingDone cliff stratum ok cold record s
  | .portTrainingDone port outcome => Sys2Proof.Machine.execPortTrainingDone port outcome s
  | .l4TestDone unit failing => Sys2Proof.Machine.execL4TestDone unit failing s
  | .l5WaitExpiry => Sys2Proof.Machine.execL5WaitExpiry s
  | .topologyAgreement => Sys2Proof.Machine.execTopologyAgreement s
  | .landfallL6Done => Sys2Proof.Machine.execLandfallL6Done s
  | .selfTestColumns o => Sys2Proof.Machine.execSelfTestColumns o s
  | .selfTestEngines o first count => Sys2Proof.Machine.execSelfTestEngines o first count s
  | .selfTestRooms o first count => Sys2Proof.Machine.execSelfTestRooms o first count s
  | .stratumRecalibration o first count => Sys2Proof.Machine.execStratumRecalibration o first count s
  | .roomScrub o first count => Sys2Proof.Machine.execRoomScrub o first count s
  | .causewayEyeCheck o first count => Sys2Proof.Machine.execCausewayEyeCheck o first count s
  | .selfTestBegin => Sys2Proof.Machine.execSelfTestBegin s
  | .selfTestUnitDone slot failing record => Sys2Proof.Machine.execSelfTestUnitDone slot failing record s
  -- chapter 16: health, stow, restore
  | .seaStateUpdate rippleMv => Sys2Proof.Machine.execSeaStateUpdate rippleMv s
  | .stowRequest o target => Sys2Proof.Machine.execStowRequest o target s
  | .stowStart o mask whenNext target => Sys2Proof.Machine.execStowStart o mask whenNext target s
  | .stowImageDone part outcome => Sys2Proof.Machine.execStowImageDone part outcome s
  | .restoreStart o part source slot flags forced => Sys2Proof.Machine.execRestoreStart o part source slot flags forced s
  | .restoreDone => Sys2Proof.Machine.execRestoreDone s
  -- chapter 17: the Strandline
  | .strandlineEntry => Sys2Proof.Machine.execStrandlineEntry s
  | .strandlineFlashWrite => Sys2Proof.Machine.execStrandlineFlashWrite s
  | .cursor o auth entry => Sys2Proof.Machine.execCursor o auth entry s
  | .window o offset length => Sys2Proof.Machine.execWindow o offset length s
  | .softwareEvent o bytes => Sys2Proof.Machine.execSoftwareEvent o bytes s
  | .clear o auth upTo => Sys2Proof.Machine.execClear o auth upTo s
  | .watchList o offset bytes => Sys2Proof.Machine.execWatchList o offset bytes s
  -- chapter 18: life cycle and security
  | .lifecycleToProvisioned o auth => Sys2Proof.Machine.execLifecycleToProvisioned o auth s
  | .lifecycleToMission o auth => Sys2Proof.Machine.execLifecycleToMission o auth s
  | .lifecycleToReturn o auth => Sys2Proof.Machine.execLifecycleToReturn o auth s
  | .lifecycleToScrapped o auth => Sys2Proof.Machine.execLifecycleToScrapped o auth s
  | .returnKeyStage o offset bytes digestMatches => Sys2Proof.Machine.execReturnKeyStage o offset bytes digestMatches s
  | .fwStage o offset bytes => Sys2Proof.Machine.execFwStage o offset bytes s
  | .fwCommit o value keyMatches verifies => Sys2Proof.Machine.execFwCommit o value keyMatches verifies s
  | .fwProgramDone => Sys2Proof.Machine.execFwProgramDone s
  | .minSecurityVersion o auth value => Sys2Proof.Machine.execMinSecurityVersion o auth value s
  | .measurementExtend o register digest => Sys2Proof.Machine.execMeasurementExtend o register digest s
  | .retiredListClear o value => Sys2Proof.Machine.execRetiredListClear o value s
  | .getVersion => Sys2Proof.Machine.execGetVersion s
  | .getCapabilities => Sys2Proof.Machine.execGetCapabilities s
  | .negotiateAlgorithms hashOk asymOk => Sys2Proof.Machine.execNegotiateAlgorithms hashOk asymOk s
  | .getDigests => Sys2Proof.Machine.execGetDigests s
  | .getCertificate slot offset length => Sys2Proof.Machine.execGetCertificate slot offset length s
  | .challenge slot nonce => Sys2Proof.Machine.execChallenge slot nonce s
  | .getMeasurements signed block => Sys2Proof.Machine.execGetMeasurements signed block s
  | .idcode => Sys2Proof.Machine.execIdcode s
  | .debugAccess msg => Sys2Proof.Machine.execDebugAccess msg s
  | .islandHalt islands => Sys2Proof.Machine.execIslandHalt islands s
  | .bypass => Sys2Proof.Machine.execBypass s
  -- the rows the table adds last
  | .inputOvervoltage inputMv => Sys2Proof.Machine.execInputOvervoltage inputMv s
  | .handoverResponseLimit room => Sys2Proof.Machine.execHandoverResponseLimit room s
  | .d2hCompletion line bytes => Sys2Proof.Machine.execD2hCompletion line bytes s

end Sys2Proof.Machine
end

