-- ==== Sys2Proof/Machine/Tick.lean ====
section
/-!
DEFINITION. One microsecond with no command waiting (log 1).
-/
namespace Sys2Proof.Machine

/-- An idle microsecond: Harbour time advances; host requests, packets and signals that wait for a room, a line or a block slot are
tried again, and so are mirror lines; a stow request that may be taken is (spec/04 R98, R101, R106, spec/12 R333, spec/16 R416). -/
def State.tick (s : State) : State :=
  (({ s with time := s.time + 1 } : State).retryWindows.retryHeld.retrySignals.settle.retryMirrors).takeStows

end Sys2Proof.Machine
end

