-- ==== Sys2Proof/Safety.lean ====
section
/-!
DEFINITION. What counts as a safe state and a safe run, and the words claims are made in: the canonical form of every sparse
table, what a command leaves alone, which dictionary requests the Harbour serves here and how it answers them.
-/
namespace Sys2Proof.Machine

/-! ### Safe states -/

/-- Device memory and the dictionary's store are in canonical form. -/
def State.tablesOk (s : State) : Prop := Tab.wf 0 s.mem = true ∧ Tab.wf 0 s.pd = true

/-- A step that goes on. -/
def goesOn (s : State) : Prop := ∃ t, step s = .next t

/-- In each of its pools every crossing holds 8 credits and entries together: the sender's 8 credits of spec/02 R49, less one for each
entry of the pool that waits. -/
def State.crossingsOk (s : State) : Prop :=
  ∀ e ∈ s.crossings, e.2.credits.length = 7 ∧ ∀ k < 7, e.2.pool k + (e.2.fifo.filter fun x => entryPool x == k).length = 8

/-- The invariant: canonical tables, credits conserved in every crossing (spec/02 R49), at most 256 occurrences waiting for
the recorder (spec/17 R444). -/
def State.safe (s : State) : Prop := s.tablesOk ∧ s.crossingsOk ∧ s.strand.queue.length ≤ 256

/-! ### What a command leaves alone -/

/-- Every unit of every dictionary entry but those of `keys` holds in `t` what it held in `s`. -/
def storeFrame (keys : List Nat) (s t : State) : Prop := ∀ k u, k ∉ keys → u < 16777216 → t.rd k u = s.rd k u

/-- The entries that reads in the Coves write: the lines' state and the Coves' counters (spec/06 R147 to R151, R160). -/
def coveKeys : List Nat :=
  [Pd.coveLineState, Pd.coveHits, Pd.coveMisses, Pd.coalesced, Pd.pinDenied, Pd.noAllocate, Pd.uncorrectableErrors]

/-- Reads in the Coves, and nothing else: lines, the Cliffs' queues and the Coves' counters (spec/06 R147 to R151); a poisoned line that
is written back takes its poison to its block (R153). -/
def covesRead (s t : State) : Prop :=
  { t with pd := s.pd, cliffs := s.cliffs, badBlocks := s.badBlocks, poisonBlocks := s.poisonBlocks } = s ∧ storeFrame coveKeys s t

/-- An occurrence as the recorder notes it at `s` (spec/17 R440). -/
def occurrence (s : State) (trigger : Nat) (code : BitVec 16) (unitKind unit : Nat) (detail : List Byte) : Occurrence :=
  { trigger := trigger, code := code, unitKind := unitKind, unit := unit, detail := detail, time := s.time }

/-! ### Dictionary requests -/

/-- What the Harbour of `s` sends in answer to a request it serves: the response, and on the mailbox the output of command 0xC400 with
vector 4 (spec/03 R75, spec/04 R107). -/
def reply (s : State) (q : Req) (status : BitVec 16) (payload : List Byte) : List Output :=
  .gdpReply q.path (s.responseTo q status payload)
    :: if q.path = .mailbox then [.mailbox 0xC400 cxlSuccess (msgBytes (s.responseTo q status payload)), .msix 4] else []

/-- What the Harbour sends before a signed request is judged: the bytes its signature covers go to the security engine (spec/03 R74). -/
def asked (q : Req) : List Output :=
  match q.auth with
  | .unsigned => []
  | .signed nonce _ => [.signatureCheck (signedBytes q.hdr q.data nonce)]

/-- What an answer on path `p` does to the Causeway: nothing, unless the path is the Causeway's (spec/03 R75). -/
def causewayKept (p : GdpPath) (s t : State) : Prop := (∀ o r f, p ≠ .causeway o r f) → t.causeway = s.causeway

/-- An answer on path `p` and entries of the store: nothing else changes from `s` to `t`. -/
def answered (p : GdpPath) (s t : State) : Prop :=
  { t with pd := s.pd, out := s.out, gdp := s.gdp, causeway := s.causeway } = s ∧ causewayKept p s t

/-- The entries that count requests by path. -/
def requestCounters : List Nat := [Pd.requests, Pd.requests + 1, Pd.requests + 2]

/-- A request the Harbour takes up (checks 1 and 2 of spec/03 R79, R70, R78, R80): its path is open and confers `role`; it is
no repetition; a position of the queue is free; it is addressed to this module. -/
def taken (s : State) (q : Req) (role : Role) : Bool :=
  s.pathOpen q.path && pathRole q.path == some role
    && (s.gdp.cache.find? fun x => x.source == pathSource q.path && x.seq == q.hdr.seq).isNone
    && (s.unanswered (pathSource q.path) q.hdr.seq).isNone && decide (s.outstanding q.path < 64)
    && (q.hdr.target == 0xFF || q.hdr.target.toNat == s.position)

/-- A request taken up that passes checks 3 to 8 of spec/03 R79 at entry `e` without a signature: the entry exists, and the
role's access, the lock, the type and the offset allow it. -/
def admitted (s : State) (q : Req) (role : Role) (e : EntryInfo) : Bool :=
  taken s q role && !s.power.romOnly && q.auth == .unsigned && entryInfo q.key == some e && (s.entryChecks role false e q).isNone

/-- A signed write that passes them: its nonce is the current challenge, its signature verifies under the security officer's
key, and the officer's access, the lock, the type and the offset allow it (spec/03 R74, R79, spec/18 R463). -/
def admittedSigned (s : State) (q : Req) (role : Role) (e : EntryInfo) : Bool :=
  taken s q role && !s.power.romOnly && entryInfo q.key == some e && s.reg Pd.soKey != 0
    && (match q.auth with
        | .signed nonce verifies => verifies && nonce.toNat == s.security.challenge
        | .unsigned => false)
    && (s.entryChecks .officer true e q).isNone

end Sys2Proof.Machine
end

