-- ==== Sys2Proof/WellFormed.lean ====
section
/-!
DEFINITION. Which commands name units, fields and lengths that the module has (spec/00 Table 00-2 and the tables each
check cites). `exec` is total; a command outside these bounds is none the module can be sent.
-/
namespace Sys2Proof

/-- A request at a room: one of the eight requesters of Table 05-4, 1 to 128 bytes inside a room of 256 KiB, a byte (or
none) for each byte written. -/
def RoomReq.wellFormed (q : RoomReq) : Bool :=
  decide (q.requester < 8) && decide (1 ≤ q.len) && decide (q.len ≤ 128) && decide (q.offset + q.len ≤ 262144)
    && (if q.write then q.data.length == q.len else q.data.isEmpty)

/-- A Cliff request: 1 to 8 blocks, aligned, a byte (or none) for each byte written (spec/06 R143). -/
def CliffReq.wellFormed (q : CliffReq) : Bool :=
  decide (1 ≤ q.blocks) && decide (q.blocks ≤ 8) && q.addr % 256 == 0 && decide (q.hint < 3)
    && decide (1 ≤ q.count) && decide (q.count ≤ 16)
    && (if q.write then q.data.length == 256 * q.blocks else q.data.isEmpty)
    && (match q.part with
        | some p => decide (p < 16)
        | none => true)

/-- A packet's payload is within the 256 bytes of spec/12 R330. -/
def Packet.wellFormed (p : Packet) : Bool := decide (p.payload.length ≤ 256)

/-- A unit that an ownership word can name (spec/05 R114). -/
def Owner.wellFormed : Owner → Bool
  | .engine n => decide (n < 64)
  | _ => true

/-- A sender of counter operations that exists: a sequencer unit (66 of them), a position. -/
def CtrSource.wellFormed : CtrSource → Bool
  | .task u p => decide (u < 66) && decide (p < 16)
  | .remote p => decide (p < 64)
  | _ => true

/-- Every unit, list, port or counter that a command names exists. -/
def Instr.wellFormed : Instr → Bool
  | .islandLockLoss n => decide (n < 116)
  | .crossingEntry a b _ => decide (a < 116) && decide (b < 116)
  | .crossingCredit a b => decide (a < 116) && decide (b < 116)
  | .tideSlot f _ => decide (1 ≤ f) && decide (f ≤ 4)
  | .roomRequest r q => decide (r < 1536) && q.wellFormed
  | .roomCycle r _ => decide (r < 1536)
  | .roomOwner _ r _ => decide (r < 1536)
  | .handoverMarkerReturn r _ => decide (r < 1536)
  | .handoverResponseLimit r => decide (r < 1536)
  | .tileTranspose u w _ _ => u.wellFormed && decide (w < 48)
  | .squareTranspose u w _ _ _ => u.wellFormed && decide (w < 48)
  | .transposeDone x => decide (x.wing < 48) && x.errors.all fun e => decide (e.1 < 32)
  | .roomWipeDone r => decide (r < 1536)
  | .coveRequest q _ => q.wellFormed
  | .coveSchedule c t => decide (c < 20) && decide (t < 256)
  | .stratumAccessDone c t _ => decide (c < 20) && decide (t < 256)
  | .bankRefresh c t b => decide (c < 20) && decide (t < 256) && decide (b < 32)
  | .softReplacementDone c t b => decide (c < 20) && decide (t < 256) && decide (b < 32)
  | .stratumFailure c t => decide (c < 20) && decide (t < 256)
  | .stratumRecalDone c t _ => decide (c < 20) && decide (t < 256)
  | .chartWalkDone _ p _ => decide (p < 16)
  | .columnFailure p _ => decide (p < 1040)
  | .tidewayBeat n => decide (n < 64)
  | .engineCheckFailure n => decide (n < 64)
  | .taskListStart _ u p => decide (u < 66) && decide (p < 16)
  | .taskListStop _ u p => decide (u < 66) && decide (p < 16)
  | .headLoad u p => decide (u < 66) && decide (p < 16)
  | .taskRelease u => decide (u < 66)
  | .taskComplete u => decide (u < 66)
  | .counterAdd a c _ => a.wellFormed && decide (c < 131072)
  | .counterSubtract a c _ => a.wellFormed && decide (c < 131072)
  | .counterSet a c _ => a.wellFormed && decide (c < 131072)
  | .arrive a c _ => a.wellFormed && decide (c < 131072)
  | .init a c _ => a.wellFormed && decide (c < 131072)
  | .preemptComplete p => decide (p < 16)
  | .write p k => decide (p < 20) && k.wellFormed
  | .read p k => decide (p < 20) && k.wellFormed
  | .readResponse p k => decide (p < 20) && k.wellFormed
  | .signal p k => decide (p < 20) && k.wellFormed
  | .snoop p k => decide (p < 20) && k.wellFormed
  | .mirror p k => decide (p < 20) && k.wellFormed
  | .ackE2e p k => decide (p < 20) && k.wellFormed
  | .linkState p k => decide (p < 20) && k.wellFormed
  | .null p k => decide (p < 20) && k.wellFormed
  | .linkRetryTimeout p => decide (p < 20)
  | .portTransmit p => decide (p < 20)
  | .e2eResendTimeout d _ => decide (d < 64)
  | .laneFailure p l _ => decide (p < 20) && decide (l < 9)
  | .portSignalLoss p => decide (p < 20)
  | .portSignalReturn p => decide (p < 20)
  | .sparePortTrained p n => decide (p < 20) && decide (n.position < 64)
  | .spareWaitExpiry r => decide (r < 2)
  | .partialSum p k _ => decide (p < 20) && k.wellFormed
  | .result p k => decide (p < 20) && k.wellFormed
  | .notice p k => decide (p < 20) && k.wellFormed
  | .raise p k => decide (p < 20) && k.wellFormed
  | .collectorDeadline g _ => decide (g < 64)
  | .ownerDeadline g _ => decide (g < 64)
  | .resultWaitExpiry g => decide (g < 64)
  | .stagePhaseDone p => decide (p < 16)
  | .stageEstuaryDone p => decide (p < 16)
  | .stageAgreementDone p => decide (p < 16)
  | .carryClear p => decide (p < 16)
  | .stageUpdateDone p => decide (p < 16)
  | .stratumTrainingDone c t _ _ _ => decide (c < 20) && decide (t < 256)
  | .portTrainingDone p _ => decide (p < 20)
  | .stowImageDone p _ => decide (p < 16)
  | .d2hCompletion _ bs => bs.length == 64
  | _ => true

end Sys2Proof
end

