-- ==== Sys2Proof/Certificates/Slice0/Obligations.lean ====
section
/-!
DEFINITION. The statements about this model, for the provers.
-/
open Sys2Proof Sys2Proof.Machine
/-! ### The block -/

/-- The command at the front of the queue is taken, and the step is its effect with the rest of the queue waiting
(spec/INDEX.md; the queue is the model's own, log 1). -/
def Obligations.StepRunsFrontCommand : Prop :=
  ∀ (s : State) (c : Instr) (rest : List Instr), s.pending = c :: rest → step s = exec c { s with pending := rest }

/-- Every command completes in every state and with every operand: it answers a next state, its effect as the spec gives it (a command that
the state gives nothing to do leaves everything as it is). The one exception is MODULE_RESET with RESET_N low for 1,000 to 9,999 ns, whose
effect is undefined (spec/01 R29), and which faults. -/
def Obligations.EveryCommandCompletes : Prop :=
  ∀ (i : Instr) (s : State), (∀ low, i = .moduleReset low → low < 1000 ∨ 10000 ≤ low) → ∃ t, exec i s = .next t

/-- With no command waiting a microsecond of Harbour time passes; nothing else changes where no window request, packet, signal, mirror
line, stow request or handover waits, no task waits to end, and no speculative task or list head is open (log 1, a choice of the model). -/
def Obligations.EmptyQueuePassesMicrosecond : Prop :=
  ∀ s : State, s.pending = [] → s.host.windows = [] → s.host.mirrors = [] → s.causeway.held = [] → s.causeway.incoming = [] →
    s.stages = [] → (∀ e ∈ s.rooms, e.2.newWord = none) → s.endings = [] → s.spec = [] → s.heads = [] →
    step s = .next { s with time := s.time + 1 }

/-- What power-on reset leaves: step 1 of Table 01-4 with every conversion stage off (spec/01 R27), no command, output, task or
crossing entry, the life cycle PROVISIONED (spec/18 R452), not READY, every long operation IDLE, and the defaults of the
entries named (spec/03 R67). -/
def Obligations.ResetLeavesDefaults : Prop :=
  State.reset.power.step = 1 ∧ State.reset.power.stageCliffs = false ∧ State.reset.power.stageLinks = false
    ∧ State.reset.power.stageHouse = false ∧ State.reset.power.forwarding = false ∧ State.reset.pending = [] ∧ State.reset.out = []
    ∧ State.reset.mem = [] ∧ State.reset.inFlight = [] ∧ State.reset.crossings = [] ∧ (∀ r, State.reset.op r = {})
    ∧ State.reset.reg Pd.lifeCycle = 1 ∧ State.reset.reg Pd.ready = 0 ∧ State.reset.reg Pd.powerState = 0
    ∧ State.reset.reg Pd.throttleStart = 95000 ∧ State.reset.reg Pd.gateBays = 4 ∧ State.reset.reg Pd.alertEnable = 0x3D
    ∧ State.reset.reg Pd.spareWait = 10000 ∧ State.reset.reg Pd.lossTolerance = 0x38D1B717

/-- The invariant holds at reset. -/
def Obligations.SafeAtReset : Prop := State.reset.safe

/-- Every step keeps the invariant: device memory and the dictionary's store stay in canonical form, no credit of any crossing
is lost or made (spec/02 R49), and at most 256 occurrences wait for the recorder (spec/17 R444). -/
def Obligations.EveryStepKeepsSafe : Prop := ∀ s t : State, s.safe → step s = .next t → t.safe

/-! ### Chapter 01: power -/

/-- POWER_UP and RESET_N_RELEASE: the pins are taken; from step 1, with the input at 38 V, PWRGOOD_IN and RESET_N high and
the module not tripped, step 2 begins, and only then are the straps latched (spec/01 R27, R35); otherwise the step and the
latched straps stay. Device memory and every entry but the input readings and the straps stay as they are. Reading of the
model: log 13. -/
def Claims.PowerUpBeginsStepTwo : Prop :=
  (∀ (s : State) (mv : Nat) (good resetN : Bool) (straps : BitVec 10),
    let go := s.power.step = 1 ∧ 38000 ≤ mv ∧ good = true ∧ resetN = true ∧ s.reg Pd.powerState ≠ 3
    ∃ t, exec (.powerUp mv good resetN straps) s = .next t
      ∧ t.power.step = (if go then 2 else s.power.step)
      ∧ t.reg Pd.straps = (if go then straps.toNat else s.reg Pd.straps)
      ∧ t.power.inputMv = mv ∧ t.power.pwrgood = good ∧ t.power.resetN = resetN ∧ t.power.liveStraps = straps
      ∧ t.reg Pd.inputVoltage = mv
      ∧ storeFrame [Pd.inputVoltage, Pd.inputMin, Pd.straps] s t
      ∧ { t with pd := s.pd, power := s.power, host := s.host, security := s.security, fresh := s.fresh } = s)
  ∧ (∀ s : State,
    let go := s.power.step = 1 ∧ 38000 ≤ s.power.inputMv ∧ s.power.pwrgood = true ∧ s.reg Pd.powerState ≠ 3
    ∃ t, exec .resetNRelease s = .next t
      ∧ t.power.step = (if go then 2 else s.power.step)
      ∧ t.reg Pd.straps = (if go then s.power.liveStraps.toNat else s.reg Pd.straps)
      ∧ t.power.resetN = true
      ∧ storeFrame [Pd.straps] s t
      ∧ { t with pd := s.pd, power := s.power, host := s.host, security := s.security, fresh := s.fresh } = s)

/-- SUPPLY_WARNING from step 2 on, the input below 37.0 V or PWRGOOD_IN low: WARN_ACTIVE and WARN_SEEN are set, vector 0 is
sent, a SUPPLY occurrence joins the recorder and the warning flush begins; a warning already active repeats none of this.
SUPPLY_WARNING_CLEAR above 37.5 V with PWRGOOD_IN high clears WARN_ACTIVE; INPUT_OVERVOLTAGE above 42.5 V sets flag 4
(spec/01 Tables 01-3 and 01-11). -/
def Obligations.SupplySupervisionSetsFlags : Prop :=
  (∀ (s : State) (mv : Nat) (good : Bool), 2 ≤ s.power.step → (mv < 37000 ∨ good = false) → s.strand.queue.length < 256 →
    ∃ t, exec (.supplyWarning mv good) s = .next t
      ∧ t.reg Pd.inputVoltage = mv ∧ t.power.inputMv = mv ∧ t.power.pwrgood = good
      ∧ (let dropped := if s.power.pwrgood = true ∧ good = false then 4 else 0
         if (s.reg Pd.supplyFlags).testBit 0 then
           t.reg Pd.supplyFlags = s.reg Pd.supplyFlags ||| dropped ∧ t.out = s.out ∧ t.strand = s.strand
         else t.reg Pd.supplyFlags = s.reg Pd.supplyFlags ||| dropped ||| 3 ∧ t.out = s.out ++ [.msix 0]
           ∧ t.strand.flushing = true
           ∧ t.strand.queue = s.strand.queue ++ [occurrence s 0x03 St.ok 0 noUnit (natLE 4 mv)]))
  ∧ (∀ (s : State) (mv : Nat), 37500 < mv →
    ∃ t, exec (.supplyWarningClear mv true) s = .next t
      ∧ t.reg Pd.supplyFlags = s.reg Pd.supplyFlags &&& 0xFFFFFFFE ∧ t.reg Pd.inputVoltage = mv
      ∧ storeFrame [Pd.inputVoltage, Pd.inputMin, Pd.supplyFlags] s t ∧ { t with pd := s.pd, power := s.power } = s)
  ∧ (∀ (s : State) (mv : Nat), 42500 < mv →
    ∃ t, exec (.inputOvervoltage mv) s = .next t
      ∧ t.reg Pd.supplyFlags = s.reg Pd.supplyFlags ||| 16 ∧ t.reg Pd.inputVoltage = mv
      ∧ storeFrame [Pd.inputVoltage, Pd.inputMin, Pd.supplyFlags] s t ∧ { t with pd := s.pd, power := s.power } = s)

/-- The supply warning does not change the work in progress (spec/01 R24): whatever the module was doing, SUPPLY_WARNING leaves
every unit's state, device memory, the throttle level, the sea state and every entry but the supply readings, the supply flags
and the recorder's count of losses as they were. -/
def Obligations.SupplyWarningDisturbsNothing : Prop :=
  ∀ (s t : State) (mv : Nat) (good : Bool), exec (.supplyWarning mv good) s = .next t →
    storeFrame [Pd.inputVoltage, Pd.inputMin, Pd.supplyFlags, Pd.overruns] s t
    ∧ { t with pd := s.pd, power := s.power, out := s.out, strand := s.strand } = s
    ∧ { t.power with inputMv := s.power.inputMv, pwrgood := s.power.pwrgood } = s.power
    ∧ t.strand.unflushed = s.strand.unflushed ∧ t.strand.flash = s.strand.flash

/-- UNDERVOLTAGE_RESET below 35.0 V is a full power cycle (spec/01 R25): forwarding and every stage stop, the power-up order
waits at step 1, device memory, tasks and everything else volatile are lost, and, where no flash write was under way, every
persistent entry holds its value while every other takes its default (spec/03 R67). The two input readings are the new ones. -/
def Claims.UndervoltageIsPowerCycle : Prop :=
  ∀ (s : State) (mv : Nat), mv < 35000 → s.gdp.inflight = [] → s.tablesOk →
    ∃ t, exec (.undervoltageReset mv) s = .next t
      ∧ t.power.step = 1 ∧ t.power.forwarding = false ∧ t.power.stageCliffs = false ∧ t.power.stageLinks = false
      ∧ t.power.stageHouse = false ∧ t.mem = [] ∧ t.rooms = [] ∧ t.causeway = {} ∧ t.inFlight = [] ∧ t.strand.queue = []
      ∧ t.strand.flash = s.strand.flash ∧ t.reg Pd.inputVoltage = mv ∧ t.pending = s.pending
      ∧ ∀ k u, u < 16777216 → k ≠ Pd.inputVoltage → k ≠ Pd.inputMin →
          t.rd k u = if keptAlways k then s.rd k u else State.reset.rd k u

/-- Power-up and undervoltage: PowerUpBeginsStepTwo, UndervoltageIsPowerCycle. -/
def Obligations.PowerComesAndGoes : Prop := Claims.PowerUpBeginsStepTwo ∧ Claims.UndervoltageIsPowerCycle

/-- HARBOUR_BOOT_DONE at step 2 (spec/18 R461, spec/01 R27, spec/15 R393): of the banks marked valid that pass their checks and
carry no lower SECURITY_VERSION than MIN_SECURITY_VERSION, the one with the higher SECURITY_VERSION boots, the one written
more recently where they are equal, and Landfall begins in L0 with every stage on, forwarding too unless island 95 is fenced (spec/02
R46); with no such bank only the boot ROM answers and nothing else changes. -/
def Claims.HarbourBootBeginsLandfall : Prop :=
  ∀ (s : State) (ok0 ok1 : Bool), s.power.step = 2 → s.power.romOnly = false →
    let fit := fun (b : Bank) (ok : Bool) => b.valid = true ∧ ok = true ∧ s.reg Pd.minSecurityVersion ≤ b.secVersion
    let before := fun (a b : Bank) => b.secVersion < a.secVersion ∨ (a.secVersion = b.secVersion ∧ b.written < a.written)
    ∃ t, exec (.harbourBootDone ok0 ok1) s = .next t
      ∧ (¬ fit s.security.bank0 ok0 ∧ ¬ fit s.security.bank1 ok1 → t = { s with power := { s.power with romOnly := true } })
      ∧ (fit s.security.bank0 ok0 ∨ fit s.security.bank1 ok1 →
          t.power.booted = some (if fit s.security.bank0 ok0 ∧ (fit s.security.bank1 ok1 → before s.security.bank0 s.security.bank1)
            then 0 else 1)
          ∧ t.power.step = 3 ∧ t.power.stageCliffs = true ∧ t.power.stageLinks = true ∧ t.power.stageHouse = true
          ∧ t.power.forwarding = !s.islandFenced 95 ∧ (t.op 1).state = 2 ∧ (t.op 1).phase = 0 ∧ (t.op 1).slots = 7981 ∧ (t.op 1).filled = 0
          ∧ t.landfall.kind = s.landfallKindWanted ∧ t.landfall.started = s.time
          ∧ t.mem = s.mem ∧ t.out = s.out ∧ t.strand = s.strand ∧ t.cliffs = s.cliffs ∧ t.causeway = s.causeway
          ∧ storeFrame [Pd.landfallCount, Pd.conflictOccasion, Pd.conflictCounters] s t)

/-- POWER_DOWN with 0x0000_5AFE in RUNNING makes POWER_STATE QUIESCING; any other value is refused with INVALID_VALUE, is
recorded and changes nothing. QUIESCE_COMPLETE, once no task runs, begins the Strandline's flush, turns the House and Cliff
stages off, so that islands 1 to 94 are no longer locked, and makes POWER_STATE SAFE_TO_REMOVE; forwarding goes on (spec/01 R28; which stages stay on is log 12). Reading of
the model: log 84. -/
def Claims.ControlledPowerDown : Prop :=
  (∀ (s : State) (o : Origin) (v : BitVec 32) (role : Role) (e : EntryInfo),
    let q := ownWrite o Pd.powerDown 0 (natLE 4 v.toNat)
    admitted s q role e = true → s.strand.queue.length < 256 →
    ∃ t, exec (.powerDown o v) s = .next t
      ∧ (v = 0x5AFE → t.out = s.out ++ reply s q St.ok [] ∧ t.reg Pd.powerState = (if s.reg Pd.powerState = 0 then 1 else s.reg Pd.powerState)
          ∧ storeFrame (Pd.powerState :: requestCounters) s t ∧ answered q.path s t)
      ∧ (v ≠ 0x5AFE → t.out = s.out ++ reply s q St.invalidValue []
          ∧ t.strand.queue = s.strand.queue ++ [occurrence s 0x02 St.invalidValue 0 noUnit (natLE 4 v.toNat)]
          ∧ storeFrame (Pd.refused :: Pd.lastRefusal :: requestCounters) s t
          ∧ { t with pd := s.pd, out := s.out, gdp := s.gdp, strand := s.strand, causeway := s.causeway } = s ∧ causewayKept q.path s t))
  ∧ (∀ s : State, s.reg Pd.powerState = 1 → s.inFlight = [] →
    ∃ t, exec .quiesceComplete s = .next t
      ∧ t.reg Pd.powerState = 2 ∧ t.strand = { s.strand with flushing := true }
      ∧ t.power = { s.power with stageHouse := false, stageCliffs := false }
      ∧ (∀ n, n < 128 → (t.reg Pd.islandLocked).testBit n = ((s.reg Pd.islandLocked).testBit n && (decide (n = 0) || decide (95 ≤ n))))
      ∧ storeFrame [Pd.powerState, Pd.islandLocked] s t ∧ { t with pd := s.pd, power := s.power, strand := s.strand } = s)

/-- Booting the Harbour and powering down: HarbourBootBeginsLandfall, ControlledPowerDown. -/
def Obligations.BootAndControlledPowerDown : Prop := Claims.HarbourBootBeginsLandfall ∧ Claims.ControlledPowerDown

/-- MODULE_RESET (spec/01 R29, R43, spec/02 R46, spec/03 R67, R85): a pulse under 1 µs does nothing; one of 10 µs or more,
with the module powered and not tripped, returns it to step 1 with RESET_N low: every task, room, engine and waiting request
is lost, forwarding, the links and the conversion stages go on, with the crossings among islands 95 to 115 and their lock and fence bits
(R46), Harbour time goes on, both Strandline areas stay, and, where no flash write was under way, every persistent entry, sensor
reading and forwarding entry holds its value while every other entry takes its default. Reading of the model: log 158. -/
def Claims.ModuleResetKeepsForwarding : Prop :=
  (∀ (s : State) (ns : Nat), ns < 1000 → exec (.moduleReset ns) s = .next s)
  ∧ (∀ (s : State) (ns : Nat), 10000 ≤ ns → s.reg Pd.powerState ≠ 3 → s.power.step ≠ 1 → s.gdp.inflight = [] →
      s.strand.queue.length + 7 < 256 → s.tablesOk →
    ∃ t, exec (.moduleReset ns) s = .next t
      ∧ t.crossings = s.crossings.filter (fun e => decide (95 ≤ e.1 / 128) && decide (95 ≤ e.1 % 128))
      ∧ (∀ n, n < 128 → (t.reg Pd.islandLocked).testBit n = (decide (95 ≤ n) && (s.reg Pd.islandLocked).testBit n)
          ∧ t.islandFenced n = (decide (95 ≤ n) && s.islandFenced n))
      ∧ t.power.step = 1 ∧ t.power.resetN = false ∧ t.power.forwarding = s.power.forwarding ∧ t.power.stageCliffs = s.power.stageCliffs
      ∧ t.power.stageLinks = s.power.stageLinks ∧ t.power.stageHouse = s.power.stageHouse ∧ t.causeway = s.causeway
      ∧ t.inFlight = [] ∧ t.rooms = [] ∧ t.engines = [] ∧ t.headland = {} ∧ t.gdp = {} ∧ t.host = {} ∧ t.time = s.time
      ∧ t.pending = s.pending ∧ t.strand.flash = s.strand.flash ∧ t.strand.unflushed = s.strand.unflushed
      ∧ t.strand.next = s.strand.next
      ∧ ∀ k u, u < 16777216 → k ≠ Pd.islandLocked → k ≠ Pd.islandFenced → t.rd k u = if keptByModuleReset k then s.rd k u else State.reset.rd k u)

/-- While the module is tripped (spec/01 R43): a RESET_N pulse with the hottest junction at 85 °C or more is held and changes
nothing else; TRIPPED_RESET_RELEASE below 85 °C gives the held pulse its effect, a power cycle, and the module leaves
TRIPPED. Reading of the model: log 85. -/
def Claims.TrippedResetIsHeld : Prop :=
  (∀ (s : State) (ns : Nat), 10000 ≤ ns → s.reg Pd.powerState = 3 → 85000 ≤ s.hottest →
    exec (.moduleReset ns) s = .next { s with power := { s.power with resetN := false, heldReset := true } })
  ∧ (∀ (s : State) (hot : Int), s.reg Pd.powerState = 3 → s.power.heldReset = true → hot < 85000 →
    ∃ t, exec (.trippedResetRelease hot) s = .next t
      ∧ t.reg Pd.powerState = 0 ∧ t.power.heldReset = false ∧ t.mem = [] ∧ t.inFlight = [] ∧ t.strand.flash = s.strand.flash
      ∧ t.power.step = (if 38000 ≤ s.power.inputMv ∧ s.power.pwrgood = true ∧ s.power.resetN = true then 2 else 1)
      ∧ t.reg Pd.hottestJunction = ofSigned 32 hot)

/-- A RESET_N pulse from 1 µs to 10 µs has no defined effect (spec/01 R29): the model stops. -/
def Claims.ShortResetPulseFaults : Prop :=
  ∀ (s : State) (ns : Nat), 1000 ≤ ns → ns < 10000 → exec (.moduleReset ns) s = .fault .resetPulseUndefined

/-- RESET_N: a module reset, a held reset, a pulse without defined effect: ModuleResetKeepsForwarding, TrippedResetIsHeld,
ShortResetPulseFaults. -/
def Obligations.ModuleResets : Prop := Claims.ModuleResetKeepsForwarding ∧ Claims.TrippedResetIsHeld ∧ Claims.ShortResetPulseFaults

/-- STRAP_CHECK (spec/01 R35): live levels that differ from the latched ones set STRAP_MISMATCH and make one occurrence; the
latched straps and every other entry, logical numbers among them, stay; equal levels change nothing but the levels read.
Reading of the model: log 81. -/
def Claims.StrapCheckChangesNoNumber : Prop :=
  ∀ (s : State) (live : BitVec 10), s.strand.queue.length < 256 →
    ∃ t, exec (.strapCheck live) s = .next t
      ∧ t.power = { s.power with liveStraps := live } ∧ storeFrame [Pd.strapMismatch] s t
      ∧ { t with pd := s.pd, power := s.power, strand := s.strand } = s
      ∧ (if 2 ≤ s.power.step ∧ live.toNat ≠ s.reg Pd.straps then
          t.reg Pd.strapMismatch = s.reg Pd.strapMismatch ||| 1
          ∧ t.strand.queue = s.strand.queue ++ [occurrence s 0x02 St.ok 0 noUnit (natLE 2 (s.reg Pd.straps) ++ natLE 2 live.toNat)]
        else t.strand = s.strand ∧ t.pd = s.pd)

/-- THERMAL_SAMPLE on a running module (spec/01 R40 to R42, Table 01-9): the eight readings and the hottest are stored; the
throttle level rises to the highest threshold reached, each 2 °C above the one before from the start threshold, falls by one
once the hottest reading is 2 °C below the present level's threshold, and stays otherwise; THERM_N is driven from 103 °C
whatever the start threshold. Readings of the model: log 82, log 83. -/
def Claims.ThermalSampleMovesThrottle : Prop :=
  ∀ (s : State) (j : Vector Int 8) (hot : Int), s.power.step ≠ 1 → s.reg Pd.powerState ≠ 3 → hot ∈ j.toList → (∀ x ∈ j.toList, x ≤ hot) →
    hot < 105000 → s.reg Pd.throttleLevel ≤ 4 →
    let thr := fun (l : Nat) => toSigned 32 (s.reg Pd.throttleStart) + 2000 * ((l : Int) - 1)
    let old := s.reg Pd.throttleLevel
    ∃ t, exec (.thermalSample j) s = .next t
      ∧ t.reg Pd.hottestJunction = ofSigned 32 hot ∧ (∀ i : Fin 8, t.reg (Pd.blockJunction + i.val) = ofSigned 32 j[i])
      ∧ t.power.thermN = decide (103000 ≤ hot) ∧ t.reg Pd.throttleLevel ≤ 4
      ∧ (old < t.reg Pd.throttleLevel → thr (t.reg Pd.throttleLevel) ≤ hot)
      ∧ (t.reg Pd.throttleLevel < old → t.reg Pd.throttleLevel + 1 = old ∧ hot ≤ thr old - 2000)
      ∧ (∀ l, 1 ≤ l → l ≤ 4 → thr l ≤ hot → l ≤ t.reg Pd.throttleLevel)
      ∧ (t.reg Pd.throttleLevel = old → 0 < old → thr old - 2000 < hot)
      ∧ t.mem = s.mem ∧ t.headland = s.headland ∧ t.engines = s.engines ∧ t.power.step = s.power.step

/-- THERMAL_SAMPLE at 105 °C trips the module (spec/01 R43): POWER_STATE is TRIPPED, THERM_N is held, vector 1 is sent, the
Strandline flushes, every stage but the Harbour's is off, forwarding stops, no island but the Harbour's stays locked, and the long
operations end with ABORTED (log 162). -/
def Claims.ThermalTripStopsTheModule : Prop :=
  ∀ (s : State) (j : Vector Int 8) (hot : Int), s.power.step ≠ 1 → s.reg Pd.powerState ≠ 3 → hot ∈ j.toList → (∀ x ∈ j.toList, x ≤ hot) →
    105000 ≤ hot →
    ∃ t, exec (.thermalSample j) s = .next t
      ∧ t.reg Pd.powerState = 3 ∧ t.power.thermN = true ∧ t.strand.flushing = true ∧ t.out.getLast? = some (.msix 1)
      ∧ t.power.stageCliffs = false ∧ t.power.stageLinks = false ∧ t.power.stageHouse = false ∧ t.power.forwarding = false
      ∧ t.power.step = s.power.step ∧ t.inFlight = []
      ∧ (∀ n, 1 ≤ n → n < 116 → (t.reg Pd.islandLocked).testBit n = false)
      ∧ (∀ r, 1 ≤ r → r ≤ 7 → s.opActive r = true → (t.op r).state = 5 ∧ (t.op r).code = St.aborted)

/-- Straps are only checked; temperature throttles and trips: StrapCheckChangesNoNumber, ThermalSampleMovesThrottle,
ThermalTripStopsTheModule. -/
def Obligations.StrapsAndTemperature : Prop :=
  Claims.StrapCheckChangesNoNumber ∧ Claims.ThermalSampleMovesThrottle ∧ Claims.ThermalTripStopsTheModule

/-! ### Chapter 02: islands, crossings, the Tide Table -/

/-- Crossings (spec/02 R49, R52; one pool of 8 credits for each class of a slotted port is log 159): a crossing nothing has used holds 8
credits in each pool and no entry; CROSSING_ENTRY through an open crossing whose sender holds a credit takes it and puts the entry,
whole, behind those that wait; without a credit nothing is written; CROSSING_CREDIT removes the oldest entry the receiver can take,
which joins its class queue, and gives its credit back, and does nothing where there is none. A closed crossing answers FENCED. No
entry is dropped or doubled, those that stay keep their order, and no other crossing changes. -/
def Obligations.CrossingsKeepOrderAndCredits : Prop :=
  (∀ a b, (State.reset.crossing a b).fifo = [] ∧ ∀ k < 7, (State.reset.crossing a b).pool k = 8)
  ∧ (∀ (s : State) (a b : Nat) (x : CrossEntry), s.islandFenced a = false → s.islandFenced b = false →
    (s.crossing a b).credits.length = 7 →
    let e := { x with left := none }
    ∃ c, exec (.crossingEntry a b x) s = .next (if (s.crossing a b).pool (entryPool e) = 0 then s else s.setCrossing a b c)
      ∧ c.fifo = (s.crossing a b).fifo ++ [e]
      ∧ ∀ k, c.pool k = if k = entryPool e then (s.crossing a b).pool k - 1 else (s.crossing a b).pool k)
  ∧ (∀ (s : State) (a b : Nat) (x : CrossEntry), s.islandFenced a = true ∨ s.islandFenced b = true →
    exec (.crossingEntry a b x) s = .next (s.emit (.crossingStatus a b x.tag St.fenced)))
  ∧ (∀ (s : State) (a b : Nat) (e : CrossEntry), (s.crossing a b).fifo.find? s.takes = some e → (s.crossing a b).credits.length = 7 →
    ∃ t, exec (.crossingCredit a b) s = .next t
      ∧ (t.crossing a b).fifo = (s.crossing a b).fifo.erase e
      ∧ (∀ k, (t.crossing a b).pool k = if k = entryPool e then (s.crossing a b).pool k + 1 else (s.crossing a b).pool k)
      ∧ (∀ c d, 128 * c + d ≠ 128 * a + b → t.crossing c d = s.crossing c d)
      ∧ { t with crossings := s.crossings, ports := s.ports } = s
      ∧ (match e.port with
        | none => t.ports = s.ports
        | some (f, p) => (t.fabricPort f p).queues = (s.fabricPort f p).queues.set (classCode e.cls)
            ((s.fabricPort f p).waiting (classCode e.cls) ++ [e])))
  ∧ (∀ (s : State) (a b : Nat), (s.crossing a b).fifo.find? s.takes = none → exec (.crossingCredit a b) s = .next s)
  ∧ (∀ (s : State) (a b c d : Nat) (x : Crossing), 128 * c + d ≠ 128 * a + b → (s.setCrossing a b x).crossing c d = s.crossing c d)

/-- Slots of a READY module (spec/02 R52, R55, R62): a slot moves the entry of its own class whose turn it is, into the crossing it
writes, where it holds that crossing's credit; with none of its class waiting it stays idle and is counted, except that a host slot is
taken by a waiting maintenance request, and that a TS slot of an engine's port carries the engine's own transfer (log 175). Nothing
of any other class moves. -/
def Obligations.SlotServesItsClass : Prop :=
  ∀ (s : State) (f p : Nat), 1 ≤ f → f ≤ 4 → s.isReady = true →
    let x := s.fabricPort f p
    let table := if x.slot = 0 then s.activeTable f else x.table.getD (s.activeTable f)
    let c := (table.getD x.slot 0).toNat % 8
    let turn := fun (k : Nat) => firstWaiting k (x.waiting k)
    let own := f = 1 ∧ c = 1 ∧ p < 64 ∧ (s.unitPort (p + 1)).waits = true
    let moves := fun (t : State) (k : Nat) (e : CrossEntry) => (t.fabricPort f p).queues = x.queues.set k ((x.waiting k).erase e)
      ∧ t.out = s.out ++ [.slotTransfer f p e.cls e.tag]
      ∧ (match e.out with
        | none => t.crossings = s.crossings
        | some (a, b) => t.crossing a b = (s.crossing a b).push (leaving e f p)
            ∧ ∀ i j, 128 * i + j ≠ 128 * a + b → t.crossing i j = s.crossing i j)
    ∃ t, exec (.tideSlot f p) s = .next t
      ∧ (t.fabricPort f p).slot = (x.slot + 1) % 256
      ∧ (∀ e, turn c = some e → s.mayLeave e = true → moves t c e ∧ t.pd = s.pd)
      ∧ (∀ e, c = 4 → turn 4 = none → turn 5 = some e → s.mayLeave e = true → moves t 5 e
          ∧ t.reg (Pd.hostToMaint + f - 1) = (s.reg (Pd.hostToMaint + f - 1) + 1) % 2 ^ 64 ∧ storeFrame [Pd.hostToMaint + f - 1] s t)
      ∧ ((∀ e, turn c = some e → s.mayLeave e = false) → (∀ e, c = 4 → turn 4 = none → turn 5 = some e → s.mayLeave e = false) →
          (t.fabricPort f p).queues = x.queues
          ∧ (¬ own → t.out = s.out ∧ t.crossings = s.crossings
              ∧ t.reg (Pd.idleSlots + f - 1) = (s.reg (Pd.idleSlots + f - 1) + 1) % 2 ^ 64 ∧ storeFrame [Pd.idleSlots + f - 1] s t)
          ∧ (own → t = (s.setFabricPort f p { x with slot := (x.slot + 1) % 256, table := some table }).sendTransferOf (p + 1)))
      ∧ (¬ own → { t with ports := s.ports, pd := s.pd, out := s.out, crossings := s.crossings } = s)

/-- TIDE_APPLY (spec/02 R58, R59): where every fabric named is quiescent and every staged table named is valid, each named
fabric's active table becomes its staged one, the others stay, and the result says so; where one is not, NOT_QUIESCENT or
TABLE_INVALID is answered and no table changes. Reading of the model: log 36. -/
def Claims.TideApplyIsAllOrNothing : Prop :=
  ∀ (s : State) (o : Origin) (set : BitVec 8) (role : Role) (e : EntryInfo),
    let q := ownWrite o Pd.tideApply 0 [set]
    let named := fun (f : Nat) => 1 ≤ f ∧ f ≤ 4 ∧ set.toNat.testBit (f - 1) = true
    admitted s q role e = true →
    ∃ t, exec (.tideApply o set) s = .next t
      ∧ ((∀ f, named f → s.quiescent f = true ∧ tableValid f (s.stagedTable f) = true) →
          t.out = s.out ++ reply s q St.ok []
          ∧ (∀ f, 1 ≤ f → f ≤ 4 → (named f → t.reg (Pd.tideActive + f - 1) = s.reg (Pd.tideStaged + f - 1))
              ∧ (¬ named f → t.reg (Pd.tideActive + f - 1) = s.reg (Pd.tideActive + f - 1)))
          ∧ t.reg Pd.tideApplyResult = set.toNat % 16)
      ∧ ((∃ f, named f ∧ s.quiescent f = false) → t.out = s.out ++ reply s q St.notQuiescent []
          ∧ t.reg Pd.tideApplyResult = St.notQuiescent.toNat * 65536 ∧ ∀ f, 1 ≤ f → f ≤ 4 → t.reg (Pd.tideActive + f - 1) = s.reg (Pd.tideActive + f - 1))
      ∧ ((∀ f, named f → s.quiescent f = true) → (∃ f, named f ∧ tableValid f (s.stagedTable f) = false) →
          t.out = s.out ++ reply s q St.tableInvalid [] ∧ t.reg Pd.tideApplyResult = St.tableInvalid.toNat * 65536
          ∧ ∀ f, 1 ≤ f → f ≤ 4 → t.reg (Pd.tideActive + f - 1) = s.reg (Pd.tideActive + f - 1))
      ∧ { t with pd := s.pd, out := s.out, gdp := s.gdp, causeway := s.causeway } = s

/-- ISLAND_LOCK_LOSS and ENGINE_CHECK_FAILURE of a READY module (spec/02 R47, R48, spec/09 R262): the island is shown fenced
and no longer locked (log 161), the entries of its crossings go back to their senders, what depends on it is fenced, one FENCED
occurrence naming the island and vector 5 follow, and the sequencers go on. Island 0 is never fenced: its loss is a module reset with
one FENCED occurrence. An island fenced already is only shown unlocked. Readings of the model: log 120, log 121. -/
def Claims.LockLossFencesTheIsland : Prop :=
  (∀ (s : State) (n : Nat), s.isReady = true → 1 ≤ n → n < 116 → s.islandFenced n = false →
    let u := (s.setFlags Pd.islandFenced (2 ^ n)).clearFlags Pd.islandLocked 128 (2 ^ n)
    let v := (u.closeCrossings n).fenceDependents n
    u.islandFenced n = true ∧ (u.reg Pd.islandLocked).testBit n = false
    ∧ exec (.islandLockLoss n) s = .next (((v.record 0x01 St.fenced 6 n []).vector 5).setReg Pd.fencedSinceReady
        ((v.reg Pd.fencedSinceReady + 1) % 2 ^ 32)).settle
    ∧ (2 ≤ n → n ≤ 65 → exec (.engineCheckFailure (n - 2)) s = exec (.islandLockLoss n) s))
  ∧ (∀ (s : State) (n : Nat), Tab.wf {} s.crossings = true →
    (∀ a b, b < 128 → (s.closeCrossings n).crossing a b = if a = n ∨ b = n then (s.crossing a b).fifo.foldl Crossing.drop (s.crossing a b)
        else s.crossing a b)
    ∧ (∀ a b, b < 128 → a = n ∨ b = n → ((s.closeCrossings n).crossing a b).fifo = [])
    ∧ { s.closeCrossings n with crossings := s.crossings, out := s.out } = s)
  ∧ (∀ s : State, s.isReady = true → s.islandFenced 0 = false → s.gdp.inflight = [] → s.strand.queue.length + 8 < 256 →
    ∃ t, exec (.islandLockLoss 0) s = .next t ∧ t.islandFenced 0 = false ∧ t.isReady = false ∧ t.causeway = s.causeway
      ∧ t.power.step = (if 38000 ≤ s.power.inputMv ∧ s.power.pwrgood = true ∧ s.power.resetN = true then 2 else 1)
      ∧ t.strand.queue.getLast? = some (occurrence s 0x01 St.fenced 6 0 []))
  ∧ (∀ (s : State) (n : Nat), s.isReady = true → n < 116 → s.islandFenced n = true →
    exec (.islandLockLoss n) s = .next (s.clearFlags Pd.islandLocked 128 (2 ^ n)))

/-- Tide Tables are applied all or none; an island that loses lock is fenced: TideApplyIsAllOrNothing, LockLossFencesTheIsland. -/
def Obligations.TablesApplyAndIslandsAreFenced : Prop := Claims.TideApplyIsAllOrNothing ∧ Claims.LockLossFencesTheIsland

/-! ### Chapter 03: the dictionary and long operations -/

/-- A GDP_READ that the Harbour serves (spec/03 R66, R73): of a scalar entry that nothing forms when it is read it answers the
stored value; an entry whose code for the role is RC reads its value and is then 0 (spec/00 Table 00-3), any other keeps it. Nothing
else in the store changes. -/
def Obligations.ReadAnswersStoredValue : Prop :=
  ∀ (s : State) (path : GdpPath) (m : GdpMsg) (role : Role) (e : EntryInfo),
    let q := msgToReq m path false
    m.opcode = 1 → badMessage m = false → admitted s q role e = true → e.type < 6 → e.records = false → e.unit = e.size → 0 < e.size →
    opRowOf q.key = none → unknownReading q.key = false → s.formedOne (pathSource path) 0 q.key = none → s.formedSub q.key 0 = none →
    q.key ∉ requestCounters → watchedCounter q.key = false →
    ∃ t, exec (.gdpRead path m) s = .next t
      ∧ t.out = s.out ++ reply s q St.ok (natLE e.size (s.reg q.key))
      ∧ t.reg q.key = (if e.access role = 5 then 0 else s.reg q.key)
      ∧ storeFrame (q.key :: requestCounters) s t
      ∧ answered q.path s t

/-- The scalar entries that only keep what is written to them (spec/01 Table 01-9, spec/12, spec/15, spec/16). -/
def plainEntries : List Nat :=
  [Pd.throttleStart, Pd.alertEnable, Pd.gateBays, Pd.plcaNodeId, Pd.rowWeakThreshold, Pd.laneFailUncorrectable, Pd.laneFailBer, Pd.spareWait,
   Pd.landfallMode, Pd.l5Wait, Pd.warmL5Wait, Pd.supplyLevel, Pd.lossTolerance]

/-- A DICTIONARY_WRITE of a plain scalar entry (spec/03 R67, R79, spec/00 R13): a value its table permits is kept, less any reserved
bits, and answered OK, at once where the entry is not persistent, and where it is once PERSISTENT_WRITE_DONE tells that flash has it and
no warning flush lasts; a value its table does not permit is refused with INVALID_VALUE. No other entry changes. -/
def Obligations.WriteKeepsPermittedValue : Prop :=
  (∀ (s : State) (path : GdpPath) (m : GdpMsg) (role : Role) (e : EntryInfo),
    let q := msgToReq m path false
    m.opcode = 2 → badMessage m = false → q.key ∈ plainEntries → admitted s q role e = true →
    ∃ t, exec (.dictionaryWrite path m) s = .next t
      ∧ (valueOk q.key q.value = true →
          t.reg q.key = q.value &&& scalarMask q.key ∧ storeFrame (q.key :: requestCounters) s t
          ∧ answered q.path s t
          ∧ (e.persistent = false → t.out = s.out ++ reply s q St.ok [] ∧ t.gdp.inflight = s.gdp.inflight)
          ∧ (e.persistent = true → t.out = s.out ∧ ∃ b, t.gdp.inflight = s.gdp.inflight ++ [{ req := q, wait := .flash, before := b }]))
      ∧ (valueOk q.key q.value = false →
          t.out = s.out ++ reply s q St.invalidValue [] ∧ storeFrame (Pd.refused :: Pd.lastRefusal :: requestCounters) s t))
  ∧ (∀ (s : State) (path : GdpPath) (seq : BitVec 16) (p : Pending),
    s.unanswered (pathSource path) seq = some p → p.wait = .flash → s.strand.flushing = false →
    ∃ t, exec (.persistentWriteDone path seq) s = .next t
      ∧ t.out = s.out ++ reply s p.req St.ok [] ∧ t.gdp.inflight = s.gdp.inflight.erase p ∧ t.pd = s.pd
      ∧ answered p.req.path s t)

/-- Lock codes (spec/03 R68, Table 03-2), for a write that its role's access code allows and READ_POLICY does not deny: it is refused with
LOCKED exactly when its entry's lock forbids it (PROVISION outside BLANK, MISSION from MISSION on, SECURITY without a signature), and then
nothing changes but the counts of requests and of refusals, LAST_REFUSAL and what is sent. -/
def Obligations.LockedWriteChangesNothing : Prop :=
  ∀ (s : State) (path : GdpPath) (m : GdpMsg) (role : Role) (e : EntryInfo),
    let q := msgToReq m path false
    m.opcode = 2 → badMessage m = false → taken s q role = true → s.power.romOnly = false → entryInfo q.key = some e →
    accessDenied (e.access role) false = false → s.policyDenies q = false →
    let forbids := (e.lock = 1 ∧ s.reg Pd.lifeCycle ≠ 0) ∨ (e.lock = 2 ∧ 2 ≤ s.reg Pd.lifeCycle) ∨ e.lock = 3
    (s.entryChecks role false e q = some St.locked ↔ forbids)
    ∧ (e.lock = 3 → ∀ q', s.entryChecks .officer true e q' ≠ some St.locked)
    ∧ (forbids → ∃ t, exec (.dictionaryWrite path m) s = .next t ∧ t.out = s.out ++ reply s q St.locked []
        ∧ storeFrame (Pd.refused :: Pd.lastRefusal :: requestCounters) s t ∧ t.gdp.inflight = s.gdp.inflight
        ∧ answered q.path s t)

/-- An access code "—" (spec/03 R71): a role whose code for the entry is 0 can neither read nor write it; both requests are refused with
ACCESS_DENIED and change nothing but the counts, LAST_REFUSAL and what is sent. -/
def Obligations.NoAccessIsDenied : Prop :=
  ∀ (s : State) (path : GdpPath) (m : GdpMsg) (role : Role) (e : EntryInfo),
    let q := msgToReq m path false
    badMessage m = false → taken s q role = true → s.power.romOnly = false → entryInfo q.key = some e → e.access role = 0 →
    (m.opcode = 1 → ∃ t, exec (.gdpRead path m) s = .next t ∧ t.out = s.out ++ reply s q St.accessDenied []
      ∧ storeFrame (Pd.refused :: Pd.lastRefusal :: requestCounters) s t ∧ answered q.path s t)
    ∧ (m.opcode = 2 → ∃ t, exec (.dictionaryWrite path m) s = .next t ∧ t.out = s.out ++ reply s q St.accessDenied []
      ∧ storeFrame (Pd.refused :: Pd.lastRefusal :: requestCounters) s t ∧ answered q.path s t)

/-- DESCRIBE and NEXT (spec/03 Table 03-6): DESCRIBE answers the entry's fixed properties; NEXT answers the first entry after the
one named, none lying between; NO_ENTRY ends the walk, and answers a NEXT that names no entry. Neither changes the store but
for the counts. -/
def Obligations.DescribeAndNextWalkTheDictionary : Prop :=
  (∀ (s : State) (path : GdpPath) (m : GdpMsg) (role : Role) (e : EntryInfo),
    let q := msgToReq m path false
    m.opcode = 3 → badMessage m = false → taken s q role = true → s.power.romOnly = false → entryInfo q.key = some e → e.records = false →
    ∃ t, exec (.describe path m) s = .next t
      ∧ t.out = s.out ++ reply s q St.ok ([e.type, e.lock, e.accHost, e.accMgmt, e.accPeer, e.accSO, 0, bit01 e.persistent].map (BitVec.ofNat 8)
          ++ natLE 4 e.size ++ natLE 4 0)
      ∧ storeFrame requestCounters s t ∧ answered q.path s t)
  ∧ (∀ (s : State) (path : GdpPath) (m : GdpMsg) (role : Role),
    let q := msgToReq m path false
    m.opcode = 4 → badMessage m = false → taken s q role = true →
    ∃ t, exec (.next path m) s = .next t ∧ answered q.path s t
      ∧ (∀ k, (entryInfo q.key).isSome = true → q.key < k → (entryInfo k).isSome = true → (∀ j, q.key < j → j < k → entryInfo j = none) →
          t.out = s.out ++ reply s q St.ok (natLE 2 (k / 256) ++ natLE 1 k) ∧ storeFrame requestCounters s t)
      ∧ (entryInfo q.key = none ∨ (∀ j, q.key < j → entryInfo j = none) → t.out = s.out ++ reply s q St.noEntry []
          ∧ storeFrame (Pd.refused :: Pd.lastRefusal :: requestCounters) s t))

/-- SIGNED_WRITE (spec/03 R74, R79, spec/18 R463, R464) of an entry but LIFECYCLE_REQUEST: the security engine is asked about the bytes the
signature covers; where it does not verify, the nonce is not the challenge or there is no security officer key, the write is refused
with AUTH_FAILED and counted, and the entry keeps its value; where all are right, a write of READ_POLICY or of a plain entry is served
as an unsigned one: a permitted value is kept and answered OK, once flash has it where the entry is persistent, and another is refused
with INVALID_VALUE. Either way the challenge is consumed: a free value takes its place. Reading of the model: log 7. -/
def Claims.SignedWriteNeedsTheChallenge : Prop :=
  ∀ (s : State) (path : GdpPath) (m : GdpMsg) (verifies : Bool) (role : Role) (e : EntryInfo),
    let q := msgToReq m path verifies
    m.opcode = 5 → badMessage m = false → taken s q role = true → s.power.romOnly = false → entryInfo q.key = some e →
    q.key ≠ Pd.lifecycleRequest →
    let nonce := leNat ((m.payload.drop (m.payload.length - 3341)).take 32)
    let drawn := fun (t : State) => t.fresh = s.fresh + 1 ∧ t.security = { s.security with challenge := s.free % 2 ^ 256 }
      ∧ { t with pd := s.pd, out := s.out, gdp := s.gdp, causeway := s.causeway, security := s.security, fresh := s.fresh } = s
      ∧ causewayKept path s t
    (verifies = false ∨ nonce ≠ s.security.challenge ∨ s.reg Pd.soKey = 0 → ∃ t, exec (.signedWrite path m verifies) s = .next t
        ∧ t.out = s.out ++ asked q ++ reply s q St.authFailed [] ∧ t.reg Pd.authFailures = (s.reg Pd.authFailures + 1) % 2 ^ 64
        ∧ storeFrame (Pd.authFailures :: Pd.refused :: Pd.lastRefusal :: requestCounters) s t ∧ drawn t)
    ∧ (admittedSigned s q role e = true → q.key ∈ Pd.readPolicy :: plainEntries → ∃ t, exec (.signedWrite path m verifies) s = .next t
        ∧ drawn t
        ∧ (valueOk q.key q.value = true →
            t.reg q.key = q.value &&& scalarMask q.key ∧ storeFrame (q.key :: requestCounters) s t
            ∧ (e.persistent = false → t.out = s.out ++ asked q ++ reply s q St.ok [] ∧ t.gdp.inflight = s.gdp.inflight)
            ∧ (e.persistent = true → t.out = s.out ++ asked q
                ∧ ∃ b, t.gdp.inflight = s.gdp.inflight ++ [{ req := q, wait := .flash, before := b }]))
        ∧ (valueOk q.key q.value = false →
            t.out = s.out ++ asked q ++ reply s q St.invalidValue [] ∧ storeFrame (Pd.refused :: Pd.lastRefusal :: requestCounters) s t))

/-- A repetition (spec/03 R80): a request whose source and SEQUENCE the cache still holds is answered with the response kept, REPLAYED,
is counted, and does nothing again, whatever it asks; DUPLICATE_CACHE_EXPIRY forgets that response and no other. -/
def Claims.RepetitionIsReplayed : Prop :=
  (∀ (s : State) (path : GdpPath) (m : GdpMsg) (role : Role) (x : Reply),
    s.pathOpen path = true → pathRole path = some role →
    (s.gdp.cache.find? fun x => x.source == pathSource path && x.seq == m.seq) = some x →
    let again := { x.msg with flags := x.msg.flags ||| 1 }
    ∃ t, t.out = s.out ++ (.gdpReply path again
          :: if path = .mailbox then [.mailbox 0xC400 cxlSuccess (msgBytes again), .msix 4] else [])
      ∧ t.reg Pd.replays = (s.reg Pd.replays + 1) % 2 ^ 64 ∧ storeFrame (Pd.replays :: requestCounters) s t
      ∧ answered path s t ∧ t.gdp = s.gdp
      ∧ exec (.gdpRead path m) s = .next t ∧ exec (.dictionaryWrite path m) s = .next t ∧ exec (.describe path m) s = .next t
      ∧ exec (.next path m) s = .next t ∧ (∀ v, exec (.signedWrite path m v) s = .next t))
  ∧ (∀ (s : State) (path : GdpPath) (seq : BitVec 16), ∃ t, exec (.duplicateCacheExpiry path seq) s = .next t
      ∧ (∀ x, x ∈ t.gdp.cache ↔ x ∈ s.gdp.cache ∧ ¬ (x.source = pathSource path ∧ x.seq = seq))
      ∧ t.gdp.inflight = s.gdp.inflight ∧ { t with gdp := s.gdp } = s)

/-- Signed writes need the challenge; repetitions are replayed: SignedWriteNeedsTheChallenge, RepetitionIsReplayed. -/
def Obligations.SignedAndRepeatedRequests : Prop := Claims.SignedWriteNeedsTheChallenge ∧ Claims.RepetitionIsReplayed

/-- Forwarding (spec/03 R75, R76): the response of the module asked goes back to its requester with the header and payload it bears, marked
as forwarded, and the request is no longer unanswered; a response that answers no request changes nothing; at the forwarding limit the
answer is TIMEOUT. -/
def Claims.ForwardedRequestIsAnswered : Prop :=
  (∀ (s : State) (m : GdpMsg),
    let asked := s.forwardedTo m.source.toNat m.seq (some (roleOfCode ((m.flags.toNat / 4) % 4)))
    (asked = none → exec (.gdpResponse (.whole m)) s = .next s)
    ∧ ∀ p, asked = some p →
      let back := { m with flags := (m.flags &&& 1) ||| 2 ||| responseFlags p.req.path }
      ∃ t, exec (.gdpResponse (.whole m)) s = .next t
        ∧ t.out = s.out ++ (.gdpReply p.req.path back
            :: if p.req.path = .mailbox then [.mailbox 0xC400 cxlSuccess (msgBytes back), .msix 4] else [])
        ∧ t.gdp.inflight = s.gdp.inflight.erase p ∧ t.pd = s.pd ∧ answered p.req.path s t)
  ∧ (∀ (s : State) (target : Nat) (seq : BitVec 16) (p : Pending), s.forwardedTo target seq none = some p →
    ∃ t, exec (.gdpForwardTimeout target seq) s = .next t
      ∧ t.out = s.out ++ reply s p.req St.timeout [] ∧ t.gdp.inflight = s.gdp.inflight.erase p
      ∧ storeFrame [Pd.refused, Pd.lastRefusal] s t ∧ answered p.req.path s t)

/-- Long operations (spec/03 R82 to R86, Tables 03-7 to 03-9): LONG_OP_STATUS_READ answers the bytes asked for of STATUS, or of RUN_STATUS
with the run number behind it, and, once the run has ended, a read of the whole status word marks it read; CANCEL of the DEFERRED run of that number ends it ABORTED, and any other is refused with BUSY.
Reading of the model: log 154. -/
def Claims.LongOperationsAreReadAndCancelled : Prop :=
  (∀ (s : State) (o : Origin) (r : Nat) (run : Bool) (off len : Nat) (role : Role) (e : EntryInfo), 1 ≤ r → r ≤ 7 → off < 2 ^ 32 → len < 2 ^ 16 →
    let q := ownReq o 1 (opBase r + 2 + bit01 run) off len [] .unsigned
    let whole := natLE 8 (s.opStatus r) ++ if run then natLE 4 (s.op r).run ++ natLE 4 0 else []
    let n := if len = 0 then whole.length - off else len
    let covers := run = false ∨ (off = 0 ∧ 8 ≤ n)
    admitted s q role e = true →
    ∃ t, exec (.longOpStatusRead o r run off len) s = .next t
      ∧ t.out = s.out ++ reply s q St.ok ((whole.drop off).take n)
      ∧ t.op r = { s.op r with unread := (s.op r).unread && !decide (covers ∧ 3 ≤ (s.op r).state) }
      ∧ (∀ i, i ≠ r → t.op i = s.op i) ∧ storeFrame requestCounters s t
      ∧ { t with pd := s.pd, out := s.out, gdp := s.gdp, ops := s.ops, causeway := s.causeway } = s ∧ causewayKept q.path s t)
  ∧ (∀ (s : State) (o : Origin) (r : Nat) (run : BitVec 32) (role : Role) (e : EntryInfo), 1 ≤ r → r ≤ 7 →
    let q := ownWrite o (opBase r + 4) 0 (natLE 4 run.toNat)
    admitted s q role e = true →
    ∃ t, exec (.cancel o r run) s = .next t
      ∧ ((s.op r).state = 1 ∧ (s.op r).run = run.toNat → t.out = s.out ++ reply s q St.ok []
          ∧ (t.op r).state = 5 ∧ (t.op r).code = St.aborted ∧ (t.op r).unread = true ∧ (t.op r).run = (s.op r).run)
      ∧ (¬ ((s.op r).state = 1 ∧ (s.op r).run = run.toNat) → t.out = s.out ++ reply s q St.busy [] ∧ t.ops = s.ops
          ∧ storeFrame (Pd.refused :: Pd.lastRefusal :: requestCounters) s t)
      ∧ (∀ i, i ≠ r → t.op i = s.op i))

/-- Forwarded requests are answered; long operations are read and cancelled: ForwardedRequestIsAnswered, LongOperationsAreReadAndCancelled.
-/
def Obligations.ForwardingAndLongOperations : Prop := Claims.ForwardedRequestIsAnswered ∧ Claims.LongOperationsAreReadAndCancelled

/-! ### Chapter 04: the host link -/

/-- The host link (spec/04 R90, R91, Table 04-1): LINK_TRAINED with a supported width, speed and flit mode brings it UP with that result,
records a narrower or slower one than 16 lanes at 64 GT/s, and, no mirror line waiting, changes nothing else; LINK_DOWN counts and shows
DOWN, a hot or secondary-bus reset shows TRAINING, each keeps the trained result (log 180) and discards window requests in flight and
the lines held on either side, the sequencers going on (no Cove request or counter operation waiting for the host here);
FUNCTION_LEVEL_RESET clears the function's base addresses, MSI-X table and interrupt policy and the mailbox's commands in progress, and
nothing else. An event for a link not there changes nothing. Readings of the model: log 123, log 124. -/
def Claims.LinkEventsResetTheController : Prop :=
  (∀ (s : State) (w sp fl : Nat), 3 ≤ s.power.step → linkSupported w sp fl = true → s.strand.queue.length < 256 →
    (∀ e ∈ s.host.mirrors, e.2.waiting = false) →
    ∃ t, exec (.linkTrained w sp fl) s = .next t
      ∧ t.reg Pd.linkState = 2 ∧ t.reg Pd.linkWidth = w ∧ t.reg Pd.linkSpeed = sp ∧ t.reg Pd.flitMode = fl
      ∧ storeFrame [Pd.linkState, Pd.linkWidth, Pd.linkSpeed, Pd.flitMode] s t ∧ { t with pd := s.pd, strand := s.strand } = s
      ∧ t.strand.queue = s.strand.queue ++ (if w < 16 ∨ sp < 64 then
          [occurrence s 0x02 St.ok 0 noUnit [BitVec.ofNat 8 w, BitVec.ofNat 8 sp, BitVec.ofNat 8 fl]] else []))
  ∧ (∀ (s : State) (w sp fl : Nat), linkSupported w sp fl = false → exec (.linkTrained w sp fl) s = .next s)
  ∧ (∀ (s : State) (ev : LinkEvent), s.reg Pd.linkState = 0 → exec (.linkDown ev) s = .next s)
  ∧ (∀ (s : State) (ev : LinkEvent), s.reg Pd.linkState ≠ 0 → s.host.snoopWaits = [] → s.host.ctrWaits = [] →
    ∃ m u t, u = { s with host := { s.host with windows := [], filter := [], snooped := [], cacheLines := [], mirrors := m } }
      ∧ exec (.linkDown ev) s = .next t
      ∧ t.reg Pd.linkState = (if ev = .linkDown then 3 else 1)
      ∧ t.reg Pd.linkDowns = (if ev = .linkDown then (u.settle.reg Pd.linkDowns + 1) % 2 ^ 64 else u.settle.reg Pd.linkDowns)
      ∧ storeFrame [Pd.linkState, Pd.linkDowns] u.settle t ∧ { t with pd := u.settle.pd } = u.settle)
  ∧ (∀ s : State, ∃ t, exec .functionLevelReset s = .next t
      ∧ t.host = { s.host with
          policy := [0, 0, 0, 0]
          function := { s.host.function with bars := [0, 0, 0], msixOn := false, msix := List.replicate 32 0 } }
      ∧ (∀ p, p ∈ t.gdp.inflight ↔ p ∈ s.gdp.inflight ∧ (p.req.path ≠ .mailbox ∨ p.wait = .flash))
      ∧ t.gdp.cache = s.gdp.cache ∧ { t with host := s.host, gdp := s.gdp } = s)

/-- The CXL mailbox of a link that is up (spec/04 R92 to R94, Table 04-3; codes and payload layouts are log 38): every command is answered
and vector 4 follows. Event records are given oldest first; clearing removes those whose handles are named and the overflow indication;
the interrupt policy, the timestamp, the running firmware and the effects log are given as they stand, and nothing else changes. -/
def Claims.MailboxCommandsAreAnswered : Prop :=
  ∀ s : State, s.reg Pd.linkState = 2 →
    let said := fun (op : Nat) (payload : List Byte) => s.out ++ [.mailbox op 0 payload, .msix 4]
    (∀ (log : Nat) (l : EventLog), s.host.logs[log]? = some l →
      let body := natLE 1 (bit01 l.overflow) ++ natLE 2 l.records.length ++ l.records.flatMap eventBytes
      exec (.getEventRecords log) s = .next { s with out := said 0x0100 (body.take 8192) })
    ∧ (∀ (log : Nat), s.host.logs[log]? = none → exec (.getEventRecords log) s = .next { s with out := s.out ++ [.mailbox 0x0100 2 [], .msix 4] })
    ∧ (∀ (log : Nat) (l : EventLog) (handles : List Nat), s.host.logs[log]? = some l →
      ∃ t l', exec (.clearEventRecords log handles) s = .next t ∧ t.out = said 0x0101 [] ∧ t.host.logs = s.host.logs.set log l'
        ∧ l'.overflow = false ∧ (∀ e, e ∈ l'.records ↔ e ∈ l.records ∧ eventHandle e ∉ handles)
        ∧ { t with out := s.out, host := s.host } = s ∧ { t.host with logs := s.host.logs } = s.host)
    ∧ exec .getEventInterruptPolicy s = .next { s with out := said 0x0102 (s.host.policy.map (BitVec.ofNat 8)) }
    ∧ (∀ a b c d : Nat, a ≤ 1 → b ≤ 1 → c ≤ 1 → d ≤ 1 →
      exec (.setEventInterruptPolicy [a, b, c, d]) s = .next { s with out := said 0x0103 [], host := { s.host with policy := [a, b, c, d] } })
    ∧ (∀ i, s.power.booted = some i →
      exec .getFwInfo s = .next { s with out := said 0x0200 (natLE 1 (i + 1) ++ natLE 4 (s.bank i).build ++ natLE 4 (s.bank i).secVersion) })
    ∧ (∀ v : BitVec 64, ∃ t, exec (.setTimestamp v) s = .next t ∧ t.out = said 0x0301 [] ∧ t.deviceTime = v
        ∧ { t with out := s.out, host := s.host } = s)
    ∧ exec .getTimestamp s = .next { s with out := said 0x0300 (natLE 8 s.deviceTime.toNat) }
    ∧ exec .getSupportedLogs s = .next { s with out := said 0x0400 (natLE 8 1 ++ effectsLogId ++ natLE 4 commandEffects.length) }
    ∧ exec .getLog s = .next { s with out := said 0x0401 commandEffects }

/-- The host link and the CXL mailbox (codes and layouts PRESUMED, log 38): LinkEventsResetTheController, MailboxCommandsAreAnswered. -/
def Obligations.HostLinkAndMailbox : Prop := Claims.LinkEventsResetTheController ∧ Claims.MailboxCommandsAreAnswered

/-- Window requests of a gate (spec/04 R96, R98, R100, R101, R102, Tables 04-5 and 04-6), none waiting before them. For its own slice, in a
fabric that moves host traffic: a read of the Cliff or House window is completed with the bytes at its address, of the counter window
with the counters' words, of the status window with the page, and changes no byte; a write to the Cliff or House window writes its
enabled bytes where they belong and no other byte; a write of a whole counter word in the ADD, SUBTRACT or SET range that no tracked
line holds up is that operation, after which the sequencers go on. A request for another module that a route reaches waits while its
transfers travel. A write to the status window, a request past the mapped part and one for a bay the gate does not serve are
refused, counted and change nothing else. Reading of the model: log 125. -/
def Claims.WindowRequestsOfTheGate : Prop :=
  ∀ (s : State) (w : Window) (off : Nat), s.reg Pd.linkState = 2 → s.host.windows = [] →
    let id := s.host.nextWindow
    let at_ := fun (p : Nat) => p * windowSlice w + off
    (s.working = true → s.windowMoves w = true → s.position < 16 * s.host.bays → off < windowSlice w →
      (∀ (size : Nat) (l : List Byte), 0 < size → off + size ≤ windowMapped w → s.host.filter.length + size ≤ 262144 →
        ((w = .cliff ∨ w = .house) ∧ ∃ ks, s.dpaPlaces harbourAgent true (windowBase w + off) size = .ok ks ∧ l = ks.map s.byteAt)
          ∨ (w = .counter ∧ s.counterBytes off size = some l) ∨ (w = .status ∧ l = tgetMany 0 s.host.status off size) →
        ∃ t, exec (.hostWindowRead w (at_ s.position) size) s = .next t
          ∧ t.out = s.out ++ [.windowDone id false l] ∧ t.host.windows = [] ∧ t.host.nextWindow = id + 1 ∧ t.mem = s.mem
          ∧ (w ≠ .cliff → { t with out := s.out, host := s.host } = s))
      ∧ (∀ (data : List (Option Byte)) (l : List (Nat × Byte)), 0 < data.length → off + data.length ≤ windowMapped w →
        w = .cliff ∨ w = .house → s.dpaTargets harbourAgent true (windowBase w + off) data = .ok l →
        ∃ t, exec (.hostWindowWrite w (at_ s.position) data) s = .next t
          ∧ t.out = s.out ++ [.windowDone id false []] ∧ t.mem = l.foldl (fun m e => tset 0 m e.1 e.2) s.mem
          ∧ (∀ a, (∀ e ∈ l, e.1 ≠ a) → t.byteAt a = s.byteAt a))
      ∧ (∀ op c x : Nat, w = .counter → 1 ≤ op → op ≤ 3 → c < 131072 → x < 2 ^ 32 → off = 8 * (131072 * op + c) → s.ctrHeld c = false →
        let data := (natLE 8 x).map some
        let r : WindowReq := { id := id, window := .counter, target := s.position, offset := off, size := 8, write := true, data := data, local_ := true }
        let u : State := { s with host := { s.host with nextWindow := id + 1, windows := [r] } }
        exec (.hostWindowWrite w (at_ s.position) data) s = .next ((u.hostOp (op, c, x)).1.settle.windowDone r (u.hostOp (op, c, x)).2)))
    ∧ (∀ (p size : Nat), p ≠ s.position → p < 16 * s.host.bays → off < windowSlice w → 0 < size → off + size ≤ windowMapped w →
        (s.route p).isSome = true → s.windowUnderWay p = false →
        ∃ t r, exec (.hostWindowRead w (at_ p) size) s = .next t ∧ t.host.windows = [r] ∧ r.id = id ∧ r.target = p ∧ r.sent = true
          ∧ t.out = s.out ∧ { t with host := s.host, causeway := s.causeway } = s)
    ∧ (let refused := fun (i : Instr) => ∃ t, exec i s = .next t ∧ t.out = s.out ++ [.windowDone id true []]
        ∧ t.reg Pd.windowRefused = (s.reg Pd.windowRefused + 1) % 2 ^ 64 ∧ storeFrame [Pd.windowRefused] s t
        ∧ { t with out := s.out, pd := s.pd, host := s.host } = s ∧ t.host = { s.host with nextWindow := id + 1 }
      (∀ (p size : Nat), 0 < size → off < windowSlice w → 16 * s.host.bays ≤ p ∨ windowMapped w < off + size → refused (.hostWindowRead w (at_ p) size))
      ∧ (∀ (p : Nat) (data : List (Option Byte)), 0 < data.length → off < windowSlice w →
          16 * s.host.bays ≤ p ∨ windowMapped w < off + data.length ∨ w = .status → refused (.hostWindowWrite w (at_ p) data)))

/-- A window request still open at its limit (spec/04 R99) is completed to the host as refused and counted as such and as a timeout;
every other request stays, and a limit of no open request changes nothing. -/
def Claims.WindowTimeoutRefuses : Prop :=
  (∀ (s : State) (id : Nat) (r : WindowReq), (s.host.windows.find? fun x => x.id == id) = some r →
    ∃ t, exec (.windowTimeout id) s = .next t
      ∧ t.out = s.out ++ [.windowDone id true []] ∧ t.host = { s.host with windows := s.host.windows.filter fun x => x.id != id }
      ∧ t.reg Pd.windowTimeouts = (s.reg Pd.windowTimeouts + 1) % 2 ^ 64 ∧ t.reg Pd.windowRefused = (s.reg Pd.windowRefused + 1) % 2 ^ 64
      ∧ storeFrame [Pd.windowTimeouts, Pd.windowRefused] s t ∧ { t with out := s.out, pd := s.pd, host := s.host } = s)
  ∧ (∀ (s : State) (id : Nat), (∀ x ∈ s.host.windows, x.id ≠ id) → exec (.windowTimeout id) s = .next s)

/-- Host window requests and their timeout: WindowRequestsOfTheGate, WindowTimeoutRefuses. -/
def Obligations.HostWindows : Prop := Claims.WindowRequestsOfTheGate ∧ Claims.WindowTimeoutRefuses

/-- Coherence, mirrors and the status page of a gate (spec/04 R101, R105, R106, R108, Table 04-7): H2D_SNOOP is answered with whether the
Harbour holds the line and whether it is dirty, and the Harbour gives it up; BISNP_RESPONSE for a line of this module takes it from the
snoop filter, after which the sequencers go on (no Cove request or counter operation waiting for it here), and one for another module's
is sent there; MIRROR_WRITE_DONE leaves no line of the record in flight, sends its vector where it is 8 or more and, where the record
waits, tries its next line; STATUS_PAGE_REFRESH makes the page what its sources are. Reading of the model: log 25. -/
def Obligations.CoherenceMirrorsAndStatusPage : Prop :=
  (∀ (s : State) (line : Nat), s.reg Pd.linkState = 2 →
    ∃ t, exec (.h2dSnoop line) s = .next t
      ∧ t.out = s.out ++ [.snoopReply line (s.host.cacheLines.any fun e => e.1 == line)
          (((s.host.cacheLines.find? fun e => e.1 == line).map (·.2)).getD false)]
      ∧ (∀ e, e ∈ t.host.cacheLines ↔ e ∈ s.host.cacheLines ∧ e.1 ≠ line)
      ∧ { t with out := s.out, host := s.host } = s ∧ { t.host with cacheLines := s.host.cacheLines } = s.host)
  ∧ (∀ (s : State) (line : Nat), s.reg Pd.linkState = 2 → s.host.snoopWaits = [] → s.host.ctrWaits = [] →
    exec (.bisnpResponse s.position line) s = .next ({ s with host := { s.host with
      filter := s.host.filter.filter fun l => l != line, snooped := s.host.snooped.filter fun l => l != line } } : State).settle)
  ∧ (∀ (s : State) (p line : Nat), s.reg Pd.linkState = 2 → p ≠ s.position →
    exec (.bisnpResponse p line) s = .next (s.sendTransfer p .snoop
      [{ s.newPacket 7 p [1] with address := BitVec.ofNat 44 (64 * line) }]).1)
  ∧ (∀ (s : State) (i v : Nat), s.reg Pd.linkState = 2 → i < 256 → (s.mirror i).inFlight = some v →
    ∃ t, t.mirror i = { s.mirror i with inFlight := none } ∧ t.out = s.out ++ (if 8 ≤ v then [.msix v] else [])
      ∧ (∀ j, j ≠ i → t.mirror j = s.mirror j) ∧ { t with out := s.out, host := s.host } = s
      ∧ exec (.mirrorWriteDone i) s = .next (if (s.mirror i).waiting then t.tryMirror i else t))
  ∧ (∀ s : State, ∃ t, exec .statusPageRefresh s = .next t
      ∧ (∀ i, i < s.statusPage.length → tget 0 t.host.status i = s.statusPage.getD i 0)
      ∧ { t with host := s.host } = s ∧ { t.host with status := s.host.status } = s.host)

/-! ### Chapter 05: the House -/

/-- ROOM_REQUEST (spec/05 R113, R117, R118) at a powered room: at a fenced room the request is refused with FENCED; behind its own unit's
drain marker in a handover it is refused with NOT_OWNER; otherwise it joins the end of its queue while that holds fewer than 16, and
with the queue full it stays outside and nothing changes. -/
def Claims.RoomRequestJoinsItsQueue : Prop :=
  ∀ (s : State) (r : Nat) (req : RoomReq), s.unpowered = false →
    let q := { req with own := false }
    (s.roomFenced r = true → exec (.roomRequest r req) s = .next { s with out := s.out ++ [.roomReply r q.tag St.fenced []] })
    ∧ (s.roomFenced r = false → s.afterMarker r q = true → ∃ t, exec (.roomRequest r req) s = .next t
        ∧ t.out = s.out ++ [.roomReply r q.tag St.notOwner []] ∧ t.reg Pd.notOwnerCount = (s.reg Pd.notOwnerCount + 1) % 2 ^ 64
        ∧ t.mem = s.mem ∧ ∀ i, (t.room i).ownerQ = (s.room i).ownerQ ∧ (t.room i).dmaQ = (s.room i).dmaQ ∧ (t.room i).portBQ = (s.room i).portBQ)
    ∧ (s.roomFenced r = false → s.afterMarker r q = false → ∃ t, exec (.roomRequest r req) s = .next t ∧ { t with rooms := s.rooms } = s
        ∧ (∀ i, i ≠ r → t.room i = s.room i)
        ∧ (let x := s.room r
           let mine := if s.usesPortB r q then x.portBQ else if q.cls = .owner then x.ownerQ else x.dmaQ
           let mine' := if s.usesPortB r q then (t.room r).portBQ else if q.cls = .owner then (t.room r).ownerQ else (t.room r).dmaQ
           mine' = (if mine.length < 16 then mine ++ [q] else mine)))

/-- ROOM_CYCLE in service mode (spec/05 R111, R112, R121, R126): with every waiting request of a powered, unfenced, unwiped room permitted, port A
serves the oldest of the owner queue before any DMA, whose wait is counted; a write changes exactly its enabled bytes, a read answers the
room's bytes; a corrected word is counted. A request that crosses a line has its lower half carried out and waits, first in its queue, for
the next cycle. -/
def Claims.RoomCycleServesOwnersFirst : Prop :=
  ∀ (s : State) (r : Nat) (q : RoomReq) (rest : List RoomReq) (ecc : RoomEcc),
    s.unpowered = false → s.roomFenced r = false → s.roomWiping r = false → s.halted (66 + r / 192) = false → tget none s.transposes (r / 32) = none →
    s.sharedMode r = false → (s.room r).ownerQ = q :: rest → (s.room r).portBQ = [] →
    (∀ x ∈ (s.room r).ownerQ ++ (s.room r).dmaQ, s.roomVerdict r false x = .serve) → q.principal ≠ none → q.wellFormed = true →
    q.own = false → ecc.a ≠ .uncorrectable →
    let n := firstHalf q
    let a := roomAddr r q.offset
    ∃ t, exec (.roomCycle r ecc) s = .next t
      ∧ (q.write = true → (∀ i, i < n → t.byteAt (a + i) = ((q.data[i]?).join).getD (s.byteAt (a + i)))
          ∧ ∀ b, b < a ∨ a + n ≤ b → t.byteAt b = s.byteAt b)
      ∧ (q.write = false → t.mem = s.mem)
      ∧ (n = q.len → t.out = s.out ++ [.roomReply r q.tag St.ok (q.lower ++ if q.write then [] else s.bytesAt a n)]
          ∧ (t.room r).ownerQ = rest)
      ∧ (n < q.len → t.out = s.out ∧ ∃ q', (t.room r).ownerQ = q' :: rest ∧ q'.offset = q.offset + n ∧ q'.len = q.len - n ∧ q'.tag = q.tag)
      ∧ (t.room r).dmaQ = (s.room r).dmaQ
      ∧ t.reg Pd.dmaWaitCycles = (s.reg Pd.dmaWaitCycles + (s.room r).dmaQ.length) % 2 ^ 64
      ∧ (ecc.a = .corrected → t.reg Pd.eccCorrected = (s.reg Pd.eccCorrected + 1) % 2 ^ 64)
      ∧ storeFrame [Pd.dmaWaitCycles, Pd.eccCorrected] s t ∧ { t with mem := s.mem, out := s.out, rooms := s.rooms, pd := s.pd } = s

/-- Rooms queue requests and serve owners first: RoomRequestJoinsItsQueue, RoomCycleServesOwnersFirst. -/
def Obligations.RoomsServeRequests : Prop := Claims.RoomRequestJoinsItsQueue ∧ Claims.RoomCycleServesOwnersFirst

/-- Handovers (spec/05 R116, R117): an admitted ROOM_OWNER whose word names the present owner, reader and partition is
answered OK at once and changes no ownership; one that names others of a room whose owner is working and which has no reader
sets PENDING, sends the drain marker to the outgoing owner and waits; HANDOVER_MARKER_RETURN of the last marker, the
outgoing owner's own requests served, writes the new owner, reader and partition with the next GENERATION and PENDING clear, counts the handover and answers OK, and the
sequencers go on. Reading of the model: log 95. -/
def Claims.HandoverDrainsThenChangesOwner : Prop :=
  (∀ (s : State) (o : Origin) (r : Nat) (word : BitVec 64) (role : Role) (e : EntryInfo), r < 1536 →
    let q := ownWrite o Pd.roomOwner (8 * r) (natLE 8 word.toNat)
    let w := wordFields word.toNat
    admitted s q role e = true → s.handoverCheck r w = none →
    (s.sameOwnership r w = true → ∃ t, exec (.roomOwner o r word) s = .next t ∧ t.out = s.out ++ reply s q St.ok []
        ∧ storeFrame requestCounters s t ∧ answered q.path s t)
    ∧ (s.sameOwnership r w = false → s.unitFenced (s.roomOwnerOf r) = false → s.roomReaderOf r = none →
        ∃ t, exec (.roomOwner o r word) s = .next t ∧ t.roomPending r = true ∧ t.roomOwnerOf r = s.roomOwnerOf r
          ∧ t.out = s.out ++ [.drainMarker r (s.roomOwnerOf r) false] ∧ (t.room r).newWord = some (BitVec.ofNat 64 w)
          ∧ (∃ b, t.gdp.inflight = s.gdp.inflight ++ [{ req := q, wait := .handover r, before := b }])
          ∧ storeFrame (Pd.roomOwner :: requestCounters) s t ∧ ∀ i, i ≠ r → i < 1536 → t.ownerWord i = s.ownerWord i))
  ∧ (∀ (s : State) (r : Nat) (w : BitVec 64), r < 1536 → s.roomPending r = true → (s.room r).newWord = some w →
    (s.room r).readerMarker = false → s.markerReady r false = true →
    ∃ u : State, exec (.handoverMarkerReturn r false) s = .next u.settle
      ∧ u.ownerWord r = wordFields w.toNat + (bits (s.ownerWord r) 32 8 + 1) % 256 * 2 ^ 32 + bits w.toNat 61 1 * 2 ^ 61
      ∧ u.reg Pd.handovers = (s.reg Pd.handovers + 1) % 2 ^ 64 ∧ (u.room r).newWord = none
      ∧ u.out = s.out ++ (s.gdp.inflight.filter fun p => decide (p.wait = .handover r)).flatMap (fun p => reply s p.req St.ok [])
      ∧ u.mem = s.mem)

/-- A dictionary handover still draining at the limit of its response (spec/05 R117) is answered BUSY; the handover itself goes on. -/
def Claims.SlowHandoverIsAnsweredBusy : Prop :=
  ∀ (s : State) (r : Nat),
    ∃ t, exec (.handoverResponseLimit r) s = .next t
      ∧ t.out = s.out ++ (s.gdp.inflight.filter fun p => decide (p.wait = .handover r)).flatMap (fun p => reply s p.req St.busy [])
      ∧ (∀ p, p ∈ t.gdp.inflight ↔ p ∈ s.gdp.inflight ∧ p.wait ≠ .handover r)
      ∧ storeFrame [Pd.refused, Pd.lastRefusal] s t
      ∧ { t with pd := s.pd, out := s.out, gdp := s.gdp, causeway := s.causeway } = s
      ∧ ((∀ p ∈ s.gdp.inflight, p.wait = .handover r → ∀ o k b, p.req.path ≠ .causeway o k b) → t.causeway = s.causeway)

/-- A room changes its owner once it has drained: HandoverDrainsThenChangesOwner, SlowHandoverIsAnsweredBusy. -/
def Obligations.RoomsChangeOwner : Prop := Claims.HandoverDrainsThenChangesOwner ∧ Claims.SlowHandoverIsAnsweredBusy

/-- Transposes (spec/05 R112, R127 to R129): TILE_TRANSPOSE and SQUARE_TRANSPOSE of a strip within the limits, every room of the wing owned
by the unit and none fenced, hold the wing until TRANSPOSE_DONE; one outside the limits is refused with DESCRIPTOR_INVALID (log 96).
At TRANSPOSE_DONE the words corrected are counted, and, with no word past correcting, a tile transpose has moved element (i, 32t + j) of
the strip to (j, 32t + i), and no byte outside the strip has changed. -/
def Claims.TransposeMovesElements : Prop :=
  (∀ (s : State) (who : Owner) (w off e : Nat), w < 48 → stripOk off e = true → s.wingRefusal w who = none → tget none s.transposes w = none →
    ∃ t, exec (.tileTranspose who w off e) s = .next t ∧ { t with transposes := s.transposes } = s
      ∧ tget none t.transposes w = some { offset := off, elem := e, q := 0, cycles := 64 } ∧ (∀ i, i ≠ w → tget none t.transposes i = tget none s.transposes i))
  ∧ (∀ (s : State) (who : Owner) (w off e q : Nat), w < 48 → stripOk off e = true → 1 ≤ q → q * e ≤ 128 → off + 4096 * q ≤ 262144 →
    s.wingRefusal w who = none → tget none s.transposes w = none →
    ∃ t, exec (.squareTranspose who w off e q) s = .next t ∧ { t with transposes := s.transposes } = s
      ∧ tget none t.transposes w = some { offset := off, elem := e, q := q, cycles := 64 * q * q })
  ∧ (∀ (s : State) (who : Owner) (w off e q : Nat), stripOk off e = false →
    exec (.tileTranspose who w off e) s = .next { s with out := s.out ++ [.transposeReply w St.descriptorInvalid] }
    ∧ exec (.squareTranspose who w off e q) s = .next { s with out := s.out ++ [.transposeReply w St.descriptorInvalid] })
  ∧ (∀ (s : State) (done : TransposeEnd) (x : Transpose), tget none s.transposes done.wing = some x →
    (∀ y ∈ done.errors, y.2 ≠ .uncorrectable) →
    ∃ t, exec (.transposeDone done) s = .next t ∧ t.out = s.out ++ [.transposeReply done.wing St.ok]
      ∧ tget none t.transposes done.wing = none
      ∧ t.reg Pd.eccCorrected = (s.reg Pd.eccCorrected + (done.errors.filter fun y => y.2 == .corrected).length) % 2 ^ 64
      ∧ storeFrame [Pd.eccCorrected] s t ∧ { t with pd := s.pd, out := s.out, transposes := s.transposes, mem := s.mem } = s
      ∧ (x.q = 0 → stripOk x.offset x.elem = true →
          let at_ := diagonalAddr done.wing x.offset x.elem
          (∀ i c, i < 32 → c < 32 * (128 / x.elem) → ∀ b, b < x.elem → t.byteAt (at_ (c % 32) (32 * (c / 32) + i) + b) = s.byteAt (at_ i c + b))
          ∧ ∀ a, (∀ i c, i < 32 → c < 32 * (128 / x.elem) → ∀ b, b < x.elem → a ≠ at_ i c + b) → t.byteAt a = s.byteAt a))

/-- ROOM_WIPE_DONE (spec/05 R132): every byte of the wiped room reads 0, WIPING is clear (but during L0, whose own wipe of
every room goes on), and no byte of another room or of a Cliff has changed; the sequencers go on. -/
def Claims.WipedRoomReadsZero : Prop :=
  ∀ (s : State) (r : Nat), r < 1536 → s.roomWiping r = true →
    ∃ u : State, exec (.roomWipeDone r) s = .next u.settle
      ∧ (∀ i, i < 0x40000 → u.byteAt (roomAddr r i) = 0) ∧ u.roomWiping r = s.inL0
      ∧ (∀ a, a < roomAddr r 0 ∨ roomAddr r 0x40000 ≤ a → u.byteAt a = s.byteAt a)
      ∧ ∀ i, i ≠ r → i < 1536 → u.ownerWord i = s.ownerWord i

/-- The sequencers' going on after a command (spec/05 R117, spec/11 R309, R320, R322) changes nothing where no room is being handed over,
no task waits for a handover, no speculative task is open and no list head is loaded. -/
def Claims.QuietSequencersStay : Prop :=
  ∀ s : State, (∀ e ∈ s.rooms, e.2.newWord = none) → s.endings = [] → s.spec = [] → s.heads = [] → s.settle = s

/-- Transposes, wiped rooms, and when the sequencers stay: TransposeMovesElements, WipedRoomReadsZero, QuietSequencersStay. -/
def Obligations.RoomsTransposeAndWipe : Prop := Claims.TransposeMovesElements ∧ Claims.WipedRoomReadsZero ∧ Claims.QuietSequencersStay

/-! ### Chapter 06: Cliffs, Coves and Charts -/

/-- COVE_REQUEST of a powered module within the quotas, with no line of it at the host (spec/06 R143, R147, R149, R151, R152): a write changes
exactly its enabled bytes at once and is answered OK; a read of one block whose line is present, clean of poison, is answered
with the block's bytes and counted as a hit; one that misses asks its stratum for the block and is answered later. A request
whose address leads nowhere is answered with the reason. Reading of the model: log 72. -/
def Claims.CoveServesRequests : Prop :=
  (∀ (s : State) (q : CliffReq) (ecc : Ecc) (n : Nat), s.unpowered = false → q.own = false → s.reqCheck q = .ok n → q.write = true →
    q.data.length = 256 * q.blocks → s.poolFull q.user = false → s.overQuota q n = false → s.trackedLines n q.blocks = [] → s.behind q n = false →
    ∃ t, exec (.coveRequest q ecc) s = .next t ∧ t.out = s.out ++ [.cliffReply q.user q.tag St.ok []]
      ∧ (∀ i, i < 256 * q.blocks → t.byteAt (n + i) = ((q.data[i]?).join).getD (s.byteAt (n + i)))
      ∧ ∀ a, a < n ∨ n + 256 * q.blocks ≤ a → t.byteAt a = s.byteAt a)
  ∧ (∀ (s : State) (q : CliffReq) (n : Nat), s.unpowered = false → q.own = false → s.reqCheck q = .ok n → q.write = false → q.blocks = 1 →
    s.poolFull q.user = false → s.overQuota q n = false → s.trackedLines n 1 = [] → s.behind q n = false →
    let c := natCliff n
    let b := natLocal n / 256
    let r : CliffReq := { q with addr := n, data := enableAll (s.bytesAt n 256) }
    (∀ x ∈ (s.cliff c).slots, x.1 ≠ r) → s.reqWaits c r = false →
    ∃ t, exec (.coveRequest q .clean) s = .next t ∧ t.mem = s.mem
      ∧ (∀ w, s.findWay c b = some w → lineFilling (s.coveLine c (coveSet b) w) = false → linePoison (s.coveLine c (coveSet b) w) = false →
          t.out = s.out ++ [.cliffReply q.user q.tag St.ok (s.bytesAt n 256)] ∧ t.reg Pd.coveHits = (s.reg Pd.coveHits + 1) % 2 ^ 64
          ∧ t.badBlocks = s.badBlocks)
      ∧ (s.findWay c b = none → s.writingBack c b = false → s.fetching c b = false → t.out = s.out ∧ t.reg Pd.coveMisses = (s.reg Pd.coveMisses + 1) % 2 ^ 64
          ∧ ∃ x ∈ tget [] (t.cliff c).queues (blockStratum b), x.block = b ∧ x.write = false ∧ x.waiters = [r]))
  ∧ (∀ (s : State) (q : CliffReq) (ecc : Ecc) (code : BitVec 16), s.unpowered = false → q.own = false → s.reqCheck q = .fail code →
    ∃ t, exec (.coveRequest q ecc) s = .next t ∧ t.out = s.out ++ [.cliffReply q.user q.tag code []] ∧ t.mem = s.mem ∧ t.cliffs = s.cliffs)

/-- A stratum's scheduler (spec/06 R135, R150): COVE_SCHEDULE of an idle stratum takes a waiting access of a free bank, one that has waited
over 4 µs before any other, and opens its row; STRATUM_ACCESS_DONE of a write frees the stratum, and of a clean read answers the request that
waited for it alone; BANK_REFRESH closes the bank's row. -/
def Claims.StratumSchedulesAccesses : Prop :=
  (∀ (s : State) (c st : Nat) (x : LineAcc) (mode : Bool), s.unpowered = false → s.cliffFenced c = false → s.halted (74 + c) = false →
    tget none (s.cliff c).inService st = none → st ∉ (s.cliff c).recal → s.coveChoice c st = (some x, mode) →
    x ∈ tget [] (s.cliff c).queues st ∧ s.bankFree c x = true
    ∧ ((∃ y ∈ tget [] (s.cliff c).queues st, s.bankFree c y = true ∧ 4 < s.time - y.since) → 4 < s.time - x.since)
    ∧ ∃ t, exec (.coveSchedule c st) s = .next t ∧ { t with cliffs := s.cliffs } = s
      ∧ tget none (t.cliff c).inService st = some x ∧ tget [] (t.cliff c).queues st = (tget [] (s.cliff c).queues st).erase x
      ∧ tget none (t.cliff c).openRows (bankKey st (blockBank x.block)) = some (blockRow x.block)
      ∧ ∀ d, d ≠ c → t.cliff d = s.cliff d)
  ∧ (∀ (s : State) (c st : Nat) (x : LineAcc) (ecc : Ecc), s.unpowered = false → tget none (s.cliff c).inService st = some x → x.write = true →
    ∃ t, exec (.stratumAccessDone c st ecc) s = .next t ∧ { t with cliffs := s.cliffs } = s ∧ tget none (t.cliff c).inService st = none)
  ∧ (∀ (s : State) (c st : Nat) (x : LineAcc) (q : CliffReq), s.unpowered = false → q.own = false → c < 20 → tget none (s.cliff c).inService st = some x → x.write = false →
    (∀ w, x.way = some w → w < 24) → x.waiters = [q] → c * 0x2000000000 + 256 * x.block ∉ s.badBlocks →
    c * 0x2000000000 + 256 * x.block ∉ s.poisonBlocks → ((s.cliff c).slots.find? fun e => e.1 == q) = some (q, St.ok) →
    (s.setCliff c { s.cliff c with inService := tset none (s.cliff c).inService st none }).reqWaits c q = false →
    ∃ t, exec (.stratumAccessDone c st .clean) s = .next t ∧ tget none (t.cliff c).inService st = none
      ∧ t.out = s.out ++ [.cliffReply q.user q.tag St.ok (q.data.map fun b => b.getD 0)] ∧ t.mem = s.mem ∧ t.badBlocks = s.badBlocks
      ∧ storeFrame [Pd.coveLineState] s t)
  ∧ (∀ (s : State) (c st b : Nat), ∃ t, exec (.bankRefresh c st b) s = .next t ∧ { t with cliffs := s.cliffs } = s
      ∧ tget none (t.cliff c).openRows (bankKey st b) = none
      ∧ tget 0 (t.cliff c).refreshed (bankKey st b) = tget 0 (s.cliff c).refreshed (bankKey st b) + 1
      ∧ (t.cliff c).queues = (s.cliff c).queues ∧ (t.cliff c).slots = (s.cliff c).slots)

/-- A Cove serves its requests, a stratum schedules its accesses: CoveServesRequests, StratumSchedulesAccesses. -/
def Obligations.CovesAndStrataServe : Prop := Claims.CoveServesRequests ∧ Claims.StratumSchedulesAccesses

/-- Rows and strata that fail (spec/06 R158, R162): SOFT_REPLACEMENT_DONE remaps the copied row to a spare of its bank, counts it and
starts its errors afresh; STRATUM_FAILURE after READY holds the stratum; STRATUM_RECAL_DONE that succeeds lets it serve again, and one that
fails fences the whole Cliff. -/
def Claims.WeakRowsAndStrata : Prop :=
  (∀ (s : State) (c st b row : Nat), tget none (s.cliff c).copying (bankKey st b) = some row →
    ∃ t, exec (.softReplacementDone c st b) s = .next t
      ∧ tget none (t.cliff c).copying (bankKey st b) = none ∧ rowKey st b row ∈ (t.cliff c).softRows
      ∧ tget 0 (t.cliff c).usedRows (bankKey st b) = tget 0 (s.cliff c).usedRows (bankKey st b) + 1
      ∧ tget 0 (t.cliff c).rowErrors (rowKey st b row) = 0
      ∧ t.reg Pd.softReplacements = (s.reg Pd.softReplacements + 1) % 2 ^ 64 ∧ storeFrame [Pd.softReplacements] s t
      ∧ { t with pd := s.pd, cliffs := s.cliffs } = s)
  ∧ (∀ (s : State) (c st : Nat), s.isReady = true → s.cliffFenced c = false → st ∉ (s.cliff c).recal →
    ∃ t, exec (.stratumFailure c st) s = .next t ∧ t.cliff c = { s.cliff c with recal := st :: (s.cliff c).recal }
      ∧ { t with cliffs := s.cliffs } = s)
  ∧ (∀ (s : State) (c st : Nat), st ∈ (s.cliff c).recal →
    let u := s.setCliff c { s.cliff c with recal := (s.cliff c).recal.erase st }
    exec (.stratumRecalDone c st true) s = .next u ∧ exec (.stratumRecalDone c st false) s = .next (u.cliffFails c))

/-- Unpinning and Chart walks (spec/06 R148, R155, R157): UNPIN_TENSOR waits for the Coves; UNPIN_DONE of a canonical store turns every
pinned line of the first tensor asked for into a reuse-count line of count 0, changes no other line, and answers its request; CHART_WALK_DONE, the Harbour's slots allowing (spec/02 R62; else the walk waits), counts the walk
and caches the entry it found, where it found a valid one, in place of what that requester's cache held for the page. -/
def Claims.UnpinningAndChartWalks : Prop :=
  (∀ (s : State) (o : Origin) (x : BitVec 16) (role : Role) (e : EntryInfo),
    let q := ownWrite o Pd.unpinTensor 0 (natLE 2 x.toNat)
    admitted s q role e = true →
    ∃ t, exec (.unpinTensor o x) s = .next t ∧ t.unpinning = s.unpinning ++ [x.toNat] ∧ t.out = s.out
      ∧ (∃ b, t.gdp.inflight = s.gdp.inflight ++ [{ req := q, wait := .unpin, before := b }])
      ∧ storeFrame requestCounters s t ∧ { t with pd := s.pd, gdp := s.gdp, unpinning := s.unpinning } = s)
  ∧ (∀ (s : State) (x : Nat) (rest : List Nat) (p : Pending), s.tablesOk → s.unpinning = x :: rest →
    (s.gdp.inflight.find? fun (p : Pending) => decide (p.wait = .unpin)) = some p →
    ∃ t, exec .unpinDone s = .next t ∧ t.unpinning = rest ∧ t.out = s.out ++ reply s p.req St.ok []
      ∧ (∀ u, u < 16777216 → t.rd Pd.coveLineState u = unpinLine x (s.rd Pd.coveLineState u))
      ∧ storeFrame [Pd.coveLineState] s t ∧ causewayKept p.req.path s t
      ∧ { t with pd := s.pd, out := s.out, gdp := s.gdp, unpinning := s.unpinning, causeway := s.causeway } = s)
  ∧ (∀ (s : State) (user : CliffUser) (p a : Nat), s.harbourRoom (s.walkReads p a) = false →
    exec (.chartWalkDone user p a) s = .next (if s.poolFull .harbour then s else s.bump Pd.quotaWaits))
  ∧ (∀ (s : State) (user : CliffUser) (p a : Nat), s.harbourRoom (s.walkReads p a) = true →
    ∃ t, exec (.chartWalkDone user p a) s = .next t
      ∧ t.reg Pd.chartWalks = (s.reg Pd.chartWalks + 1) % 2 ^ 64 ∧ t.mem = s.mem ∧ t.out = s.out ∧ t.chartBase = s.chartBase
      ∧ (s.chartWalk p a = none → t.tlb = s.tlb)
      ∧ (∀ m, s.chartWalk p a = some m → ∃ old, t.tlb = { user := user, part := p, base := m.base, bytes := m.bytes, entry := BitVec.ofNat 64 m.entry } :: old
          ∧ ∀ x, x ∈ old ↔ x ∈ s.tlb ∧ ¬ (x.user = user ∧ x.part = p ∧ x.base = m.base ∧ x.bytes = m.bytes)))

/-- Weak rows and strata, unpinning, Chart walks: WeakRowsAndStrata, UnpinningAndChartWalks. -/
def Obligations.WeakRowsPinsAndCharts : Prop := Claims.WeakRowsAndStrata ∧ Claims.UnpinningAndChartWalks

/-- Repairs (spec/06 R163, R164): an accepted START of a Repair with valid arguments at an unfenced Cliff, no other run
unread and no restore running, is answered OK with its run number. A row repair runs where the row is softly replaced, a
column-group repair where the bank has a group left, and ends NO_SPARE otherwise; retiring pages ends DONE at once.
REPAIR_DONE ends the run DONE and writes the fuse record after those the Cliff has, or FAILED with REPAIR_FAILED where the
fuse did not take. Readings of the model: log 15, log 94. -/
def Claims.RepairsRunAndEnd : Prop :=
  (∀ (s : State) (o : Origin) (c : BitVec 8) (st : BitVec 16) (bank : BitVec 8) (x : BitVec 16) (role : Role) (e : EntryInfo),
    let q := fun action => ownWrite o Pd.repairStart 0 (repairArg action c st bank x)
    let b := bankKey st.toNat bank.toNat
    let run := natLE 4 (((s.op 5).run + 1) % 2 ^ 32)
    s.opBusy 5 = false → s.opActive 4 = false → s.cliffFenced c.toNat = false → c.toNat < 20 → st.toNat < 256 → bank.toNat < 32 →
    (x.toNat < 10240 → admitted s (q 1) role e = true →
      ∃ t, exec (.repairRowPermanent o c st bank x) s = .next t ∧ t.out = s.out ++ reply s (q 1) St.ok run
        ∧ (t.op 5).run = ((s.op 5).run + 1) % 2 ^ 32
        ∧ (if (s.cliff c.toNat).softRows.contains (rowKey st.toNat bank.toNat x.toNat) then (t.op 5).state = 2
            ∧ t.repair = some { action := 1, cliff := c.toNat, stratum := st.toNat, bank := bank.toNat, row := x.toNat }
          else (t.op 5).state = 4 ∧ (t.op 5).code = St.noSpare ∧ t.repair = none)
        ∧ storeFrame requestCounters s t ∧ t.cliffs = s.cliffs ∧ t.mem = s.mem)
    ∧ (admitted s (q 2) role e = true →
      ∃ t, exec (.repairColumnGroup o c st bank x) s = .next t ∧ t.out = s.out ++ reply s (q 2) St.ok run
        ∧ (if tget 0 (s.cliff c.toNat).usedGroups b < 4 then (t.op 5).state = 2
            ∧ t.repair = some { action := 2, cliff := c.toNat, stratum := st.toNat, bank := bank.toNat, row := x.toNat }
          else (t.op 5).state = 4 ∧ (t.op 5).code = St.noSpare ∧ t.repair = none)
        ∧ storeFrame requestCounters s t ∧ t.cliffs = s.cliffs ∧ t.mem = s.mem))
  ∧ (∀ (s : State) (o : Origin) (c : BitVec 8) (role : Role) (e : EntryInfo),
    let q := ownWrite o Pd.repairStart 0 (repairArg 3 c 0 0 0)
    admitted s q role e = true → s.opBusy 5 = false → s.opActive 4 = false → s.cliffFenced c.toNat = false → c.toNat < 20 →
      ∃ t, exec (.repairRetirePages o c) s = .next t ∧ t.out = s.out ++ reply s q St.ok (natLE 4 (((s.op 5).run + 1) % 2 ^ 32))
        ∧ (t.op 5).state = 3 ∧ (t.op 5).code = St.ok ∧ t.repair = none ∧ storeFrame (Pd.retiredList :: requestCounters) s t
        ∧ t.cliffs = s.cliffs ∧ t.mem = s.mem)
  ∧ (∀ (s : State) (r : RepairRun) (took : Bool), s.repair = some r →
    ∃ t, exec (.repairDone took) s = .next t ∧ t.repair = none
      ∧ (t.op 5).state = (if took then 3 else 4) ∧ (t.op 5).code = (if took then St.ok else St.repairFailed) ∧ (t.op 5).unread = true
      ∧ (took = false → t.pd = s.pd ∧ t.cliffs = s.cliffs)
      ∧ (took = true → ((s.cliff r.cliff).fusesUsed.foldl (fun a e => a + e.2) 0) < 16777216 →
          t.rd (Pd.fuseMap + r.cliff) ((s.cliff r.cliff).fusesUsed.foldl (fun a e => a + e.2) 0)
            = r.stratum + r.bank * 2 ^ 16 + (r.action - 1) * 2 ^ 24 + r.row * 2 ^ 32
          ∧ storeFrame [Pd.fuseMap + r.cliff] s t)
      ∧ t.out = s.out ∧ t.mem = s.mem)

/-- Bulk copies (spec/06 R163, R164): an accepted START over usable ranges of whole blocks runs and answers its run number;
BULK_COPY_DONE ends it, neither Cliff fenced, each byte of the destination (by native address) then being what the source held, and no
other byte changed. Reading of the model: log 15. -/
def Obligations.BulkCopyMovesBytes : Prop :=
  (∀ (s : State) (o : Origin) (src dst len : BitVec 64) (role : Role) (e : EntryInfo),
    let q := ownWrite o Pd.bulkCopyStart 0 (natLE 8 src.toNat ++ natLE 8 dst.toNat ++ natLE 8 len.toNat)
    admitted s q role e = true → len.toNat ≠ 0 → len.toNat % 256 = 0 → len.toNat ≤ 0x1000000000 → s.rangeUsable src.toNat len.toNat = true →
    s.rangeUsable dst.toNat len.toNat = true → s.opBusy 6 = false → s.opActive 4 = false →
    ∃ t, exec (.bulkCopyStart o src dst len) s = .next t ∧ t.out = s.out ++ reply s q St.ok (natLE 4 (((s.op 6).run + 1) % 2 ^ 32))
      ∧ t.bulk = some (src.toNat, dst.toNat, len.toNat) ∧ (t.op 6).state = 2 ∧ (t.op 6).slots = (len.toNat + 0x1FFFFF) / 0x200000
      ∧ storeFrame requestCounters s t ∧ t.mem = s.mem)
  ∧ (∀ (s : State) (src dst len : Nat), s.bulk = some (src, dst, len) → len % 256 = 0 → isNative src = true →
    natLocal src + len ≤ cliffBytes → isNative dst = true → natLocal dst + len ≤ cliffBytes →
    s.cliffFenced (natCliff src) = false → s.cliffFenced (natCliff dst) = false →
    ∃ t, exec .bulkCopyDone s = .next t ∧ t.bulk = none ∧ (t.op 6).state = 3
      ∧ (∀ i, i < len → t.byteAt (dst + i) = s.byteAt (src + i))
      ∧ (∀ a, a < dst ∨ dst + len ≤ a → t.byteAt a = s.byteAt a))

/-- Chart rebuilds (spec/06 R165): START is DEFERRED while a task of the partition runs and otherwise runs; CHART_REBUILD_BEGIN starts a
DEFERRED run once none does; CHART_REBUILD_DONE over tables without a fault makes the base the run began with the active one and forgets the partition's
cached entries, and over others ends FAILED and leaves both as they were. -/
def Claims.ChartRebuildReplacesTheChart : Prop :=
  (∀ (s : State) (o : Origin) (p : BitVec 8) (role : Role) (e : EntryInfo),
    let q := ownWrite o Pd.chartRebuildStart 0 [p]
    admitted s q role e = true → p.toNat < 16 → s.opBusy 7 = false →
    ∃ t, exec (.chartRebuildStart o p) s = .next t
      ∧ t.out = s.out ++ reply s q (if s.partTasks p.toNat then St.deferred else St.ok) (natLE 4 (((s.op 7).run + 1) % 2 ^ 32))
      ∧ (s.partTasks p.toNat = true → (t.op 7).state = 1 ∧ t.rebuild = some p.toNat)
      ∧ (s.partTasks p.toNat = false → 
          chartBaseOk (s.reg (Pd.chartBase + p.toNat)) = true → s.cliffFenced (natCliff (s.reg (Pd.chartBase + p.toNat))) = false →
          (t.op 7).state = 2 ∧ t.rebuild = some p.toNat ∧ t.rebuildBase = s.reg (Pd.chartBase + p.toNat))
      ∧ t.tlb = s.tlb ∧ t.chartBase = s.chartBase)
  ∧ (∀ (s : State) (p : Nat), s.rebuild = some p → (s.op 7).state = 1 → s.partTasks p = false → chartBaseOk (s.reg (Pd.chartBase + p)) = true →
    s.cliffFenced (natCliff (s.reg (Pd.chartBase + p))) = false →
    ∃ t, exec .chartRebuildBegin s = .next t ∧ (t.op 7).state = 2 ∧ t.rebuildBase = s.reg (Pd.chartBase + p)
      ∧ { t with ops := s.ops, rebuildBase := s.rebuildBase } = s)
  ∧ (∀ (s : State) (p : Nat), s.rebuild = some p → (s.op 7).state = 2 → p < 16 →
    let base := s.rebuildBase
    ∃ t, exec .chartRebuildDone s = .next t ∧ t.rebuild = none ∧ t.mem = s.mem ∧ t.out = s.out
      ∧ (if (s.rebuildRecords base).2 then (t.op 7).state = 3 ∧ tget none t.chartBase p = some base ∧ t.reg (Pd.chartActive + p) = 1
            ∧ ∀ x, x ∈ t.tlb ↔ x ∈ s.tlb ∧ x.part ≠ p
          else (t.op 7).state = 4 ∧ (t.op 7).code = St.invalidValue ∧ t.chartBase = s.chartBase ∧ t.tlb = s.tlb
            ∧ t.reg (Pd.chartActive + p) = s.reg (Pd.chartActive + p)))

/-- Repairs and Chart rebuilds: RepairsRunAndEnd, ChartRebuildReplacesTheChart. -/
def Obligations.RepairsAndChartRebuilds : Prop := Claims.RepairsRunAndEnd ∧ Claims.ChartRebuildReplacesTheChart

/-! ### Chapter 08: the Headland -/

/-- An array cycle in which no vector is consumed (spec/08 R204, R206 to R208, spec/01 R41), with no task waiting to run
again: an idle cycle of throttling is counted twice and changes nothing in the array; a swap that is due and withheld, an
empty feed crossing and a drain crossing without a credit are each counted, in this order; those change nothing in the array
but the shadow set, into which one row of a tile in the House is loaded while it is not complete. Readings of the model: log 19, log 21.
-/
def Claims.FrozenArrayOnlyLoads : Prop :=
  ∀ (s : State) (feed drain : Bool), s.headland.rerun = [] → s.headland.busy = true → s.halted 1 = false →
    let h := s.headland
    let tick : State := { s with headland := { h with swapped := false }, power := { s.power with cycle := s.power.cycle + 1 } }
    let kept := fun (t : State) => t.headland.running = h.running ∧ t.headland.shadow = h.shadow ∧ t.headland.draining = h.draining
      ∧ t.headland.activeSet = h.activeSet ∧ t.headland.acc = h.acc ∧ t.headland.trees = h.trees ∧ t.mem = s.mem ∧ t.out = s.out
    let held := fun (counter waited : Nat) =>
      let u := ({ tick with headland := { tick.headland with since := h.since + waited } } : State).bump counter
      ((∀ a tile, h.target = some (a, tile) → a.task.tileRows tile ≤ h.loaded) →
        ∃ t, exec (.headlandCycle feed drain) s = .next t ∧ t.reg counter = (s.reg counter + 1) % 2 ^ 64 ∧ storeFrame [counter] s t
          ∧ { t with pd := s.pd } = { tick with headland := { tick.headland with since := h.since + waited } })
      ∧ (∀ a tile r, h.target = some (a, tile) → h.loaded < a.task.tileRows tile → a.task.headOp.stage = false → (s.unitPort 0).failed = none →
        s.cliffPending 0 = false →
        u.cellRow a.task (a.task.tileStart tile + a.task.hR * h.loaded) (min a.task.hR (a.task.hK - (a.task.tileStart tile + a.task.hR * h.loaded)))
          0 a.task.hN = .ok (r, []) →
        ∃ t, exec (.headlandCycle feed drain) s = .next t ∧ t.reg counter = (s.reg counter + 1) % 2 ^ 64 ∧ storeFrame [counter] s t ∧ kept t
          ∧ t.headland.loaded = h.loaded + 1 ∧ t.headland.shadowSet = tset [] h.shadowSet h.loaded r)
    (s.throttled s.power.cycle = true →
      ∃ t, exec (.headlandCycle feed drain) s = .next t ∧ t.reg Pd.throttleIdle = (s.reg Pd.throttleIdle + 1) % 2 ^ 64
        ∧ t.reg Pd.throttleCycles = (s.reg Pd.throttleCycles + 1) % 2 ^ 64 ∧ storeFrame [Pd.throttleIdle, Pd.throttleCycles] s t
        ∧ { t with pd := s.pd } = tick)
    ∧ (s.throttled s.power.cycle = false →
      (h.swapDue = true → h.swapAllowed = false → held Pd.swapWait 1)
      ∧ (h.swapDue = false → h.running.isSome = true → feed = false → held Pd.freezeFeed 0)
      ∧ (h.swapDue = false → (h.running.isSome = true → feed = true) → h.drainDue.isSome = true → drain = false → held Pd.freezeDrain 0))

/-- An advancing array cycle (spec/08 R191, R195, R202, R204, R208, R209), with no task waiting to run again and no shadow
row to load: with a tile active it consumes the next vector, whose column sums enter the trees 18 cycles from their drain; a
swap that is due makes the shadow set the active one first. Results 16 cycles old land in their accumulator slot. The results
of a last tile are written as the drain steps give them two cycles later, and the vector is counted as drained. Reading of
the model: log 79. -/
def Claims.ArrayConsumesLandsAndDrains : Prop :=
  ∀ s : State, s.headland.rerun = [] → s.halted 1 = false → s.throttled s.power.cycle = false →
    let h := s.headland
    let tick : State := { s with headland := { h with swapped := false }, power := { s.power with cycle := s.power.cycle + 1 } }
    (∀ (a : ArrayTask) (sums : List F32), h.running = some a → a.active = true → h.trees = [] →
      (∀ b tile, h.target = some (b, tile) → b.task.tileRows tile ≤ h.loaded) → tick.vectorSums a = .ok sums →
      a.vector + 1 < a.task.vectorsIn (a.tile / max 1 a.task.tiles) →
      ∃ t, exec (.headlandCycle true true) s = .next t
        ∧ t.headland.running = some { a with begun := true, vector := a.vector + 1 }
        ∧ t.headland.trees.map (fun x => (x.left, x.id, x.slot, x.sums)) = [(18, a.id, a.vector, sums)]
        ∧ t.headland.acc = h.acc ∧ t.headland.activeSet = h.activeSet ∧ t.headland.since = h.since + 1
        ∧ t.reg Pd.activeCycles = (s.reg Pd.activeCycles + 1) % 2 ^ 64 ∧ storeFrame [Pd.activeCycles] s t
        ∧ { t with headland := h, power := s.power, pd := s.pd } = s)
    ∧ (∀ (a : ArrayTask) (sums : List F32), h.running = some a → a.active = false → h.swapAllowed = true → h.trees = [] →
      a.tile + 1 = a.task.tiles * a.task.passes → h.shadow = none → 1 < a.task.vectorsIn (a.tile / max 1 a.task.tiles) →
      ({ tick with headland := tick.headland.swap } : State).vectorSums { a with active := true, vector := 0 } = .ok sums →
      ∃ t, exec (.headlandCycle true true) s = .next t
        ∧ t.headland.activeSet = h.shadowSet ∧ t.headland.shadowSet = [] ∧ t.headland.loaded = 0 ∧ t.headland.swapped = true ∧ t.headland.since = 1
        ∧ t.headland.running = some { a with active := true, begun := true, vector := 1 }
        ∧ t.reg Pd.activeCycles = (s.reg Pd.activeCycles + 1) % 2 ^ 64)
    ∧ (∀ (x : InTree), h.running = none → h.draining ≠ [] → h.trees = [x] →
      (x.left = 3 → (∀ j y, x.sums[j]? = some y → j < 1024 → x.sums.length ≤ 1024 →
        ∃ t, exec (.headlandCycle true true) s = .next t
          ∧ tget 0 t.headland.acc (x.slot * 1024 + j) = (if x.first then y else fadd (tget 0 h.acc (x.slot * 1024 + j)) y)
          ∧ t.headland.draining = h.draining ∧ t.reg Pd.tailCycles = (s.reg Pd.tailCycles + 1) % 2 ^ 64 ∧ t.mem = s.mem ∧ t.out = s.out))
      ∧ (∀ (a : ArrayTask) (u : State), x.left = 1 → x.last = true → h.draining = [a] → a.id = x.id → a.drained + 1 < a.task.hM →
        tick.drainVector a x = .ok u →
        ∃ t, exec (.headlandCycle true true) s = .next t ∧ t.mem = u.mem ∧ t.headland.trees = []
          ∧ t.headland.draining = [{ a with drained := a.drained + 1 }] ∧ t.finished = s.finished))

/-- Columns (spec/08 R216, R217, Tables 08-7 and 08-9): the failure after READY of a column that backs logical column j, with
a pool column free and the recorder's queue not full, fences it, counts and records it as replaced, announces it with vector
5, marks the tasks that reach j, and sets those that have ended and are not recorded to run again; a failure of a pool column takes it
from the pool. COLUMN_REMAP with no task in the array gives the failed logical column the lowest pool column. With an empty pool the
column becomes vacant (no task in the array or waiting to be recorded).
Reading of the model: log 22. -/
def Claims.FailedColumnsAreReplaced : Prop :=
  (∀ (s : State) (p check j : Nat), p < 1040 → s.isReady = true → s.rd Pd.columnState p = 0 → s.logicalOf p = some j → s.strand.queue.length < 256 →
    let rec_ := fun (outcome : Nat) => natLE 2 j ++ natLE 2 p ++ natLE 1 check ++ natLE 1 outcome ++ [0, 0] ++ natLE 8 s.time
    let noted := fun (t : State) (outcome : Nat) (code : BitVec 16) => t.rd Pd.columnState p = 3
      ∧ t.reg Pd.columnFailures = (s.reg Pd.columnFailures + 1) % 2 ^ 64 ∧ t.reg Pd.lastColumnFailure = leNat (rec_ outcome)
      ∧ t.reg Pd.fencedSinceReady = (s.reg Pd.fencedSinceReady + 1) % 2 ^ 32
      ∧ t.strand.queue = s.strand.queue ++ [occurrence s 0x01 code 1 p (rec_ outcome)] ∧ t.out = s.out ++ [.msix 5]
    (s.headland.failed.length < s.poolColumns.length →
      ∃ t, exec (.columnFailure p check) s = .next t ∧ noted t 1 St.fenced
        ∧ storeFrame [Pd.columnState, Pd.columnFailures, Pd.lastColumnFailure, Pd.fencedSinceReady] s t
        ∧ (∀ i, i ≠ p → i < 1040 → t.rd Pd.columnState i = s.rd Pd.columnState i)
        ∧ t.headland.failed = s.headland.failed ++ [j]
        ∧ t.headland.running = s.headland.running.map (fun a => { a with affected := a.affected || decide (j < a.task.hN) })
        ∧ (let mine := fun (x : Task) => x.unit == 0 && x.code == St.ok && decide (j < x.hN)
           t.headland.rerun = s.headland.rerun ++ s.finished.filter mine ∧ t.finished = s.finished.filter fun x => !mine x)
        ∧ { t with pd := s.pd, out := s.out, strand := s.strand, headland := s.headland, finished := s.finished } = s)
    ∧ (s.poolColumns.length ≤ s.headland.failed.length → s.headland.busy = false → s.headland.shadow = none → s.headland.rerun = [] → s.finished = [] → j < 1024 →
      ∃ t, exec (.columnFailure p check) s = .next t ∧ noted t 2 St.columnLost ∧ t.rd Pd.columnMap j = 0x8000 ∧ t.columnVacant j = true
        ∧ t.headland.failed = s.headland.failed ∧ t.mem = s.mem))
  ∧ (∀ (s : State) (p check : Nat), p < 1040 → s.isReady = true → s.rd Pd.columnState p = 1 →
    ∃ t, exec (.columnFailure p check) s = .next t ∧ t.rd Pd.columnState p = 3 ∧ t.reg Pd.poolFree = s.reg Pd.poolFree - 1
      ∧ t.headland = s.headland ∧ t.mem = s.mem)
  ∧ (∀ (s : State) (j p : Nat) (pool : List Nat), s.headland.busy = false → s.headland.shadow = none → s.headland.failed = [j] → j < 1024 →
    s.poolColumns = p :: pool →
    ∃ t, exec .columnRemap s = .next t ∧ t.rd Pd.columnState p = 0 ∧ t.rd Pd.columnMap j = 0x4000 + p ∧ t.reg Pd.poolFree = s.reg Pd.poolFree - 1
      ∧ t.headland = { s.headland with failed := [] } ∧ storeFrame [Pd.columnState, Pd.columnMap, Pd.poolFree] s t
      ∧ (∀ i, i ≠ p → i < 16777216 → t.rd Pd.columnState i = s.rd Pd.columnState i) ∧ (∀ i, i ≠ j → i < 16777216 → t.rd Pd.columnMap i = s.rd Pd.columnMap i)
      ∧ { t with pd := s.pd, headland := s.headland } = s)

/-- The Headland array: frozen and advancing cycles, failed columns: FrozenArrayOnlyLoads, ArrayConsumesLandsAndDrains,
FailedColumnsAreReplaced. -/
def Obligations.HeadlandArray : Prop := Claims.FrozenArrayOnlyLoads ∧ Claims.ArrayConsumesLandsAndDrains ∧ Claims.FailedColumnsAreReplaced

/-! ### Chapters 09 and 10: the Tideway -/

/-- TIDEWAY_BEAT of engine n, not halted (spec/09 R223, R224, R226, R227, R236, R239, R260, R261, spec/01 R41): a throttle idle cycle is
counted twice and issues nothing. Otherwise the task's staging and indices are looked at, its beat asks once for its lines and blocks, and
a cycle in which they have not all come is counted under the first cause of R236 that holds, and leaves memory and the task as they
were; a failed access ends the task with its status. A beat that issues leaves in memory what its operations wrote, is counted, and
moves the task to its next beat, sweep or group of rows; the last one frees the engine and completes the task with the code of R260.
An engine without a task does nothing. Readings of the model: log 21, log 175. -/
def Obligations.BeatsAdvanceTheTask : Prop :=
  ∀ (s : State) (n : Nat), n < 64 →
    ((s.engine n).running = none → exec (.tidewayBeat n) s = .next s)
    ∧ ∀ x : EngineTask, (s.engine n).running = some x → s.halted (n + 2) = false →
      (s.throttled (s.engine n).cycle = true →
        ∃ t, exec (.tidewayBeat n) s = .next t ∧ t.engine n = { s.engine n with cycle := (s.engine n).cycle + 1 }
          ∧ t.reg Pd.engineThrottleIdle = (s.reg Pd.engineThrottleIdle + 1) % 2 ^ 64 ∧ t.reg Pd.throttleCycles = (s.reg Pd.throttleCycles + 1) % 2 ^ 64
          ∧ storeFrame [Pd.engineThrottleIdle, Pd.throttleCycles] s t ∧ { t with pd := s.pd, engines := s.engines } = s)
      ∧ (s.throttled (s.engine n).cycle = false →
        (∀ j, s.beginTask x = .range j → ∃ t, exec (.tidewayBeat n) s = .next t ∧ (t.engine n).running = none ∧ t.mem = s.mem
          ∧ t.finished = s.finished ++ [{ x.task with code := St.indexRange, detail := j }])
        ∧ (∀ e, s.beginTask x = .stop e → exec (.tidewayBeat n) s = .next (s.tideStop n x e))
        ∧ ∀ (s1 : State) (y : EngineTask), s.beginTask x = .go s1 y →
          let s0 := s1.setEngine n { s1.engine n with running := some y }
          let needs := if (s0.unitPort (n + 1)).begun then [] else s0.beatNeeds n y.at
          let asked := if (s0.unitPort (n + 1)).begun then s0 else s0.ask (n + 1) (houseLines (needs.flatMap (·.addrs))) (needs.flatMap (·.reqs))
          let u := (asked.pump (n + 1)).noteStaged (n + 1) (needs.flatMap (·.staged))
          let p := u.unitPort (n + 1)
          let held := fun (counter : Nat) => ∃ t, exec (.tidewayBeat n) s = .next t ∧ t.mem = s1.mem ∧ (t.engine n).running = some y
            ∧ t.reg counter = (u.reg counter + 1) % 2 ^ 64 ∧ storeFrame [counter] u t ∧ { t with pd := u.pd } = u
          (∀ c, p.failed = some c → exec (.tidewayBeat n) s = .next (u.tideFail n y c))
          ∧ (p.failed = none → u.cliffPending (n + 1) = true → held Pd.cliffWait)
          ∧ (p.failed = none → u.cliffPending (n + 1) = false → p.lacksLines = true → held Pd.houseWait)
          ∧ (p.failed = none → u.cliffPending (n + 1) = false → p.lacksLines = false → 64 ≤ p.writes → held Pd.writeWait)
          ∧ (p.failed = none → u.cliffPending (n + 1) = false → p.lacksLines = false → p.writes < 64 →
            ∀ (v : State) (w : Work) (wr : Written) (z : EngineTask), u.runBeat n y.at = .ok (v, w, wr) → (v.engine n).running = some z →
            ∃ t, exec (.tidewayBeat n) s = .next t ∧ t.mem = v.mem ∧ t.reg Pd.beats = (v.reg Pd.beats + 1) % 2 ^ 64
              ∧ (∀ z', z.next (lastSweep y.at.b.ops) = some z' → (t.engine n).running = some z' ∧ t.finished = v.finished)
              ∧ (z.next (lastSweep y.at.b.ops) = none → (t.engine n).running = none ∧ (t.engine n).latches = []
                  ∧ t.finished = v.finished ++ [{ z.task with code := z.task.goodCode, detail := 0 }])))

/-- Micro-programs (spec/10 R282, R287, R289, R290): MP_LOAD of a slot that no task of a named engine uses, with an image that passes every
check, puts it into that slot of each named engine that is not fenced, with its clamp bounds, empties their coefficient caches, clears
MP_LAST_ERROR, extends measurement register 5 and answers OK; an image that fails a check changes no engine, is recorded and refused with
MICROPROGRAM_INVALID. MP_UNLOAD empties the slot. A slot in use is refused with BUSY. -/
def Claims.MicroProgramsLoadAndUnload : Prop :=
  ∀ (s : State) (o : Origin) (slot : BitVec 8) (role : Role) (e : EntryInfo), slot.toNat < 32 →
    let load := ownWrite o Pd.mpLoad 0 (natLE 1 slot.toNat)
    let unload := ownWrite o Pd.mpUnload 0 (natLE 1 slot.toNat)
    let image := s.rdBytes Pd.mpImage 2048 0 2048
    let others := fun (t : State) => ∀ k n, (n ∉ s.namedEngines ∨ k ≠ slot.toNat) → k < 32 → t.program n k = s.program n k
    (admitted s load role e = true →
      (s.slotInUse slot.toNat = true → ∃ t, exec (.mpLoad o slot) s = .next t ∧ t.out = s.out ++ reply s load St.busy []
        ∧ t.programs = s.programs ∧ t.engines = s.engines ∧ t.security = s.security)
      ∧ (∀ check place, s.slotInUse slot.toNat = false → loadFault image = some (check, place) →
        ∃ t, exec (.mpLoad o slot) s = .next t ∧ t.out = s.out ++ reply s load St.microprogramInvalid [] ∧ t.programs = s.programs
          ∧ t.engines = s.engines ∧ t.security = s.security
          ∧ t.reg Pd.mpLastError = leNat (codeBytes St.microprogramInvalid ++ [BitVec.ofNat 8 check, BitVec.ofNat 8 place, 0, 0, 0, 0]))
      ∧ (s.slotInUse slot.toNat = false → loadFault image = none →
        ∃ t, exec (.mpLoad o slot) s = .next t ∧ t.out = s.out ++ reply s load St.ok []
          ∧ (∀ n ∈ s.namedEngines, t.program n slot.toNat = some { image := image, bounds := clampBounds image } ∧ (t.engine n).segments = []
              ∧ (t.engine n).running = (s.engine n).running)
          ∧ others t ∧ t.reg Pd.mpLastError = 0
          ∧ t.security.measure = (s.extend 5 (shake256 (image ++ natLE 8 (s.reg Pd.mpEngines) ++ natLE 1 slot.toNat))).security.measure
          ∧ storeFrame (Pd.mpLastError :: requestCounters) s t ∧ t.mem = s.mem))
    ∧ (admitted s unload role e = true → s.slotInUse slot.toNat = false →
      ∃ t, exec (.mpUnload o slot) s = .next t ∧ t.out = s.out ++ reply s unload St.ok []
        ∧ (∀ n ∈ s.namedEngines, t.program n slot.toNat = none ∧ (t.engine n).segments = []) ∧ others t
        ∧ storeFrame requestCounters s t ∧ t.security = s.security ∧ t.mem = s.mem)

/-- The Harbour's reference units (spec/10 R292, spec/09 R257): SFN_CHECK keeps the function and modifiers, where Table 10-1 has them, or the
input, and GEN_CHECK the key or the named bytes of the counter; SFN_CHECK_RESULT and GEN_CHECK_RESULT then are the built-in of that input and
the generator of those words. -/
def Claims.ReferenceUnitsKeepTheirInputs : Prop :=
  ∀ (s : State) (o : Origin) (role : Role) (e : EntryInfo),
    (∀ x : BitVec 32, let q := ownWrite o Pd.sfnCheckInput 0 (natLE 4 x.toNat)
      admitted s q role e = true →
      ∃ t, exec (.sfnCheck o true x) s = .next t ∧ t.out = s.out ++ reply s q St.ok [] ∧ t.reg Pd.sfnCheckInput = x.toNat
        ∧ t.sfnResult = (builtin (s.reg Pd.sfnCheckFunction % 256) ((s.reg Pd.sfnCheckFunction).testBit 8) x).toNat
        ∧ storeFrame (Pd.sfnCheckInput :: requestCounters) s t ∧ answered q.path s t)
    ∧ (∀ x : BitVec 32, let q := ownWrite o Pd.sfnCheckFunction 0 (natLE 2 x.toNat)
      let f := x.toNat % 65536
      admitted s q role e = true →
      ∃ t, exec (.sfnCheck o false x) s = .next t
        ∧ (f % 256 ≤ 5 → sfnModsOk (f % 256) (f / 256) = true → t.out = s.out ++ reply s q St.ok [] ∧ t.reg Pd.sfnCheckFunction = f
            ∧ storeFrame (Pd.sfnCheckFunction :: requestCounters) s t)
        ∧ (5 < f % 256 ∨ sfnModsOk (f % 256) (f / 256) = false → t.out = s.out ++ reply s q St.invalidValue []
            ∧ t.reg Pd.sfnCheckFunction = s.reg Pd.sfnCheckFunction))
    ∧ (∀ b : List Byte, let q := ownWrite o Pd.genCheckKey 0 b
      admitted s q role e = true →
      ∃ t, exec (.genCheck o true 0 b) s = .next t ∧ t.out = s.out ++ reply s q St.ok [] ∧ t.reg Pd.genCheckKey = leNat b
        ∧ storeFrame (Pd.genCheckKey :: requestCounters) s t ∧ answered q.path s t)
    ∧ (∀ (off : Nat) (b : List Byte), let q := ownWrite o Pd.genCheckCounter off b
      let c := fun i => if off ≤ i ∧ i < off + b.length then b.getD (i - off) 0 else (s.rdBytes Pd.genCheckCounter 16 0 16).getD i 0
      off + b.length ≤ 16 → admitted s q role e = true →
      ∃ t, exec (.genCheck o false off b) s = .next t ∧ t.out = s.out ++ reply s q St.ok []
        ∧ t.rdBytes Pd.genCheckCounter 16 0 16 = (List.range 16).map c
        ∧ t.genResult = (let w := (List.range 16).map c
            (generator (t.reg Pd.genCheckKey) (listField w 0 4) (listField w 4 4) (listField w 8 4) (listField w 12 4)).flatMap (natLE 4))
        ∧ storeFrame (Pd.genCheckCounter :: requestCounters) s t ∧ answered q.path s t)

/-- Micro-programs and the reference units: MicroProgramsLoadAndUnload, ReferenceUnitsKeepTheirInputs. -/
def Obligations.MicroProgramsAndReferences : Prop := Claims.MicroProgramsLoadAndUnload ∧ Claims.ReferenceUnitsKeepTheirInputs

/-- Numbers (spec/07 R174, spec/09 R242): the value of any code of a floating-point format of Table 07-4 that is no NaN converts to that
format as the same code; FP32 addition and multiplication do not depend on the order of their operands, a product by one is the other operand,
and so is the sum of a number that is not zero and a zero. -/
def Obligations.NumbersSurviveExactArithmetic : Prop :=
  (∀ code f c, floatFmt code = some f → c < 2 ^ (1 + f.eb + f.fb) → f.decode c ≠ .nan → f.encode (f.round .near (f.decode c)) = c)
  ∧ (∀ x y : F32, fadd x y = fadd y x ∧ fmul x y = fmul y x)
  ∧ (∀ x : F32, val x ≠ .nan → fmul x one32 = x ∧ ((val x).isZero = false → fadd x zero32 = x ∧ fadd x (0x80000000 : F32) = x))

/-! ### Chapter 11: counters -/

/-- Whether a source may use the operations ADD, SUBTRACT and SET on a counter with a state word (spec/11 R302). -/
def mayOperate (src : CtrSource) (w : Nat) : Prop :=
  match src with
  | .task _ p => ctrPart w = p
  | .host => True
  | .remote _ => True
  | .dictionary => False

/-- Nothing but counter c's word, the store's `keys` and the recorder's queue has changed, where no mirror is enabled; the sequencers' heads and speculative tasks hear of the change (spec/11 R299, R321). -/
def counterFrame (keys : List Nat) (c : Nat) (s u : State) : Prop :=
  (∀ d, d ≠ c → d < 131072 → u.ctr d = s.ctr d) ∧ u.mem = s.mem
  ∧ (s.tablesOk → (∀ i, i < 16777216 → mirrorEnabled (s.rd Pd.mirrorTable i) = false) →
      storeFrame (Pd.counterState :: keys) s u ∧ { u with pd := s.pd, heads := s.heads, spec := s.spec, strand := s.strand, refusedCtr := s.refusedCtr } = s)

/-- ADD, SUBTRACT and SET by a source that may use them on a reachable counter in state COUNTER (spec/11 R302, R304): VALUE becomes the sum, at
most 2^32 − 1, the difference, at least 0, or the operand; the other fields keep their values. An ADD or SUBTRACT that saturates sets the counter's
sticky flag, and the first time writes a Strandline entry; one that does not leaves the flags alone. The sequencers then go on. -/
def Obligations.CounterValuesSaturate : Prop :=
  ∀ (s : State) (src : CtrSource) (c : Nat) (x : BitVec 32), s.working = true → c < 131072 → s.ctrHeld c = false → s.ctrFenced c = false →
    ctrState (s.ctr c) = 1 → mayOperate src (s.ctr c) →
    let v := ctrValue (s.ctr c)
    let flags := fun (u : State) (key : Nat) (sat : Bool) (code : BitVec 16) (op : CtrOp) =>
      let b := (s.rd key (c / 8)).testBit (c % 8)
      (u.rd key (c / 8)).testBit (c % 8) = (b || sat) ∧ (∀ d, d ≠ c → d < 131072 → (u.rd key (d / 8)).testBit (d % 8) = (s.rd key (d / 8)).testBit (d % 8))
      ∧ (s.strand.queue.length < 256 → u.strand.queue = s.strand.queue ++
          if sat && !b then [occurrence s 0x05 code 7 c (refusedRecord src c op 0 code)] else [])
    (∃ u : State, exec (.counterAdd src c x) s = .next u.settle ∧ u.ctr c = withValue (s.ctr c) (min (v + x.toNat) (2 ^ 32 - 1))
      ∧ flags u Pd.saturatedFlags (decide (2 ^ 32 ≤ v + x.toNat)) St.saturated .add ∧ counterFrame [Pd.saturatedFlags, Pd.overruns] c s u)
    ∧ (∃ u : State, exec (.counterSubtract src c x) s = .next u.settle ∧ u.ctr c = withValue (s.ctr c) (v - x.toNat)
      ∧ flags u Pd.underflowFlags (decide (v < x.toNat)) St.underflow .subtract ∧ counterFrame [Pd.underflowFlags, Pd.overruns] c s u)
    ∧ (∃ u : State, exec (.counterSet src c x) s = .next u.settle ∧ u.ctr c = withValue (s.ctr c) x.toNat ∧ u.strand = s.strand
      ∧ counterFrame [] c s u)

/-- ADD, SUBTRACT and SET on a counter whose line the host may hold wait until the host has given the line up (spec/04 R101; the model's
reading, log 37): they join those that wait, in order, and no counter changes. -/
def Claims.HeldOperationsWait : Prop :=
  ∀ (s : State) (src : CtrSource) (c : Nat) (x : BitVec 32) (i : Instr) (op : Nat), s.working = true → c < 131072 → src ≠ .dictionary →
    s.ctrHeld c = true → (i, op) ∈ [(Instr.counterAdd src c x, 1), (.counterSubtract src c x, 2), (.counterSet src c x, 3)] →
    ∃ u : State, exec i s = .next u.settle ∧ (∀ d, u.ctr d = s.ctr d) ∧ u.mem = s.mem
      ∧ u.host.ctrWaits = s.host.ctrWaits ++ [{ src := src, op := op, tag := 0, counter := c, operand := x.toNat }]

/-- ARRIVE with tag t by a task of the barrier's partition or from another module, at a reachable barrier with ARRIVED below PARTICIPANTS and NEXT
no more than it (spec/11 R307): in the current round ARRIVED counts on, and at PARTICIPANTS the round ends and NEXT's arrivals count, a second round
ending with it where they are all there; for the next round NEXT counts on, and is refused at PARTICIPANTS; for any other it is refused with
MISUSE. -/
def Obligations.BarriersCountRounds : Prop :=
  ∀ (s : State) (src : CtrSource) (c : Nat) (t : BitVec 2), s.working = true → c < 131072 → s.ctrHeld c = false → s.ctrFenced c = false → ctrState (s.ctr c) = 2 →
    src ≠ .host → src ≠ .dictionary → mayOperate src (s.ctr c) →
    let w := s.ctr c
    let n := ctrParticipants w
    let r := ctrRound w
    let a := ctrArrived w
    let m := ctrNext w
    let d := (t.toNat + 256 - r) % 4
    let p := ctrPart w
    a < n → m ≤ n →
    ∃ u : State, exec (.arrive src c t) s = .next u.settle
      ∧ (d = 0 → a + 1 < n → u.ctr c = barrierWord m (a + 1) r n p)
      ∧ (d = 0 → a + 1 = n → m < n → u.ctr c = barrierWord 0 m ((r + 1) % 256) n p)
      ∧ (d = 0 → a + 1 = n → m = n → u.ctr c = barrierWord 0 0 ((r + 2) % 256) n p)
      ∧ (d = 1 → m < n → u.ctr c = barrierWord (m + 1) a r n p)
      ∧ ((d = 0 ∨ d = 1 ∧ m < n) → counterFrame [] c s u ∧ u.strand = s.strand)
      ∧ (¬ (d = 0 ∨ d = 1 ∧ m < n) → (∀ i, u.ctr i = s.ctr i) ∧ u.reg Pd.misuseCount = (s.reg Pd.misuseCount + 1) % 2 ^ 64
          ∧ u.reg Pd.lastRefusedOp = leNat (refusedRecord src c .arrive t.toNat St.misuse))

/-- INIT of a reachable counter (spec/11 R306): a permitted form written by the dictionary, or by a task whose partition has the counter and is
written, or that takes or leaves it FREE, replaces the whole word; refusals at the counter are recorded anew. -/
def Claims.InitWritesTheWord : Prop :=
  ∀ (s : State) (src : CtrSource) (c : Nat) (w : BitVec 64), s.working = true → c < 131072 → s.ctrHeld c = false → s.ctrFenced c = false → initForm w.toNat = true →
    (match src with
      | .task _ p => (ctrPart (s.ctr c) = p ∨ ctrState (s.ctr c) = 0) ∧ (ctrPart w.toNat = p ∨ ctrState w.toNat = 0)
      | .dictionary => True
      | _ => False) →
    ∃ u : State, exec (.init src c w) s = .next u.settle ∧ u.ctr c = w.toNat ∧ c ∉ u.refusedCtr ∧ counterFrame [] c s u

/-- A refused counter operation changes no counter (spec/11 R302, R305, R306, R317): an operation on a counter in another
state than it needs, by a source that has not that operation, or on another partition's counter is counted as MISUSE, or as
BROKEN, and described in the entry of R305; the first one at a counter since its INIT writes a Strandline entry. The
sequencers then go on. Reading of the model: log 105. -/
def Claims.RefusedOperationsChangeNoCounter : Prop :=
  ∀ (s : State) (src : CtrSource) (c : Nat) (x : BitVec 32) (t : BitVec 2) (w : BitVec 64), s.working = true → c < 131072 → s.ctrHeld c = false → s.ctrFenced c = false →
    let st := ctrState (s.ctr c)
    let alien := match src with
      | .task _ p => ctrPart (s.ctr c) ≠ p
      | _ => False
    let refused := fun (i : Instr) (op : CtrOp) (tag : Nat) (code : BitVec 16) =>
      ∃ u : State, exec i s = .next u.settle ∧ (∀ d, u.ctr d = s.ctr d) ∧ u.mem = s.mem ∧ u.out = s.out
        ∧ u.reg Pd.lastRefusedOp = leNat (refusedRecord src c op tag code)
        ∧ (code = St.misuse → u.reg Pd.misuseCount = (s.reg Pd.misuseCount + 1) % 2 ^ 64)
        ∧ (code = St.broken → u.reg Pd.brokenCount = (s.reg Pd.brokenCount + 1) % 2 ^ 64)
        ∧ (s.strand.queue.length < 256 → u.strand.queue = s.strand.queue ++
            if s.refusedCtr.contains c then [] else [occurrence s 0x05 code 7 c (refusedRecord src c op tag code)])
        ∧ storeFrame [Pd.misuseCount, Pd.brokenCount, Pd.lastRefusedOp, Pd.counterRefused, Pd.overruns] s u
    (src ≠ .dictionary → alien ∨ (st ≠ 1 ∧ st ≠ 3) →
      refused (.counterAdd src c x) .add 0 St.misuse ∧ refused (.counterSubtract src c x) .subtract 0 St.misuse ∧ refused (.counterSet src c x) .set 0 St.misuse)
    ∧ (src ≠ .dictionary → ¬ alien → st = 3 →
      refused (.counterAdd src c x) .add 0 St.broken ∧ refused (.counterSubtract src c x) .subtract 0 St.broken ∧ refused (.counterSet src c x) .set 0 St.broken)
    ∧ (src = .host ∨ src = .dictionary ∨ alien ∨ (st ≠ 2 ∧ st ≠ 3) → refused (.arrive src c t) .arrive t.toNat St.misuse)
    ∧ (src ≠ .host → src ≠ .dictionary → ¬ alien → st = 3 → refused (.arrive src c t) .arrive t.toNat St.broken)
    ∧ (src = .host ∨ (∃ p, src = .remote p) → refused (.init src c w) .init 0 St.misuse)

/-- INIT writes the word; a refused operation changes no counter: InitWritesTheWord, HeldOperationsWait, RefusedOperationsChangeNoCounter.
-/
def Obligations.CountersAreInitialisedOrRefuse : Prop :=
  Claims.InitWritesTheWord ∧ Claims.HeldOperationsWait ∧ Claims.RefusedOperationsChangeNoCounter

/-! ### Chapter 11: tasks -/

/-- Task lists (spec/11 R294, Table 11-1): TASK_LIST_WRITE of one whole record whose STATE is 0 stores it, reserved bits and SPEC_OPEN zero, where
the list is STOPPED, and is refused with BUSY where it runs and more than STATE would change; TASK_LIST_START of a STOPPED or FAILED list with a
valid record runs it, of one with another record is refused with INVALID_VALUE; TASK_LIST_STOP leaves a running list STOPPING while a task of it
runs, else STOPPED. No other list changes. -/
def Obligations.TaskListsAreControlled : Prop :=
  ∀ (s : State) (o : Origin) (u p : Nat) (role : Role) (e : EntryInfo), u < 66 → p < 16 → listClean (s.listRec u p) = s.listRec u p →
    let w := s.listRec u p
    let write := fun (bytes : List Byte) => ownWrite o Pd.taskLists (32 * listKey u p) bytes
    let start := ownWrite o Pd.taskLists (32 * listKey u p + 21) [1]
    let stop := ownWrite o Pd.taskLists (32 * listKey u p + 21) [0]
    (∀ bytes : List Byte, bytes.length = 32 → admitted s (write bytes) role e = true → byteField (leNat bytes) 21 1 = 0 →
      (listState w = 0 → ∃ t, exec (.taskListWrite o (32 * listKey u p) bytes) s = .next t ∧ t.out = s.out ++ reply s (write bytes) St.ok []
        ∧ t.listRec u p = listClean (leNat bytes) ∧ (∀ v q, v < 66 → q < 16 → (v ≠ u ∨ q ≠ p) → t.listRec v q = s.listRec v q)
        ∧ storeFrame (Pd.taskLists :: requestCounters) s t ∧ answered o.path s { t with heads := s.heads })
      ∧ (listState w = 1 → listChanged w (listClean (leNat bytes)) = true →
          ∃ t, exec (.taskListWrite o (32 * listKey u p) bytes) s = .next t ∧ t.out = s.out ++ reply s (write bytes) St.busy []
            ∧ t.listRec u p = w ∧ t.heads = s.heads))
    ∧ (admitted s start role e = true → listState w = 0 ∨ listState w = 3 →
      (listStartable w = true → ∃ t, exec (.taskListStart o u p) s = .next t ∧ t.out = s.out ++ reply s start St.ok []
        ∧ t.listRec u p = setByteField w 21 1 1 ∧ (∀ v q, v < 66 → q < 16 → (v ≠ u ∨ q ≠ p) → t.listRec v q = s.listRec v q)
        ∧ (if byteField (s.rd Pd.partitionState p) 0 1 = 2 then t.rd Pd.partitionState p = 0 else t.rd Pd.partitionState p = s.rd Pd.partitionState p)
        ∧ storeFrame (Pd.taskLists :: Pd.partitionState :: requestCounters) s t ∧ answered o.path s t)
      ∧ (listStartable w = false → ∃ t, exec (.taskListStart o u p) s = .next t ∧ t.out = s.out ++ reply s start St.invalidValue []
        ∧ t.listRec u p = w))
    ∧ (admitted s stop role e = true → listState w = 1 →
      ∃ t, exec (.taskListStop o u p) s = .next t ∧ t.out = s.out ++ reply s stop St.ok []
        ∧ t.listRec u p = setByteField w 21 1 (if s.listRunning u p then 2 else 0)
        ∧ (∀ v q, v < 66 → q < 16 → (v ≠ u ∨ q ≠ p) → t.listRec v q = s.listRec v q)
        ∧ storeFrame (Pd.taskLists :: requestCounters) s t ∧ answered o.path s t)

/-- HEAD_LOAD (spec/11 R295, R297, R299): a running list without a head reads the 1,024 bytes at CURSOR; where the record
passes its checks it is the head, with the guards that hold now latched, and nothing else changes before the sequencers go
on but what a read does in the Coves. Of a list that does not run nothing is read. Readings of the model: log 32, log 33, log 176. -/
def Claims.HeadIsReadAtCursor : Prop :=
  (∀ (s : State) (u p : Nat) (r : List Byte), s.working = true → u < 66 → p < 16 → listState (s.listRec u p) = 1 → s.headOf (listKey u p) = none →
    let a := listBase (s.listRec u p) + 1024 * listCursor (s.listRec u p)
    let c := s.passBytes (agentOf u p) false a 1024
    s.unitBytes (agentOf u p) false a 1024 = .ok (some r) → recordOk r u p = true → c.specFault (c.headTask u p r) = none → s.guardFault r = none →
    ∃ x : State, exec (.headLoad u p) s = .next x.settle ∧ { x with heads := c.heads } = c ∧ covesRead s c
      ∧ (∀ k, k ≠ listKey u p → x.headOf k = s.headOf k)
      ∧ ∃ h, x.headOf (listKey u p) = some h ∧ h.record = r ∧ h.taken = List.replicate (recGuards r) false
        ∧ h.latched = (List.range (recGuards r)).map fun i => guardKind r i != 3 && s.guardNow r (listPass (s.listRec u p)) i)
  ∧ (∀ (s : State) (u p : Nat), listState (s.listRec u p) ≠ 1 → exec (.headLoad u p) s = .next s)

/-- TASK_RELEASE (spec/11 R293, R295) of a unit that can take a task, where nothing waits to go on, no task waits to run again, and the first list
in the sequencer's order with a head is list p, all of whose guards have latched, none a CONSUME guard, the task not speculative: the unit takes it
if its own checks pass, the list loses its head and moves to its next record, PASS advancing where it wraps, and the release is counted; the task
is then on the Headland's active set, on the engine, or among the Estuary's. -/
def Claims.SatisfiedHeadIsReleased : Prop :=
  ∀ (s : State) (u p : Nat) (h : Head), s.working = true → s.reg Pd.powerState = 0 → u < 66 → p < 16 → s.settle = s → Tab.wf none s.heads = true → s.unitAccepts u = true →
    s.specOf u = [] → tget [] s.reruns u = [] → s.headOf (listKey u p) = some h → h.record ≠ [] → listState (s.listRec u p) = 1 → s.rebuild ≠ some p →
    (∀ q, q < 16 → q ≠ p → s.headOf (listKey u q) = none) → recSpeculative h.record = false →
    (∀ i, i < recGuards h.record → guardKind h.record i ≠ 3 ∧ h.latched.getD i false = true) →
    let w := s.listRec u p
    let t := s.headTask u p h.record
    let taken := fun (x : State) => x.headOf (listKey u p) = none
      ∧ listCursor (x.listRec u p) = (if listCursor w + 1 < listLength w then listCursor w + 1 else 0)
      ∧ listPass (x.listRec u p) = (if listCursor w + 1 < listLength w then listPass w else (listPass w + 1) % 256)
      ∧ listState (x.listRec u p) = 1 ∧ x.reg Pd.tasksReleased = (s.reg Pd.tasksReleased + 1) % 2 ^ 64 ∧ tget 15 x.lastPart u = p ∧ x.mem = s.mem
    (∀ a, u = 0 → s.headPrepare t = .ok a → s.headland.running = none → s.headland.swapped = false →
      ∃ x : State, exec (.taskRelease u) s = .next x.settle ∧ taken x ∧ x.headland.running = some a ∧ x.headland.loaded = 0)
    ∧ (∀ a, 1 ≤ u → u ≤ 64 → s.tidePrepare t = .ok a →
      ∃ x : State, exec (.taskRelease u) s = .next x.settle ∧ taken x ∧ x.engine (u - 1) = { s.engine (u - 1) with running := some { a with draw := s.fresh } })
    ∧ (∀ t' ds step, u = 65 → s.estPrepare t = .ok (t', ds, step) →
      ∃ x : State, exec (.taskRelease u) s = .next x.settle ∧ taken x
        ∧ x.estuary.tasks = s.estuary.tasks ++ [{ task := t', group := t.estGroup, step := step, sent := false, place := { part := t'.part, descs := ds } }])

/-- Heads are read at CURSOR and released once their guards hold: HeadIsReadAtCursor, SatisfiedHeadIsReleased. -/
def Obligations.HeadsAreReadAndReleased : Prop := Claims.HeadIsReadAtCursor ∧ Claims.SatisfiedHeadIsReleased

/-- TASK_COMPLETE (spec/11 R309, R310, R313), with nothing waiting to go on: the oldest task of the unit that has ended,
where the one before it has handed over and its completion record can be written, gets that record. A task that succeeded
then carries out its handovers and sends its signals; one that failed makes its list FAILED and is counted. Readings of the
model: log 109, log 110. -/
def Claims.EndedTaskIsRecorded : Prop :=
  (∀ (s : State) (u : Nat) (t : Task) (x : State), s.working = true → u < 66 → t.part < 16 → s.settle = s → (s.finished.find? fun t => t.unit == u) = some t →
    (s.endings.all fun e => e.task.unit != u) = true → t.speculative = false →
    s.unitWrites t.agent (listCompletion (s.listRec t.unit t.part) + 32 * t.position) t.completion = .ok x →
    (isFailure t.code = false → s.handoverPrecheck t (handoverEntries t.record) = .ok none →
      ∃ y : State, exec (.taskComplete u) s = .next y.settle ∧ y.mem = x.mem ∧ y.finished = x.finished.erase t
        ∧ y.endings = x.endings ++ [{ task := t, current := none, left := handoverEntries t.record, commit := false }])
    ∧ (isFailure t.code = true →
      ∃ y z : State, exec (.taskComplete u) s = .next y.settle ∧ y = ((z.sendSignals t [1, 2]).failList t).afterTask t
        ∧ z.mem = x.mem ∧ z.finished = x.finished.erase t ∧ z.endings = x.endings
        ∧ (t.unit = u → ∀ d : State, listState ((d.failList t).listRec t.unit t.part) = 3 ∧ (d.failList t).mem = d.mem)))
  ∧ (∀ (s : State) (e : Ending), s.endings = [e] → s.spec = [] → s.heads = [] → (∀ r ∈ s.rooms, r.2.newWord = none) → e.current = none → e.left = [] → e.commit = false →
    s.settle = (({ s with endings := [] } : State).sendSignals e.task [0, 2]).afterTask e.task)

/-- Partitions (spec/11 R314, R315, R316): PARTITION_PREEMPT stops every list of the partition and shows PREEMPTING;
PREEMPT_COMPLETE, once no task of it runs (none is speculative here), makes every counter of it BROKEN and keeps the others,
and shows PREEMPTED. PARTITION_RESET of a partition without tasks zeroes its lists, breaks its counters and wipes each of its
rooms that is not fenced, and is answered when they are wiped. A number of 16 or more is refused. Readings of the model: log
116, log 118. -/
def Claims.PartitionsAreWithdrawn : Prop :=
  (∀ (s : State) (o : Origin) (b : BitVec 8) (role : Role) (e : EntryInfo),
    let q := ownWrite o Pd.partitionPreempt 0 [b]
    let p := b.toNat
    admitted s q role e = true →
    (p < 16 → ∃ t, exec (.partitionPreempt o b) s = .next t ∧ t.out = s.out ++ reply s q St.ok [] ∧ t.rd Pd.partitionState p = 1
      ∧ (∀ u, u < 66 → t.listRec u p = setByteField (s.listRec u p) 21 1 (if s.listRunning u p then 2 else 0))
      ∧ (∀ u r, u < 66 → r < 16 → r ≠ p → t.listRec u r = s.listRec u r)
      ∧ storeFrame (Pd.taskLists :: Pd.partitionState :: requestCounters) s t ∧ t.mem = s.mem)
    ∧ (16 ≤ p → ∃ t, exec (.partitionPreempt o b) s = .next t ∧ t.out = s.out ++ reply s q St.invalidValue []
      ∧ storeFrame (Pd.refused :: Pd.lastRefusal :: requestCounters) s t))
  ∧ (∀ (s : State) (p : Nat), s.tablesOk → p < 16 → s.rd Pd.partitionState p = 1 → s.partTasks p = false → s.spec = [] →
    ∃ x : State, exec (.preemptComplete p) s = .next x.settle ∧ x.rd Pd.partitionState p = 2 ∧ x.mem = s.mem
      ∧ ∀ c, c < 131072 → x.ctr c = if ctrPart (s.ctr c) = p ∧ ctrState (s.ctr c) ≠ 0 then setBits (s.ctr c) 1 3 3 else s.ctr c)
  ∧ (∀ (s : State) (o : Origin) (b : BitVec 8) (role : Role) (e : EntryInfo),
    let q := ownWrite o Pd.partitionReset 0 [b]
    let p := b.toNat
    let rooms := (List.range 1536).filter fun r => wordPartition (s.ownerWord r) == p && !s.roomFenced r
    s.tablesOk → admitted s q role e = true → s.partTasks p = false → s.spec = [] → s.endings = [] → s.heads = [] →
    (p < 16 → s.stow.run = none →
      ∃ t, exec (.partitionReset o b) s = .next t ∧ (∀ u, u < 66 → t.listRec u p = 0)
      ∧ (∀ u r, u < 66 → r < 16 → r ≠ p → t.listRec u r = s.listRec u r)
      ∧ (∀ c, c < 131072 → t.ctr c = if ctrPart (s.ctr c) = p ∧ ctrState (s.ctr c) ≠ 0 then setBits (s.ctr c) 1 3 3 else s.ctr c)
      ∧ (∀ r ∈ rooms, t.roomWiping r = true ∧ t.roomOwnerOf r = .harbour) ∧ t.mem = s.mem
      ∧ (rooms ≠ [] → t.rd Pd.partitionState p = 3 ∧ ∃ f, { req := q, wait := .partReset p, before := f } ∈ t.gdp.inflight)
      ∧ (rooms = [] → (∀ r, s.roomFenced r = true → s.roomWiping r = false) → (∀ r ∈ s.rooms, r.2.newWord = none) → t.rd Pd.partitionState p = 0
          ∧ ∃ l, t.out = l ++ reply s q St.ok []))
    ∧ (16 ≤ p → ∃ t, exec (.partitionReset o b) s = .next t ∧ t.out = s.out ++ reply s q St.invalidValue [] ∧ t.mem = s.mem))

/-- Ended tasks are recorded; partitions are withdrawn: EndedTaskIsRecorded, PartitionsAreWithdrawn. -/
def Obligations.TasksEndAndPartitionsAreWithdrawn : Prop := Claims.EndedTaskIsRecorded ∧ Claims.PartitionsAreWithdrawn

/-! ### Chapter 12: the Causeway -/

/-- Nothing of the sequencers waits to go on, nor does a handover: then a command's own effect is all of it (`State.settle` changes
nothing). -/
def quiet (s : State) : Prop := s.endings = [] ∧ s.spec = [] ∧ s.heads = [] ∧ ∀ r ∈ s.rooms, r.2.newWord = none

/-- A packet arrives sound and in turn at an open port that holds none back (spec/12 R331, R332); what its header acknowledges aside. -/
def arrives (s : State) (p : Nat) (k : Packet) : Prop :=
  s.portOpen p = true ∧ k.fecOk = true ∧ k.crc = packetCrc k ∧ k.nack = false ∧ k.linkSeq = (s.cport p).rxSeq ∧ s.causeway.held = []
    ∧ k.ackValid = false

/-- The module once the link layer has accepted it (spec/12 R332, R333). -/
def received (s : State) (p : Nat) (k : Packet) : State :=
  (s.setCport p { s.cport p with rxSeq := (s.cport p).rxSeq + 1, ackOwed := true }).linkCredit p k

/-- It is the one packet of the next transfer from its source to this module, which is READY (spec/12 R339). -/
def inTurn (s : State) (k : Packet) : Prop :=
  k.dest.toNat = s.position ∧ s.incomingOf k.src.toNat = [] ∧ k.transfer = s.nextFrom k.src.toNat ∧ k.count = 1 ∧ k.index = 0 ∧ s.isReady = true

/-- Physical port x leads from this module towards a position on a route (spec/12 R335). -/
def leadsTo (s : State) (d x : Nat) : Prop :=
  ∃ r, s.route d = some r ∧ s.portTowards (r.firstHop d) = some x

/-- An end-to-end acknowledgement with a code waits at a port (spec/12 R339). -/
def ackQueued (t : State) (x d : Nat) (id : BitVec 16) (code : BitVec 16) : Prop :=
  ∃ a ∈ tget [] (t.cport x).queues 12, a.ptype = 9 ∧ a.dest = BitVec.ofNat 8 d ∧ a.transfer = id ∧ a.payload.take 2 = natLE 2 code.toNat

/-- The link layer (spec/12 R331 to R333): a sound packet in turn moves the number expected on, owes an acknowledgement and
its buffer's credit, and takes back the credits it carries, and one that acknowledges drops what it acknowledges from the
retry buffer (NULL carries nothing more); a packet with a bad CRC or FEC is counted and NACKed by its own number, one out of
turn by the number expected, and neither is taken. Readings of the model: log 67, log 100, log 101. -/
def Obligations.LinkLayerNumbersPackets : Prop :=
  ∀ (s : State) (p : Nat) (k : Packet), s.portOpen p = true →
    let x := s.cport p
    let first := x.retry.head?.elim x.txSeq fun e => e.1.linkSeq
    let n := (k.ack - first).toNat
    (k.fecOk = true → k.crc = packetCrc k → k.nack = false → s.causeway.held = [] → k.ptype = 11 → k.linkSeq = x.rxSeq →
      ∃ t, exec (.null p k) s = .next t
        ∧ t.cport p = { x with rxSeq := x.rxSeq + 1, ackOwed := true, creditOwed := x.creditOwed ++ [k.vc.toNat],
                               inUse := tset 0 x.inUse k.creditVc.toNat (tget 0 x.inUse k.creditVc.toNat - k.credits.toNat),
                               retry := if k.ackValid = true ∧ n ≤ x.retry.length then x.retry.drop n else x.retry }
        ∧ (∀ i, i ≠ p → t.cport i = s.cport i) ∧ { t with causeway := s.causeway } = s)
    ∧ (k.fecOk = true → k.crc = packetCrc k → k.nack = false → k.ackValid = false → k.ptype = 11 → k.linkSeq ≠ x.rxSeq →
      ∃ t, exec (.null p k) s = .next t ∧ t.cport p = { x with nackOwed := some x.rxSeq } ∧ { t with causeway := s.causeway } = s)
    ∧ (k.ptype = 11 → (k.fecOk = false ∨ k.crc ≠ packetCrc k) →
      ∃ t, exec (.null p k) s = .next t ∧ t.cport p = { x with nackOwed := some k.linkSeq }
        ∧ t.reg Pd.crcErrors = (s.reg Pd.crcErrors + 1) % 2 ^ 64
        ∧ t.reg Pd.fecUncorrectable = (if k.fecOk then s.reg Pd.fecUncorrectable else (s.reg Pd.fecUncorrectable + 1) % 2 ^ 64)
        ∧ storeFrame [Pd.crcErrors, Pd.fecUncorrectable] s t ∧ { t with pd := s.pd, causeway := s.causeway } = s)

/-- A transfer of one packet that arrives in turn (spec/12 R338 to R340, Table 12-3, spec/11 R312): a WRITE's bytes are
visible where its address leads, and no other byte changes; a SIGNAL's operation is applied; a READ is answered with the
bytes; a SNOOP at a gate goes to the host, an answered one gives the line up; a MIRROR line at a gate goes to the host. The
next transfer number is then expected, and each but the READ is acknowledged with its code. Readings of the model: log 26,
log 39. -/
def Claims.TransfersAreDelivered : Prop :=
  ∀ (s : State) (p x : Nat) (k : Packet), arrives s p k → inTurn s k → quiet s → leadsTo s k.src.toNat x →
    let src := k.src.toNat
    let u := received s p k
    let done := fun (t : State) => t.nextFrom src = k.transfer + 1 ∧ ackQueued t x src k.transfer St.ok
    (∀ l, k.ptype = 1 → k.signalValid = false → s.ingressMoves k.address.toNat = true →
      s.stowMayWrite src k.address.toNat (k.length.toNat + 1) = true →
      u.dpaTargets (packetAgent k) false k.address.toNat (enableAll (packetBytes k)) = .ok l →
      ∃ t, exec (.write p k) s = .next t ∧ done t ∧ t.mem = l.foldl (fun m e => tset 0 m e.1 e.2) s.mem
        ∧ (∀ a, (∀ e ∈ l, e.1 ≠ a) → t.byteAt a = s.byteAt a) ∧ storeFrame coveKeys s t)
    ∧ (∀ c, k.ptype = 4 → k.signalValid = true → k.sigOp = 1 → k.sigCounter.toNat = c → s.ctrHeld c = false → s.ctrFenced c = false → ctrState (s.ctr c) = 1 →
      ∃ t, exec (.signal p k) s = .next t ∧ done t
        ∧ t.ctr c = withValue (s.ctr c) (min (ctrValue (s.ctr c) + k.sigOperand.toNat) (2 ^ 32 - 1)) ∧ t.mem = s.mem)
    ∧ (∀ l v, k.ptype = 2 → s.ingressMoves k.address.toNat = true →
      u.dpaRead (packetAgent k) false k.address.toNat (k.length.toNat + 1) = (v, some (St.ok, l)) →
      ∃ t, exec (.read p k) s = .next t ∧ t.nextFrom src = k.transfer + 1 ∧ t.mem = s.mem ∧ storeFrame (Pd.snoopEvictions :: coveKeys) s t
        ∧ (fromHost k = false → t.host = s.host)
        ∧ ∃ a ∈ tget [] (t.cport x).queues 3, a.ptype = 3 ∧ a.dest = k.src ∧ a.transfer = k.transfer ∧ a.index = k.index ∧ a.length = k.length
            ∧ a.payload = padTo 256 l)
    ∧ (k.ptype = 7 → k.signalValid = false → k.payload.headD 0 = 0 → s.isGate = true →
      ∃ t, exec (.snoop p k) s = .next t ∧ done t ∧ t.out = s.out ++ [.biSnoop src (k.address.toNat / 64)]
        ∧ { t with out := s.out, causeway := s.causeway } = s)
    ∧ (k.ptype = 7 → k.signalValid = false → k.payload.headD 0 ≠ 0 → s.host.snoopWaits = [] → s.host.ctrWaits = [] → s.causeway.incoming = [] →
      ∃ t, exec (.snoop p k) s = .next t ∧ done t ∧ (∀ l, l ∈ t.host.filter ↔ l ∈ s.host.filter ∧ l ≠ k.address.toNat / 64)
        ∧ (∀ l, l ∈ t.host.snooped ↔ l ∈ s.host.snooped ∧ l ≠ k.address.toNat / 64) ∧ { t with host := s.host, causeway := s.causeway } = s)
    ∧ (k.ptype = 8 → k.signalValid = false → s.isGate = true →
      ∃ t, exec (.mirror p k) s = .next t ∧ done t ∧ t.out = s.out ++ [.mirrorLine k.address.toNat (k.payload.take 64)]
        ∧ { t with out := s.out, causeway := s.causeway } = s)

/-- Forwarding and the link map (spec/12 R335, R336, Table 12-2; the layout of LINK_STATE is log 27): a packet for another module goes into
the queue of its next hop with one hop more, and is counted; a LINK_STATE with a newer version than the one held replaces the entry of its
position and goes on, an older one changes nothing but the link layer. -/
def Claims.PacketsAreForwarded : Prop :=
  (∀ (s : State) (p x : Nat) (k : Packet), arrives s p k → k.ptype = 1 → k.dest.toNat ≠ s.position → s.power.routed = true →
    ((s.nextOnPath k.src.toNat k.dest.toNat).bind fun q => logicalPort s.position q).bind s.physicalOf = some x → s.portState x = 2 →
    ∃ t, exec (.write p k) s = .next t ∧ t.reg Pd.transitPackets = (s.reg Pd.transitPackets + 1) % 2 ^ 64
      ∧ (let v := BitVec.ofNat 4 (vcOf 1 (k.hops.toNat + 1))
         tget [] (t.cport x).queues v.toNat = tget [] (s.cport x).queues v.toNat
           ++ [{ k with hops := k.hops + 1, vc := v, credits := 0, nack := false, ackValid := false }])
      ∧ storeFrame [Pd.transitPackets] s t ∧ { t with pd := s.pd, causeway := s.causeway } = s)
  ∧ (∀ (s : State) (p : Nat) (k : Packet), arrives s p k → k.ptype = 10 → s.causeway.unacked = [] →
    let entry := listField k.payload 0 4 % 2 ^ 18
    let q := listField k.payload 4 4
    let v := listField k.payload 8 8
    let held := tget 0 s.causeway.versions q
    listField k.payload 16 4 = 0 → listField k.payload 20 4 = 0 → q ≠ s.position →
    (q < 64 → held < v → ∃ t, exec (.linkState p k) s = .next t ∧ t.rd Pd.linkMap q = entry ∧ tget 0 t.causeway.versions q = v
        ∧ (∀ i, i ≠ q → i < 16777216 → t.rd Pd.linkMap i = s.rd Pd.linkMap i) ∧ storeFrame [Pd.linkMap] s t ∧ t.mem = s.mem)
    ∧ (64 ≤ q ∨ v ≤ held → ∃ t, exec (.linkState p k) s = .next t ∧ { t with causeway := s.causeway } = s
        ∧ t.causeway.versions = s.causeway.versions))

/-- Transfers are delivered here or forwarded (layouts: log 27): TransfersAreDelivered, PacketsAreForwarded. -/
def Obligations.TransfersReachTheirModule : Prop := Claims.TransfersAreDelivered ∧ Claims.PacketsAreForwarded

/-- A transfer's end (spec/12 R338, R339): ACK_E2E with a code other than RESIDUE ends the transfer it names, whose sender hears it; with RESIDUE,
or when E2E_RESEND_TIMEOUT comes, the transfer is sent again whole, its fourth sending being its last, after which it is UNREACHABLE.
READ_RESPONSE with the last bytes of a window read completes that read to the host. -/
def Claims.TransfersEnd : Prop :=
  (∀ (s : State) (p : Nat) (k : Packet) (tr : Transfer), arrives s p k → quiet s → k.dest.toNat = s.position → s.unacked k.src.toNat = [tr] →
    tr.id = k.transfer → 0 < tr.sendings →
    (k.ptype = 9 → tr.purpose = .signal → BitVec.ofNat 16 (listField k.payload 0 2) ≠ St.residue →
      ∃ t, exec (.ackE2e p k) s = .next t ∧ t.unacked k.src.toNat = [] ∧ { t with causeway := s.causeway } = s)
    ∧ (k.ptype = 9 → BitVec.ofNat 16 (listField k.payload 0 2) = St.residue → tr.sendings < 4 →
      ∃ t, exec (.ackE2e p k) s = .next t ∧ (t.unacked k.src.toNat).map (fun y => (y.id, y.packets, y.sendings)) = [(tr.id, tr.packets, tr.sendings + 1)]
        ∧ t.reg Pd.e2eResends = (s.reg Pd.e2eResends + 1) % 2 ^ 64)
    ∧ (∀ r : WindowReq, k.ptype = 3 → tr.purpose = .window r.id → s.host.windows = [r] → r.target = k.src.toNat → r.write = false → r.bad = false → r.lost = false →
      k.index = 0 → r.data.length = (packetBytes k).length →
      ∃ t, exec (.readResponse p k) s = .next t ∧ t.out = s.out ++ [.windowDone r.id false (packetBytes k)] ∧ t.host.windows = []
        ∧ t.unacked k.src.toNat = [] ∧ t.pd = s.pd ∧ t.mem = s.mem))
  ∧ (∀ (s : State) (d : Nat) (tr : Transfer), quiet s → s.unacked d = [tr] → 0 < tr.sendings →
    (tr.sendings < 4 → ∃ t, exec (.e2eResendTimeout d tr.id) s = .next t
      ∧ (t.unacked d).map (fun y => (y.id, y.packets, y.sendings)) = [(tr.id, tr.packets, tr.sendings + 1)]
      ∧ t.reg Pd.e2eResends = (s.reg Pd.e2eResends + 1) % 2 ^ 64 ∧ storeFrame [Pd.e2eResends] s t
      ∧ { t with pd := s.pd, causeway := s.causeway } = s)
    ∧ (4 ≤ tr.sendings → tr.purpose = .signal → ∃ t, exec (.e2eResendTimeout d tr.id) s = .next t ∧ t.unacked d = []
      ∧ { t with causeway := s.causeway } = s))

/-- A port's sender (spec/12 R332 to R334): PORT_TRANSMIT sends the first packet of the channel next in turn that has a
packet and a credit, with the next link number, and keeps it; an idle port that owes something sends NULL; LINK_RETRY_TIMEOUT
sends again every packet of the retry buffer, where none was sent 8 times. Readings of the model: log 99, log 119. -/
def Claims.PortsTransmitAndRetry : Prop :=
  ∀ (s : State) (p : Nat), s.portOpen p = true →
    let x := s.cport p
    (∀ (v : Nat) (k : Packet) (rest : List Packet), x.retry.length < 512 → x.nextVc = some v → tget [] x.queues v = k :: rest → k.vc.toNat = v →
      ∃ t k', exec (.portTransmit p) s = .next t ∧ t.out = s.out ++ [.packet p k'] ∧ k'.linkSeq = x.txSeq ∧ k'.ptype = k.ptype ∧ k'.dest = k.dest
        ∧ k'.transfer = k.transfer ∧ k'.payload = k.payload ∧ k'.crc = packetCrc k' ∧ (t.cport p).retry = x.retry ++ [(k', 1)]
        ∧ (t.cport p).txSeq = x.txSeq + 1 ∧ tget [] (t.cport p).queues v = rest ∧ (t.cport p).lastVc = v
        ∧ tget 0 (t.cport p).inUse v = tget 0 x.inUse v + 1 ∧ (∀ i, i ≠ p → t.cport i = s.cport i)
        ∧ { t with out := s.out, causeway := s.causeway } = s)
    ∧ (x.retry.length < 512 → x.nextVc = none → x.ackOwed = true → x.hasCredit 15 = true →
      ∃ t k', exec (.portTransmit p) s = .next t ∧ t.out = s.out ++ [.packet p k'] ∧ k'.ptype = 11 ∧ k'.linkSeq = x.txSeq
        ∧ (k'.ackValid = true ∧ k'.ack = x.rxSeq ∨ x.nackOwed ≠ none) ∧ (t.cport p).ackOwed = false ∧ (t.cport p).retry = x.retry ++ [(k', 1)])
    ∧ (∀ e rest, x.retry = e :: rest → (∀ y ∈ x.retry, y.2 < 8) →
      ∃ t, exec (.linkRetryTimeout p) s = .next t ∧ (t.cport p).retry = x.retry.map (fun y => (y.1, y.2 + 1))
        ∧ t.reg Pd.linkResends = (s.reg Pd.linkResends + x.retry.length) % 2 ^ 64 ∧ t.out.length = s.out.length + x.retry.length
        ∧ storeFrame [Pd.linkResends] s t ∧ { t with pd := s.pd, out := s.out, causeway := s.causeway } = s)

/-- Transfers end or are sent again; ports transmit and retry: TransfersEnd, PortsTransmitAndRetry. -/
def Obligations.SendersRetry : Prop := Claims.TransfersEnd ∧ Claims.PortsTransmitAndRetry

/-- Lanes and ports (spec/12 R341 to R344, R346): a lane that exceeds a limit fails in its direction, which the receiving end reports to the
sending end; the first failure in a direction is recorded as spared, the second as reduced, the third fails the port, for which a free spare
is requested, its logical port still mapped to it; a port without signal is down, and one that is down or absent and gets a signal trains.
Reading of the model: log 46. -/
def Claims.LanesAndPortsFail : Prop :=
  (∀ (s : State) (p lane : Nat) (how : LaneEnd), p < 20 → lane < 9 → s.portState p = 2 → s.strand.queue.length < 256 →
    let rx := how.receive
    let told := if rx then [Output.laneReport p lane] else []
    let failed := if rx then (s.cport p).rxFailed else (s.cport p).txFailed
    let after := failed ||| BitVec.ofNat 9 (2 ^ lane)
    failed.getLsbD lane = false → s.laneLimit how.cause = true → (rx = true ↔ how.cause ≠ .reported) →
    (popCount 9 after.toNat ≤ 2 →
      ∃ t, exec (.laneFailure p lane how) s = .next t ∧ t.out = s.out ++ told ∧ (if rx then (t.cport p).rxFailed else (t.cport p).txFailed) = after ∧ t.portState p = 2
        ∧ byteField (t.rd Pd.portStatus p) (if rx then 6 else 4) 2 = lanesInUse after
        ∧ t.reg Pd.laneFailures = (s.reg Pd.laneFailures + 1) % 2 ^ 64 ∧ storeFrame [Pd.laneFailures, Pd.portStatus] s t
        ∧ t.strand.queue = s.strand.queue ++ [occurrence s 0x02 (if popCount 9 after.toNat = 1 then St.laneSpared else St.laneReduced) 5 p
            (s.portDetail p lane (s.portLogical p))])
    ∧ (∀ q, 2 < popCount 9 after.toNat → s.portLogical p < 18 → byteField (s.rd Pd.spareRequests 0) 0 1 = 0 → s.freeSpare = some q → s.isReady = true →
      ∃ t, exec (.laneFailure p lane how) s = .next t ∧ t.portState p = 4 ∧ t.rd Pd.logicalPorts (s.portLogical p) = s.rd Pd.logicalPorts (s.portLogical p)
        ∧ byteField (t.rd Pd.spareRequests 0) 0 1 = 1 ∧ byteField (t.rd Pd.spareRequests 0) 1 1 = s.portLogical p
        ∧ byteField (t.rd Pd.spareRequests 0) 3 1 = q ∧ t.out = s.out ++ told ++ [.msix 5] ∧ t.mem = s.mem))
  ∧ (∀ (s : State) (p lane : Nat) (how : LaneEnd), s.laneLimit how.cause = false → exec (.laneFailure p lane how) s = .next s)
  ∧ (∀ (s : State) (p : Nat), p < 20 → s.portState p = 2 →
    ∃ t, exec (.portSignalLoss p) s = .next t ∧ t.portState p = 3 ∧ (t.cport p).retry = [] ∧ (t.cport p).txSeq = 0 ∧ (t.cport p).rxSeq = 0
      ∧ t.rd Pd.linkMap t.position = t.ownLinks ∧ t.mem = s.mem ∧ t.out = s.out)
  ∧ (∀ (s : State) (p : Nat), p < 20 → s.portState p = 3 ∨ s.portState p = 0 → s.islandFenced 95 = false → s.islandFenced (96 + p) = false →
    ∃ t, exec (.portSignalReturn p) s = .next t ∧ t.portState p = 1 ∧ (∀ i, i ≠ p → i < 20 → t.rd Pd.portStatus i = s.rd Pd.portStatus i)
      ∧ storeFrame [Pd.portStatus] s t ∧ { t with pd := s.pd } = s)

/-- Spare ports (spec/12 R343, R344): a write to SPARE_CONNECT of the port a request names starts its training; trained with the failed link's
neighbour, by serial number and position, it backs the logical port and is recorded, with another it lapses, as it does when the wait expires, and the logical port is
vacant, recorded with DETOUR and told with vector 5. -/
def Claims.SparePortsTakeOver : Prop :=
  (∀ (s : State) (o : Origin) (b : BitVec 8) (role : Role) (e : EntryInfo),
    let q := ownWrite o Pd.spareConnect 0 [b]
    admitted s q role e = true →
    (∀ i, s.requestFor b.toNat = some i →
      ∃ t, exec (.spareConnect o b) s = .next t ∧ t.out = s.out ++ reply s q St.ok [] ∧ t.portState b.toNat = 1
        ∧ storeFrame (Pd.portStatus :: requestCounters) s t ∧ answered o.path s t)
    ∧ (s.requestFor b.toNat = none →
      ∃ t, exec (.spareConnect o b) s = .next t ∧ t.out = s.out ++ reply s q St.invalidValue []
        ∧ storeFrame (Pd.refused :: Pd.lastRefusal :: requestCounters) s t))
  ∧ (∀ (s : State) (p i : Nat), s.requestFor p = some i → s.portState p = 1 → s.islandFenced 95 = false → s.strand.queue.length < 256 →
    let r := s.rd Pd.spareRequests i
    let l := byteField r 1 1
    let gone := fun (t : State) => t.rd Pd.spareRequests i = 0 ∧ t.mem = s.mem
    let same := fun (n : Neighbour) => n.position = byteField r 2 1 ∧ n.serial = (s.cport (s.failedPortTo (byteField r 2 1))).partner
    (∀ n, same n → ∃ t, exec (.sparePortTrained p n) s = .next t ∧ gone t ∧ t.portState p = 2 ∧ t.portLogical p = l ∧ t.portNeighbour p = byteField r 2 1
      ∧ t.rd Pd.logicalPorts l = p ∧ t.out = s.out ∧ ∃ d, t.strand.queue = s.strand.queue ++ [occurrence s 0x02 St.portSpared 5 p d])
    ∧ (∀ n, ¬ same n → ∃ t, exec (.sparePortTrained p n) s = .next t ∧ gone t ∧ t.portState p = 5 ∧ t.rd Pd.logicalPorts l = 0xFF ∧ t.out = s.out ++ [.msix 5]
      ∧ ∃ f d, t.strand.queue = s.strand.queue ++ [occurrence s 0x02 St.detour 5 f d]))
  ∧ (∀ (s : State) (i : Nat), i < 2 → s.strand.queue.length < 256 →
    let r := s.rd Pd.spareRequests i
    byteField r 0 1 = 1 → s.portState (byteField r 3 1) = 5 →
    ∃ t, exec (.spareWaitExpiry i) s = .next t ∧ t.rd Pd.spareRequests i = 0 ∧ t.rd Pd.logicalPorts (byteField r 1 1) = 0xFF
      ∧ t.out = s.out ++ [.msix 5] ∧ (∃ f d, t.strand.queue = s.strand.queue ++ [occurrence s 0x02 St.detour 5 f d]) ∧ t.mem = s.mem)

/-- Lanes and ports fail; spare ports take over: LanesAndPortsFail, SparePortsTakeOver. -/
def Obligations.PortsFailAndAreReplaced : Prop := Claims.LanesAndPortsFail ∧ Claims.SparePortsTakeOver

/-! ### Chapter 13: the Estuary -/

/-- The packet completes, in turn, a transfer that carries message m for a group whose descriptors the Estuary holds; the module is READY, its
Estuary in service with a free block slot, and m is not stale (spec/12 R339, spec/13 R348, R360). -/
def completesMessage (s : State) (k : Packet) (m : EstMsg) : Prop :=
  k.ptype = 6 ∧ k.dest.toNat = s.position ∧ s.isReady = true ∧ s.islandFenced 94 = false ∧ k.transfer = s.nextFrom k.src.toNat
    ∧ listField k.payload 192 1 = m.kind ∧ s.msgStale m = false ∧ (s.estGroup m.group).descs ≠ [] ∧ s.slotsInUse < 32768
    ∧ ∃ parts : List Packet, estParse ((parts ++ [k]).map (·.payload)) = some m
      ∧ ((parts = [] ∧ s.incomingOf k.src.toNat = [] ∧ k.count = 1)
        ∨ ∃ e, s.incomingOf k.src.toNat = [e] ∧ e.id = k.transfer ∧ e.done = false ∧ e.signal = none ∧ e.parts = parts
            ∧ e.seen.contains k.index.toNat = false ∧ k.count.toNat = e.seen.length + 1)

/-- A group's blocks, its owner of block b, at a module (spec/13 R351). -/
def groupBlocks (s : State) (g : Nat) : Nat := blocksFor (tensorElements (s.groupRec g) (s.estGroup g).descs)
def blockOwner (s : State) (g b : Nat) : Nat := ownerOfBlock (s.groupRec g) (groupBlocks s g) b

/-- GROUP_TABLE (spec/13 R350): one whole record that may be written replaces the group's, STATE, ATTEMPT and
a used group's reserved bits zero (spec/00 R13), and what was kept of the group's reductions is dropped; a record with a forbidden value is refused, with INVALID_VALUE, as is one of a
group with a task, with BUSY, and a write of another length, with TYPE_MISMATCH. Reading of the model: log 29. -/
def Claims.GroupRecordsAreWritten : Prop :=
  ∀ (s : State) (o : Origin) (g : Nat) (bytes : List Byte) (role : Role) (e : EntryInfo), g < 64 →
    let q := ownWrite o Pd.groupTable (128 * g) bytes
    let refused := fun (c : BitVec 16) => ∃ t, exec (.groupTable o (128 * g) bytes) s = .next t ∧ t.out = s.out ++ reply s q c []
      ∧ t.groupRec g = s.groupRec g ∧ t.estuary = s.estuary
    admitted s q role e = true →
    (bytes.length = 128 → s.groupOk (leNat bytes) = true → s.groupBusy g = false →
      ∃ t, exec (.groupTable o (128 * g) bytes) s = .next t ∧ t.out = s.out ++ reply s q St.ok []
        ∧ t.groupRec g = groupClean (leNat bytes) ∧ (∀ i, i ≠ g → i < 64 → t.groupRec i = s.groupRec i)
        ∧ (∀ x ∈ t.estuary.sums, x.group ≠ g) ∧ t.groupReds g = [] ∧ t.estGroup g = {}
        ∧ (∀ i, i ≠ g → t.groupReds i = s.groupReds i ∧ t.estGroup i = s.estGroup i)
        ∧ storeFrame (Pd.groupTable :: requestCounters) s t ∧ { t with pd := s.pd, out := s.out, gdp := s.gdp, estuary := s.estuary, causeway := s.causeway } = s ∧ causewayKept o.path s t)
    ∧ (bytes.length = 128 → s.groupOk (leNat bytes) = false → refused St.invalidValue)
    ∧ (bytes.length = 128 → s.groupOk (leNat bytes) = true → s.groupBusy g = true → refused St.busy)
    ∧ (bytes.length ≠ 128 → refused St.typeMismatch)

/-- A PARTIAL at the owner of its block, in integer carriage and at the block's attempt and carriage state, that shares no rank with the sum
and does not complete it (spec/13 R360, R361, R364): its lanes are added exactly, its ranks join, MAXEXP is the greater; nothing is sent and
no memory changes. -/
def Claims.PartialsAddExactly : Prop :=
  ∀ (s : State) (p : Nat) (k : Packet) (m : EstMsg) (x : BlockSum), arrives s p k → completesMessage s k m → m.kind = 1 →
    blockOwner s m.group m.block = s.position → grpReplay (s.groupRec m.group) = 0 → s.blockSum m.group m.reduction m.block true = some x →
    x.closed = false → x.final = false → x.attempt = m.attempt → x.raises = m.raises → x.fp32 = false → m.fp32 = false → x.input = true →
    x.marked = false → m.marked = false → x.overflow = false → m.overflow = false → m.ranks &&& x.ranks = 0 →
    ((x.lanes.zip m.lanes).all fun e => decide ((e.1 + e.2).natAbs ≤ 2 ^ 38)) = true →
    (x.ranks ||| m.ranks) &&& grpWanted (s.groupRec m.group) ≠ grpWanted (s.groupRec m.group) →
    ∃ t y, exec (.partialSum p k 0) s = .next t ∧ t.blockSum m.group m.reduction m.block true = some y
      ∧ y.lanes = (x.lanes.zip m.lanes).map (fun e => e.1 + e.2) ∧ y.ranks = x.ranks ||| m.ranks ∧ y.maxExp = max x.maxExp m.maxExp
      ∧ y.closed = false ∧ y.marked = false ∧ t.nextFrom k.src.toNat = k.transfer + 1 ∧ t.mem = s.mem ∧ t.pd = s.pd ∧ t.out = s.out
      ∧ t.estuary.reds = s.estuary.reds ∧ t.estuary.tasks = s.estuary.tasks

/-- Group records and exact partial sums: GroupRecordsAreWritten, PartialsAddExactly. -/
def Obligations.GroupsReduce : Prop := Claims.GroupRecordsAreWritten ∧ Claims.PartialsAddExactly

/-- A result header at a member that is not the block's owner and passes none on, for an open reduction that lacks it and other blocks still
(spec/13 R357, R368, R369): a RESULT's values are written to the result tensor, a NOTICE writes none, and the header is held. A RAISE for a block of
which the member has sent nothing puts the new state into its scale table entry (spec/13 R365). -/
def Claims.HeadersAndRaisesReachMembers : Prop :=
  (∀ (s : State) (p : Nat) (k : Packet) (m : EstMsg), arrives s p k → completesMessage s k m → m.kind = 2 ∨ m.kind = 3 →
    s.placesFor m.group m.reduction = some (s.estGroup m.group) → blockOwner s m.group m.block ≠ s.position → resultTargets (s.groupRec m.group) (blockOwner s m.group m.block) s.position = [] →
    let x := s.reduction m.group m.reduction
    let values := m.lanes.map fun v => BitVec.ofInt 32 v
    x.final = false → x.attempt ≤ m.attempt → (x.headers.any fun h => h.block == m.block && h.attempt == m.attempt) = false →
    x.headers.length + 1 < groupBlocks s m.group →
    let held := fun (t : State) => ∃ h, (t.reduction m.group m.reduction).headers = x.headers ++ [h] ∧ h.block = m.block ∧ h.attempt = m.attempt
      ∧ h.ranks = m.ranks ∧ h.maxExp = m.maxExp ∧ h.values = none ∧ t.nextFrom k.src.toNat = k.transfer + 1
      ∧ t.estuary.tasks = s.estuary.tasks ∧ t.estuary.sums = s.estuary.sums
    (∀ u, m.kind = 2 → (received s p k).writeResult (s.estGroup m.group) m.group m.reduction m.block values = .ok u →
      ∃ t, exec (.result p k) s = .next t ∧ held t ∧ t.mem = u.mem)
    ∧ (m.kind = 3 → ∃ t, exec (.notice p k) s = .next t ∧ held t ∧ t.mem = s.mem ∧ t.pd = s.pd))
  ∧ (∀ (s : State) (p : Nat) (k : Packet) (m : EstMsg) (sc : Nat) (u : State), arrives s p k → completesMessage s k m → m.kind = 4 →
    let g := m.group
    let r := m.reduction
    let x := s.reduction g r
    let a := estAgent (s.estGroup g).part
    let w := s.groupRec g
    let v := (received s p k).setReduction g r { x with raised := (x.raised.filter fun y => y.1 != m.block) ++ [(m.block, m.raises, m.fp32)] }
    s.placesFor g r = some (s.estGroup g) → s.blockSum g r m.block false = none → x.final = false → s.estSent g r = none → v.scaleEntry a w m.block = .ok sc →
    v.setScaleEntry a w m.block (withCarriage sc m.raises m.fp32) = .ok u →
    ∃ t, exec (.raise p k) s = .next t ∧ t.mem = u.mem ∧ t.nextFrom k.src.toNat = k.transfer + 1
      ∧ (∀ y ∈ (t.reduction g r).raised, y.1 ≠ m.block) ∧ t.estuary.tasks = s.estuary.tasks ∧ t.estuary.sums = s.estuary.sums)

/-- An Estuary task begins (spec/13 R355, R357): before a group's last step its values go into the accumulation tensor and it
completes; at the last step, with no reduction of it final, it has sent and its blocks go out, here the one block of a tensor
of at most 64 elements (its header not held yet). Reading of the model: log 40. -/
def Claims.EstuaryTasksAccumulateThenSend : Prop :=
  ∀ (s : State) (e : EstTask), s.working = true → s.islandFenced 94 = false → s.estuary.tasks = [e] → e.sent = false →
    let w := s.groupRec e.group
    let n := max 1 (grpSteps w)
    let r := e.step / n
    let p := e.place
    let blocks := blocksFor (tensorElements w p.descs)
    (∀ u, e.step % n + 1 < n → State.carryBlocks e p (List.range blocks) s = .ok u →
      ∃ t, exec .estuarySendBegin s = .next t ∧ t.mem = u.mem ∧ t.estuary.tasks = u.estuary.tasks.erase e
        ∧ t.finished = u.finished ++ [{ e.task with code := St.ok, detail := 0 }])
    ∧ (∀ u, ¬ e.step % n + 1 < n → grpOp w ≠ 3 → blocks = 1 → (s.reduction e.group r).final = false → (s.reduction e.group r).headers = [] →
      let sent := { e with sent := true }
      let s1 : State := { s with estuary := { s.estuary with tasks := [sent] } }
      (s1.setReduction e.group r { s.reduction e.group r with unsent := [0] }).sendBlock sent r p 0 = .ok (u, []) →
      ∃ t, exec .estuarySendBegin s = .next t ∧ t.causeway = u.causeway ∧ t.estuary.tasks = [sent] ∧ (t.reduction e.group r).unsent = []
        ∧ t.mem = s.mem ∧ t.finished = s.finished)

/-- Deadlines (spec/13 R354, R367 to R370): at a collector's, what it holds of the block goes to the owner, elsewhere, as one
partial; at the owner's, the block is closed, its result goes to every target that is reachable, and its own member part
holds the header, other blocks being still open; an ALL_GATHER task's wait expires with UNREACHABLE, its reduction final.
Reading of the model: log 107. -/
def Claims.DeadlinesCloseBlocks : Prop :=
  (∀ (s : State) (g b : Nat) (x : BlockSum),
    (s.estuary.sums.find? fun x => x.group == g && x.block == b && !x.owner && x.input && !x.closed) = some x → (s.estGroup g).descs ≠ [] →
    blockOwner s g b ≠ s.position → s.route (blockOwner s g b) ≠ none →
    ∃ t, exec (.collectorDeadline g b) s = .next t ∧ t.blockSum g x.reduction b false = some { x with closed := true, lanes := [] }
      ∧ (∃ tr ∈ t.unacked (blockOwner s g b), tr.purpose = .estuary g ∧ tr.packets.map (·.payload) =
          [0, 1].map fun h => payloadOf (estPayload (x.message 1 (grpTag (s.groupRec g))) h))
      ∧ t.mem = s.mem ∧ t.pd = s.pd ∧ t.out = s.out)
  ∧ (∀ (s : State) (g b : Nat) (x : BlockSum), g < 64 →
    (s.estuary.sums.find? fun x => x.group == g && x.block == b && x.owner && !x.closed) = some x → (s.estGroup g).descs ≠ [] →
    s.placesFor g x.reduction = some (s.estGroup g) → grpMembers (s.groupRec g) ≠ 0 → (s.groupReds g).all (fun e => !e.2.final) = true → blockOwner s g b = s.position →
    (s.reduction g x.reduction).attempt ≤ x.attempt → ((s.reduction g x.reduction).headers.any fun h => h.block == b && h.attempt == x.attempt) = false →
    (s.reduction g x.reduction).headers.length + 1 < groupBlocks s g →
    ∃ t z, exec (.ownerDeadline g b) s = .next t ∧ t.blockSum g x.reduction b true = some z ∧ z.closed = true ∧ z.lanes = []
      ∧ (∃ h, (t.reduction g x.reduction).headers = (s.reduction g x.reduction).headers ++ [h] ∧ h.block = b ∧ h.attempt = x.attempt ∧ h.ranks = x.ranks)
      ∧ (∀ q ∈ resultTargets (s.groupRec g) s.position s.position, q ≠ s.position → s.route q ≠ none →
          ∃ tr ∈ t.unacked q, tr.purpose = .estuary g))
  ∧ (∀ (s : State) (g : Nat) (e : EstTask), g < 64 → (s.estuary.tasks.find? fun e => e.group == g && e.sent) = some e →
    let r := e.step / max 1 (grpSteps (s.groupRec g))
    let x := s.reduction g r
    grpOp (s.groupRec g) = 3 → x.final = false → x.unsent = [] → (x.headers.all fun h => h.values.isNone) = true →
    ∃ t, exec (.resultWaitExpiry g) s = .next t ∧ t.finished = s.finished ++ [{ e.task with code := St.unreachable, detail := 0 }]
      ∧ t.estuary.tasks = s.estuary.tasks.erase e ∧ (t.reduction g r).final = true ∧ (t.reduction g r).unsent = [])

/-- Estuary tasks send, headers reach members, deadlines close blocks: HeadersAndRaisesReachMembers, EstuaryTasksAccumulateThenSend,
DeadlinesCloseBlocks. -/
def Obligations.ReductionsEnd : Prop := Claims.HeadersAndRaisesReachMembers ∧ Claims.EstuaryTasksAccumulateThenSend ∧ Claims.DeadlinesCloseBlocks

/-! ### Chapter 14: the stage sequencers -/

/-- The gate counter of phase k and DONE of partition p's sequencer can take its operations: reachable, in state COUNTER, apart, their lines
not at the host (spec/04 R101); no sequencer has a BROKEN counter (spec/14 R379, R384). -/
def gatesWork (s : State) (p k : Nat) : Prop :=
  let w := s.stageRec p
  let c := stgBase w + k - 1
  p < 16 ∧ c < 131072 ∧ c ≠ stgDone w ∧ s.ctrHeld c = false ∧ s.ctrHeld (stgDone w) = false ∧ s.ctrFenced c = false ∧ ctrState (s.ctr c) = 1
    ∧ ∀ i, i < 16 → ∀ c ∈ stageCounters (s.stageRec i), ctrState (s.ctr c) ≠ 3

/-- Phase k is open in t: the record names it and its gate counter has its gate count more than in s (spec/14 R379). -/
def opened (s t : State) (p k : Nat) : Prop :=
  let w := s.stageRec p
  let c := stgBase w + k - 1
  stagePhase (t.stageRec p) = k ∧ t.ctr c = withValue (s.ctr c) (min (ctrValue (s.ctr c) + gateCount w k) (2 ^ 32 - 1))

/-- The step word of a record lies in memory (spec/14 R387), and no other byte has changed. -/
def wordWritten (s t : State) (w : Nat) (e : Int) (apply : F32) (step : Nat) : Prop :=
  t.viewBytes (stgWord w) 16 = stepWord e apply step ∧ ∀ a, (∀ i, i < 16 → a ≠ nativeOf (stgWord w + i)) → t.byteAt a = s.byteAt a

/-- Stage control (spec/14 R381, R383): START of a STOPPED or FAILED sequencer with a record that may be started is answered OK, makes its counters
anew, writes the step word with APPLY +0 and opens phase 1; with another record it is refused; STOP of a running one makes it STOPPING. -/
def Claims.StagesStartAndStop : Prop :=
  ∀ (s : State) (o : Origin) (b : BitVec 4) (role : Role) (e : EntryInfo), quiet s →
    let p := b.toNat
    let w := s.stageRec p
    let q := fun (n : Nat) => ownWrite o Pd.stageControl 0 [BitVec.ofNat 8 p, BitVec.ofNat 8 n]
    (admitted s (q 1) role e = true → stageState w = 0 ∨ stageState w = 3 →
      (stageOk w = true → s.rangeUsable (stgWord w) 16 = true → (∀ c ∈ stageCounters w, s.ctrFenced c = false ∧ s.ctrHeld c = false) →
        (∀ k, k < 2 * stgMicro w + 2 → stgDone w ≠ stgBase w + k) → stgDone w < 131072 →
        (∀ i, i < 16 → ∀ c ∈ stageCounters (s.stageRec i), ctrState (s.ctr c) ≠ 3) →
        ∃ t, exec (.stageStart o b) s = .next t ∧ (∃ l, t.out = s.out ++ l ++ reply s (q 1) St.ok []) ∧ stageState (t.stageRec p) = 1
          ∧ stagePhase (t.stageRec p) = 1 ∧ t.ctr (stgDone w) = freshCounter p
          ∧ (∀ k, k < 2 * stgMicro w + 2 → t.ctr (stgBase w + k) = withValue (freshCounter p) (if k = 0 then gateCount w 1 else 0))
          ∧ wordWritten s t w (stgScale w) zero32 (stgStep w))
      ∧ (stageOk w = false → ∃ t, exec (.stageStart o b) s = .next t ∧ t.out = s.out ++ reply s (q 1) St.invalidValue [] ∧ t.stageRec p = w
          ∧ t.mem = s.mem))
    ∧ (admitted s (q 2) role e = true → stageState w = 1 →
      ∃ t, exec (.stageStop o b) s = .next t ∧ t.out = s.out ++ reply s (q 2) St.ok [] ∧ t.stageRec p = withState w 4
        ∧ storeFrame (Pd.stageTable :: requestCounters) s t ∧ answered o.path s t)

/-- STAGE_PHASE_DONE of a running sequencer (spec/14 R379, R382, R383) with DONE at the phase's done count and no stow asked for: DONE loses it and
the next phase opens, or, after phase 2M, the Estuary is awaited; a STOPPING one stops there. -/
def Claims.PhasesFollowEachOther : Prop :=
  ∀ (s : State) (p : Nat), quiet s → p < 16 →
    let w := s.stageRec p
    let k := stagePhase w
    1 ≤ k → k ≤ 2 * stgMicro w → s.ctrHeld (stgDone w) = false → (s.stage p).waiting = false → (s.stage p).clearing = false → s.phaseReady p k = true → (s.stage p).stowTarget = none →
    let taken := fun (t : State) => t.ctr (stgDone w) = withValue (s.ctr (stgDone w)) (ctrValue (s.ctr (stgDone w)) - doneCount w k)
    (stageState w = 1 → k < 2 * stgMicro w → gatesWork s p (k + 1) →
      ∃ t, exec (.stagePhaseDone p) s = .next t ∧ taken t ∧ opened s t p (k + 1) ∧ stageState (t.stageRec p) = 1 ∧ t.mem = s.mem)
    ∧ (stageState w = 1 → k = 2 * stgMicro w →
      ∃ t, exec (.stagePhaseDone p) s = .next t ∧ taken t ∧ t.stage p = { s.stage p with waiting := true } ∧ t.stageRec p = w ∧ t.mem = s.mem)
    ∧ (stageState w = 4 → (∀ i, i < 16 → (s.stage i).stowTarget = none) →
      ∃ t, exec (.stagePhaseDone p) s = .next t ∧ taken t ∧ t.stageRec p = withState w 0 ∧ t.mem = s.mem)

/-- Stage sequencers start, stop and open their phases: StagesStartAndStop, PhasesFollowEachOther. -/
def Obligations.StagesRunPhases : Prop := Claims.StagesStartAndStop ∧ Claims.PhasesFollowEachOther

/-- After phase 2M (spec/14 R382, R385, R386, R388): STAGE_ESTUARY_DONE, the Estuary tasks of the step completed, writes the vote and opens phase
2M + 1 where there is an agreement, and else settles the scale; STAGE_AGREEMENT_DONE fails the sequencer on a bad agreement and else settles the
scale by element 1. A scale settled without overflow writes APPLY 1.0, counts a clean step, doubles the scale after GROWTH_INTERVAL of them, and
opens the update phase; with overflow APPLY is +0, the skipped step is counted and recorded, the scale halves, and CARRY is to be cleared, after
which CARRY_CLEAR opens the update phase. -/
def Claims.ScaleIsSettled : Prop :=
  ∀ (s : State) (p : Nat), quiet s → s.strand.queue.length < 256 →
    let w := s.stageRec p
    let m := stgMicro w
    let x := s.stage p
    let e := stgScale w
    let settled := fun (t : State) (overflow : Bool) =>
      let r := t.stageRec p
      wordWritten s t w e (if overflow then zero32 else one32) (stgStep w) ∧ (t.stage p).waiting = false ∧ (t.stage p).clearing = overflow
      ∧ (overflow = true → t.reg Pd.stepsSkipped = (s.reg Pd.stepsSkipped + 1) % 2 ^ 64
          ∧ t.strand.queue = s.strand.queue ++ [occurrence s 0x0A St.overflow 8 p (natLE 4 (stgStep w)
              ++ natLE 1 (ofSigned 8 (if stgScaling w then max (stgScaleMin w) (e - 1) else e)))]
          ∧ stgScale r = (if stgScaling w then max (stgScaleMin w) (e - 1) else e) ∧ stgClean r = (if stgScaling w then 0 else stgClean w)
          ∧ stagePhase r = stagePhase w)
      ∧ (overflow = false → opened s t p (2 * m + 2)
          ∧ (if stgScaling w ∧ stgGrowth w ≤ stgClean w + 1 then stgScale r = min (stgScaleMax w) (e + 1) ∧ stgClean r = 0
             else stgScale r = e ∧ stgClean r = stgClean w + 1))
    stageState w = 1 → s.rangeUsable (stgWord w) 16 = true → stgClean w < 65535 → gatesWork s p (2 * m + 2) →
    (x.waiting = true → stgEstuary w ≤ x.estuaryDone →
      (stgAgree w = 0xFF → ∃ t, exec (.stageEstuaryDone p) s = .next t ∧ settled t x.overflow)
      ∧ (stgAgree w ≠ 0xFF → s.rangeUsable (stgVote w) 256 = true → gatesWork s p (2 * m + 1) →
          ∃ t, exec (.stageEstuaryDone p) s = .next t ∧ opened s t p (2 * m + 1) ∧ (t.stage p).waiting = false
            ∧ t.viewBytes (stgVote w) 256 = voteBytes x.overflow))
    ∧ (stagePhase w = 2 * m + 1 → x.clearing = false → s.phaseReady p (2 * m + 1) = true →
      (s.ctrHeld (stgDone w) = false → s.voteFault w = none →
        ∃ t, exec (.stageAgreementDone p) s = .next t ∧ t.ctr (stgDone w) = withValue (s.ctr (stgDone w)) (ctrValue (s.ctr (stgDone w)) - 1)
          ∧ settled t (Sys2Proof.Machine.Num.lt .zero (val (BitVec.ofNat 32 (leNat (s.harbourRead (stgResult w + 4) 4))))))
      ∧ (∀ c, s.voteFault w = some c → (∀ i, i < 16 → (s.stage i).stowTarget = none) →
        ∃ t, exec (.stageAgreementDone p) s = .next t ∧ stageState (t.stageRec p) = 3 ∧ t.mem = s.mem
          ∧ t.reg Pd.stageFailure = leNat (natLE 2 p ++ codeBytes c ++ natLE 4 (2 * m + 1) ++ natLE 8 s.time)))
    ∧ (x.clearing = true → (maskGroups (stgGroups w)).any (fun g => s.groupBusy g) = false →
      ∃ t, exec (.carryClear p) s = .next t ∧ opened s t p (2 * m + 2) ∧ t.stage p = { x with clearing := false }
        ∧ t.mem = ((maskGroups (stgGroups w)).foldl (fun s g => s.clearCarry g) s).mem)

/-- STAGE_UPDATE_DONE (spec/14 R382, R387), with no stow, check page or replay check due: the loss is kept, STEP advances and is counted, the step
word is written for the new step with APPLY +0, and the next step's phase 1 opens; a STOPPING sequencer stops instead. -/
def Claims.StepsEnd : Prop :=
  ∀ (s : State) (p : Nat), quiet s → p < 16 →
    let w := s.stageRec p
    let k := 2 * stgMicro w + 2
    let loss : F32 := if stgLoss w = 0 then zero32 else BitVec.ofNat 32 (leNat (s.harbourRead (stgLoss w) 4))
    let step := (stgStep w + 1) % 2 ^ 32
    stagePhase w = k → s.ctrHeld (stgDone w) = false → s.phaseReady p k = true → s.rangeUsable (stgWord w) 16 = true → (∀ i, i < 16 → (s.stage i).stowTarget = none) →
    s.stow.held = [] → cfgRepeat (s.stowCfg p) = 0 → byteField (s.rd Pd.replayCheck p) 2 1 ≠ 1 →
    let ended := fun (t : State) => t.rd Pd.lastLoss p = loss.toNat ∧ stgStep (t.stageRec p) = step
      ∧ t.reg Pd.stepsCompleted = (s.reg Pd.stepsCompleted + 1) % 2 ^ 64 ∧ wordWritten s t w (stgScale w) zero32 step
    (stageState w = 1 → gatesWork s p 1 →
      ∃ t, exec (.stageUpdateDone p) s = .next t ∧ ended t ∧ opened s t p 1 ∧ stageState (t.stageRec p) = 1)
    ∧ (stageState w = 4 → ∃ t, exec (.stageUpdateDone p) s = .next t ∧ ended t ∧ stageState (t.stageRec p) = 0 ∧ stagePhase (t.stageRec p) = k)

/-- The loss scale is settled and the step ends: ScaleIsSettled, StepsEnd. -/
def Obligations.StagesSettleSteps : Prop := Claims.ScaleIsSettled ∧ Claims.StepsEnd

/-! ### Chapter 15: Landfall and self-tests -/

/-- Landfall's START (spec/15 R393, R394): with no run of it under way or unread it is answered OK with the new run's number,
and a module reset follows, device memory kept behind it, whose power-up begins at once where the pins allow; a tripped module waits for the
end of TRIPPED; with a run unread it is refused with BUSY. Readings of the model: log 157, log 163. -/
def Claims.LandfallIsStarted : Prop :=
  ∀ (s : State) (o : Origin) (role : Role) (e : EntryInfo) (mode : Nat), mode ≤ 2 →
    let q := ownWrite o Pd.landfallStart 0 (natLE 1 mode)
    let i : Instr := if mode = 0 then .landfallStart o else if mode = 1 then .landfallStartCold o else .landfallStartWarm o
    admitted s q role e = true → s.power.step ≠ 1 → s.landfall.startPending = false →
    (s.opBusy 1 = false → s.reg Pd.powerState = 3 →
      ∃ t, exec i s = .next t ∧ t.out = s.out ++ reply s q St.ok (natLE 4 (((s.op 1).run + 1) % 2 ^ 32))
        ∧ t.landfall.wanted = mode ∧ t.landfall.startPending = true ∧ t.power = s.power ∧ t.mem = s.mem)
    ∧ (s.opBusy 1 = false → s.reg Pd.powerState ≠ 3 →
      ∃ t, exec i s = .next t ∧ (∃ l, t.out = s.out ++ reply s q St.ok (natLE 4 (((s.op 1).run + 1) % 2 ^ 32)) ++ l)
        ∧ t.landfall.wanted = mode ∧ t.landfall.startPending = true ∧ t.mem = s.mem ∧ causewayKept o.path s t ∧ t.time = s.time
        ∧ t.power.step = (if 38000 ≤ s.power.inputMv ∧ s.power.pwrgood = true ∧ s.power.resetN = true then 2 else 1)
        ∧ t.power.forwarding = s.power.forwarding ∧ t.inFlight = [] ∧ t.pending = s.pending)
    ∧ (s.opBusy 1 = true → ∃ t, exec i s = .next t ∧ t.out = s.out ++ reply s q St.busy [] ∧ t.ops = s.ops ∧ t.mem = s.mem)

/-- Phases L0 and L1 (spec/15 R397 to R399, Table 15-4): LANDFALL_L0_DONE with every Cliff zeroed leaves no byte, no
reduction and no micro-program, notes the phase's time and begins L1 (the life cycle not SCRAPPED); CONVERSION_TIMEOUT in L0
ends the run FAILED with DEGRADED and holds the islands off; LANDFALL_L1_DONE fences every island but the Harbour's that did not lock and
leaves its lock bit clear, and with every island locked begins the training of the ports, or ends with DEGRADED where a line of Table 15-4 is
not met. Readings of the model: log 55, log 65. -/
def Claims.WipingAndLockingPhases : Prop :=
  (∀ s : State, s.inPhase 0 = true →
    (s.reg Pd.lifeCycle ≠ 4 → ∃ t, exec (.landfallL0Done 0) s = .next t ∧ t.inPhase 1 = true ∧ t.mem = [] ∧ t.badBlocks = [] ∧ t.poisonBlocks = [] ∧ t.estuary = {}
      ∧ t.programs = [] ∧ t.rd Pd.phaseTimes 0 = (s.time - s.landfall.phaseStart) % 2 ^ 32 ∧ t.landfall.phaseStart = s.time
      ∧ t.security.tapActive = (s.reg Pd.lifeCycle == 3) ∧ t.out = s.out)
    ∧ (∃ t, exec .conversionTimeout s = .next t ∧ (t.op 1).state = 4 ∧ (t.op 1).code = St.degraded ∧ t.power.alertLandfall = true
      ∧ t.power.stageCliffs = false ∧ t.power.stageLinks = false ∧ t.power.stageHouse = false ∧ t.power.forwarding = false ∧ t.mem = s.mem))
  ∧ (∀ (s : State) (u : BitVec 116), s.inPhase 1 = true → ∃ t, exec (.landfallL1Done u) s = .next t
    ∧ ∀ n, 0 < n → n < 116 → u.getLsbD n = true → t.islandFenced n = true ∧ (t.reg Pd.islandLocked).testBit n = false)
  ∧ (∀ s : State, s.inPhase 1 = true → s.landfall.kind ≠ 2 → (∀ n, 0 < n → n < 116 → s.islandFenced n = false) →
    ∃ t, exec (.landfallL1Done 0) s = .next t ∧ t.mem = s.mem
      ∧ (if s.wanting false then (t.op 1).state = 4 ∧ (t.op 1).code = St.degraded
         else t.inPhase 2 = true ∧ t.reg Pd.islandLocked = 2 ^ 116 - 1 ∧ t.rd Pd.phaseTimes 1 = (s.time - s.landfall.phaseStart) % 2 ^ 32
          ∧ ∀ p, p < 18 → s.portState p ≠ 2 → t.portState p = 1))

/-- Landfall starts, wipes and locks: LandfallIsStarted, WipingAndLockingPhases. -/
def Obligations.LandfallWipesAndLocks : Prop := Claims.LandfallIsStarted ∧ Claims.WipingAndLockingPhases

/-- Phases L2 and L3 (spec/15 R400, R401, spec/06 R162, spec/12 R342): a stratum's result fills its slot and is counted, a
second failed stratum of a Cliff taking its second spare and a third fencing the Cliff; a port that trains is up towards the
partner it found, one without a partner is absent, one with three failed lanes failed, and its result is kept. Neither ends
the phases while others are missing. Readings of the model: log 47, log 56, log 57, log 58. -/
def Claims.StrataAndPortsTrain : Prop :=
  (∀ (s : State) (c st : Nat) (ok cold : Bool) (r : Vector (BitVec 16) 6), s.inPhase 2 = true ∨ s.inPhase 3 = true → c < 20 → st < 256 →
    tget none (s.op 1).results (256 * c + st) = none → (s.op 1).slots = 7981 → s.landfall.strata + 1 ≠ 5120 → s.islandFenced (74 + c) = false →
    s.cliffFenced c = false →
    let bad := tget 0 s.landfall.failedStrata c + (if ok then 0 else 1)
    let filled := fun (t : State) (code : BitVec 16) (spare : Nat) =>
      tget none (t.op 1).results (256 * c + st) = some (codeBytes code ++ natLE 1 spare ++ [0] ++ r.toList.flatMap fun x => natLE 2 x.toNat)
      ∧ (t.op 1).filled = (s.op 1).filled + 1 ∧ t.landfall.strata = s.landfall.strata + 1 ∧ tget 0 t.landfall.failedStrata c = bad
      ∧ (t.op 1).state = 2 ∧ t.mem = s.mem
    ∃ t, exec (.stratumTrainingDone c st ok cold r) s = .next t
      ∧ (ok = true → bad ≤ 2 → filled t St.ok 0 ∧ t.cliffFenced c = false)
      ∧ (ok = false → bad ≤ 2 → filled t St.ok bad ∧ t.cliffFenced c = false ∧ (t.cliff c).spareStrata = bad)
      ∧ (ok = false → bad = 3 → filled t St.fenced 0 ∧ t.cliffFenced c = true))
  ∧ (∀ (s : State) (p : Nat) (serial : BitVec 256) (pos back lanes : Nat) (cold : Bool), s.inPhase 2 = true ∨ s.inPhase 3 = true → p < 18 →
    tget none s.landfall.outcomes p = none → s.landfall.portsDone + 1 ≠ 18 → s.islandFenced 95 = false → s.islandFenced (96 + p) = false → s.portState p = 1 →
    pos < 64 → back < 18 →
    ((maskLanes lanes).length = 0 →
      ∃ t, exec (.portTrainingDone p (.trained serial pos back lanes cold)) s = .next t ∧ t.portState p = 2 ∧ t.portNeighbour p = pos
        ∧ byteField (t.rd Pd.portStatus p) 3 1 = back ∧ t.landfall.portsDone = s.landfall.portsDone + 1
        ∧ tget none t.landfall.outcomes p = some (.trained serial pos back lanes cold) ∧ t.mem = s.mem)
    ∧ (∃ t, exec (.portTrainingDone p .absent) s = .next t ∧ t.portState p = 0 ∧ t.landfall.portsDone = s.landfall.portsDone + 1 ∧ t.mem = s.mem)
    ∧ (3 ≤ (maskLanes lanes).length →
      ∃ t, exec (.portTrainingDone p (.trained serial pos back lanes cold)) s = .next t ∧ t.portState p = 4 ∧ t.landfall.failure = true
        ∧ tget none t.landfall.outcomes p = some .failed ∧ t.mem = s.mem))

/-- Phase L4 (spec/15 R402): a room or an engine that passes fills its slot, one that fails is fenced as well; a column's
result is kept until all are tested. Reading of the model: log 62. -/
def Claims.UnitsAreTested : Prop :=
  ∀ s : State, s.inPhase 4 = true → (s.op 1).slots = 7981 → s.landfall.tests + 1 < 2640 →
    (∀ r, r < 1536 → tget none (s.op 1).results (6340 + r) = none →
      (∃ t, exec (.l4TestDone (.room r) none) s = .next t ∧ tget none (t.op 1).results (6340 + r) = some (roomRecord none)
        ∧ t.landfall.tests = s.landfall.tests + 1 ∧ t.landfall.failure = s.landfall.failure ∧ t.pd = s.pd ∧ t.mem = s.mem)
      ∧ (∀ f, ∃ t, exec (.l4TestDone (.room r) (some f)) s = .next t ∧ t.roomFenced r = true ∧ t.landfall.failure = true
        ∧ tget none (t.op 1).results (6340 + r) = some (roomRecord (some f)) ∧ t.mem = s.mem))
    ∧ (∀ n, n < 64 → tget none (s.op 1).results (7876 + n) = none →
      (∃ t, exec (.l4TestDone (.engine n) none) s = .next t ∧ tget none (t.op 1).results (7876 + n) = some (engineRecord 0)
        ∧ t.landfall.tests = s.landfall.tests + 1 ∧ t.pd = s.pd ∧ t.mem = s.mem)
      ∧ (∀ f, (s.engine n).running = none → ∃ t, exec (.l4TestDone (.engine n) (some f)) s = .next t ∧ t.engineFenced n = true
        ∧ t.landfall.failure = true ∧ t.mem = s.mem))
    ∧ (∀ j, j < 1040 → tget 0 s.landfall.columns j = 0 → s.landfall.columns.length + 1 < 1040 →
      ∃ t, exec (.l4TestDone (.column j) none) s = .next t ∧ tget 0 t.landfall.columns j = 1 ∧ { t with landfall := s.landfall } = s
        ∧ { t.landfall with columns := s.landfall.columns } = s.landfall)

/-- Landfall trains strata and ports and tests units: StrataAndPortsTrain, UnitsAreTested. -/
def Obligations.LandfallTrainsAndTests : Prop := Claims.StrataAndPortsTrain ∧ Claims.UnitsAreTested

/-- Phases L5 and L6 (spec/15 R403 to R405, Tables 15-3 and 15-4, spec/12 R329): TOPOLOGY_AGREEMENT judges every port as its partner having
reached L5 and begins L6, as does L5_WAIT_EXPIRY; each logical port is then backed by the first port, those that trained before the others,
that leads to its neighbour and has not TOPOLOGY, and is vacant where none does; LANDFALL_L6_DONE keeps the warm record, ends the run DONE with PARTIAL,
WARM_REJECTED or OK, and declares READY, or FAILED with DEGRADED where a minimum is not met. Readings of the model: log 60,
log 61. -/
def Claims.TopologyThenReady : Prop :=
  (∀ s : State, s.inPhase 5 = true →
    let order := (List.range 18).filter (fun p => isTrained (s.found p)) ++ (List.range 18).filter fun p => !isTrained (s.found p)
    let code := fun (p : Nat) => s.judge p (s.found p) true
    let done := fun (t : State) => t.inPhase 6 = true ∧ t.rd Pd.phaseTimes 5 = (s.time - s.landfall.phaseStart) % 2 ^ 32 ∧ t.mem = s.mem
      ∧ ∀ l, l < 18 → t.rd Pd.logicalPorts l = (order.find? fun p => s.backed p (s.found p) == l && code p != St.topology).getD 0xFF
    (∃ t, exec .topologyAgreement s = .next t ∧ done t ∧ t.fresh = s.fresh
        ∧ t.landfall.failure = (s.landfall.failure || (List.range 18).any fun p => code p == St.topology || code p == St.fenced))
    ∧ (∃ t, exec .l5WaitExpiry s = .next t ∧ done t))
  ∧ (∀ s : State, s.inPhase 6 = true → quiet s →
    (s.wanting true = true → ∃ t, exec .landfallL6Done s = .next t ∧ (t.op 1).state = 4 ∧ (t.op 1).code = St.degraded ∧ t.reg Pd.ready = s.reg Pd.ready)
    ∧ (s.wanting true = false →
      ∃ t, exec .landfallL6Done s = .next t ∧ t.reg Pd.ready = 1 ∧ t.power.routed = true ∧ (t.op 1).state = 3 ∧ t.warmRecord = some s.warmNow
        ∧ (t.op 1).code = (if s.landfall.failure then St.partialRun else if s.landfall.kind = 3 then St.warmRejected else St.ok) ∧ t.mem = s.mem))

/-- Self-tests (spec/15 R409, R410): an accepted START whose units are none of them fenced is answered with its run number,
OK and RUNNING where a unit's test may start at once, else DEFERRED; an argument the kind does not permit is refused.
SELF_TEST_BEGIN starts every test that may, and SELF_TEST_UNIT_DONE of a unit that passes fills its slot, the last one ending
the run. Readings of the model: log 126, log 128. -/
def Claims.SelfTestsRun : Prop :=
  (∀ (s : State) (o : Origin) (kind : Nat) (first count : BitVec 16) (role : Role) (e : EntryInfo), 1 ≤ kind → kind ≤ 6 →
    let a := if kind = 1 then 0 else first.toNat
    let n := if kind = 1 then 0 else count.toNat
    let i : Instr := if kind = 1 then .selfTestColumns o else if kind = 2 then .selfTestEngines o first count
      else if kind = 3 then .selfTestRooms o first count else if kind = 4 then .stratumRecalibration o first count
      else if kind = 5 then .roomScrub o first count else .causewayEyeCheck o first count
    let q := ownWrite o Pd.selfTestStart 0 (natLE 2 kind ++ natLE 2 a ++ natLE 2 n ++ [0, 0])
    let x : SelfTest := { kind := kind, first := a, count := n, started := [], failed := false }
    let now := (List.range x.slots).filter fun k => s.testTargetIdle x k
    admitted s q role e = true →
    (testArgOk kind a n = true → s.opBusy 2 = false → s.isReady = true → (∀ k, k < x.slots → s.testFenced x k = false) →
      ∃ t, exec i s = .next t
        ∧ t.out = s.out ++ reply s q (if now = [] then St.deferred else St.ok) (natLE 4 (((s.op 2).run + 1) % 2 ^ 32))
        ∧ (t.op 2).state = (if now = [] then 1 else 2) ∧ (t.op 2).slots = x.slots ∧ (t.op 2).filled = 0
        ∧ t.selfTest = some { x with started := now } ∧ t.mem = s.mem)
    ∧ (testArgOk kind a n = false →
      ∃ t, exec i s = .next t ∧ t.out = s.out ++ reply s q St.invalidValue [] ∧ t.selfTest = s.selfTest ∧ t.ops = s.ops))
  ∧ (∀ (s : State) (x : SelfTest), s.selfTest = some x →
    let now := (s.testsToStart x).filter fun k => s.testTargetIdle x k
    ∃ t, exec .selfTestBegin s = .next t ∧ (now = [] → t = s)
      ∧ (now ≠ [] → t.selfTest = some { x with started := x.started ++ now } ∧ (t.op 2).state = (if (s.op 2).state = 1 then 2 else (s.op 2).state)
          ∧ t.mem = s.mem))
  ∧ (∀ (s : State) (x : SelfTest) (slot : Nat) (record : List Byte), quiet s → s.selfTest = some x → slot ∈ x.started → slot < (s.op 2).slots →
    tget none (s.op 2).results slot = none →
    ∃ t, exec (.selfTestUnitDone slot none record) s = .next t
      ∧ (tget none (t.op 2).results slot).map (fun r => r.take 2) = some [0, 0]
      ∧ ((s.op 2).filled + 1 ≠ x.slots → t.selfTest = some { x with started := x.started.filter fun i => i != slot } ∧ (t.op 2).state = (s.op 2).state)
      ∧ ((s.op 2).filled + 1 = x.slots → t.selfTest = none ∧ (t.op 2).state = 3 ∧ (t.op 2).code = (if x.failed then St.partialRun else St.ok)))

/-- Landfall agrees on the topology and declares READY; self-tests run: TopologyThenReady, SelfTestsRun. -/
def Obligations.LandfallEndsAndSelfTestsRun : Prop := Claims.TopologyThenReady ∧ Claims.SelfTestsRun

/-! ### Chapter 16: the sea state, stowing and restoring -/

/-- SEA_STATE_UPDATE once the firmware runs (spec/16 R413, R414, Table 16-1): the eight readings and their scores are those
of the table, the level rises at once to the highest score and falls by one after 100 updates with a lower one, and the peak
is kept. A change makes an entry and, across 5 or 8, vector 2. A level that reaches 5 asks every AUTO partition that runs for
a stow at its next step, one that reaches 8 at its present step (R415). Before the firmware runs the model does nothing (a
choice of the model, log 135). Readings of the model: log 133, log 134. -/
def Obligations.SeaStateIsScored : Prop :=
  ∀ (s : State) (mv : Nat),
    (s.power.step < 3 → exec (.seaStateUpdate mv) s = .next s)
    ∧ (3 ≤ s.power.step →
      let old : Nat × Nat × Nat := if s.health.history.length < 100 then (0, 0, 0) else s.health.history.headD (0, 0, 0)
      let now := s.healthTotals
      let x := fun (i : Nat) => [bit01 ((s.reg Pd.supplyFlags).testBit 0), mv % 2 ^ 32, now.1 - old.1, s.sparesWorst, (now.2.1 - old.2.1) / 1000,
        s.counterTotal Pd.laneFailures, now.2.2 - old.2.2, (s.hottest - 85000).toNat].getD i 0
      let score := fun (i : Nat) => if i = 0 then x 0 * s.reg Pd.supplyLevel else min 9 (x i * s.rd Pd.weights i / 65536)
      let raw := (List.range 8).foldl (fun m i => max m (score i)) 0
      let level := s.reg Pd.seaState
      let next := if level < raw then raw else if raw < level ∧ s.health.below + 1 = 100 then level - 1 else level
      (∃ t, exec (.seaStateUpdate mv) s = .next t ∧ t.reg Pd.inputRipple = mv % 2 ^ 32 ∧ t.mem = s.mem
        ∧ (∀ i, i < 8 → t.rd Pd.inputReadings i = min (x i) (2 ^ 32 - 1) ∧ t.rd Pd.inputScores i = score i)
        ∧ t.reg Pd.seaState = next ∧ t.reg Pd.seaStatePeak = max (s.reg Pd.seaStatePeak) next
        ∧ t.reg Pd.supplyFlags = (if 400 < mv then s.reg Pd.supplyFlags ||| 8 else s.reg Pd.supplyFlags)
        ∧ (next = level → { t with pd := s.pd, health := s.health } = s
          ∧ storeFrame [Pd.inputRipple, Pd.supplyFlags, Pd.inputReadings, Pd.inputScores, Pd.seaState, Pd.seaStatePeak] s t))
      ∧ (next ≠ level → (∀ p, p < 16 → s.autoPart p = false ∧ (s.stage p).stowTarget = none) → s.strand.queue.length < 256 →
        ∃ t, exec (.seaStateUpdate mv) s = .next t
          ∧ t.strand.queue = s.strand.queue ++ [occurrence s 0x04 St.ok 0 noUnit
              (padTo 8 (natLE 1 level ++ natLE 1 next) ++ (List.range 8).map fun i => BitVec.ofNat 8 (score i))]
          ∧ t.out = s.out ++ (if (level < 5 ↔ next < 5) ∧ (level < 8 ↔ next < 8) then [] else [.msix 2]))
      ∧ (∀ p, p < 16 → s.autoPart p = true → s.opActive 3 = false → (s.stage p).stowTarget = none → level < 5 → 5 ≤ next →
        ∃ t, exec (.seaStateUpdate mv) s = .next t
          ∧ (t.stage p).stowTarget = some (if 8 ≤ next then stgStep (s.stageRec p) else stgStep (s.stageRec p) + 1)))

/-- Requests to stow (spec/16 R415 to R417, R428): STOW_REQUEST asks every AUTO partition that runs for an image, the lower
of two targets kept, and no other; a Stow START whose partitions can be stowed is answered with its run number, OK and
RUNNING with the images of those whose sequencer is STOPPED or FAILED begun at once, else DEFERRED, and the others wait for
their target; an empty list, a partition that cannot be stowed or a WHEN above 1 is refused with INVALID_VALUE, a START
during a run or before its status is read with BUSY, and one during a restore with CONFLICT. Reading of the model: log 50. -/
def Claims.StowsAreAskedFor : Prop :=
  (∀ (s : State) (o : Origin) (target : BitVec 32) (role : Role) (e : EntryInfo),
    let q := ownWrite o Pd.stowRequest 0 (natLE 4 target.toNat)
    admitted s q role e = true →
    (∃ t, exec (.stowRequest o target) s = .next t ∧ (∃ l, t.out = s.out ++ l ++ reply s q St.ok []) ∧ t.mem = s.mem
      ∧ ((∀ p, p < 16 → s.autoPart p = false ∧ (s.stage p).stowTarget = none) →
        t.out = s.out ++ reply s q St.ok [] ∧ storeFrame requestCounters s t ∧ answered q.path s t)
      ∧ ∀ p, p < 16 → s.autoPart p = true → (if s.opActive 3 then s.imageOf p else none) = none →
        (t.stage p).stowTarget = some (min target.toNat ((s.stage p).stowTarget.getD target.toNat))))
  ∧ (∀ (s : State) (o : Origin) (mask : BitVec 16) (whenNext : BitVec 8) (target : BitVec 32) (role : Role) (e : EntryInfo),
    let q := ownWrite o Pd.stowStart 0 (natLE 2 mask.toNat ++ [whenNext, 0] ++ natLE 4 target.toNat)
    let still := fun (p : Nat) => stageState (s.stageRec p) = 0 ∨ stageState (s.stageRec p) = 3
    let names := fun (p : Nat) => p < 16 ∧ mask.toNat.testBit p = true
    let refused := fun (c : BitVec 16) => ∃ t, exec (.stowStart o mask whenNext target) s = .next t ∧ t.out = s.out ++ reply s q c []
      ∧ t.ops = s.ops ∧ t.stow = s.stow ∧ t.mem = s.mem
    admitted s q role e = true →
    (mask ≠ 0 → whenNext.toNat ≤ 1 → (∀ p, names p → s.stowable p = true) → s.opBusy 3 = false → s.opActive 4 = false →
      ∃ t, exec (.stowStart o mask whenNext target) s = .next t ∧ t.mem = s.mem
        ∧ (∀ p, names p → still p → ∃ i, t.imageOf p = some i ∧ i.step = stgStep (s.stageRec p) ∧ i.started = s.time ∧ i.ended = none)
        ∧ (∀ p, names p → ¬ still p → t.imageOf p = none ∧
            let asked := if target = 0 then stgStep (s.stageRec p) + (1 - whenNext.toNat) else target.toNat
            (t.stage p).stowTarget = some (min asked ((s.stage p).stowTarget.getD asked)))
        ∧ ((∃ p, names p ∧ still p) → (t.op 3).state = 2
            ∧ ∃ l, t.out = s.out ++ l ++ reply s q St.ok (natLE 4 (((s.op 3).run + 1) % 2 ^ 32)))
        ∧ ((∀ p, names p → ¬ still p) → (t.op 3).state = 1
            ∧ t.out = s.out ++ reply s q St.deferred (natLE 4 (((s.op 3).run + 1) % 2 ^ 32))))
    ∧ (mask = 0 ∨ 1 < whenNext.toNat ∨ (∃ p, names p ∧ s.stowable p = false) → refused St.invalidValue)
    ∧ (mask ≠ 0 → whenNext.toNat ≤ 1 → (∀ p, names p → s.stowable p = true) →
        (s.opBusy 3 = true → refused St.busy) ∧ (s.opBusy 3 = false → s.opActive 4 = true → refused St.conflict)))

/-- STOW_IMAGE_DONE (spec/16 R421, R430, R431): an unreachable partner is replaced once by another candidate, to which the
image is sent anew; else the image ends, its LAST_STOW telling OK where a destination on another feed or the host holds it,
SINGLE_FEED where only a partner on the same feed does, and STOW_INCOMPLETE where none does, and the run of one image ends
with that code. Where no image is under way nothing changes. What the operands stand for is the choice of the model (log 6),
as is that STOW_INCOMPLETE stands alone (log 178). Reading of the model: log 41. -/
def Claims.ImagesEnd : Prop :=
  (∀ (s : State) (part : Nat) (x : StowOutcome), (∀ i, s.imageOf part = some i → i.ended ≠ none) → exec (.stowImageDone part x) s = .next s)
  ∧ (∀ (s : State) (part : Nat) (x : StowOutcome) (i : StowImage), part < 16 → s.imageOf part = some i → i.ended = none →
    let host := i.toHost && (i.hostDone || x.host)
    let other := (s.choosePartner (s.stowCfg part) (i.tried ++ (i.partner.map fun e => e.1).toList)).2.1
    let again := x.unreachable = true ∧ i.partner ≠ none ∧ i.restarted = false
    let code := fun (partner : Bool) => if (partner = true ∧ i.sameFeed = false) ∨ host = true then St.ok
      else if partner = true then St.singleFeed else St.stowIncomplete
    let ends := fun (partner : Bool) => ∃ t, exec (.stowImageDone part x) s = .next t
      ∧ t.rd Pd.lastStow part = leNat (codeBytes (code partner) ++ natLE 1 (bit01 partner + 2 * bit01 host) ++ [0] ++ natLE 4 i.step
          ++ natLE 4 i.number ++ natLE 4 (s.time - i.started) ++ natLE 8 s.time)
      ∧ ((∀ p, p < 16 → (s.stage p).stowTarget = none) → (∃ r n, s.stow.run = some r ∧ r.parts = [(part, n)] ∧ r.images = [i]) →
          (t.op 3).state = (if code partner = St.stowIncomplete then 4 else 3) ∧ (t.op 3).code = code partner ∧ t.stow.run = none)
    (¬ again → ends (x.partner && i.partner.isSome && !x.unreachable))
    ∧ (again → match other with
      | none => ends false
      | some y => ∃ t j, exec (.stowImageDone part x) s = .next t ∧ t.imageOf part = some j
        ∧ j.partner = some (y.1, y.2.1) ∧ j.restarted = true ∧ j.ended = none ∧ j.step = i.step ∧ j.number = i.number ∧ t.mem = s.mem))

/-- Stows are asked for, begin and end: StowsAreAskedFor, ImagesEnd. -/
def Obligations.StowsRunAndEnd : Prop := Claims.StowsAreAskedFor ∧ Claims.ImagesEnd

/-- A restore begins (spec/16 R432, R433): a START with nothing in its way is answered OK with its run number, is RUNNING, notes conflict
occasion 3 with the counters of the rooms that enter shared mode zero (spec/05 R131), and asks for the image; during a run or before its status is read it is refused with BUSY, during a stow with
CONFLICT. A line of host memory that was asked for joins what has been read; with the last one the newest whole image is chosen. -/
def Claims.RestoresReadTheImage : Prop :=
  (∀ (s : State) (o : Origin) (part source slot flags : BitVec 8) (forced : BitVec 32) (role : Role) (e : EntryInfo),
    let q := ownWrite o Pd.restoreStart 0 ([part, source, slot, flags] ++ natLE 4 forced.toNat)
    let i : Instr := .restoreStart o part source slot flags forced
    let refused := fun (c : BitVec 16) => ∃ t, exec i s = .next t ∧ t.out = s.out ++ reply s q c [] ∧ t.ops = s.ops ∧ t.stow = s.stow ∧ t.mem = s.mem
    admitted s q role e = true →
    (16 ≤ part.toNat ∨ 1 < source.toNat ∨ 1 < slot.toNat → refused St.invalidValue)
    ∧ (part.toNat < 16 → source.toNat ≤ 1 → slot.toNat ≤ 1 →
      (s.opBusy 4 = true → refused St.busy) ∧ (s.opBusy 4 = false → s.opActive 3 = true → refused St.conflict)
      ∧ (s.opBusy 4 = false → s.opActive 3 = false →
        let w := s.stageRec part.toNat
        let still := (stageState w = 0 ∨ stageState w = 3) ∧ s.listsStill part.toNat = true
          ∧ ∀ g ∈ maskGroups (cfgGroups (s.stowCfg part.toNat)), s.groupBusy g = false
        (¬ still → refused St.busy)
        ∧ (still → ∃ t r, exec i s = .next t ∧ (∃ l, t.out = s.out ++ l ++ reply s q St.ok (natLE 4 (((s.op 4).run + 1) % 2 ^ 32)))
          ∧ (t.op 4).state = 2 ∧ t.reg Pd.conflictOccasion = 3
          ∧ (∀ u, u < 1536 → t.rd Pd.conflictCounters u = if s.sharedMode u then s.rd Pd.conflictCounters u else 0) ∧ t.mem = s.mem
          ∧ t.stow.restore = some r ∧ r.part = part.toNat ∧ r.source = source.toNat ∧ r.other = (slot == 1)
          ∧ r.force = (if flags.toNat % 2 = 1 then some forced.toNat else none) ∧ r.chosen = none))))
  ∧ (∀ (s : State) (line : Nat) (bytes : List Byte),
    ((∀ r, s.stow.restore = some r → ∀ e ∈ r.lines, e.1 ≠ line) → exec (.d2hCompletion line bytes) s = .next s)
    ∧ ∀ r e, s.stow.restore = some r → (r.lines.find? fun e => e.1 == line) = some e →
      let r' := { r with lines := r.lines.erase e, bytes := tsetMany 0 r.bytes e.2 (padTo 64 bytes) }
      (r'.lines ≠ [] → ∃ t, exec (.d2hCompletion line bytes) s = .next t ∧ t.stow = { s.stow with restore := some r' }
        ∧ { t with stow := s.stow, host := s.host } = s ∧ { t.host with cacheLines := s.host.cacheLines } = s.host
        ∧ (line, false) ∈ t.host.cacheLines)
      ∧ (r'.lines = [] → r.source = 1 → r.chosen = none → (∀ x ∈ s.causeway.unacked, ∀ y ∈ x.2, ∀ k, y.purpose ≠ .restore k) →
        (r'.pick = none → ∃ t, exec (.d2hCompletion line bytes) s = .next t ∧ t.stow.restore = some r' ∧ t.out = s.out)
        ∧ ∀ sl, r'.pick = some sl → ∃ t u, exec (.d2hCompletion line bytes) s = .next t ∧ t.stow.restore = some u ∧ u.chosen = some sl
            ∧ u.bytes = r'.bytes ∧ t.mem = s.mem))

/-- RESTORE_DONE (spec/16 R433): an image that fails a check of steps 1 to 3 ends the restore FAILED with its code and
changes no memory; a block whose check value differs ends it FAILED with STOW_INCOMPLETE; else the partition's step, loss,
data cursor and keys are the image's (or the forced step), its regions hold the image's bytes, and the run is DONE with OK.
Without a restore nothing changes. Reading of the model: log 43. -/
def Claims.RestoresEnd : Prop :=
  ∀ s : State,
    (s.stow.restore = none → exec .restoreDone s = .next s)
    ∧ ∀ r, s.stow.restore = some r → r.part < 16 →
      (∀ c, s.restoreFault r = some c → ∃ t, exec .restoreDone s = .next t ∧ (t.op 4).state = 4 ∧ (t.op 4).code = c ∧ t.stow.restore = none
        ∧ t.mem = s.mem ∧ t.out = s.out ∧ t.stageRec r.part = s.stageRec r.part)
      ∧ (s.restoreFault r = none → ∀ slot, r.chosen = some slot →
        let h := r.read slot 0 4096
        let parts := s.imageParts r slot
        ((∃ b ∈ r.blocks slot, b.2 = false) → ∃ u : State, exec .restoreDone s = .next u.settle ∧ (u.op 4).state = 4
          ∧ (u.op 4).code = St.stowIncomplete ∧ u.stow.restore = none ∧ u.stageRec r.part = s.stageRec r.part)
        ∧ ((∀ b ∈ r.blocks slot, b.2 = true) → ∃ u : State, exec .restoreDone s = .next u.settle ∧ (u.op 4).state = 3 ∧ (u.op 4).code = St.ok
          ∧ u.stow.restore = none ∧ stgStep (u.stageRec r.part) = r.force.getD (listField h 16 4) % 2 ^ 32 ∧ u.rd Pd.lastLoss r.part = listField h 28 4
          ∧ u.rd Pd.dataCursor r.part = listField h 32 32 ∧ u.rd Pd.keyTable r.part = listField h 64 128 ∧ u.rd Pd.nextCursor r.part = 0
          ∧ (parts.groups = [] → parts.counters = [] → parts.regions = [] → u.mem = s.mem)
          ∧ ∀ a n, parts.groups = [] → parts.counters = [] → parts.regions = [(a, n)] →
              u.mem = (s.viewWrite a (r.read slot (8192 + parts.data) n)).mem))

/-- Restores read an image and take its state: RestoresReadTheImage, RestoresEnd. -/
def Obligations.RestoresRunAndEnd : Prop := Claims.RestoresReadTheImage ∧ Claims.RestoresEnd

/-! ### Chapter 17: the Strandline -/

/-- STRANDLINE_ENTRY (spec/17 R438, R440, R441, R444): the occurrence that has waited longest becomes the entry with the next
number, with its time, trigger, code, unit and detail, the run's number, the sea state and the life-cycle state, permanent
below number 1,024; ENTRIES_MADE counts it and it waits for flash. Occurrences dropped before are told in one OVERRUN
occurrence. A failure's entry joins event log 2 (which log it joins is PRESUMED, log 139). With nothing waiting nothing
changes. Reading of the model: log 140. -/
def Claims.OccurrencesBecomeEntries : Prop :=
  ∀ s : State,
    (s.strand.queue = [] → exec .strandlineEntry s = .next s)
    ∧ ∀ o rest, s.strand.queue = o :: rest → rest.length < 256 →
      let n := s.strand.next
      ∃ t x, exec .strandlineEntry s = .next t ∧ t.strand.unflushed = s.strand.unflushed ++ [x] ∧ t.strand.next = n + 1
        ∧ n < t.strand.reserved ∧ x.number = n ∧ x.time = o.time ∧ x.trigger = o.trigger ∧ x.code = o.code
        ∧ x.unitKind = o.unitKind ∧ x.unit = o.unit ∧ x.detail = padTo 64 o.detail ∧ x.run = s.reg Pd.landfallCount % 2 ^ 32
        ∧ x.seaState = s.reg Pd.seaState ∧ x.lifeCycle = s.reg Pd.lifeCycle ∧ (x.permanent = true ↔ n < 1024)
        ∧ x.watch.length = (s.watchList.filterMap watchedKey).length ∧ (s.reg Pd.islandFenced = 0 → x.incomplete = false)
        ∧ t.reg Pd.entriesMade = (s.reg Pd.entriesMade + 1) % 2 ^ 64 ∧ storeFrame [Pd.entriesMade] s t ∧ t.strand.flash = s.strand.flash
        ∧ (s.strand.dropped = 0 → t.strand.queue = rest)
        ∧ (s.strand.dropped ≠ 0 → t.strand.dropped = 0
            ∧ t.strand.queue = rest ++ [occurrence s 0x0B St.ok 0 noUnit (natLE 8 s.strand.dropped)])
        ∧ (o.trigger = 0x01 → s.host.logs.length = 4 → (s.host.logs.getD 2 {}).records.length < 64 →
            (t.host.logs.getD 2 {}).records = (s.host.logs.getD 2 {}).records ++ [(n, o.code)])
        ∧ { t with pd := s.pd, strand := s.strand, host := s.host, fresh := s.fresh, out := s.out } = s

/-- STRANDLINE_FLASH_WRITE (spec/17 R437, R445, R449): the entry that has waited longest is written to flash, taking the
place of the entry with its slot; the CLEAR whose entry it is gets its response then, and a warning flush ends when nothing
waits. Readings of the model: log 136, log 137. -/
def Claims.EntriesReachFlash : Prop :=
  ∀ s : State,
    (s.strand.unflushed = [] → ∃ t, exec .strandlineFlashWrite s = .next t ∧ t.strand.flash = s.strand.flash ∧ { t with strand := s.strand } = s
      ∧ (s.strand.queue = [] → t.strand.flushing = false))
    ∧ ∀ x rest, s.strand.unflushed = x :: rest →
      let flash := (s.strand.flash.filter fun f => strandSlot f.number != strandSlot x.number) ++ [{ x with warningFlush := s.strand.flushing }]
      (∃ t, exec .strandlineFlashWrite s = .next t ∧ t.strand.unflushed = rest ∧ t.strand.flash = flash ∧ t.strand.next = s.strand.next
        ∧ t.strand.queue = s.strand.queue ∧ t.pd = s.pd
        ∧ (t.strand.flushing = true ↔ s.strand.flushing = true ∧ ¬ (rest = [] ∧ s.strand.queue = []))
        ∧ { t with strand := s.strand, out := s.out, gdp := s.gdp, causeway := s.causeway } = s)
      ∧ ((∀ p ∈ s.gdp.inflight, p.wait ≠ .clear x.number) →
          ∃ t, exec .strandlineFlashWrite s = .next t ∧ { t with strand := s.strand } = s)
      ∧ ∀ p, (s.gdp.inflight.find? fun p => p.wait == .clear x.number) = some p →
          ∃ t, exec .strandlineFlashWrite s = .next t ∧ t.out = s.out ++ reply s p.req St.ok [] ∧ t.gdp.inflight = s.gdp.inflight.erase p
            ∧ causewayKept p.req.path s t

/-- Occurrences become entries and reach flash (which event log: PRESUMED): OccurrencesBecomeEntries, EntriesReachFlash. -/
def Obligations.StrandlineKeepsEntries : Prop := Claims.OccurrencesBecomeEntries ∧ Claims.EntriesReachFlash

/-- Reading entries (spec/17 R447, R448): a write of CURSOR makes its source's cursor the most recently used of at most 16; a read of WINDOW
answers the bytes of the entry it names, the number with zeros where no such entry is held. -/
def Claims.CursorsOpenWindows : Prop :=
  (∀ (s : State) (o : Origin) (auth : Auth) (number : BitVec 64) (role : Role) (e : EntryInfo),
    let q := ownWrite o Pd.cursor 0 (natLE 8 number.toNat) auth
    (match auth with
      | .unsigned => admitted s q role e = true
      | .signed _ _ => admittedSigned s q role e = true) →
    ∃ t c, exec (.cursor o auth number) s = .next t ∧ t.out = s.out ++ asked q ++ reply s q St.ok []
      ∧ t.strand = { s.strand with cursors := (c :: s.strand.cursors.filter fun x => x.source != pathSource q.path).take 16 }
      ∧ c.source = pathSource q.path ∧ c.entry = number.toNat ∧ c.signed = (if auth = .unsigned then none else some s.time)
      ∧ storeFrame requestCounters s t ∧ t.mem = s.mem)
  ∧ (∀ (s : State) (o : Origin) (offset length : Nat) (role : Role) (e : EntryInfo),
    let q := ownReq o 1 Pd.window offset length [] .unsigned
    let n := (s.cursorOf (pathSource q.path)).elim ((s.strand.next + 2 ^ 64 - 1) % 2 ^ 64) fun c => c.entry
    let window := match s.strand.held.find? fun x => x.number == n with
      | some x => x.bytes
      | none => padTo 512 (natLE 8 n)
    admitted s q role e = true → offset + length ≤ 512 →
    ∃ t, exec (.window o offset length) s = .next t ∧ t.out = s.out ++ reply s q St.ok ((window.drop offset).take (if length = 0 then 512 - offset else length))
      ∧ storeFrame requestCounters s t ∧ t.strand.unflushed = s.strand.unflushed ∧ t.strand.flash = s.strand.flash ∧ t.mem = s.mem)

/-- A write of SOFTWARE_EVENT makes an occurrence with what was written (spec/17 R440); a CLEAR up to a number (R449) below
the oldest circulating entry changes nothing, else it drops the circulating entries up to it, keeps the permanent ones,
counts itself, and makes the CLEAR entry that follows, whose writing to flash its response waits for; a write of WATCH_LIST
that leaves a list within the two rules of R442 is kept, its response waiting for flash, and any other is refused with
INVALID_VALUE. Readings of the model: log 4, log 138. -/
def Claims.SoftwareWritesTheStrandline : Prop :=
  (∀ (s : State) (o : Origin) (bytes : List Byte) (role : Role) (e : EntryInfo),
    let q := ownWrite o Pd.softwareEvent 0 bytes
    admitted s q role e = true → s.strand.queue.length < 256 →
    ∃ t, exec (.softwareEvent o bytes) s = .next t ∧ t.out = s.out ++ reply s q St.ok []
      ∧ t.strand = { s.strand with queue := s.strand.queue ++ [occurrence s 0x08 St.ok 0 noUnit bytes] }
      ∧ storeFrame requestCounters s t ∧ { t with pd := s.pd, out := s.out, gdp := s.gdp, strand := s.strand, causeway := s.causeway } = s ∧ causewayKept q.path s t)
  ∧ (∀ (s : State) (o : Origin) (auth : Auth) (upTo : BitVec 64) (role : Role) (e : EntryInfo),
    let q := ownWrite o Pd.clear 0 (natLE 8 upTo.toNat) auth
    let stay := fun (l : List Entry) => l.filter fun x => !(decide (1024 ≤ x.number) && decide (x.number ≤ upTo.toNat))
    admittedSigned s q role e = true →
    (upTo.toNat < s.strand.oldest → ∃ t, exec (.clear o auth upTo) s = .next t ∧ t.out = s.out ++ asked q ++ reply s q St.ok [] ∧ t.strand = s.strand)
    ∧ (s.strand.oldest ≤ upTo.toNat →
      ∃ t x, exec (.clear o auth upTo) s = .next t ∧ t.strand.flash = stay s.strand.flash
        ∧ t.strand.unflushed = stay s.strand.unflushed ++ [x] ∧ x.trigger = 0x09 ∧ x.number = s.strand.next ∧ x.time = s.time
        ∧ t.strand.next = s.strand.next + 1 ∧ t.reg Pd.clears = (s.reg Pd.clears + 1) % 2 ^ 32
        ∧ (∃ b, t.gdp.inflight = s.gdp.inflight ++ [{ req := q, wait := .clear s.strand.next, before := b }])
        ∧ (t.out = s.out ++ asked q ∨ t.out = s.out ++ asked q ++ [.msix 3]) ∧ t.mem = s.mem))
  ∧ (∀ (s : State) (o : Origin) (offset : Nat) (bytes : List Byte) (role : Role) (e : EntryInfo),
    let q := ownWrite o Pd.watchList offset bytes
    let old := (List.range 48).flatMap fun i => natLE 4 (s.rd Pd.watchList i)
    let new := old.take offset ++ bytes ++ old.drop (offset + bytes.length)
    let record := fun (i : Nat) => let w := listField new (4 * i) 4; bits w 8 24 * 256 + w % 2
    admitted s q role e = true → offset + bytes.length ≤ 192 →
    (watchOk ((List.range 48).map record) = true → ∃ t, exec (.watchList o offset bytes) s = .next t ∧ t.out = s.out
        ∧ (∀ i, i < 48 → t.rd Pd.watchList i = record i) ∧ storeFrame (Pd.watchList :: requestCounters) s t
        ∧ ∃ b, t.gdp.inflight = s.gdp.inflight ++ [{ req := q, wait := .flash, before := b }])
    ∧ (watchOk ((List.range 48).map record) = false → ∃ t, exec (.watchList o offset bytes) s = .next t
        ∧ t.out = s.out ++ reply s q St.invalidValue [] ∧ storeFrame (Pd.refused :: Pd.lastRefusal :: requestCounters) s t))

/-- Cursors open windows; software writes the Strandline: CursorsOpenWindows, SoftwareWritesTheStrandline. -/
def Obligations.StrandlineIsReadAndWritten : Prop := Claims.CursorsOpenWindows ∧ Claims.SoftwareWritesTheStrandline

/-! ### Chapter 18: life cycle, firmware images, attestation, the test port -/

/-- A request the Harbour takes up whose signature, where it has one, is accepted for LIFECYCLE_REQUEST: made under the officer's key or, with a
return key staged, under that one (spec/18 R453, R454, R463). -/
def mayAsk (s : State) (q : Req) (role : Role) (e : EntryInfo) : Bool :=
  match q.auth with
  | .unsigned => admitted s q role e
  | .signed nonce verifies =>
    taken s q role && !s.power.romOnly && entryInfo q.key == some e && (s.reg Pd.soKey != 0 || s.security.returnOk)
      && verifies && nonce.toNat == s.security.challenge && (s.entryChecks .officer true e q).isNone

/-- Life-cycle transitions (spec/18 R453 to R455, Table 18-1): a permitted one, with no long operation of stowing, restoring,
refreshing or copying under way, is answered OK; the state is the one asked for, an entry with trigger 0x07 is to be made,
and, unless the module is TRIPPED (log 163), a module reset follows that keeps device memory until its Landfall wipes it, the disabling of key derivation for SCRAPPED
included. One that is not permitted is refused with LIFECYCLE_DENIED, one during such an operation with BUSY, and neither
changes the state. Readings of the model: log 97, log 143, log 144. -/
def Claims.LifeCycleMovesForward : Prop :=
  ∀ (s : State) (o : Origin) (auth : Auth) (target : Nat) (role : Role) (e : EntryInfo), 1 ≤ target → target ≤ 4 → s.tablesOk →
    let q := ownWrite o Pd.lifecycleRequest 0 (natLE 1 target) auth
    let i : Instr := if target = 1 then .lifecycleToProvisioned o auth else if target = 2 then .lifecycleToMission o auth
      else if target = 3 then .lifecycleToReturn o auth else .lifecycleToScrapped o auth
    let now := s.reg Pd.lifeCycle
    let signed := auth ≠ .unsigned
    let officer := signed ∧ s.security.returnOk = false
    let permitted := (now = 0 ∧ target = 1 ∧ s.reg Pd.identityCertificates ≠ 0) ∨ (now = 1 ∧ target = 2 ∧ officer ∧ s.reg Pd.soKey ≠ 0)
      ∨ (now = 2 ∧ target = 3 ∧ officer) ∨ (now = 3 ∧ target = 1 ∧ signed ∧ s.security.returnOk = true)
      ∨ ((now = 1 ∨ now = 2) ∧ target = 4 ∧ officer) ∨ (now = 3 ∧ target = 4 ∧ signed)
    let under := s.opActive 3 = true ∨ s.opActive 4 = true ∨ s.opActive 5 = true ∨ s.opActive 6 = true
    mayAsk s q role e = true →
    (permitted → ¬ under → s.reg Pd.powerState ≠ 3 → (∀ p ∈ s.gdp.inflight, p.wait ≠ .flash) → ∃ t, exec i s = .next t ∧ t.reg Pd.lifeCycle = target ∧ (∃ l, t.out = s.out ++ asked q ++ reply s q St.ok [] ++ l)
      ∧ t.power.step = (if 38000 ≤ s.power.inputMv ∧ s.power.pwrgood = true ∧ s.power.resetN = true then 2 else 1)
      ∧ t.mem = s.mem ∧ t.time = s.time ∧ t.reg Pd.ready = 0 ∧ (target = 4 → t.security.keyDisabled = true)
      ∧ (s.strand.queue.length < 255 → occurrence s 0x07 St.ok 0 noUnit [] ∈ t.strand.queue)
      ∧ (now = 3 → target = 1 → t.reg Pd.soKey = 0))
    ∧ (permitted → ¬ under → s.reg Pd.powerState = 3 → ∃ t, exec i s = .next t ∧ t.reg Pd.lifeCycle = target ∧ t.power = s.power
      ∧ t.out = s.out ++ asked q ++ reply s q St.ok [] ∧ t.mem = s.mem)
    ∧ (permitted → under → ∃ t, exec i s = .next t ∧ t.out = s.out ++ asked q ++ reply s q St.busy [] ∧ t.reg Pd.lifeCycle = now ∧ t.power = s.power)
    ∧ (¬ permitted → ∃ t, exec i s = .next t ∧ t.out = s.out ++ asked q ++ reply s q St.lifecycleDenied [] ∧ t.reg Pd.lifeCycle = now ∧ t.power = s.power)

/-- RETURN_KEY_STAGE (spec/18 R454): a piece stands where it was written, and the key counts once all its 1,952 bytes have
been written and its digest is the fused one. Reading of the model: log 7. -/
def Claims.ReturnKeyIsStaged : Prop :=
  ∀ (s : State) (o : Origin) (offset : Nat) (bytes : List Byte) (ok : Bool) (role : Role) (e : EntryInfo),
    let q := ownWrite o Pd.returnKeyStage offset bytes
    let written := s.security.returnBytes ||| ((2 ^ bytes.length - 1) * 2 ^ offset)
    admitted s q role e = true → offset < 1952 →
    ∃ t, exec (.returnKeyStage o offset bytes ok) s = .next t ∧ t.out = s.out ++ reply s q St.ok []
      ∧ (∀ k, k < bytes.length → tget 0 t.security.returnKey (offset + k) = bytes.getD k 0) ∧ t.security.returnBytes = written
      ∧ (t.security.returnOk = true ↔ written = 2 ^ 1952 - 1 ∧ ok = true) ∧ storeFrame requestCounters s t
      ∧ { t with pd := s.pd, out := s.out, gdp := s.gdp, security := s.security, causeway := s.causeway } = s ∧ causewayKept q.path s t

/-- Firmware images (spec/18 R458 to R460, PD 0x7430.04): a piece of FW_STAGE that begins where the last ended is kept, state
1 with the bytes staged; at another offset it is refused with BAD_OFFSET. FW_COMMIT of 1 answers OK and programs the bank
that does not run the module where the image passes its checks, state 2; a check it fails is told in state 4 and refused with
IMAGE_INVALID, the staged image dropped either way. FW_PROGRAM_DONE makes the bank valid and the newest, state 3. Readings of
the model: log 7, log 147, log 148. -/
def Claims.ImagesAreStagedAndCommitted : Prop :=
  (∀ (s : State) (o : Origin) (offset : Nat) (bytes : List Byte) (role : Role) (e : EntryInfo),
    let q := ownWrite o Pd.fwStage offset bytes
    let n := offset + bytes.length
    admitted s q role e = true → offset < 16777216 →
    (offset = s.security.staged → s.programming = false →
      ∃ t, exec (.fwStage o offset bytes) s = .next t ∧ t.out = s.out ++ reply s q St.ok [] ∧ t.security.staged = n
        ∧ (∀ k, k < bytes.length → tget 0 t.security.stage (offset + k) = bytes.getD k 0)
        ∧ (offset ≠ 0 → ∀ k, k < offset → tget 0 t.security.stage k = tget 0 s.security.stage k)
        ∧ t.reg Pd.fwState = 1 + n * 2 ^ 32 ∧ storeFrame (Pd.fwState :: requestCounters) s t)
    ∧ (offset = s.security.staged → s.programming = true → ∃ t, exec (.fwStage o offset bytes) s = .next t ∧ t.out = s.out ++ reply s q St.busy []
        ∧ t.security = s.security)
    ∧ (offset ≠ s.security.staged → ∃ t, exec (.fwStage o offset bytes) s = .next t ∧ t.out = s.out ++ reply s q St.badOffset []
        ∧ t.security = s.security))
  ∧ (∀ (s : State) (o : Origin) (value : BitVec 8) (key ok : Bool) (role : Role) (e : EntryInfo),
    let q := ownWrite o Pd.fwCommit 0 [value]
    let n := s.security.staged
    let field := fun (lo len : Nat) => leNat (tgetMany 0 s.security.stage lo len)
    let shaped := 8192 ≤ n ∧ field 0 4 = 0x4D524648 ∧ field 4 1 = 1 ∧ field 5 1 = 1 ∧ field 12 4 = n - 8192
    let digest := shake256 (tgetMany 0 s.security.stage 8192 (n - 8192)) = field 24 64
    let check := if ¬ shaped then 1 else if key = false then 2 else if ¬ digest then 3 else if ok = false then 4
      else if field 8 4 < s.reg Pd.minSecurityVersion then 5 else 0
    admitted s q role e = true →
    (value ≠ 1 → ∃ t, exec (.fwCommit o value key ok) s = .next t ∧ t.out = s.out ++ reply s q St.invalidValue [] ∧ t.security = s.security)
    ∧ (value = 1 → s.programming = false →
      (check = 0 → ∃ t, exec (.fwCommit o value key ok) s = .next t ∧ t.out = s.out ++ reply s q St.ok [] ∧ t.security.staged = 0
        ∧ t.reg Pd.fwState = 2 + n * 2 ^ 32 ∧ (t.bank s.otherBank).valid = false ∧ (t.bank s.otherBank).secVersion = field 8 4
        ∧ t.bank (1 - s.otherBank) = s.bank (1 - s.otherBank) ∧ storeFrame (Pd.fwState :: requestCounters) s t)
      ∧ (check ≠ 0 → ∃ t, exec (.fwCommit o value key ok) s = .next t ∧ t.out = s.out ++ reply s q St.imageInvalid [] ∧ t.security.staged = 0
        ∧ byteField (t.reg Pd.fwState) 0 1 = 4 ∧ byteField (t.reg Pd.fwState) 1 1 = check ∧ t.security.bank0 = s.security.bank0
        ∧ t.security.bank1 = s.security.bank1)))
  ∧ (∀ s : State,
    (s.programming = true → ∃ t, exec .fwProgramDone s = .next t ∧ (t.bank s.otherBank).valid = true
      ∧ (t.bank (1 - s.otherBank)).written < (t.bank s.otherBank).written ∧ t.bank (1 - s.otherBank) = s.bank (1 - s.otherBank)
      ∧ byteField (t.reg Pd.fwState) 0 1 = 3 ∧ byteField (t.reg Pd.fwState) 8 4 = byteField (s.reg Pd.fwState) 4 4
      ∧ storeFrame [Pd.fwState] s t ∧ { t with pd := s.pd, security := s.security } = s)
    ∧ (s.programming = false → exec .fwProgramDone s = .next s))

/-- Security entries (spec/18 R461, R462, Table 18-4, PD 0x7440.01): a signed write of MIN_SECURITY_VERSION between its value
and the running image's version is kept and extends register 4, its response waiting for flash, and any other is refused with
INVALID_VALUE; a digest written to MEASUREMENT_EXTEND extends register 6 or 7: its new value is the digest of the old value
and what was written; RETIRED_LIST_CLEAR of 1 in RETURN empties the retired list, and in any other state is refused with
LIFECYCLE_DENIED. Readings of the model: log 149, log 150. -/
def Claims.SecurityEntriesAreKept : Prop :=
  (∀ (s : State) (o : Origin) (auth : Auth) (value : BitVec 32) (role : Role) (e : EntryInfo),
    let q := ownWrite o Pd.minSecurityVersion 0 (natLE 4 value.toNat) auth
    let running := s.power.booted.elim 0 fun i => (s.bank i).secVersion
    let i : Instr := .minSecurityVersion o auth value
    admittedSigned s q role e = true →
    (s.reg Pd.minSecurityVersion ≤ value.toNat → value.toNat ≤ running →
      ∃ t, exec i s = .next t ∧ t.reg Pd.minSecurityVersion = value.toNat ∧ t.out = s.out ++ asked q ∧ storeFrame (Pd.minSecurityVersion :: requestCounters) s t
        ∧ t.security.measure = s.security.measure.set 4 (shake256 (natLE 64 (s.security.measure.getD 4 0) ++ natLE 64
            (shake256 (natLE 1 (s.reg Pd.readPolicy) ++ natLE 1952 (s.reg Pd.soKey) ++ natLE 4 value.toNat))))
        ∧ ∃ b, t.gdp.inflight = s.gdp.inflight ++ [{ req := q, wait := .flash, before := b }])
    ∧ (value.toNat < s.reg Pd.minSecurityVersion ∨ running < value.toNat →
      ∃ t, exec i s = .next t ∧ t.out = s.out ++ asked q ++ reply s q St.invalidValue [] ∧ t.security.measure = s.security.measure
        ∧ t.reg Pd.minSecurityVersion = s.reg Pd.minSecurityVersion))
  ∧ (∀ (s : State) (o : Origin) (register : Bool) (digest : List Byte) (role : Role) (e : EntryInfo),
    let q := ownWrite o (Pd.measurementExtend + bit01 register) 0 digest
    let k := 6 + bit01 register
    admitted s q role e = true → digest.length = 64 →
    ∃ t, exec (.measurementExtend o register digest) s = .next t ∧ t.out = s.out ++ reply s q St.ok [] ∧ storeFrame requestCounters s t
      ∧ t.security = { s.security with measure := s.security.measure.set k (shake256 (natLE 64 (s.security.measure.getD k 0) ++ digest)) }
      ∧ { t with pd := s.pd, out := s.out, gdp := s.gdp, security := s.security, causeway := s.causeway } = s ∧ causewayKept q.path s t)
  ∧ (∀ (s : State) (o : Origin) (value : BitVec 8) (role : Role) (e : EntryInfo),
    let q := ownWrite o Pd.retiredListClear 0 [value]
    let refused := fun (c : BitVec 16) => ∃ t, exec (.retiredListClear o value) s = .next t ∧ t.out = s.out ++ reply s q c []
      ∧ storeFrame (Pd.refused :: Pd.lastRefusal :: requestCounters) s t
    admitted s q role e = true →
    (value = 1 → s.reg Pd.lifeCycle = 3 → ∃ t, exec (.retiredListClear o value) s = .next t ∧ t.out = s.out ++ reply s q St.ok []
      ∧ (∀ u, u < 8192 → t.rd Pd.retiredList u = 0) ∧ storeFrame (Pd.retiredList :: requestCounters) s t
      ∧ answered q.path s t)
    ∧ (value = 1 → s.reg Pd.lifeCycle ≠ 3 → refused St.lifecycleDenied) ∧ (value ≠ 1 → refused St.invalidValue))

/-- Life-cycle transitions and the security entries: LifeCycleMovesForward, ReturnKeyIsStaged, SecurityEntriesAreKept. -/
def Obligations.LifeCycleAndSecurity : Prop := Claims.LifeCycleMovesForward ∧ Claims.ReturnKeyIsStaged ∧ Claims.SecurityEntriesAreKept

/-- Attestation (spec/18 R465, R466) while the firmware runs: each request is answered by one SPDM response and changes no register: versions and
capabilities always; digests, certificates, measurements and challenges once algorithms are agreed; no signed response in RETURN or SCRAPPED. A
signed response ends with a nonce and a signature, which are free values. Codes and layouts are PRESUMED (log 151). -/
def Claims.AttestationIsAnswered : Prop :=
  ∀ s : State, 3 ≤ s.power.step →
    let answers := fun (i : Instr) (code : Nat) (payload : List Byte) => ∃ t, exec i s = .next t ∧ t.out = s.out ++ [.spdm code payload]
      ∧ { t with out := s.out, security := s.security, fresh := s.fresh } = s ∧ t.security.measure = s.security.measure
    let signs := fun (i : Instr) (code : Nat) (payload : List Byte) => ∃ n g : Nat, answers i code (payload ++ natLE 32 n ++ natLE 3309 g)
    let refuses := fun (i : Instr) (code : Nat) => answers i 0x7F (natLE 2 code)
    let chain := let all := s.rdBytes Pd.identityCertificates 16384 0 16384; (all.drop 4).take (listField all 0 4)
    let block := fun (i : Nat) => natLE 1 i ++ natLE 64 (s.security.measure.getD (i - 1) 0)
    let blocks := fun (b : Nat) => if b = 0xFF then [1, 2, 3, 4, 5, 6, 7, 8] else if 1 ≤ b ∧ b ≤ 8 then [b] else []
    let exposed := 3 ≤ s.reg Pd.lifeCycle ∨ s.security.keyDisabled = true
    answers .getVersion 0x04 ([1] ++ natLE 2 0x1300) ∧ answers .getCapabilities 0x61 (natLE 4 0x16)
    ∧ (∀ h a, answers (.negotiateAlgorithms h a) 0x63 (natLE 4 (if h then 0x20 else 0) ++ natLE 2 (if a then 0x41 else 0)))
    ∧ (∀ h a, ∃ t, exec (.negotiateAlgorithms h a) s = .next t ∧ t.security = { s.security with spdmNegotiated := h && a })
    ∧ (s.security.spdmNegotiated = false → refuses .getDigests 4 ∧ (∀ k o l, refuses (.getCertificate k o l) 4)
        ∧ (∀ k n, refuses (.challenge k n) 4) ∧ ∀ g b, refuses (.getMeasurements g b) 4)
    ∧ (s.security.spdmNegotiated = true →
      answers .getDigests 0x01 ([1] ++ natLE 64 (sha3 chain))
      ∧ (∀ o l, o ≤ chain.length → let part := (chain.drop o).take l
          answers (.getCertificate 0 o l) 0x02 (natLE 2 part.length ++ natLE 2 (chain.length - o - part.length) ++ part))
      ∧ (∀ k o l, k ≠ 0 ∨ chain.length < o → refuses (.getCertificate k o l) 1)
      ∧ (∀ b, b ≠ 0 → blocks b ≠ [] → answers (.getMeasurements false b) 0x60 (natLE 1 (blocks b).length ++ (blocks b).flatMap block))
      ∧ answers (.getMeasurements false 0) 0x60 (natLE 1 8)
      ∧ (exposed → (∀ k n, refuses (.challenge k n) 5) ∧ ∀ b, refuses (.getMeasurements true b) 5)
      ∧ (¬ exposed → (∀ n, signs (.challenge 0 n) 0x03 (natLE 64 (sha3 chain) ++ natLE 32 n.toNat))
        ∧ (∀ k n, k ≠ 0 → refuses (.challenge k n) 1)
        ∧ (∀ b, b ≠ 0 → blocks b ≠ [] → signs (.getMeasurements true b) 0x60 (natLE 1 (blocks b).length ++ (blocks b).flatMap block))
        ∧ signs (.getMeasurements true 0) 0x60 (natLE 1 8)
        ∧ ∀ g b, 8 < b → b ≠ 0xFF → refuses (.getMeasurements g b) 1))

/-- The test port (spec/18 R467, Table 18-5): held, it answers nothing; active, IDCODE shifts out the 32-bit identity code,
BYPASS one bit 0, ISLAND_HALT halts the clocks of the islands named and of no other, and DEBUG_ACCESS reads an entry in the
management role. Readings of the model: log 152, log 153. -/
def Claims.TestPortActsInReturn : Prop :=
  ∀ s : State,
    (s.security.tapActive = false → exec .idcode s = .next s ∧ exec .bypass s = .next s ∧ (∀ m, exec (.islandHalt m) s = .next s)
      ∧ ∀ msg, exec (.debugAccess msg) s = .next s)
    ∧ (s.security.tapActive = true →
      (exec .idcode s = .next { s with security := { s.security with tapInstr := 0x01 }, out := s.out ++ [.tap 32 (s.reg Pd.jtagIdcode)] })
      ∧ (exec .bypass s = .next { s with security := { s.security with tapInstr := 0xFF }, out := s.out ++ [.tap 1 0] })
      ∧ (∀ m : BitVec 128, ∃ t v, exec (.islandHalt m) s = .next t ∧ t.out = s.out ++ [.tap 128 v]
        ∧ (∀ k, t.security.halted.getLsbD k = (m.getLsbD k && decide (k < 116)))
        ∧ { t with out := s.out, security := s.security, fresh := s.fresh } = s)
      ∧ ∀ (msg : GdpMsg) (e : EntryInfo),
        let q := msgToReq msg .testPort false
        msg.opcode = 1 → badMessage msg = false → admitted s q .management e = true → e.type < 6 → e.records = false → e.unit = e.size → 0 < e.size →
        opRowOf q.key = none → unknownReading q.key = false → s.formedOne (pathSource .testPort) 0 q.key = none → s.formedSub q.key 0 = none →
        e.access .management ≠ 5 →
        ∃ t, exec (.debugAccess msg) s = .next t ∧ t.out = s.out ++ reply s q St.ok (natLE e.size (s.reg q.key)) ∧ t.pd = s.pd
          ∧ t.security.tapInstr = 0x10 ∧ { t with out := s.out, gdp := s.gdp, security := s.security, causeway := s.causeway } = s ∧ causewayKept q.path s t)

/-- Firmware images, attestation and the test port (SPDM layouts PRESUMED): ImagesAreStagedAndCommitted, AttestationIsAnswered,
TestPortActsInReturn. -/
def Obligations.FirmwareAttestationAndTestPort : Prop :=
  Claims.ImagesAreStagedAndCommitted ∧ Claims.AttestationIsAnswered ∧ Claims.TestPortActsInReturn
end

