-- ==== Sys2Proof/Laws/State.lean ====
section
/-!
SUPPORT. What each named update of the state leaves alone, field by field: one lemma per field per update, true by rfl.
-/
namespace Sys2Proof.Machine

variable (s : State)

/-! ### wr -/

@[simp] theorem State.wr_pending (k u v : Nat) : (s.wr k u v).pending = s.pending := rfl
@[simp] theorem State.wr_out (k u v : Nat) : (s.wr k u v).out = s.out := rfl
@[simp] theorem State.wr_time (k u v : Nat) : (s.wr k u v).time = s.time := rfl
@[simp] theorem State.wr_fresh (k u v : Nat) : (s.wr k u v).fresh = s.fresh := rfl
@[simp] theorem State.wr_mem (k u v : Nat) : (s.wr k u v).mem = s.mem := rfl
@[simp] theorem State.wr_power (k u v : Nat) : (s.wr k u v).power = s.power := rfl
@[simp] theorem State.wr_crossings (k u v : Nat) : (s.wr k u v).crossings = s.crossings := rfl
@[simp] theorem State.wr_ports (k u v : Nat) : (s.wr k u v).ports = s.ports := rfl
@[simp] theorem State.wr_gdp (k u v : Nat) : (s.wr k u v).gdp = s.gdp := rfl
@[simp] theorem State.wr_ops (k u v : Nat) : (s.wr k u v).ops = s.ops := rfl
@[simp] theorem State.wr_host (k u v : Nat) : (s.wr k u v).host = s.host := rfl
@[simp] theorem State.wr_rooms (k u v : Nat) : (s.wr k u v).rooms = s.rooms := rfl
@[simp] theorem State.wr_transposes (k u v : Nat) : (s.wr k u v).transposes = s.transposes := rfl
@[simp] theorem State.wr_cliffs (k u v : Nat) : (s.wr k u v).cliffs = s.cliffs := rfl
@[simp] theorem State.wr_badBlocks (k u v : Nat) : (s.wr k u v).badBlocks = s.badBlocks := rfl
@[simp] theorem State.wr_poisonBlocks (k u v : Nat) : (s.wr k u v).poisonBlocks = s.poisonBlocks := rfl
@[simp] theorem State.wr_unitPorts (k u v : Nat) : (s.wr k u v).unitPorts = s.unitPorts := rfl
@[simp] theorem State.wr_chartBase (k u v : Nat) : (s.wr k u v).chartBase = s.chartBase := rfl
@[simp] theorem State.wr_tlb (k u v : Nat) : (s.wr k u v).tlb = s.tlb := rfl
@[simp] theorem State.wr_repair (k u v : Nat) : (s.wr k u v).repair = s.repair := rfl
@[simp] theorem State.wr_bulk (k u v : Nat) : (s.wr k u v).bulk = s.bulk := rfl
@[simp] theorem State.wr_rebuild (k u v : Nat) : (s.wr k u v).rebuild = s.rebuild := rfl
@[simp] theorem State.wr_rebuildBase (k u v : Nat) : (s.wr k u v).rebuildBase = s.rebuildBase := rfl
@[simp] theorem State.wr_unpinning (k u v : Nat) : (s.wr k u v).unpinning = s.unpinning := rfl
@[simp] theorem State.wr_headland (k u v : Nat) : (s.wr k u v).headland = s.headland := rfl
@[simp] theorem State.wr_engines (k u v : Nat) : (s.wr k u v).engines = s.engines := rfl
@[simp] theorem State.wr_programs (k u v : Nat) : (s.wr k u v).programs = s.programs := rfl
@[simp] theorem State.wr_heads (k u v : Nat) : (s.wr k u v).heads = s.heads := rfl
@[simp] theorem State.wr_finished (k u v : Nat) : (s.wr k u v).finished = s.finished := rfl
@[simp] theorem State.wr_endings (k u v : Nat) : (s.wr k u v).endings = s.endings := rfl
@[simp] theorem State.wr_spec (k u v : Nat) : (s.wr k u v).spec = s.spec := rfl
@[simp] theorem State.wr_reruns (k u v : Nat) : (s.wr k u v).reruns = s.reruns := rfl
@[simp] theorem State.wr_lastPart (k u v : Nat) : (s.wr k u v).lastPart = s.lastPart := rfl
@[simp] theorem State.wr_refusedCtr (k u v : Nat) : (s.wr k u v).refusedCtr = s.refusedCtr := rfl
@[simp] theorem State.wr_causeway (k u v : Nat) : (s.wr k u v).causeway = s.causeway := rfl
@[simp] theorem State.wr_estuary (k u v : Nat) : (s.wr k u v).estuary = s.estuary := rfl
@[simp] theorem State.wr_stages (k u v : Nat) : (s.wr k u v).stages = s.stages := rfl
@[simp] theorem State.wr_landfall (k u v : Nat) : (s.wr k u v).landfall = s.landfall := rfl
@[simp] theorem State.wr_warmRecord (k u v : Nat) : (s.wr k u v).warmRecord = s.warmRecord := rfl
@[simp] theorem State.wr_selfTest (k u v : Nat) : (s.wr k u v).selfTest = s.selfTest := rfl
@[simp] theorem State.wr_health (k u v : Nat) : (s.wr k u v).health = s.health := rfl
@[simp] theorem State.wr_stow (k u v : Nat) : (s.wr k u v).stow = s.stow := rfl
@[simp] theorem State.wr_strand (k u v : Nat) : (s.wr k u v).strand = s.strand := rfl
@[simp] theorem State.wr_security (k u v : Nat) : (s.wr k u v).security = s.security := rfl

/-! ### emit -/

@[simp] theorem State.emit_pending (o : Output) : (s.emit o).pending = s.pending := rfl
@[simp] theorem State.emit_time (o : Output) : (s.emit o).time = s.time := rfl
@[simp] theorem State.emit_fresh (o : Output) : (s.emit o).fresh = s.fresh := rfl
@[simp] theorem State.emit_pd (o : Output) : (s.emit o).pd = s.pd := rfl
@[simp] theorem State.emit_mem (o : Output) : (s.emit o).mem = s.mem := rfl
@[simp] theorem State.emit_power (o : Output) : (s.emit o).power = s.power := rfl
@[simp] theorem State.emit_crossings (o : Output) : (s.emit o).crossings = s.crossings := rfl
@[simp] theorem State.emit_ports (o : Output) : (s.emit o).ports = s.ports := rfl
@[simp] theorem State.emit_gdp (o : Output) : (s.emit o).gdp = s.gdp := rfl
@[simp] theorem State.emit_ops (o : Output) : (s.emit o).ops = s.ops := rfl
@[simp] theorem State.emit_host (o : Output) : (s.emit o).host = s.host := rfl
@[simp] theorem State.emit_rooms (o : Output) : (s.emit o).rooms = s.rooms := rfl
@[simp] theorem State.emit_transposes (o : Output) : (s.emit o).transposes = s.transposes := rfl
@[simp] theorem State.emit_cliffs (o : Output) : (s.emit o).cliffs = s.cliffs := rfl
@[simp] theorem State.emit_badBlocks (o : Output) : (s.emit o).badBlocks = s.badBlocks := rfl
@[simp] theorem State.emit_poisonBlocks (o : Output) : (s.emit o).poisonBlocks = s.poisonBlocks := rfl
@[simp] theorem State.emit_unitPorts (o : Output) : (s.emit o).unitPorts = s.unitPorts := rfl
@[simp] theorem State.emit_chartBase (o : Output) : (s.emit o).chartBase = s.chartBase := rfl
@[simp] theorem State.emit_tlb (o : Output) : (s.emit o).tlb = s.tlb := rfl
@[simp] theorem State.emit_repair (o : Output) : (s.emit o).repair = s.repair := rfl
@[simp] theorem State.emit_bulk (o : Output) : (s.emit o).bulk = s.bulk := rfl
@[simp] theorem State.emit_rebuild (o : Output) : (s.emit o).rebuild = s.rebuild := rfl
@[simp] theorem State.emit_rebuildBase (o : Output) : (s.emit o).rebuildBase = s.rebuildBase := rfl
@[simp] theorem State.emit_unpinning (o : Output) : (s.emit o).unpinning = s.unpinning := rfl
@[simp] theorem State.emit_headland (o : Output) : (s.emit o).headland = s.headland := rfl
@[simp] theorem State.emit_engines (o : Output) : (s.emit o).engines = s.engines := rfl
@[simp] theorem State.emit_programs (o : Output) : (s.emit o).programs = s.programs := rfl
@[simp] theorem State.emit_heads (o : Output) : (s.emit o).heads = s.heads := rfl
@[simp] theorem State.emit_finished (o : Output) : (s.emit o).finished = s.finished := rfl
@[simp] theorem State.emit_endings (o : Output) : (s.emit o).endings = s.endings := rfl
@[simp] theorem State.emit_spec (o : Output) : (s.emit o).spec = s.spec := rfl
@[simp] theorem State.emit_reruns (o : Output) : (s.emit o).reruns = s.reruns := rfl
@[simp] theorem State.emit_lastPart (o : Output) : (s.emit o).lastPart = s.lastPart := rfl
@[simp] theorem State.emit_refusedCtr (o : Output) : (s.emit o).refusedCtr = s.refusedCtr := rfl
@[simp] theorem State.emit_causeway (o : Output) : (s.emit o).causeway = s.causeway := rfl
@[simp] theorem State.emit_estuary (o : Output) : (s.emit o).estuary = s.estuary := rfl
@[simp] theorem State.emit_stages (o : Output) : (s.emit o).stages = s.stages := rfl
@[simp] theorem State.emit_landfall (o : Output) : (s.emit o).landfall = s.landfall := rfl
@[simp] theorem State.emit_warmRecord (o : Output) : (s.emit o).warmRecord = s.warmRecord := rfl
@[simp] theorem State.emit_selfTest (o : Output) : (s.emit o).selfTest = s.selfTest := rfl
@[simp] theorem State.emit_health (o : Output) : (s.emit o).health = s.health := rfl
@[simp] theorem State.emit_stow (o : Output) : (s.emit o).stow = s.stow := rfl
@[simp] theorem State.emit_strand (o : Output) : (s.emit o).strand = s.strand := rfl
@[simp] theorem State.emit_security (o : Output) : (s.emit o).security = s.security := rfl

/-! ### used -/

@[simp] theorem State.used_pending : (s.used).pending = s.pending := rfl
@[simp] theorem State.used_out : (s.used).out = s.out := rfl
@[simp] theorem State.used_time : (s.used).time = s.time := rfl
@[simp] theorem State.used_pd : (s.used).pd = s.pd := rfl
@[simp] theorem State.used_mem : (s.used).mem = s.mem := rfl
@[simp] theorem State.used_power : (s.used).power = s.power := rfl
@[simp] theorem State.used_crossings : (s.used).crossings = s.crossings := rfl
@[simp] theorem State.used_ports : (s.used).ports = s.ports := rfl
@[simp] theorem State.used_gdp : (s.used).gdp = s.gdp := rfl
@[simp] theorem State.used_ops : (s.used).ops = s.ops := rfl
@[simp] theorem State.used_host : (s.used).host = s.host := rfl
@[simp] theorem State.used_rooms : (s.used).rooms = s.rooms := rfl
@[simp] theorem State.used_transposes : (s.used).transposes = s.transposes := rfl
@[simp] theorem State.used_cliffs : (s.used).cliffs = s.cliffs := rfl
@[simp] theorem State.used_badBlocks : (s.used).badBlocks = s.badBlocks := rfl
@[simp] theorem State.used_poisonBlocks : (s.used).poisonBlocks = s.poisonBlocks := rfl
@[simp] theorem State.used_unitPorts : (s.used).unitPorts = s.unitPorts := rfl
@[simp] theorem State.used_chartBase : (s.used).chartBase = s.chartBase := rfl
@[simp] theorem State.used_tlb : (s.used).tlb = s.tlb := rfl
@[simp] theorem State.used_repair : (s.used).repair = s.repair := rfl
@[simp] theorem State.used_bulk : (s.used).bulk = s.bulk := rfl
@[simp] theorem State.used_rebuild : (s.used).rebuild = s.rebuild := rfl
@[simp] theorem State.used_rebuildBase : (s.used).rebuildBase = s.rebuildBase := rfl
@[simp] theorem State.used_unpinning : (s.used).unpinning = s.unpinning := rfl
@[simp] theorem State.used_headland : (s.used).headland = s.headland := rfl
@[simp] theorem State.used_engines : (s.used).engines = s.engines := rfl
@[simp] theorem State.used_programs : (s.used).programs = s.programs := rfl
@[simp] theorem State.used_heads : (s.used).heads = s.heads := rfl
@[simp] theorem State.used_finished : (s.used).finished = s.finished := rfl
@[simp] theorem State.used_endings : (s.used).endings = s.endings := rfl
@[simp] theorem State.used_spec : (s.used).spec = s.spec := rfl
@[simp] theorem State.used_reruns : (s.used).reruns = s.reruns := rfl
@[simp] theorem State.used_lastPart : (s.used).lastPart = s.lastPart := rfl
@[simp] theorem State.used_refusedCtr : (s.used).refusedCtr = s.refusedCtr := rfl
@[simp] theorem State.used_causeway : (s.used).causeway = s.causeway := rfl
@[simp] theorem State.used_estuary : (s.used).estuary = s.estuary := rfl
@[simp] theorem State.used_stages : (s.used).stages = s.stages := rfl
@[simp] theorem State.used_landfall : (s.used).landfall = s.landfall := rfl
@[simp] theorem State.used_warmRecord : (s.used).warmRecord = s.warmRecord := rfl
@[simp] theorem State.used_selfTest : (s.used).selfTest = s.selfTest := rfl
@[simp] theorem State.used_health : (s.used).health = s.health := rfl
@[simp] theorem State.used_stow : (s.used).stow = s.stow := rfl
@[simp] theorem State.used_strand : (s.used).strand = s.strand := rfl
@[simp] theorem State.used_security : (s.used).security = s.security := rfl

/-! ### startFlush -/

@[simp] theorem State.startFlush_pending : (s.startFlush).pending = s.pending := rfl
@[simp] theorem State.startFlush_out : (s.startFlush).out = s.out := rfl
@[simp] theorem State.startFlush_time : (s.startFlush).time = s.time := rfl
@[simp] theorem State.startFlush_fresh : (s.startFlush).fresh = s.fresh := rfl
@[simp] theorem State.startFlush_pd : (s.startFlush).pd = s.pd := rfl
@[simp] theorem State.startFlush_mem : (s.startFlush).mem = s.mem := rfl
@[simp] theorem State.startFlush_power : (s.startFlush).power = s.power := rfl
@[simp] theorem State.startFlush_crossings : (s.startFlush).crossings = s.crossings := rfl
@[simp] theorem State.startFlush_ports : (s.startFlush).ports = s.ports := rfl
@[simp] theorem State.startFlush_gdp : (s.startFlush).gdp = s.gdp := rfl
@[simp] theorem State.startFlush_ops : (s.startFlush).ops = s.ops := rfl
@[simp] theorem State.startFlush_host : (s.startFlush).host = s.host := rfl
@[simp] theorem State.startFlush_rooms : (s.startFlush).rooms = s.rooms := rfl
@[simp] theorem State.startFlush_transposes : (s.startFlush).transposes = s.transposes := rfl
@[simp] theorem State.startFlush_cliffs : (s.startFlush).cliffs = s.cliffs := rfl
@[simp] theorem State.startFlush_badBlocks : (s.startFlush).badBlocks = s.badBlocks := rfl
@[simp] theorem State.startFlush_poisonBlocks : (s.startFlush).poisonBlocks = s.poisonBlocks := rfl
@[simp] theorem State.startFlush_unitPorts : (s.startFlush).unitPorts = s.unitPorts := rfl
@[simp] theorem State.startFlush_chartBase : (s.startFlush).chartBase = s.chartBase := rfl
@[simp] theorem State.startFlush_tlb : (s.startFlush).tlb = s.tlb := rfl
@[simp] theorem State.startFlush_repair : (s.startFlush).repair = s.repair := rfl
@[simp] theorem State.startFlush_bulk : (s.startFlush).bulk = s.bulk := rfl
@[simp] theorem State.startFlush_rebuild : (s.startFlush).rebuild = s.rebuild := rfl
@[simp] theorem State.startFlush_rebuildBase : (s.startFlush).rebuildBase = s.rebuildBase := rfl
@[simp] theorem State.startFlush_unpinning : (s.startFlush).unpinning = s.unpinning := rfl
@[simp] theorem State.startFlush_headland : (s.startFlush).headland = s.headland := rfl
@[simp] theorem State.startFlush_engines : (s.startFlush).engines = s.engines := rfl
@[simp] theorem State.startFlush_programs : (s.startFlush).programs = s.programs := rfl
@[simp] theorem State.startFlush_heads : (s.startFlush).heads = s.heads := rfl
@[simp] theorem State.startFlush_finished : (s.startFlush).finished = s.finished := rfl
@[simp] theorem State.startFlush_endings : (s.startFlush).endings = s.endings := rfl
@[simp] theorem State.startFlush_spec : (s.startFlush).spec = s.spec := rfl
@[simp] theorem State.startFlush_reruns : (s.startFlush).reruns = s.reruns := rfl
@[simp] theorem State.startFlush_lastPart : (s.startFlush).lastPart = s.lastPart := rfl
@[simp] theorem State.startFlush_refusedCtr : (s.startFlush).refusedCtr = s.refusedCtr := rfl
@[simp] theorem State.startFlush_causeway : (s.startFlush).causeway = s.causeway := rfl
@[simp] theorem State.startFlush_estuary : (s.startFlush).estuary = s.estuary := rfl
@[simp] theorem State.startFlush_stages : (s.startFlush).stages = s.stages := rfl
@[simp] theorem State.startFlush_landfall : (s.startFlush).landfall = s.landfall := rfl
@[simp] theorem State.startFlush_warmRecord : (s.startFlush).warmRecord = s.warmRecord := rfl
@[simp] theorem State.startFlush_selfTest : (s.startFlush).selfTest = s.selfTest := rfl
@[simp] theorem State.startFlush_health : (s.startFlush).health = s.health := rfl
@[simp] theorem State.startFlush_stow : (s.startFlush).stow = s.stow := rfl
@[simp] theorem State.startFlush_security : (s.startFlush).security = s.security := rfl

/-! ### zeroUnits -/

@[simp] theorem State.zeroUnits_pending (k n : Nat) : (s.zeroUnits k n).pending = s.pending := rfl
@[simp] theorem State.zeroUnits_out (k n : Nat) : (s.zeroUnits k n).out = s.out := rfl
@[simp] theorem State.zeroUnits_time (k n : Nat) : (s.zeroUnits k n).time = s.time := rfl
@[simp] theorem State.zeroUnits_fresh (k n : Nat) : (s.zeroUnits k n).fresh = s.fresh := rfl
@[simp] theorem State.zeroUnits_mem (k n : Nat) : (s.zeroUnits k n).mem = s.mem := rfl
@[simp] theorem State.zeroUnits_power (k n : Nat) : (s.zeroUnits k n).power = s.power := rfl
@[simp] theorem State.zeroUnits_crossings (k n : Nat) : (s.zeroUnits k n).crossings = s.crossings := rfl
@[simp] theorem State.zeroUnits_ports (k n : Nat) : (s.zeroUnits k n).ports = s.ports := rfl
@[simp] theorem State.zeroUnits_gdp (k n : Nat) : (s.zeroUnits k n).gdp = s.gdp := rfl
@[simp] theorem State.zeroUnits_ops (k n : Nat) : (s.zeroUnits k n).ops = s.ops := rfl
@[simp] theorem State.zeroUnits_host (k n : Nat) : (s.zeroUnits k n).host = s.host := rfl
@[simp] theorem State.zeroUnits_rooms (k n : Nat) : (s.zeroUnits k n).rooms = s.rooms := rfl
@[simp] theorem State.zeroUnits_transposes (k n : Nat) : (s.zeroUnits k n).transposes = s.transposes := rfl
@[simp] theorem State.zeroUnits_cliffs (k n : Nat) : (s.zeroUnits k n).cliffs = s.cliffs := rfl
@[simp] theorem State.zeroUnits_badBlocks (k n : Nat) : (s.zeroUnits k n).badBlocks = s.badBlocks := rfl
@[simp] theorem State.zeroUnits_poisonBlocks (k n : Nat) : (s.zeroUnits k n).poisonBlocks = s.poisonBlocks := rfl
@[simp] theorem State.zeroUnits_unitPorts (k n : Nat) : (s.zeroUnits k n).unitPorts = s.unitPorts := rfl
@[simp] theorem State.zeroUnits_chartBase (k n : Nat) : (s.zeroUnits k n).chartBase = s.chartBase := rfl
@[simp] theorem State.zeroUnits_tlb (k n : Nat) : (s.zeroUnits k n).tlb = s.tlb := rfl
@[simp] theorem State.zeroUnits_repair (k n : Nat) : (s.zeroUnits k n).repair = s.repair := rfl
@[simp] theorem State.zeroUnits_bulk (k n : Nat) : (s.zeroUnits k n).bulk = s.bulk := rfl
@[simp] theorem State.zeroUnits_rebuild (k n : Nat) : (s.zeroUnits k n).rebuild = s.rebuild := rfl
@[simp] theorem State.zeroUnits_rebuildBase (k n : Nat) : (s.zeroUnits k n).rebuildBase = s.rebuildBase := rfl
@[simp] theorem State.zeroUnits_unpinning (k n : Nat) : (s.zeroUnits k n).unpinning = s.unpinning := rfl
@[simp] theorem State.zeroUnits_headland (k n : Nat) : (s.zeroUnits k n).headland = s.headland := rfl
@[simp] theorem State.zeroUnits_engines (k n : Nat) : (s.zeroUnits k n).engines = s.engines := rfl
@[simp] theorem State.zeroUnits_programs (k n : Nat) : (s.zeroUnits k n).programs = s.programs := rfl
@[simp] theorem State.zeroUnits_heads (k n : Nat) : (s.zeroUnits k n).heads = s.heads := rfl
@[simp] theorem State.zeroUnits_finished (k n : Nat) : (s.zeroUnits k n).finished = s.finished := rfl
@[simp] theorem State.zeroUnits_endings (k n : Nat) : (s.zeroUnits k n).endings = s.endings := rfl
@[simp] theorem State.zeroUnits_spec (k n : Nat) : (s.zeroUnits k n).spec = s.spec := rfl
@[simp] theorem State.zeroUnits_reruns (k n : Nat) : (s.zeroUnits k n).reruns = s.reruns := rfl
@[simp] theorem State.zeroUnits_lastPart (k n : Nat) : (s.zeroUnits k n).lastPart = s.lastPart := rfl
@[simp] theorem State.zeroUnits_refusedCtr (k n : Nat) : (s.zeroUnits k n).refusedCtr = s.refusedCtr := rfl
@[simp] theorem State.zeroUnits_causeway (k n : Nat) : (s.zeroUnits k n).causeway = s.causeway := rfl
@[simp] theorem State.zeroUnits_estuary (k n : Nat) : (s.zeroUnits k n).estuary = s.estuary := rfl
@[simp] theorem State.zeroUnits_stages (k n : Nat) : (s.zeroUnits k n).stages = s.stages := rfl
@[simp] theorem State.zeroUnits_landfall (k n : Nat) : (s.zeroUnits k n).landfall = s.landfall := rfl
@[simp] theorem State.zeroUnits_warmRecord (k n : Nat) : (s.zeroUnits k n).warmRecord = s.warmRecord := rfl
@[simp] theorem State.zeroUnits_selfTest (k n : Nat) : (s.zeroUnits k n).selfTest = s.selfTest := rfl
@[simp] theorem State.zeroUnits_health (k n : Nat) : (s.zeroUnits k n).health = s.health := rfl
@[simp] theorem State.zeroUnits_stow (k n : Nat) : (s.zeroUnits k n).stow = s.stow := rfl
@[simp] theorem State.zeroUnits_strand (k n : Nat) : (s.zeroUnits k n).strand = s.strand := rfl
@[simp] theorem State.zeroUnits_security (k n : Nat) : (s.zeroUnits k n).security = s.security := rfl

/-! ### setRoom -/

@[simp] theorem State.setRoom_pending (r : Nat) (v : Room) : (s.setRoom r v).pending = s.pending := rfl
@[simp] theorem State.setRoom_out (r : Nat) (v : Room) : (s.setRoom r v).out = s.out := rfl
@[simp] theorem State.setRoom_time (r : Nat) (v : Room) : (s.setRoom r v).time = s.time := rfl
@[simp] theorem State.setRoom_fresh (r : Nat) (v : Room) : (s.setRoom r v).fresh = s.fresh := rfl
@[simp] theorem State.setRoom_pd (r : Nat) (v : Room) : (s.setRoom r v).pd = s.pd := rfl
@[simp] theorem State.setRoom_mem (r : Nat) (v : Room) : (s.setRoom r v).mem = s.mem := rfl
@[simp] theorem State.setRoom_power (r : Nat) (v : Room) : (s.setRoom r v).power = s.power := rfl
@[simp] theorem State.setRoom_crossings (r : Nat) (v : Room) : (s.setRoom r v).crossings = s.crossings := rfl
@[simp] theorem State.setRoom_ports (r : Nat) (v : Room) : (s.setRoom r v).ports = s.ports := rfl
@[simp] theorem State.setRoom_gdp (r : Nat) (v : Room) : (s.setRoom r v).gdp = s.gdp := rfl
@[simp] theorem State.setRoom_ops (r : Nat) (v : Room) : (s.setRoom r v).ops = s.ops := rfl
@[simp] theorem State.setRoom_host (r : Nat) (v : Room) : (s.setRoom r v).host = s.host := rfl
@[simp] theorem State.setRoom_transposes (r : Nat) (v : Room) : (s.setRoom r v).transposes = s.transposes := rfl
@[simp] theorem State.setRoom_cliffs (r : Nat) (v : Room) : (s.setRoom r v).cliffs = s.cliffs := rfl
@[simp] theorem State.setRoom_badBlocks (r : Nat) (v : Room) : (s.setRoom r v).badBlocks = s.badBlocks := rfl
@[simp] theorem State.setRoom_poisonBlocks (r : Nat) (v : Room) : (s.setRoom r v).poisonBlocks = s.poisonBlocks := rfl
@[simp] theorem State.setRoom_unitPorts (r : Nat) (v : Room) : (s.setRoom r v).unitPorts = s.unitPorts := rfl
@[simp] theorem State.setRoom_chartBase (r : Nat) (v : Room) : (s.setRoom r v).chartBase = s.chartBase := rfl
@[simp] theorem State.setRoom_tlb (r : Nat) (v : Room) : (s.setRoom r v).tlb = s.tlb := rfl
@[simp] theorem State.setRoom_repair (r : Nat) (v : Room) : (s.setRoom r v).repair = s.repair := rfl
@[simp] theorem State.setRoom_bulk (r : Nat) (v : Room) : (s.setRoom r v).bulk = s.bulk := rfl
@[simp] theorem State.setRoom_rebuild (r : Nat) (v : Room) : (s.setRoom r v).rebuild = s.rebuild := rfl
@[simp] theorem State.setRoom_rebuildBase (r : Nat) (v : Room) : (s.setRoom r v).rebuildBase = s.rebuildBase := rfl
@[simp] theorem State.setRoom_unpinning (r : Nat) (v : Room) : (s.setRoom r v).unpinning = s.unpinning := rfl
@[simp] theorem State.setRoom_headland (r : Nat) (v : Room) : (s.setRoom r v).headland = s.headland := rfl
@[simp] theorem State.setRoom_engines (r : Nat) (v : Room) : (s.setRoom r v).engines = s.engines := rfl
@[simp] theorem State.setRoom_programs (r : Nat) (v : Room) : (s.setRoom r v).programs = s.programs := rfl
@[simp] theorem State.setRoom_heads (r : Nat) (v : Room) : (s.setRoom r v).heads = s.heads := rfl
@[simp] theorem State.setRoom_finished (r : Nat) (v : Room) : (s.setRoom r v).finished = s.finished := rfl
@[simp] theorem State.setRoom_endings (r : Nat) (v : Room) : (s.setRoom r v).endings = s.endings := rfl
@[simp] theorem State.setRoom_spec (r : Nat) (v : Room) : (s.setRoom r v).spec = s.spec := rfl
@[simp] theorem State.setRoom_reruns (r : Nat) (v : Room) : (s.setRoom r v).reruns = s.reruns := rfl
@[simp] theorem State.setRoom_lastPart (r : Nat) (v : Room) : (s.setRoom r v).lastPart = s.lastPart := rfl
@[simp] theorem State.setRoom_refusedCtr (r : Nat) (v : Room) : (s.setRoom r v).refusedCtr = s.refusedCtr := rfl
@[simp] theorem State.setRoom_causeway (r : Nat) (v : Room) : (s.setRoom r v).causeway = s.causeway := rfl
@[simp] theorem State.setRoom_estuary (r : Nat) (v : Room) : (s.setRoom r v).estuary = s.estuary := rfl
@[simp] theorem State.setRoom_stages (r : Nat) (v : Room) : (s.setRoom r v).stages = s.stages := rfl
@[simp] theorem State.setRoom_landfall (r : Nat) (v : Room) : (s.setRoom r v).landfall = s.landfall := rfl
@[simp] theorem State.setRoom_warmRecord (r : Nat) (v : Room) : (s.setRoom r v).warmRecord = s.warmRecord := rfl
@[simp] theorem State.setRoom_selfTest (r : Nat) (v : Room) : (s.setRoom r v).selfTest = s.selfTest := rfl
@[simp] theorem State.setRoom_health (r : Nat) (v : Room) : (s.setRoom r v).health = s.health := rfl
@[simp] theorem State.setRoom_stow (r : Nat) (v : Room) : (s.setRoom r v).stow = s.stow := rfl
@[simp] theorem State.setRoom_strand (r : Nat) (v : Room) : (s.setRoom r v).strand = s.strand := rfl
@[simp] theorem State.setRoom_security (r : Nat) (v : Room) : (s.setRoom r v).security = s.security := rfl

/-! ### setCliff -/

@[simp] theorem State.setCliff_pending (c : Nat) (v : Cliff) : (s.setCliff c v).pending = s.pending := rfl
@[simp] theorem State.setCliff_out (c : Nat) (v : Cliff) : (s.setCliff c v).out = s.out := rfl
@[simp] theorem State.setCliff_time (c : Nat) (v : Cliff) : (s.setCliff c v).time = s.time := rfl
@[simp] theorem State.setCliff_fresh (c : Nat) (v : Cliff) : (s.setCliff c v).fresh = s.fresh := rfl
@[simp] theorem State.setCliff_pd (c : Nat) (v : Cliff) : (s.setCliff c v).pd = s.pd := rfl
@[simp] theorem State.setCliff_mem (c : Nat) (v : Cliff) : (s.setCliff c v).mem = s.mem := rfl
@[simp] theorem State.setCliff_power (c : Nat) (v : Cliff) : (s.setCliff c v).power = s.power := rfl
@[simp] theorem State.setCliff_crossings (c : Nat) (v : Cliff) : (s.setCliff c v).crossings = s.crossings := rfl
@[simp] theorem State.setCliff_ports (c : Nat) (v : Cliff) : (s.setCliff c v).ports = s.ports := rfl
@[simp] theorem State.setCliff_gdp (c : Nat) (v : Cliff) : (s.setCliff c v).gdp = s.gdp := rfl
@[simp] theorem State.setCliff_ops (c : Nat) (v : Cliff) : (s.setCliff c v).ops = s.ops := rfl
@[simp] theorem State.setCliff_host (c : Nat) (v : Cliff) : (s.setCliff c v).host = s.host := rfl
@[simp] theorem State.setCliff_rooms (c : Nat) (v : Cliff) : (s.setCliff c v).rooms = s.rooms := rfl
@[simp] theorem State.setCliff_transposes (c : Nat) (v : Cliff) : (s.setCliff c v).transposes = s.transposes := rfl
@[simp] theorem State.setCliff_badBlocks (c : Nat) (v : Cliff) : (s.setCliff c v).badBlocks = s.badBlocks := rfl
@[simp] theorem State.setCliff_poisonBlocks (c : Nat) (v : Cliff) : (s.setCliff c v).poisonBlocks = s.poisonBlocks := rfl
@[simp] theorem State.setCliff_unitPorts (c : Nat) (v : Cliff) : (s.setCliff c v).unitPorts = s.unitPorts := rfl
@[simp] theorem State.setCliff_chartBase (c : Nat) (v : Cliff) : (s.setCliff c v).chartBase = s.chartBase := rfl
@[simp] theorem State.setCliff_tlb (c : Nat) (v : Cliff) : (s.setCliff c v).tlb = s.tlb := rfl
@[simp] theorem State.setCliff_repair (c : Nat) (v : Cliff) : (s.setCliff c v).repair = s.repair := rfl
@[simp] theorem State.setCliff_bulk (c : Nat) (v : Cliff) : (s.setCliff c v).bulk = s.bulk := rfl
@[simp] theorem State.setCliff_rebuild (c : Nat) (v : Cliff) : (s.setCliff c v).rebuild = s.rebuild := rfl
@[simp] theorem State.setCliff_rebuildBase (c : Nat) (v : Cliff) : (s.setCliff c v).rebuildBase = s.rebuildBase := rfl
@[simp] theorem State.setCliff_unpinning (c : Nat) (v : Cliff) : (s.setCliff c v).unpinning = s.unpinning := rfl
@[simp] theorem State.setCliff_headland (c : Nat) (v : Cliff) : (s.setCliff c v).headland = s.headland := rfl
@[simp] theorem State.setCliff_engines (c : Nat) (v : Cliff) : (s.setCliff c v).engines = s.engines := rfl
@[simp] theorem State.setCliff_programs (c : Nat) (v : Cliff) : (s.setCliff c v).programs = s.programs := rfl
@[simp] theorem State.setCliff_heads (c : Nat) (v : Cliff) : (s.setCliff c v).heads = s.heads := rfl
@[simp] theorem State.setCliff_finished (c : Nat) (v : Cliff) : (s.setCliff c v).finished = s.finished := rfl
@[simp] theorem State.setCliff_endings (c : Nat) (v : Cliff) : (s.setCliff c v).endings = s.endings := rfl
@[simp] theorem State.setCliff_spec (c : Nat) (v : Cliff) : (s.setCliff c v).spec = s.spec := rfl
@[simp] theorem State.setCliff_reruns (c : Nat) (v : Cliff) : (s.setCliff c v).reruns = s.reruns := rfl
@[simp] theorem State.setCliff_lastPart (c : Nat) (v : Cliff) : (s.setCliff c v).lastPart = s.lastPart := rfl
@[simp] theorem State.setCliff_refusedCtr (c : Nat) (v : Cliff) : (s.setCliff c v).refusedCtr = s.refusedCtr := rfl
@[simp] theorem State.setCliff_causeway (c : Nat) (v : Cliff) : (s.setCliff c v).causeway = s.causeway := rfl
@[simp] theorem State.setCliff_estuary (c : Nat) (v : Cliff) : (s.setCliff c v).estuary = s.estuary := rfl
@[simp] theorem State.setCliff_stages (c : Nat) (v : Cliff) : (s.setCliff c v).stages = s.stages := rfl
@[simp] theorem State.setCliff_landfall (c : Nat) (v : Cliff) : (s.setCliff c v).landfall = s.landfall := rfl
@[simp] theorem State.setCliff_warmRecord (c : Nat) (v : Cliff) : (s.setCliff c v).warmRecord = s.warmRecord := rfl
@[simp] theorem State.setCliff_selfTest (c : Nat) (v : Cliff) : (s.setCliff c v).selfTest = s.selfTest := rfl
@[simp] theorem State.setCliff_health (c : Nat) (v : Cliff) : (s.setCliff c v).health = s.health := rfl
@[simp] theorem State.setCliff_stow (c : Nat) (v : Cliff) : (s.setCliff c v).stow = s.stow := rfl
@[simp] theorem State.setCliff_strand (c : Nat) (v : Cliff) : (s.setCliff c v).strand = s.strand := rfl
@[simp] theorem State.setCliff_security (c : Nat) (v : Cliff) : (s.setCliff c v).security = s.security := rfl

/-! ### setEngine -/

@[simp] theorem State.setEngine_pending (n : Nat) (v : Engine) : (s.setEngine n v).pending = s.pending := rfl
@[simp] theorem State.setEngine_out (n : Nat) (v : Engine) : (s.setEngine n v).out = s.out := rfl
@[simp] theorem State.setEngine_time (n : Nat) (v : Engine) : (s.setEngine n v).time = s.time := rfl
@[simp] theorem State.setEngine_fresh (n : Nat) (v : Engine) : (s.setEngine n v).fresh = s.fresh := rfl
@[simp] theorem State.setEngine_pd (n : Nat) (v : Engine) : (s.setEngine n v).pd = s.pd := rfl
@[simp] theorem State.setEngine_mem (n : Nat) (v : Engine) : (s.setEngine n v).mem = s.mem := rfl
@[simp] theorem State.setEngine_power (n : Nat) (v : Engine) : (s.setEngine n v).power = s.power := rfl
@[simp] theorem State.setEngine_crossings (n : Nat) (v : Engine) : (s.setEngine n v).crossings = s.crossings := rfl
@[simp] theorem State.setEngine_ports (n : Nat) (v : Engine) : (s.setEngine n v).ports = s.ports := rfl
@[simp] theorem State.setEngine_gdp (n : Nat) (v : Engine) : (s.setEngine n v).gdp = s.gdp := rfl
@[simp] theorem State.setEngine_ops (n : Nat) (v : Engine) : (s.setEngine n v).ops = s.ops := rfl
@[simp] theorem State.setEngine_host (n : Nat) (v : Engine) : (s.setEngine n v).host = s.host := rfl
@[simp] theorem State.setEngine_rooms (n : Nat) (v : Engine) : (s.setEngine n v).rooms = s.rooms := rfl
@[simp] theorem State.setEngine_transposes (n : Nat) (v : Engine) : (s.setEngine n v).transposes = s.transposes := rfl
@[simp] theorem State.setEngine_cliffs (n : Nat) (v : Engine) : (s.setEngine n v).cliffs = s.cliffs := rfl
@[simp] theorem State.setEngine_badBlocks (n : Nat) (v : Engine) : (s.setEngine n v).badBlocks = s.badBlocks := rfl
@[simp] theorem State.setEngine_poisonBlocks (n : Nat) (v : Engine) : (s.setEngine n v).poisonBlocks = s.poisonBlocks := rfl
@[simp] theorem State.setEngine_unitPorts (n : Nat) (v : Engine) : (s.setEngine n v).unitPorts = s.unitPorts := rfl
@[simp] theorem State.setEngine_chartBase (n : Nat) (v : Engine) : (s.setEngine n v).chartBase = s.chartBase := rfl
@[simp] theorem State.setEngine_tlb (n : Nat) (v : Engine) : (s.setEngine n v).tlb = s.tlb := rfl
@[simp] theorem State.setEngine_repair (n : Nat) (v : Engine) : (s.setEngine n v).repair = s.repair := rfl
@[simp] theorem State.setEngine_bulk (n : Nat) (v : Engine) : (s.setEngine n v).bulk = s.bulk := rfl
@[simp] theorem State.setEngine_rebuild (n : Nat) (v : Engine) : (s.setEngine n v).rebuild = s.rebuild := rfl
@[simp] theorem State.setEngine_rebuildBase (n : Nat) (v : Engine) : (s.setEngine n v).rebuildBase = s.rebuildBase := rfl
@[simp] theorem State.setEngine_unpinning (n : Nat) (v : Engine) : (s.setEngine n v).unpinning = s.unpinning := rfl
@[simp] theorem State.setEngine_headland (n : Nat) (v : Engine) : (s.setEngine n v).headland = s.headland := rfl
@[simp] theorem State.setEngine_programs (n : Nat) (v : Engine) : (s.setEngine n v).programs = s.programs := rfl
@[simp] theorem State.setEngine_heads (n : Nat) (v : Engine) : (s.setEngine n v).heads = s.heads := rfl
@[simp] theorem State.setEngine_finished (n : Nat) (v : Engine) : (s.setEngine n v).finished = s.finished := rfl
@[simp] theorem State.setEngine_endings (n : Nat) (v : Engine) : (s.setEngine n v).endings = s.endings := rfl
@[simp] theorem State.setEngine_spec (n : Nat) (v : Engine) : (s.setEngine n v).spec = s.spec := rfl
@[simp] theorem State.setEngine_reruns (n : Nat) (v : Engine) : (s.setEngine n v).reruns = s.reruns := rfl
@[simp] theorem State.setEngine_lastPart (n : Nat) (v : Engine) : (s.setEngine n v).lastPart = s.lastPart := rfl
@[simp] theorem State.setEngine_refusedCtr (n : Nat) (v : Engine) : (s.setEngine n v).refusedCtr = s.refusedCtr := rfl
@[simp] theorem State.setEngine_causeway (n : Nat) (v : Engine) : (s.setEngine n v).causeway = s.causeway := rfl
@[simp] theorem State.setEngine_estuary (n : Nat) (v : Engine) : (s.setEngine n v).estuary = s.estuary := rfl
@[simp] theorem State.setEngine_stages (n : Nat) (v : Engine) : (s.setEngine n v).stages = s.stages := rfl
@[simp] theorem State.setEngine_landfall (n : Nat) (v : Engine) : (s.setEngine n v).landfall = s.landfall := rfl
@[simp] theorem State.setEngine_warmRecord (n : Nat) (v : Engine) : (s.setEngine n v).warmRecord = s.warmRecord := rfl
@[simp] theorem State.setEngine_selfTest (n : Nat) (v : Engine) : (s.setEngine n v).selfTest = s.selfTest := rfl
@[simp] theorem State.setEngine_health (n : Nat) (v : Engine) : (s.setEngine n v).health = s.health := rfl
@[simp] theorem State.setEngine_stow (n : Nat) (v : Engine) : (s.setEngine n v).stow = s.stow := rfl
@[simp] theorem State.setEngine_strand (n : Nat) (v : Engine) : (s.setEngine n v).strand = s.strand := rfl
@[simp] theorem State.setEngine_security (n : Nat) (v : Engine) : (s.setEngine n v).security = s.security := rfl

/-! ### setCport -/

@[simp] theorem State.setCport_pending (p : Nat) (v : CausewayPort) : (s.setCport p v).pending = s.pending := rfl
@[simp] theorem State.setCport_out (p : Nat) (v : CausewayPort) : (s.setCport p v).out = s.out := rfl
@[simp] theorem State.setCport_time (p : Nat) (v : CausewayPort) : (s.setCport p v).time = s.time := rfl
@[simp] theorem State.setCport_fresh (p : Nat) (v : CausewayPort) : (s.setCport p v).fresh = s.fresh := rfl
@[simp] theorem State.setCport_pd (p : Nat) (v : CausewayPort) : (s.setCport p v).pd = s.pd := rfl
@[simp] theorem State.setCport_mem (p : Nat) (v : CausewayPort) : (s.setCport p v).mem = s.mem := rfl
@[simp] theorem State.setCport_power (p : Nat) (v : CausewayPort) : (s.setCport p v).power = s.power := rfl
@[simp] theorem State.setCport_crossings (p : Nat) (v : CausewayPort) : (s.setCport p v).crossings = s.crossings := rfl
@[simp] theorem State.setCport_ports (p : Nat) (v : CausewayPort) : (s.setCport p v).ports = s.ports := rfl
@[simp] theorem State.setCport_gdp (p : Nat) (v : CausewayPort) : (s.setCport p v).gdp = s.gdp := rfl
@[simp] theorem State.setCport_ops (p : Nat) (v : CausewayPort) : (s.setCport p v).ops = s.ops := rfl
@[simp] theorem State.setCport_host (p : Nat) (v : CausewayPort) : (s.setCport p v).host = s.host := rfl
@[simp] theorem State.setCport_rooms (p : Nat) (v : CausewayPort) : (s.setCport p v).rooms = s.rooms := rfl
@[simp] theorem State.setCport_transposes (p : Nat) (v : CausewayPort) : (s.setCport p v).transposes = s.transposes := rfl
@[simp] theorem State.setCport_cliffs (p : Nat) (v : CausewayPort) : (s.setCport p v).cliffs = s.cliffs := rfl
@[simp] theorem State.setCport_badBlocks (p : Nat) (v : CausewayPort) : (s.setCport p v).badBlocks = s.badBlocks := rfl
@[simp] theorem State.setCport_poisonBlocks (p : Nat) (v : CausewayPort) : (s.setCport p v).poisonBlocks = s.poisonBlocks := rfl
@[simp] theorem State.setCport_unitPorts (p : Nat) (v : CausewayPort) : (s.setCport p v).unitPorts = s.unitPorts := rfl
@[simp] theorem State.setCport_chartBase (p : Nat) (v : CausewayPort) : (s.setCport p v).chartBase = s.chartBase := rfl
@[simp] theorem State.setCport_tlb (p : Nat) (v : CausewayPort) : (s.setCport p v).tlb = s.tlb := rfl
@[simp] theorem State.setCport_repair (p : Nat) (v : CausewayPort) : (s.setCport p v).repair = s.repair := rfl
@[simp] theorem State.setCport_bulk (p : Nat) (v : CausewayPort) : (s.setCport p v).bulk = s.bulk := rfl
@[simp] theorem State.setCport_rebuild (p : Nat) (v : CausewayPort) : (s.setCport p v).rebuild = s.rebuild := rfl
@[simp] theorem State.setCport_rebuildBase (p : Nat) (v : CausewayPort) : (s.setCport p v).rebuildBase = s.rebuildBase := rfl
@[simp] theorem State.setCport_unpinning (p : Nat) (v : CausewayPort) : (s.setCport p v).unpinning = s.unpinning := rfl
@[simp] theorem State.setCport_headland (p : Nat) (v : CausewayPort) : (s.setCport p v).headland = s.headland := rfl
@[simp] theorem State.setCport_engines (p : Nat) (v : CausewayPort) : (s.setCport p v).engines = s.engines := rfl
@[simp] theorem State.setCport_programs (p : Nat) (v : CausewayPort) : (s.setCport p v).programs = s.programs := rfl
@[simp] theorem State.setCport_heads (p : Nat) (v : CausewayPort) : (s.setCport p v).heads = s.heads := rfl
@[simp] theorem State.setCport_finished (p : Nat) (v : CausewayPort) : (s.setCport p v).finished = s.finished := rfl
@[simp] theorem State.setCport_endings (p : Nat) (v : CausewayPort) : (s.setCport p v).endings = s.endings := rfl
@[simp] theorem State.setCport_spec (p : Nat) (v : CausewayPort) : (s.setCport p v).spec = s.spec := rfl
@[simp] theorem State.setCport_reruns (p : Nat) (v : CausewayPort) : (s.setCport p v).reruns = s.reruns := rfl
@[simp] theorem State.setCport_lastPart (p : Nat) (v : CausewayPort) : (s.setCport p v).lastPart = s.lastPart := rfl
@[simp] theorem State.setCport_refusedCtr (p : Nat) (v : CausewayPort) : (s.setCport p v).refusedCtr = s.refusedCtr := rfl
@[simp] theorem State.setCport_estuary (p : Nat) (v : CausewayPort) : (s.setCport p v).estuary = s.estuary := rfl
@[simp] theorem State.setCport_stages (p : Nat) (v : CausewayPort) : (s.setCport p v).stages = s.stages := rfl
@[simp] theorem State.setCport_landfall (p : Nat) (v : CausewayPort) : (s.setCport p v).landfall = s.landfall := rfl
@[simp] theorem State.setCport_warmRecord (p : Nat) (v : CausewayPort) : (s.setCport p v).warmRecord = s.warmRecord := rfl
@[simp] theorem State.setCport_selfTest (p : Nat) (v : CausewayPort) : (s.setCport p v).selfTest = s.selfTest := rfl
@[simp] theorem State.setCport_health (p : Nat) (v : CausewayPort) : (s.setCport p v).health = s.health := rfl
@[simp] theorem State.setCport_stow (p : Nat) (v : CausewayPort) : (s.setCport p v).stow = s.stow := rfl
@[simp] theorem State.setCport_strand (p : Nat) (v : CausewayPort) : (s.setCport p v).strand = s.strand := rfl
@[simp] theorem State.setCport_security (p : Nat) (v : CausewayPort) : (s.setCport p v).security = s.security := rfl

/-! ### setStage -/

@[simp] theorem State.setStage_pending (p : Nat) (v : Stage) : (s.setStage p v).pending = s.pending := rfl
@[simp] theorem State.setStage_out (p : Nat) (v : Stage) : (s.setStage p v).out = s.out := rfl
@[simp] theorem State.setStage_time (p : Nat) (v : Stage) : (s.setStage p v).time = s.time := rfl
@[simp] theorem State.setStage_fresh (p : Nat) (v : Stage) : (s.setStage p v).fresh = s.fresh := rfl
@[simp] theorem State.setStage_pd (p : Nat) (v : Stage) : (s.setStage p v).pd = s.pd := rfl
@[simp] theorem State.setStage_mem (p : Nat) (v : Stage) : (s.setStage p v).mem = s.mem := rfl
@[simp] theorem State.setStage_power (p : Nat) (v : Stage) : (s.setStage p v).power = s.power := rfl
@[simp] theorem State.setStage_crossings (p : Nat) (v : Stage) : (s.setStage p v).crossings = s.crossings := rfl
@[simp] theorem State.setStage_ports (p : Nat) (v : Stage) : (s.setStage p v).ports = s.ports := rfl
@[simp] theorem State.setStage_gdp (p : Nat) (v : Stage) : (s.setStage p v).gdp = s.gdp := rfl
@[simp] theorem State.setStage_ops (p : Nat) (v : Stage) : (s.setStage p v).ops = s.ops := rfl
@[simp] theorem State.setStage_host (p : Nat) (v : Stage) : (s.setStage p v).host = s.host := rfl
@[simp] theorem State.setStage_rooms (p : Nat) (v : Stage) : (s.setStage p v).rooms = s.rooms := rfl
@[simp] theorem State.setStage_transposes (p : Nat) (v : Stage) : (s.setStage p v).transposes = s.transposes := rfl
@[simp] theorem State.setStage_cliffs (p : Nat) (v : Stage) : (s.setStage p v).cliffs = s.cliffs := rfl
@[simp] theorem State.setStage_badBlocks (p : Nat) (v : Stage) : (s.setStage p v).badBlocks = s.badBlocks := rfl
@[simp] theorem State.setStage_poisonBlocks (p : Nat) (v : Stage) : (s.setStage p v).poisonBlocks = s.poisonBlocks := rfl
@[simp] theorem State.setStage_unitPorts (p : Nat) (v : Stage) : (s.setStage p v).unitPorts = s.unitPorts := rfl
@[simp] theorem State.setStage_chartBase (p : Nat) (v : Stage) : (s.setStage p v).chartBase = s.chartBase := rfl
@[simp] theorem State.setStage_tlb (p : Nat) (v : Stage) : (s.setStage p v).tlb = s.tlb := rfl
@[simp] theorem State.setStage_repair (p : Nat) (v : Stage) : (s.setStage p v).repair = s.repair := rfl
@[simp] theorem State.setStage_bulk (p : Nat) (v : Stage) : (s.setStage p v).bulk = s.bulk := rfl
@[simp] theorem State.setStage_rebuild (p : Nat) (v : Stage) : (s.setStage p v).rebuild = s.rebuild := rfl
@[simp] theorem State.setStage_rebuildBase (p : Nat) (v : Stage) : (s.setStage p v).rebuildBase = s.rebuildBase := rfl
@[simp] theorem State.setStage_unpinning (p : Nat) (v : Stage) : (s.setStage p v).unpinning = s.unpinning := rfl
@[simp] theorem State.setStage_headland (p : Nat) (v : Stage) : (s.setStage p v).headland = s.headland := rfl
@[simp] theorem State.setStage_engines (p : Nat) (v : Stage) : (s.setStage p v).engines = s.engines := rfl
@[simp] theorem State.setStage_programs (p : Nat) (v : Stage) : (s.setStage p v).programs = s.programs := rfl
@[simp] theorem State.setStage_heads (p : Nat) (v : Stage) : (s.setStage p v).heads = s.heads := rfl
@[simp] theorem State.setStage_finished (p : Nat) (v : Stage) : (s.setStage p v).finished = s.finished := rfl
@[simp] theorem State.setStage_endings (p : Nat) (v : Stage) : (s.setStage p v).endings = s.endings := rfl
@[simp] theorem State.setStage_spec (p : Nat) (v : Stage) : (s.setStage p v).spec = s.spec := rfl
@[simp] theorem State.setStage_reruns (p : Nat) (v : Stage) : (s.setStage p v).reruns = s.reruns := rfl
@[simp] theorem State.setStage_lastPart (p : Nat) (v : Stage) : (s.setStage p v).lastPart = s.lastPart := rfl
@[simp] theorem State.setStage_refusedCtr (p : Nat) (v : Stage) : (s.setStage p v).refusedCtr = s.refusedCtr := rfl
@[simp] theorem State.setStage_causeway (p : Nat) (v : Stage) : (s.setStage p v).causeway = s.causeway := rfl
@[simp] theorem State.setStage_estuary (p : Nat) (v : Stage) : (s.setStage p v).estuary = s.estuary := rfl
@[simp] theorem State.setStage_landfall (p : Nat) (v : Stage) : (s.setStage p v).landfall = s.landfall := rfl
@[simp] theorem State.setStage_warmRecord (p : Nat) (v : Stage) : (s.setStage p v).warmRecord = s.warmRecord := rfl
@[simp] theorem State.setStage_selfTest (p : Nat) (v : Stage) : (s.setStage p v).selfTest = s.selfTest := rfl
@[simp] theorem State.setStage_health (p : Nat) (v : Stage) : (s.setStage p v).health = s.health := rfl
@[simp] theorem State.setStage_stow (p : Nat) (v : Stage) : (s.setStage p v).stow = s.stow := rfl
@[simp] theorem State.setStage_strand (p : Nat) (v : Stage) : (s.setStage p v).strand = s.strand := rfl
@[simp] theorem State.setStage_security (p : Nat) (v : Stage) : (s.setStage p v).security = s.security := rfl

/-! ### setReduction -/

@[simp] theorem State.setReduction_pending (g r : Nat) (v : Reduction) : (s.setReduction g r v).pending = s.pending := rfl
@[simp] theorem State.setReduction_out (g r : Nat) (v : Reduction) : (s.setReduction g r v).out = s.out := rfl
@[simp] theorem State.setReduction_time (g r : Nat) (v : Reduction) : (s.setReduction g r v).time = s.time := rfl
@[simp] theorem State.setReduction_fresh (g r : Nat) (v : Reduction) : (s.setReduction g r v).fresh = s.fresh := rfl
@[simp] theorem State.setReduction_pd (g r : Nat) (v : Reduction) : (s.setReduction g r v).pd = s.pd := rfl
@[simp] theorem State.setReduction_mem (g r : Nat) (v : Reduction) : (s.setReduction g r v).mem = s.mem := rfl
@[simp] theorem State.setReduction_power (g r : Nat) (v : Reduction) : (s.setReduction g r v).power = s.power := rfl
@[simp] theorem State.setReduction_crossings (g r : Nat) (v : Reduction) : (s.setReduction g r v).crossings = s.crossings := rfl
@[simp] theorem State.setReduction_ports (g r : Nat) (v : Reduction) : (s.setReduction g r v).ports = s.ports := rfl
@[simp] theorem State.setReduction_gdp (g r : Nat) (v : Reduction) : (s.setReduction g r v).gdp = s.gdp := rfl
@[simp] theorem State.setReduction_ops (g r : Nat) (v : Reduction) : (s.setReduction g r v).ops = s.ops := rfl
@[simp] theorem State.setReduction_host (g r : Nat) (v : Reduction) : (s.setReduction g r v).host = s.host := rfl
@[simp] theorem State.setReduction_rooms (g r : Nat) (v : Reduction) : (s.setReduction g r v).rooms = s.rooms := rfl
@[simp] theorem State.setReduction_transposes (g r : Nat) (v : Reduction) : (s.setReduction g r v).transposes = s.transposes := rfl
@[simp] theorem State.setReduction_cliffs (g r : Nat) (v : Reduction) : (s.setReduction g r v).cliffs = s.cliffs := rfl
@[simp] theorem State.setReduction_badBlocks (g r : Nat) (v : Reduction) : (s.setReduction g r v).badBlocks = s.badBlocks := rfl
@[simp] theorem State.setReduction_poisonBlocks (g r : Nat) (v : Reduction) : (s.setReduction g r v).poisonBlocks = s.poisonBlocks := rfl
@[simp] theorem State.setReduction_unitPorts (g r : Nat) (v : Reduction) : (s.setReduction g r v).unitPorts = s.unitPorts := rfl
@[simp] theorem State.setReduction_chartBase (g r : Nat) (v : Reduction) : (s.setReduction g r v).chartBase = s.chartBase := rfl
@[simp] theorem State.setReduction_tlb (g r : Nat) (v : Reduction) : (s.setReduction g r v).tlb = s.tlb := rfl
@[simp] theorem State.setReduction_repair (g r : Nat) (v : Reduction) : (s.setReduction g r v).repair = s.repair := rfl
@[simp] theorem State.setReduction_bulk (g r : Nat) (v : Reduction) : (s.setReduction g r v).bulk = s.bulk := rfl
@[simp] theorem State.setReduction_rebuild (g r : Nat) (v : Reduction) : (s.setReduction g r v).rebuild = s.rebuild := rfl
@[simp] theorem State.setReduction_rebuildBase (g r : Nat) (v : Reduction) : (s.setReduction g r v).rebuildBase = s.rebuildBase := rfl
@[simp] theorem State.setReduction_unpinning (g r : Nat) (v : Reduction) : (s.setReduction g r v).unpinning = s.unpinning := rfl
@[simp] theorem State.setReduction_headland (g r : Nat) (v : Reduction) : (s.setReduction g r v).headland = s.headland := rfl
@[simp] theorem State.setReduction_engines (g r : Nat) (v : Reduction) : (s.setReduction g r v).engines = s.engines := rfl
@[simp] theorem State.setReduction_programs (g r : Nat) (v : Reduction) : (s.setReduction g r v).programs = s.programs := rfl
@[simp] theorem State.setReduction_heads (g r : Nat) (v : Reduction) : (s.setReduction g r v).heads = s.heads := rfl
@[simp] theorem State.setReduction_finished (g r : Nat) (v : Reduction) : (s.setReduction g r v).finished = s.finished := rfl
@[simp] theorem State.setReduction_endings (g r : Nat) (v : Reduction) : (s.setReduction g r v).endings = s.endings := rfl
@[simp] theorem State.setReduction_spec (g r : Nat) (v : Reduction) : (s.setReduction g r v).spec = s.spec := rfl
@[simp] theorem State.setReduction_reruns (g r : Nat) (v : Reduction) : (s.setReduction g r v).reruns = s.reruns := rfl
@[simp] theorem State.setReduction_lastPart (g r : Nat) (v : Reduction) : (s.setReduction g r v).lastPart = s.lastPart := rfl
@[simp] theorem State.setReduction_refusedCtr (g r : Nat) (v : Reduction) : (s.setReduction g r v).refusedCtr = s.refusedCtr := rfl
@[simp] theorem State.setReduction_causeway (g r : Nat) (v : Reduction) : (s.setReduction g r v).causeway = s.causeway := rfl
@[simp] theorem State.setReduction_stages (g r : Nat) (v : Reduction) : (s.setReduction g r v).stages = s.stages := rfl
@[simp] theorem State.setReduction_landfall (g r : Nat) (v : Reduction) : (s.setReduction g r v).landfall = s.landfall := rfl
@[simp] theorem State.setReduction_warmRecord (g r : Nat) (v : Reduction) : (s.setReduction g r v).warmRecord = s.warmRecord := rfl
@[simp] theorem State.setReduction_selfTest (g r : Nat) (v : Reduction) : (s.setReduction g r v).selfTest = s.selfTest := rfl
@[simp] theorem State.setReduction_health (g r : Nat) (v : Reduction) : (s.setReduction g r v).health = s.health := rfl
@[simp] theorem State.setReduction_stow (g r : Nat) (v : Reduction) : (s.setReduction g r v).stow = s.stow := rfl
@[simp] theorem State.setReduction_strand (g r : Nat) (v : Reduction) : (s.setReduction g r v).strand = s.strand := rfl
@[simp] theorem State.setReduction_security (g r : Nat) (v : Reduction) : (s.setReduction g r v).security = s.security := rfl

/-! ### setEstGroup -/

@[simp] theorem State.setEstGroup_pending (g : Nat) (v : EstGroup) : (s.setEstGroup g v).pending = s.pending := rfl
@[simp] theorem State.setEstGroup_out (g : Nat) (v : EstGroup) : (s.setEstGroup g v).out = s.out := rfl
@[simp] theorem State.setEstGroup_time (g : Nat) (v : EstGroup) : (s.setEstGroup g v).time = s.time := rfl
@[simp] theorem State.setEstGroup_fresh (g : Nat) (v : EstGroup) : (s.setEstGroup g v).fresh = s.fresh := rfl
@[simp] theorem State.setEstGroup_pd (g : Nat) (v : EstGroup) : (s.setEstGroup g v).pd = s.pd := rfl
@[simp] theorem State.setEstGroup_mem (g : Nat) (v : EstGroup) : (s.setEstGroup g v).mem = s.mem := rfl
@[simp] theorem State.setEstGroup_power (g : Nat) (v : EstGroup) : (s.setEstGroup g v).power = s.power := rfl
@[simp] theorem State.setEstGroup_crossings (g : Nat) (v : EstGroup) : (s.setEstGroup g v).crossings = s.crossings := rfl
@[simp] theorem State.setEstGroup_ports (g : Nat) (v : EstGroup) : (s.setEstGroup g v).ports = s.ports := rfl
@[simp] theorem State.setEstGroup_gdp (g : Nat) (v : EstGroup) : (s.setEstGroup g v).gdp = s.gdp := rfl
@[simp] theorem State.setEstGroup_ops (g : Nat) (v : EstGroup) : (s.setEstGroup g v).ops = s.ops := rfl
@[simp] theorem State.setEstGroup_host (g : Nat) (v : EstGroup) : (s.setEstGroup g v).host = s.host := rfl
@[simp] theorem State.setEstGroup_rooms (g : Nat) (v : EstGroup) : (s.setEstGroup g v).rooms = s.rooms := rfl
@[simp] theorem State.setEstGroup_transposes (g : Nat) (v : EstGroup) : (s.setEstGroup g v).transposes = s.transposes := rfl
@[simp] theorem State.setEstGroup_cliffs (g : Nat) (v : EstGroup) : (s.setEstGroup g v).cliffs = s.cliffs := rfl
@[simp] theorem State.setEstGroup_badBlocks (g : Nat) (v : EstGroup) : (s.setEstGroup g v).badBlocks = s.badBlocks := rfl
@[simp] theorem State.setEstGroup_poisonBlocks (g : Nat) (v : EstGroup) : (s.setEstGroup g v).poisonBlocks = s.poisonBlocks := rfl
@[simp] theorem State.setEstGroup_unitPorts (g : Nat) (v : EstGroup) : (s.setEstGroup g v).unitPorts = s.unitPorts := rfl
@[simp] theorem State.setEstGroup_chartBase (g : Nat) (v : EstGroup) : (s.setEstGroup g v).chartBase = s.chartBase := rfl
@[simp] theorem State.setEstGroup_tlb (g : Nat) (v : EstGroup) : (s.setEstGroup g v).tlb = s.tlb := rfl
@[simp] theorem State.setEstGroup_repair (g : Nat) (v : EstGroup) : (s.setEstGroup g v).repair = s.repair := rfl
@[simp] theorem State.setEstGroup_bulk (g : Nat) (v : EstGroup) : (s.setEstGroup g v).bulk = s.bulk := rfl
@[simp] theorem State.setEstGroup_rebuild (g : Nat) (v : EstGroup) : (s.setEstGroup g v).rebuild = s.rebuild := rfl
@[simp] theorem State.setEstGroup_rebuildBase (g : Nat) (v : EstGroup) : (s.setEstGroup g v).rebuildBase = s.rebuildBase := rfl
@[simp] theorem State.setEstGroup_unpinning (g : Nat) (v : EstGroup) : (s.setEstGroup g v).unpinning = s.unpinning := rfl
@[simp] theorem State.setEstGroup_headland (g : Nat) (v : EstGroup) : (s.setEstGroup g v).headland = s.headland := rfl
@[simp] theorem State.setEstGroup_engines (g : Nat) (v : EstGroup) : (s.setEstGroup g v).engines = s.engines := rfl
@[simp] theorem State.setEstGroup_programs (g : Nat) (v : EstGroup) : (s.setEstGroup g v).programs = s.programs := rfl
@[simp] theorem State.setEstGroup_heads (g : Nat) (v : EstGroup) : (s.setEstGroup g v).heads = s.heads := rfl
@[simp] theorem State.setEstGroup_finished (g : Nat) (v : EstGroup) : (s.setEstGroup g v).finished = s.finished := rfl
@[simp] theorem State.setEstGroup_endings (g : Nat) (v : EstGroup) : (s.setEstGroup g v).endings = s.endings := rfl
@[simp] theorem State.setEstGroup_spec (g : Nat) (v : EstGroup) : (s.setEstGroup g v).spec = s.spec := rfl
@[simp] theorem State.setEstGroup_reruns (g : Nat) (v : EstGroup) : (s.setEstGroup g v).reruns = s.reruns := rfl
@[simp] theorem State.setEstGroup_lastPart (g : Nat) (v : EstGroup) : (s.setEstGroup g v).lastPart = s.lastPart := rfl
@[simp] theorem State.setEstGroup_refusedCtr (g : Nat) (v : EstGroup) : (s.setEstGroup g v).refusedCtr = s.refusedCtr := rfl
@[simp] theorem State.setEstGroup_causeway (g : Nat) (v : EstGroup) : (s.setEstGroup g v).causeway = s.causeway := rfl
@[simp] theorem State.setEstGroup_stages (g : Nat) (v : EstGroup) : (s.setEstGroup g v).stages = s.stages := rfl
@[simp] theorem State.setEstGroup_landfall (g : Nat) (v : EstGroup) : (s.setEstGroup g v).landfall = s.landfall := rfl
@[simp] theorem State.setEstGroup_warmRecord (g : Nat) (v : EstGroup) : (s.setEstGroup g v).warmRecord = s.warmRecord := rfl
@[simp] theorem State.setEstGroup_selfTest (g : Nat) (v : EstGroup) : (s.setEstGroup g v).selfTest = s.selfTest := rfl
@[simp] theorem State.setEstGroup_health (g : Nat) (v : EstGroup) : (s.setEstGroup g v).health = s.health := rfl
@[simp] theorem State.setEstGroup_stow (g : Nat) (v : EstGroup) : (s.setEstGroup g v).stow = s.stow := rfl
@[simp] theorem State.setEstGroup_strand (g : Nat) (v : EstGroup) : (s.setEstGroup g v).strand = s.strand := rfl
@[simp] theorem State.setEstGroup_security (g : Nat) (v : EstGroup) : (s.setEstGroup g v).security = s.security := rfl

/-! ### setHead -/

@[simp] theorem State.setHead_pending (k : Nat) (v : Option Head) : (s.setHead k v).pending = s.pending := rfl
@[simp] theorem State.setHead_out (k : Nat) (v : Option Head) : (s.setHead k v).out = s.out := rfl
@[simp] theorem State.setHead_time (k : Nat) (v : Option Head) : (s.setHead k v).time = s.time := rfl
@[simp] theorem State.setHead_fresh (k : Nat) (v : Option Head) : (s.setHead k v).fresh = s.fresh := rfl
@[simp] theorem State.setHead_pd (k : Nat) (v : Option Head) : (s.setHead k v).pd = s.pd := rfl
@[simp] theorem State.setHead_mem (k : Nat) (v : Option Head) : (s.setHead k v).mem = s.mem := rfl
@[simp] theorem State.setHead_power (k : Nat) (v : Option Head) : (s.setHead k v).power = s.power := rfl
@[simp] theorem State.setHead_crossings (k : Nat) (v : Option Head) : (s.setHead k v).crossings = s.crossings := rfl
@[simp] theorem State.setHead_ports (k : Nat) (v : Option Head) : (s.setHead k v).ports = s.ports := rfl
@[simp] theorem State.setHead_gdp (k : Nat) (v : Option Head) : (s.setHead k v).gdp = s.gdp := rfl
@[simp] theorem State.setHead_ops (k : Nat) (v : Option Head) : (s.setHead k v).ops = s.ops := rfl
@[simp] theorem State.setHead_host (k : Nat) (v : Option Head) : (s.setHead k v).host = s.host := rfl
@[simp] theorem State.setHead_rooms (k : Nat) (v : Option Head) : (s.setHead k v).rooms = s.rooms := rfl
@[simp] theorem State.setHead_transposes (k : Nat) (v : Option Head) : (s.setHead k v).transposes = s.transposes := rfl
@[simp] theorem State.setHead_cliffs (k : Nat) (v : Option Head) : (s.setHead k v).cliffs = s.cliffs := rfl
@[simp] theorem State.setHead_badBlocks (k : Nat) (v : Option Head) : (s.setHead k v).badBlocks = s.badBlocks := rfl
@[simp] theorem State.setHead_poisonBlocks (k : Nat) (v : Option Head) : (s.setHead k v).poisonBlocks = s.poisonBlocks := rfl
@[simp] theorem State.setHead_unitPorts (k : Nat) (v : Option Head) : (s.setHead k v).unitPorts = s.unitPorts := rfl
@[simp] theorem State.setHead_chartBase (k : Nat) (v : Option Head) : (s.setHead k v).chartBase = s.chartBase := rfl
@[simp] theorem State.setHead_tlb (k : Nat) (v : Option Head) : (s.setHead k v).tlb = s.tlb := rfl
@[simp] theorem State.setHead_repair (k : Nat) (v : Option Head) : (s.setHead k v).repair = s.repair := rfl
@[simp] theorem State.setHead_bulk (k : Nat) (v : Option Head) : (s.setHead k v).bulk = s.bulk := rfl
@[simp] theorem State.setHead_rebuild (k : Nat) (v : Option Head) : (s.setHead k v).rebuild = s.rebuild := rfl
@[simp] theorem State.setHead_rebuildBase (k : Nat) (v : Option Head) : (s.setHead k v).rebuildBase = s.rebuildBase := rfl
@[simp] theorem State.setHead_unpinning (k : Nat) (v : Option Head) : (s.setHead k v).unpinning = s.unpinning := rfl
@[simp] theorem State.setHead_headland (k : Nat) (v : Option Head) : (s.setHead k v).headland = s.headland := rfl
@[simp] theorem State.setHead_engines (k : Nat) (v : Option Head) : (s.setHead k v).engines = s.engines := rfl
@[simp] theorem State.setHead_programs (k : Nat) (v : Option Head) : (s.setHead k v).programs = s.programs := rfl
@[simp] theorem State.setHead_finished (k : Nat) (v : Option Head) : (s.setHead k v).finished = s.finished := rfl
@[simp] theorem State.setHead_endings (k : Nat) (v : Option Head) : (s.setHead k v).endings = s.endings := rfl
@[simp] theorem State.setHead_spec (k : Nat) (v : Option Head) : (s.setHead k v).spec = s.spec := rfl
@[simp] theorem State.setHead_reruns (k : Nat) (v : Option Head) : (s.setHead k v).reruns = s.reruns := rfl
@[simp] theorem State.setHead_lastPart (k : Nat) (v : Option Head) : (s.setHead k v).lastPart = s.lastPart := rfl
@[simp] theorem State.setHead_refusedCtr (k : Nat) (v : Option Head) : (s.setHead k v).refusedCtr = s.refusedCtr := rfl
@[simp] theorem State.setHead_causeway (k : Nat) (v : Option Head) : (s.setHead k v).causeway = s.causeway := rfl
@[simp] theorem State.setHead_estuary (k : Nat) (v : Option Head) : (s.setHead k v).estuary = s.estuary := rfl
@[simp] theorem State.setHead_stages (k : Nat) (v : Option Head) : (s.setHead k v).stages = s.stages := rfl
@[simp] theorem State.setHead_landfall (k : Nat) (v : Option Head) : (s.setHead k v).landfall = s.landfall := rfl
@[simp] theorem State.setHead_warmRecord (k : Nat) (v : Option Head) : (s.setHead k v).warmRecord = s.warmRecord := rfl
@[simp] theorem State.setHead_selfTest (k : Nat) (v : Option Head) : (s.setHead k v).selfTest = s.selfTest := rfl
@[simp] theorem State.setHead_health (k : Nat) (v : Option Head) : (s.setHead k v).health = s.health := rfl
@[simp] theorem State.setHead_stow (k : Nat) (v : Option Head) : (s.setHead k v).stow = s.stow := rfl
@[simp] theorem State.setHead_strand (k : Nat) (v : Option Head) : (s.setHead k v).strand = s.strand := rfl
@[simp] theorem State.setHead_security (k : Nat) (v : Option Head) : (s.setHead k v).security = s.security := rfl

/-! ### setSpec -/

@[simp] theorem State.setSpec_pending (u : Nat) (v : List SpecTask) : (s.setSpec u v).pending = s.pending := rfl
@[simp] theorem State.setSpec_out (u : Nat) (v : List SpecTask) : (s.setSpec u v).out = s.out := rfl
@[simp] theorem State.setSpec_time (u : Nat) (v : List SpecTask) : (s.setSpec u v).time = s.time := rfl
@[simp] theorem State.setSpec_fresh (u : Nat) (v : List SpecTask) : (s.setSpec u v).fresh = s.fresh := rfl
@[simp] theorem State.setSpec_pd (u : Nat) (v : List SpecTask) : (s.setSpec u v).pd = s.pd := rfl
@[simp] theorem State.setSpec_mem (u : Nat) (v : List SpecTask) : (s.setSpec u v).mem = s.mem := rfl
@[simp] theorem State.setSpec_power (u : Nat) (v : List SpecTask) : (s.setSpec u v).power = s.power := rfl
@[simp] theorem State.setSpec_crossings (u : Nat) (v : List SpecTask) : (s.setSpec u v).crossings = s.crossings := rfl
@[simp] theorem State.setSpec_ports (u : Nat) (v : List SpecTask) : (s.setSpec u v).ports = s.ports := rfl
@[simp] theorem State.setSpec_gdp (u : Nat) (v : List SpecTask) : (s.setSpec u v).gdp = s.gdp := rfl
@[simp] theorem State.setSpec_ops (u : Nat) (v : List SpecTask) : (s.setSpec u v).ops = s.ops := rfl
@[simp] theorem State.setSpec_host (u : Nat) (v : List SpecTask) : (s.setSpec u v).host = s.host := rfl
@[simp] theorem State.setSpec_rooms (u : Nat) (v : List SpecTask) : (s.setSpec u v).rooms = s.rooms := rfl
@[simp] theorem State.setSpec_transposes (u : Nat) (v : List SpecTask) : (s.setSpec u v).transposes = s.transposes := rfl
@[simp] theorem State.setSpec_cliffs (u : Nat) (v : List SpecTask) : (s.setSpec u v).cliffs = s.cliffs := rfl
@[simp] theorem State.setSpec_badBlocks (u : Nat) (v : List SpecTask) : (s.setSpec u v).badBlocks = s.badBlocks := rfl
@[simp] theorem State.setSpec_poisonBlocks (u : Nat) (v : List SpecTask) : (s.setSpec u v).poisonBlocks = s.poisonBlocks := rfl
@[simp] theorem State.setSpec_unitPorts (u : Nat) (v : List SpecTask) : (s.setSpec u v).unitPorts = s.unitPorts := rfl
@[simp] theorem State.setSpec_chartBase (u : Nat) (v : List SpecTask) : (s.setSpec u v).chartBase = s.chartBase := rfl
@[simp] theorem State.setSpec_tlb (u : Nat) (v : List SpecTask) : (s.setSpec u v).tlb = s.tlb := rfl
@[simp] theorem State.setSpec_repair (u : Nat) (v : List SpecTask) : (s.setSpec u v).repair = s.repair := rfl
@[simp] theorem State.setSpec_bulk (u : Nat) (v : List SpecTask) : (s.setSpec u v).bulk = s.bulk := rfl
@[simp] theorem State.setSpec_rebuild (u : Nat) (v : List SpecTask) : (s.setSpec u v).rebuild = s.rebuild := rfl
@[simp] theorem State.setSpec_rebuildBase (u : Nat) (v : List SpecTask) : (s.setSpec u v).rebuildBase = s.rebuildBase := rfl
@[simp] theorem State.setSpec_unpinning (u : Nat) (v : List SpecTask) : (s.setSpec u v).unpinning = s.unpinning := rfl
@[simp] theorem State.setSpec_headland (u : Nat) (v : List SpecTask) : (s.setSpec u v).headland = s.headland := rfl
@[simp] theorem State.setSpec_engines (u : Nat) (v : List SpecTask) : (s.setSpec u v).engines = s.engines := rfl
@[simp] theorem State.setSpec_programs (u : Nat) (v : List SpecTask) : (s.setSpec u v).programs = s.programs := rfl
@[simp] theorem State.setSpec_heads (u : Nat) (v : List SpecTask) : (s.setSpec u v).heads = s.heads := rfl
@[simp] theorem State.setSpec_finished (u : Nat) (v : List SpecTask) : (s.setSpec u v).finished = s.finished := rfl
@[simp] theorem State.setSpec_endings (u : Nat) (v : List SpecTask) : (s.setSpec u v).endings = s.endings := rfl
@[simp] theorem State.setSpec_reruns (u : Nat) (v : List SpecTask) : (s.setSpec u v).reruns = s.reruns := rfl
@[simp] theorem State.setSpec_lastPart (u : Nat) (v : List SpecTask) : (s.setSpec u v).lastPart = s.lastPart := rfl
@[simp] theorem State.setSpec_refusedCtr (u : Nat) (v : List SpecTask) : (s.setSpec u v).refusedCtr = s.refusedCtr := rfl
@[simp] theorem State.setSpec_causeway (u : Nat) (v : List SpecTask) : (s.setSpec u v).causeway = s.causeway := rfl
@[simp] theorem State.setSpec_estuary (u : Nat) (v : List SpecTask) : (s.setSpec u v).estuary = s.estuary := rfl
@[simp] theorem State.setSpec_stages (u : Nat) (v : List SpecTask) : (s.setSpec u v).stages = s.stages := rfl
@[simp] theorem State.setSpec_landfall (u : Nat) (v : List SpecTask) : (s.setSpec u v).landfall = s.landfall := rfl
@[simp] theorem State.setSpec_warmRecord (u : Nat) (v : List SpecTask) : (s.setSpec u v).warmRecord = s.warmRecord := rfl
@[simp] theorem State.setSpec_selfTest (u : Nat) (v : List SpecTask) : (s.setSpec u v).selfTest = s.selfTest := rfl
@[simp] theorem State.setSpec_health (u : Nat) (v : List SpecTask) : (s.setSpec u v).health = s.health := rfl
@[simp] theorem State.setSpec_stow (u : Nat) (v : List SpecTask) : (s.setSpec u v).stow = s.stow := rfl
@[simp] theorem State.setSpec_strand (u : Nat) (v : List SpecTask) : (s.setSpec u v).strand = s.strand := rfl
@[simp] theorem State.setSpec_security (u : Nat) (v : List SpecTask) : (s.setSpec u v).security = s.security := rfl

/-! ### setCrossing -/

@[simp] theorem State.setCrossing_pending (a b : Nat) (v : Crossing) : (s.setCrossing a b v).pending = s.pending := rfl
@[simp] theorem State.setCrossing_out (a b : Nat) (v : Crossing) : (s.setCrossing a b v).out = s.out := rfl
@[simp] theorem State.setCrossing_time (a b : Nat) (v : Crossing) : (s.setCrossing a b v).time = s.time := rfl
@[simp] theorem State.setCrossing_fresh (a b : Nat) (v : Crossing) : (s.setCrossing a b v).fresh = s.fresh := rfl
@[simp] theorem State.setCrossing_pd (a b : Nat) (v : Crossing) : (s.setCrossing a b v).pd = s.pd := rfl
@[simp] theorem State.setCrossing_mem (a b : Nat) (v : Crossing) : (s.setCrossing a b v).mem = s.mem := rfl
@[simp] theorem State.setCrossing_power (a b : Nat) (v : Crossing) : (s.setCrossing a b v).power = s.power := rfl
@[simp] theorem State.setCrossing_ports (a b : Nat) (v : Crossing) : (s.setCrossing a b v).ports = s.ports := rfl
@[simp] theorem State.setCrossing_gdp (a b : Nat) (v : Crossing) : (s.setCrossing a b v).gdp = s.gdp := rfl
@[simp] theorem State.setCrossing_ops (a b : Nat) (v : Crossing) : (s.setCrossing a b v).ops = s.ops := rfl
@[simp] theorem State.setCrossing_host (a b : Nat) (v : Crossing) : (s.setCrossing a b v).host = s.host := rfl
@[simp] theorem State.setCrossing_rooms (a b : Nat) (v : Crossing) : (s.setCrossing a b v).rooms = s.rooms := rfl
@[simp] theorem State.setCrossing_transposes (a b : Nat) (v : Crossing) : (s.setCrossing a b v).transposes = s.transposes := rfl
@[simp] theorem State.setCrossing_cliffs (a b : Nat) (v : Crossing) : (s.setCrossing a b v).cliffs = s.cliffs := rfl
@[simp] theorem State.setCrossing_badBlocks (a b : Nat) (v : Crossing) : (s.setCrossing a b v).badBlocks = s.badBlocks := rfl
@[simp] theorem State.setCrossing_poisonBlocks (a b : Nat) (v : Crossing) : (s.setCrossing a b v).poisonBlocks = s.poisonBlocks := rfl
@[simp] theorem State.setCrossing_unitPorts (a b : Nat) (v : Crossing) : (s.setCrossing a b v).unitPorts = s.unitPorts := rfl
@[simp] theorem State.setCrossing_chartBase (a b : Nat) (v : Crossing) : (s.setCrossing a b v).chartBase = s.chartBase := rfl
@[simp] theorem State.setCrossing_tlb (a b : Nat) (v : Crossing) : (s.setCrossing a b v).tlb = s.tlb := rfl
@[simp] theorem State.setCrossing_repair (a b : Nat) (v : Crossing) : (s.setCrossing a b v).repair = s.repair := rfl
@[simp] theorem State.setCrossing_bulk (a b : Nat) (v : Crossing) : (s.setCrossing a b v).bulk = s.bulk := rfl
@[simp] theorem State.setCrossing_rebuild (a b : Nat) (v : Crossing) : (s.setCrossing a b v).rebuild = s.rebuild := rfl
@[simp] theorem State.setCrossing_rebuildBase (a b : Nat) (v : Crossing) : (s.setCrossing a b v).rebuildBase = s.rebuildBase := rfl
@[simp] theorem State.setCrossing_unpinning (a b : Nat) (v : Crossing) : (s.setCrossing a b v).unpinning = s.unpinning := rfl
@[simp] theorem State.setCrossing_headland (a b : Nat) (v : Crossing) : (s.setCrossing a b v).headland = s.headland := rfl
@[simp] theorem State.setCrossing_engines (a b : Nat) (v : Crossing) : (s.setCrossing a b v).engines = s.engines := rfl
@[simp] theorem State.setCrossing_programs (a b : Nat) (v : Crossing) : (s.setCrossing a b v).programs = s.programs := rfl
@[simp] theorem State.setCrossing_heads (a b : Nat) (v : Crossing) : (s.setCrossing a b v).heads = s.heads := rfl
@[simp] theorem State.setCrossing_finished (a b : Nat) (v : Crossing) : (s.setCrossing a b v).finished = s.finished := rfl
@[simp] theorem State.setCrossing_endings (a b : Nat) (v : Crossing) : (s.setCrossing a b v).endings = s.endings := rfl
@[simp] theorem State.setCrossing_spec (a b : Nat) (v : Crossing) : (s.setCrossing a b v).spec = s.spec := rfl
@[simp] theorem State.setCrossing_reruns (a b : Nat) (v : Crossing) : (s.setCrossing a b v).reruns = s.reruns := rfl
@[simp] theorem State.setCrossing_lastPart (a b : Nat) (v : Crossing) : (s.setCrossing a b v).lastPart = s.lastPart := rfl
@[simp] theorem State.setCrossing_refusedCtr (a b : Nat) (v : Crossing) : (s.setCrossing a b v).refusedCtr = s.refusedCtr := rfl
@[simp] theorem State.setCrossing_causeway (a b : Nat) (v : Crossing) : (s.setCrossing a b v).causeway = s.causeway := rfl
@[simp] theorem State.setCrossing_estuary (a b : Nat) (v : Crossing) : (s.setCrossing a b v).estuary = s.estuary := rfl
@[simp] theorem State.setCrossing_stages (a b : Nat) (v : Crossing) : (s.setCrossing a b v).stages = s.stages := rfl
@[simp] theorem State.setCrossing_landfall (a b : Nat) (v : Crossing) : (s.setCrossing a b v).landfall = s.landfall := rfl
@[simp] theorem State.setCrossing_warmRecord (a b : Nat) (v : Crossing) : (s.setCrossing a b v).warmRecord = s.warmRecord := rfl
@[simp] theorem State.setCrossing_selfTest (a b : Nat) (v : Crossing) : (s.setCrossing a b v).selfTest = s.selfTest := rfl
@[simp] theorem State.setCrossing_health (a b : Nat) (v : Crossing) : (s.setCrossing a b v).health = s.health := rfl
@[simp] theorem State.setCrossing_stow (a b : Nat) (v : Crossing) : (s.setCrossing a b v).stow = s.stow := rfl
@[simp] theorem State.setCrossing_strand (a b : Nat) (v : Crossing) : (s.setCrossing a b v).strand = s.strand := rfl
@[simp] theorem State.setCrossing_security (a b : Nat) (v : Crossing) : (s.setCrossing a b v).security = s.security := rfl

/-! ### setFabricPort -/

@[simp] theorem State.setFabricPort_pending (f p : Nat) (v : Port) : (s.setFabricPort f p v).pending = s.pending := rfl
@[simp] theorem State.setFabricPort_out (f p : Nat) (v : Port) : (s.setFabricPort f p v).out = s.out := rfl
@[simp] theorem State.setFabricPort_time (f p : Nat) (v : Port) : (s.setFabricPort f p v).time = s.time := rfl
@[simp] theorem State.setFabricPort_fresh (f p : Nat) (v : Port) : (s.setFabricPort f p v).fresh = s.fresh := rfl
@[simp] theorem State.setFabricPort_pd (f p : Nat) (v : Port) : (s.setFabricPort f p v).pd = s.pd := rfl
@[simp] theorem State.setFabricPort_mem (f p : Nat) (v : Port) : (s.setFabricPort f p v).mem = s.mem := rfl
@[simp] theorem State.setFabricPort_power (f p : Nat) (v : Port) : (s.setFabricPort f p v).power = s.power := rfl
@[simp] theorem State.setFabricPort_crossings (f p : Nat) (v : Port) : (s.setFabricPort f p v).crossings = s.crossings := rfl
@[simp] theorem State.setFabricPort_gdp (f p : Nat) (v : Port) : (s.setFabricPort f p v).gdp = s.gdp := rfl
@[simp] theorem State.setFabricPort_ops (f p : Nat) (v : Port) : (s.setFabricPort f p v).ops = s.ops := rfl
@[simp] theorem State.setFabricPort_host (f p : Nat) (v : Port) : (s.setFabricPort f p v).host = s.host := rfl
@[simp] theorem State.setFabricPort_rooms (f p : Nat) (v : Port) : (s.setFabricPort f p v).rooms = s.rooms := rfl
@[simp] theorem State.setFabricPort_transposes (f p : Nat) (v : Port) : (s.setFabricPort f p v).transposes = s.transposes := rfl
@[simp] theorem State.setFabricPort_cliffs (f p : Nat) (v : Port) : (s.setFabricPort f p v).cliffs = s.cliffs := rfl
@[simp] theorem State.setFabricPort_badBlocks (f p : Nat) (v : Port) : (s.setFabricPort f p v).badBlocks = s.badBlocks := rfl
@[simp] theorem State.setFabricPort_poisonBlocks (f p : Nat) (v : Port) : (s.setFabricPort f p v).poisonBlocks = s.poisonBlocks := rfl
@[simp] theorem State.setFabricPort_unitPorts (f p : Nat) (v : Port) : (s.setFabricPort f p v).unitPorts = s.unitPorts := rfl
@[simp] theorem State.setFabricPort_chartBase (f p : Nat) (v : Port) : (s.setFabricPort f p v).chartBase = s.chartBase := rfl
@[simp] theorem State.setFabricPort_tlb (f p : Nat) (v : Port) : (s.setFabricPort f p v).tlb = s.tlb := rfl
@[simp] theorem State.setFabricPort_repair (f p : Nat) (v : Port) : (s.setFabricPort f p v).repair = s.repair := rfl
@[simp] theorem State.setFabricPort_bulk (f p : Nat) (v : Port) : (s.setFabricPort f p v).bulk = s.bulk := rfl
@[simp] theorem State.setFabricPort_rebuild (f p : Nat) (v : Port) : (s.setFabricPort f p v).rebuild = s.rebuild := rfl
@[simp] theorem State.setFabricPort_rebuildBase (f p : Nat) (v : Port) : (s.setFabricPort f p v).rebuildBase = s.rebuildBase := rfl
@[simp] theorem State.setFabricPort_unpinning (f p : Nat) (v : Port) : (s.setFabricPort f p v).unpinning = s.unpinning := rfl
@[simp] theorem State.setFabricPort_headland (f p : Nat) (v : Port) : (s.setFabricPort f p v).headland = s.headland := rfl
@[simp] theorem State.setFabricPort_engines (f p : Nat) (v : Port) : (s.setFabricPort f p v).engines = s.engines := rfl
@[simp] theorem State.setFabricPort_programs (f p : Nat) (v : Port) : (s.setFabricPort f p v).programs = s.programs := rfl
@[simp] theorem State.setFabricPort_heads (f p : Nat) (v : Port) : (s.setFabricPort f p v).heads = s.heads := rfl
@[simp] theorem State.setFabricPort_finished (f p : Nat) (v : Port) : (s.setFabricPort f p v).finished = s.finished := rfl
@[simp] theorem State.setFabricPort_endings (f p : Nat) (v : Port) : (s.setFabricPort f p v).endings = s.endings := rfl
@[simp] theorem State.setFabricPort_spec (f p : Nat) (v : Port) : (s.setFabricPort f p v).spec = s.spec := rfl
@[simp] theorem State.setFabricPort_reruns (f p : Nat) (v : Port) : (s.setFabricPort f p v).reruns = s.reruns := rfl
@[simp] theorem State.setFabricPort_lastPart (f p : Nat) (v : Port) : (s.setFabricPort f p v).lastPart = s.lastPart := rfl
@[simp] theorem State.setFabricPort_refusedCtr (f p : Nat) (v : Port) : (s.setFabricPort f p v).refusedCtr = s.refusedCtr := rfl
@[simp] theorem State.setFabricPort_causeway (f p : Nat) (v : Port) : (s.setFabricPort f p v).causeway = s.causeway := rfl
@[simp] theorem State.setFabricPort_estuary (f p : Nat) (v : Port) : (s.setFabricPort f p v).estuary = s.estuary := rfl
@[simp] theorem State.setFabricPort_stages (f p : Nat) (v : Port) : (s.setFabricPort f p v).stages = s.stages := rfl
@[simp] theorem State.setFabricPort_landfall (f p : Nat) (v : Port) : (s.setFabricPort f p v).landfall = s.landfall := rfl
@[simp] theorem State.setFabricPort_warmRecord (f p : Nat) (v : Port) : (s.setFabricPort f p v).warmRecord = s.warmRecord := rfl
@[simp] theorem State.setFabricPort_selfTest (f p : Nat) (v : Port) : (s.setFabricPort f p v).selfTest = s.selfTest := rfl
@[simp] theorem State.setFabricPort_health (f p : Nat) (v : Port) : (s.setFabricPort f p v).health = s.health := rfl
@[simp] theorem State.setFabricPort_stow (f p : Nat) (v : Port) : (s.setFabricPort f p v).stow = s.stow := rfl
@[simp] theorem State.setFabricPort_strand (f p : Nat) (v : Port) : (s.setFabricPort f p v).strand = s.strand := rfl
@[simp] theorem State.setFabricPort_security (f p : Nat) (v : Port) : (s.setFabricPort f p v).security = s.security := rfl

/-! ### setOp -/

@[simp] theorem State.setOp_pending (r : Nat) (v : LongOp) : (s.setOp r v).pending = s.pending := rfl
@[simp] theorem State.setOp_out (r : Nat) (v : LongOp) : (s.setOp r v).out = s.out := rfl
@[simp] theorem State.setOp_time (r : Nat) (v : LongOp) : (s.setOp r v).time = s.time := rfl
@[simp] theorem State.setOp_fresh (r : Nat) (v : LongOp) : (s.setOp r v).fresh = s.fresh := rfl
@[simp] theorem State.setOp_pd (r : Nat) (v : LongOp) : (s.setOp r v).pd = s.pd := rfl
@[simp] theorem State.setOp_mem (r : Nat) (v : LongOp) : (s.setOp r v).mem = s.mem := rfl
@[simp] theorem State.setOp_power (r : Nat) (v : LongOp) : (s.setOp r v).power = s.power := rfl
@[simp] theorem State.setOp_crossings (r : Nat) (v : LongOp) : (s.setOp r v).crossings = s.crossings := rfl
@[simp] theorem State.setOp_ports (r : Nat) (v : LongOp) : (s.setOp r v).ports = s.ports := rfl
@[simp] theorem State.setOp_gdp (r : Nat) (v : LongOp) : (s.setOp r v).gdp = s.gdp := rfl
@[simp] theorem State.setOp_host (r : Nat) (v : LongOp) : (s.setOp r v).host = s.host := rfl
@[simp] theorem State.setOp_rooms (r : Nat) (v : LongOp) : (s.setOp r v).rooms = s.rooms := rfl
@[simp] theorem State.setOp_transposes (r : Nat) (v : LongOp) : (s.setOp r v).transposes = s.transposes := rfl
@[simp] theorem State.setOp_cliffs (r : Nat) (v : LongOp) : (s.setOp r v).cliffs = s.cliffs := rfl
@[simp] theorem State.setOp_badBlocks (r : Nat) (v : LongOp) : (s.setOp r v).badBlocks = s.badBlocks := rfl
@[simp] theorem State.setOp_poisonBlocks (r : Nat) (v : LongOp) : (s.setOp r v).poisonBlocks = s.poisonBlocks := rfl
@[simp] theorem State.setOp_unitPorts (r : Nat) (v : LongOp) : (s.setOp r v).unitPorts = s.unitPorts := rfl
@[simp] theorem State.setOp_chartBase (r : Nat) (v : LongOp) : (s.setOp r v).chartBase = s.chartBase := rfl
@[simp] theorem State.setOp_tlb (r : Nat) (v : LongOp) : (s.setOp r v).tlb = s.tlb := rfl
@[simp] theorem State.setOp_repair (r : Nat) (v : LongOp) : (s.setOp r v).repair = s.repair := rfl
@[simp] theorem State.setOp_bulk (r : Nat) (v : LongOp) : (s.setOp r v).bulk = s.bulk := rfl
@[simp] theorem State.setOp_rebuild (r : Nat) (v : LongOp) : (s.setOp r v).rebuild = s.rebuild := rfl
@[simp] theorem State.setOp_rebuildBase (r : Nat) (v : LongOp) : (s.setOp r v).rebuildBase = s.rebuildBase := rfl
@[simp] theorem State.setOp_unpinning (r : Nat) (v : LongOp) : (s.setOp r v).unpinning = s.unpinning := rfl
@[simp] theorem State.setOp_headland (r : Nat) (v : LongOp) : (s.setOp r v).headland = s.headland := rfl
@[simp] theorem State.setOp_engines (r : Nat) (v : LongOp) : (s.setOp r v).engines = s.engines := rfl
@[simp] theorem State.setOp_programs (r : Nat) (v : LongOp) : (s.setOp r v).programs = s.programs := rfl
@[simp] theorem State.setOp_heads (r : Nat) (v : LongOp) : (s.setOp r v).heads = s.heads := rfl
@[simp] theorem State.setOp_finished (r : Nat) (v : LongOp) : (s.setOp r v).finished = s.finished := rfl
@[simp] theorem State.setOp_endings (r : Nat) (v : LongOp) : (s.setOp r v).endings = s.endings := rfl
@[simp] theorem State.setOp_spec (r : Nat) (v : LongOp) : (s.setOp r v).spec = s.spec := rfl
@[simp] theorem State.setOp_reruns (r : Nat) (v : LongOp) : (s.setOp r v).reruns = s.reruns := rfl
@[simp] theorem State.setOp_lastPart (r : Nat) (v : LongOp) : (s.setOp r v).lastPart = s.lastPart := rfl
@[simp] theorem State.setOp_refusedCtr (r : Nat) (v : LongOp) : (s.setOp r v).refusedCtr = s.refusedCtr := rfl
@[simp] theorem State.setOp_causeway (r : Nat) (v : LongOp) : (s.setOp r v).causeway = s.causeway := rfl
@[simp] theorem State.setOp_estuary (r : Nat) (v : LongOp) : (s.setOp r v).estuary = s.estuary := rfl
@[simp] theorem State.setOp_stages (r : Nat) (v : LongOp) : (s.setOp r v).stages = s.stages := rfl
@[simp] theorem State.setOp_landfall (r : Nat) (v : LongOp) : (s.setOp r v).landfall = s.landfall := rfl
@[simp] theorem State.setOp_warmRecord (r : Nat) (v : LongOp) : (s.setOp r v).warmRecord = s.warmRecord := rfl
@[simp] theorem State.setOp_selfTest (r : Nat) (v : LongOp) : (s.setOp r v).selfTest = s.selfTest := rfl
@[simp] theorem State.setOp_health (r : Nat) (v : LongOp) : (s.setOp r v).health = s.health := rfl
@[simp] theorem State.setOp_stow (r : Nat) (v : LongOp) : (s.setOp r v).stow = s.stow := rfl
@[simp] theorem State.setOp_strand (r : Nat) (v : LongOp) : (s.setOp r v).strand = s.strand := rfl
@[simp] theorem State.setOp_security (r : Nat) (v : LongOp) : (s.setOp r v).security = s.security := rfl

/-! ### await -/

@[simp] theorem State.await_pending (r : Req) (w : Wait) (b : Tab Nat) : (s.await r w b).pending = s.pending := rfl
@[simp] theorem State.await_out (r : Req) (w : Wait) (b : Tab Nat) : (s.await r w b).out = s.out := rfl
@[simp] theorem State.await_time (r : Req) (w : Wait) (b : Tab Nat) : (s.await r w b).time = s.time := rfl
@[simp] theorem State.await_fresh (r : Req) (w : Wait) (b : Tab Nat) : (s.await r w b).fresh = s.fresh := rfl
@[simp] theorem State.await_pd (r : Req) (w : Wait) (b : Tab Nat) : (s.await r w b).pd = s.pd := rfl
@[simp] theorem State.await_mem (r : Req) (w : Wait) (b : Tab Nat) : (s.await r w b).mem = s.mem := rfl
@[simp] theorem State.await_power (r : Req) (w : Wait) (b : Tab Nat) : (s.await r w b).power = s.power := rfl
@[simp] theorem State.await_crossings (r : Req) (w : Wait) (b : Tab Nat) : (s.await r w b).crossings = s.crossings := rfl
@[simp] theorem State.await_ports (r : Req) (w : Wait) (b : Tab Nat) : (s.await r w b).ports = s.ports := rfl
@[simp] theorem State.await_ops (r : Req) (w : Wait) (b : Tab Nat) : (s.await r w b).ops = s.ops := rfl
@[simp] theorem State.await_host (r : Req) (w : Wait) (b : Tab Nat) : (s.await r w b).host = s.host := rfl
@[simp] theorem State.await_rooms (r : Req) (w : Wait) (b : Tab Nat) : (s.await r w b).rooms = s.rooms := rfl
@[simp] theorem State.await_transposes (r : Req) (w : Wait) (b : Tab Nat) : (s.await r w b).transposes = s.transposes := rfl
@[simp] theorem State.await_cliffs (r : Req) (w : Wait) (b : Tab Nat) : (s.await r w b).cliffs = s.cliffs := rfl
@[simp] theorem State.await_badBlocks (r : Req) (w : Wait) (b : Tab Nat) : (s.await r w b).badBlocks = s.badBlocks := rfl
@[simp] theorem State.await_poisonBlocks (r : Req) (w : Wait) (b : Tab Nat) : (s.await r w b).poisonBlocks = s.poisonBlocks := rfl
@[simp] theorem State.await_unitPorts (r : Req) (w : Wait) (b : Tab Nat) : (s.await r w b).unitPorts = s.unitPorts := rfl
@[simp] theorem State.await_chartBase (r : Req) (w : Wait) (b : Tab Nat) : (s.await r w b).chartBase = s.chartBase := rfl
@[simp] theorem State.await_tlb (r : Req) (w : Wait) (b : Tab Nat) : (s.await r w b).tlb = s.tlb := rfl
@[simp] theorem State.await_repair (r : Req) (w : Wait) (b : Tab Nat) : (s.await r w b).repair = s.repair := rfl
@[simp] theorem State.await_bulk (r : Req) (w : Wait) (b : Tab Nat) : (s.await r w b).bulk = s.bulk := rfl
@[simp] theorem State.await_rebuild (r : Req) (w : Wait) (b : Tab Nat) : (s.await r w b).rebuild = s.rebuild := rfl
@[simp] theorem State.await_rebuildBase (r : Req) (w : Wait) (b : Tab Nat) : (s.await r w b).rebuildBase = s.rebuildBase := rfl
@[simp] theorem State.await_unpinning (r : Req) (w : Wait) (b : Tab Nat) : (s.await r w b).unpinning = s.unpinning := rfl
@[simp] theorem State.await_headland (r : Req) (w : Wait) (b : Tab Nat) : (s.await r w b).headland = s.headland := rfl
@[simp] theorem State.await_engines (r : Req) (w : Wait) (b : Tab Nat) : (s.await r w b).engines = s.engines := rfl
@[simp] theorem State.await_programs (r : Req) (w : Wait) (b : Tab Nat) : (s.await r w b).programs = s.programs := rfl
@[simp] theorem State.await_heads (r : Req) (w : Wait) (b : Tab Nat) : (s.await r w b).heads = s.heads := rfl
@[simp] theorem State.await_finished (r : Req) (w : Wait) (b : Tab Nat) : (s.await r w b).finished = s.finished := rfl
@[simp] theorem State.await_endings (r : Req) (w : Wait) (b : Tab Nat) : (s.await r w b).endings = s.endings := rfl
@[simp] theorem State.await_spec (r : Req) (w : Wait) (b : Tab Nat) : (s.await r w b).spec = s.spec := rfl
@[simp] theorem State.await_reruns (r : Req) (w : Wait) (b : Tab Nat) : (s.await r w b).reruns = s.reruns := rfl
@[simp] theorem State.await_lastPart (r : Req) (w : Wait) (b : Tab Nat) : (s.await r w b).lastPart = s.lastPart := rfl
@[simp] theorem State.await_refusedCtr (r : Req) (w : Wait) (b : Tab Nat) : (s.await r w b).refusedCtr = s.refusedCtr := rfl
@[simp] theorem State.await_causeway (r : Req) (w : Wait) (b : Tab Nat) : (s.await r w b).causeway = s.causeway := rfl
@[simp] theorem State.await_estuary (r : Req) (w : Wait) (b : Tab Nat) : (s.await r w b).estuary = s.estuary := rfl
@[simp] theorem State.await_stages (r : Req) (w : Wait) (b : Tab Nat) : (s.await r w b).stages = s.stages := rfl
@[simp] theorem State.await_landfall (r : Req) (w : Wait) (b : Tab Nat) : (s.await r w b).landfall = s.landfall := rfl
@[simp] theorem State.await_warmRecord (r : Req) (w : Wait) (b : Tab Nat) : (s.await r w b).warmRecord = s.warmRecord := rfl
@[simp] theorem State.await_selfTest (r : Req) (w : Wait) (b : Tab Nat) : (s.await r w b).selfTest = s.selfTest := rfl
@[simp] theorem State.await_health (r : Req) (w : Wait) (b : Tab Nat) : (s.await r w b).health = s.health := rfl
@[simp] theorem State.await_stow (r : Req) (w : Wait) (b : Tab Nat) : (s.await r w b).stow = s.stow := rfl
@[simp] theorem State.await_strand (r : Req) (w : Wait) (b : Tab Nat) : (s.await r w b).strand = s.strand := rfl
@[simp] theorem State.await_security (r : Req) (w : Wait) (b : Tab Nat) : (s.await r w b).security = s.security := rfl

/-! ### unawait -/

@[simp] theorem State.unawait_pending (p : Pending) : (s.unawait p).pending = s.pending := rfl
@[simp] theorem State.unawait_out (p : Pending) : (s.unawait p).out = s.out := rfl
@[simp] theorem State.unawait_time (p : Pending) : (s.unawait p).time = s.time := rfl
@[simp] theorem State.unawait_fresh (p : Pending) : (s.unawait p).fresh = s.fresh := rfl
@[simp] theorem State.unawait_pd (p : Pending) : (s.unawait p).pd = s.pd := rfl
@[simp] theorem State.unawait_mem (p : Pending) : (s.unawait p).mem = s.mem := rfl
@[simp] theorem State.unawait_power (p : Pending) : (s.unawait p).power = s.power := rfl
@[simp] theorem State.unawait_crossings (p : Pending) : (s.unawait p).crossings = s.crossings := rfl
@[simp] theorem State.unawait_ports (p : Pending) : (s.unawait p).ports = s.ports := rfl
@[simp] theorem State.unawait_ops (p : Pending) : (s.unawait p).ops = s.ops := rfl
@[simp] theorem State.unawait_host (p : Pending) : (s.unawait p).host = s.host := rfl
@[simp] theorem State.unawait_rooms (p : Pending) : (s.unawait p).rooms = s.rooms := rfl
@[simp] theorem State.unawait_transposes (p : Pending) : (s.unawait p).transposes = s.transposes := rfl
@[simp] theorem State.unawait_cliffs (p : Pending) : (s.unawait p).cliffs = s.cliffs := rfl
@[simp] theorem State.unawait_badBlocks (p : Pending) : (s.unawait p).badBlocks = s.badBlocks := rfl
@[simp] theorem State.unawait_poisonBlocks (p : Pending) : (s.unawait p).poisonBlocks = s.poisonBlocks := rfl
@[simp] theorem State.unawait_unitPorts (p : Pending) : (s.unawait p).unitPorts = s.unitPorts := rfl
@[simp] theorem State.unawait_chartBase (p : Pending) : (s.unawait p).chartBase = s.chartBase := rfl
@[simp] theorem State.unawait_tlb (p : Pending) : (s.unawait p).tlb = s.tlb := rfl
@[simp] theorem State.unawait_repair (p : Pending) : (s.unawait p).repair = s.repair := rfl
@[simp] theorem State.unawait_bulk (p : Pending) : (s.unawait p).bulk = s.bulk := rfl
@[simp] theorem State.unawait_rebuild (p : Pending) : (s.unawait p).rebuild = s.rebuild := rfl
@[simp] theorem State.unawait_rebuildBase (p : Pending) : (s.unawait p).rebuildBase = s.rebuildBase := rfl
@[simp] theorem State.unawait_unpinning (p : Pending) : (s.unawait p).unpinning = s.unpinning := rfl
@[simp] theorem State.unawait_headland (p : Pending) : (s.unawait p).headland = s.headland := rfl
@[simp] theorem State.unawait_engines (p : Pending) : (s.unawait p).engines = s.engines := rfl
@[simp] theorem State.unawait_programs (p : Pending) : (s.unawait p).programs = s.programs := rfl
@[simp] theorem State.unawait_heads (p : Pending) : (s.unawait p).heads = s.heads := rfl
@[simp] theorem State.unawait_finished (p : Pending) : (s.unawait p).finished = s.finished := rfl
@[simp] theorem State.unawait_endings (p : Pending) : (s.unawait p).endings = s.endings := rfl
@[simp] theorem State.unawait_spec (p : Pending) : (s.unawait p).spec = s.spec := rfl
@[simp] theorem State.unawait_reruns (p : Pending) : (s.unawait p).reruns = s.reruns := rfl
@[simp] theorem State.unawait_lastPart (p : Pending) : (s.unawait p).lastPart = s.lastPart := rfl
@[simp] theorem State.unawait_refusedCtr (p : Pending) : (s.unawait p).refusedCtr = s.refusedCtr := rfl
@[simp] theorem State.unawait_causeway (p : Pending) : (s.unawait p).causeway = s.causeway := rfl
@[simp] theorem State.unawait_estuary (p : Pending) : (s.unawait p).estuary = s.estuary := rfl
@[simp] theorem State.unawait_stages (p : Pending) : (s.unawait p).stages = s.stages := rfl
@[simp] theorem State.unawait_landfall (p : Pending) : (s.unawait p).landfall = s.landfall := rfl
@[simp] theorem State.unawait_warmRecord (p : Pending) : (s.unawait p).warmRecord = s.warmRecord := rfl
@[simp] theorem State.unawait_selfTest (p : Pending) : (s.unawait p).selfTest = s.selfTest := rfl
@[simp] theorem State.unawait_health (p : Pending) : (s.unawait p).health = s.health := rfl
@[simp] theorem State.unawait_stow (p : Pending) : (s.unawait p).stow = s.stow := rfl
@[simp] theorem State.unawait_strand (p : Pending) : (s.unawait p).strand = s.strand := rfl
@[simp] theorem State.unawait_security (p : Pending) : (s.unawait p).security = s.security := rfl

end Sys2Proof.Machine
end

