-- ==== Sys2Proof/Laws/Tab.lean ====
section
/-!
SUPPORT. Sparse tables: what a key reads as after each operation, and that every operation keeps the canonical form.
-/
namespace Sys2Proof

variable {α : Type}

/-! ### Reading after writing -/

theorem tget_terase_same (d : α) (t : Tab α) (k : Nat) : tget d (terase t k) k = d := by
  induction t with
  | nil => rfl
  | cons e t ih =>
    rcases Decidable.em (e.1 = k) with h | h
    · simpa [terase, h] using ih
    · simpa [terase, h, tget] using ih

theorem tget_terase_ne (d : α) (t : Tab α) {k j : Nat} (h : j ≠ k) : tget d (terase t k) j = tget d t j := by
  induction t with
  | nil => rfl
  | cons e t ih =>
    rcases Decidable.em (e.1 = k) with h' | h'
    · have : e.1 ≠ j := fun x => h (x ▸ h')
      simpa [terase, h', tget, this, Ne.symm h] using ih
    · simp only [terase, List.filter_cons, bne_iff_ne, ne_eq, h', not_false_eq_true, ↓reduceIte, tget]
      split
      · rfl
      · exact ih

theorem tget_tinsert_ne (d : α) (t : Tab α) {k j : Nat} (v : α) (h : j ≠ k) : tget d (tinsert t k v) j = tget d t j := by
  induction t with
  | nil => simp [tinsert, tget, Ne.symm h]
  | cons e t ih =>
    simp only [tinsert]
    split
    · simp [tget, Ne.symm h]
    · simp only [tget, ih]

theorem tget_tinsert_same (d : α) (t : Tab α) (k : Nat) (v : α) (h : ∀ e ∈ t, e.1 ≠ k) : tget d (tinsert t k v) k = v := by
  induction t with
  | nil => simp [tinsert, tget]
  | cons e t ih =>
    have he := h e (by simp)
    simp only [tinsert]
    split
    · simp [tget]
    · simp only [tget, he, ↓reduceIte]
      exact ih fun x hx => h x (by simp [hx])

theorem mem_terase {t : Tab α} {k : Nat} {e : Nat × α} : e ∈ terase t k ↔ e ∈ t ∧ e.1 ≠ k := by simp [terase]

/-- A key reads as it was last set. -/
@[simp] theorem tget_tset_same [DecidableEq α] (d : α) (t : Tab α) (k : Nat) (v : α) : tget d (tset d t k v) k = v := by
  unfold tset
  split
  · next h => rw [h, tget_terase_same]
  · exact tget_tinsert_same d _ k v fun e he => (mem_terase.mp he).2

/-- Setting a key leaves every other key alone. -/
theorem tget_tset_ne [DecidableEq α] (d : α) (t : Tab α) {k j : Nat} (v : α) (h : j ≠ k) : tget d (tset d t k v) j = tget d t j := by
  unfold tset
  split
  · exact tget_terase_ne d t h
  · rw [tget_tinsert_ne d _ v h, tget_terase_ne d t h]

theorem tget_tset [DecidableEq α] (d : α) (t : Tab α) (k j : Nat) (v : α) :
    tget d (tset d t k v) j = if j = k then v else tget d t j := by
  split
  · next h => rw [h, tget_tset_same]
  · next h => exact tget_tset_ne d t v h

theorem tget_filter (d : α) (t : Tab α) (p : Nat → Bool) (j : Nat) :
    tget d (t.filter fun e => p e.1) j = if p j then tget d t j else d := by
  induction t with
  | nil => simp [tget]
  | cons e t ih =>
    rcases Decidable.em (e.1 = j) with h | h
    · subst h
      by_cases hp : p e.1 = true
      · simp [hp, tget]
      · simp [hp] at ih ⊢
        exact ih
    · by_cases hp : p e.1 = true
      · simp [hp, tget, h, ih]
      · simp [hp, tget, h, ih]

/-- A cleared range reads as if nothing were listed; every other key is left alone. -/
theorem tget_tclear (d : α) (t : Tab α) (lo n j : Nat) :
    tget d (tclear t lo n) j = if lo ≤ j ∧ j < lo + n then d else tget d t j := by
  unfold tclear
  rw [tget_filter d t (fun k => !(decide (lo ≤ k) && decide (k < lo + n)))]
  by_cases h : lo ≤ j ∧ j < lo + n
  · simp [h]
  · rw [if_neg h, if_pos]
    simp
    omega

/-! ### The canonical form -/

theorem wf_iff [DecidableEq α] (d : α) (t : Tab α) :
    Tab.wf d t = true ↔ t.Pairwise (fun a b => a.1 < b.1) ∧ ∀ e ∈ t, e.2 ≠ d := by
  induction t with
  | nil => simp [Tab.wf]
  | cons e t ih =>
    match t with
    | [] => obtain ⟨k, v⟩ := e; simp [Tab.wf]
    | f :: u =>
      obtain ⟨k, v⟩ := e
      obtain ⟨k', v'⟩ := f
      simp only [Tab.wf, Bool.and_eq_true, ih, bne_iff_ne, decide_eq_true_eq, List.pairwise_cons, List.mem_cons]
      constructor
      · rintro ⟨⟨hv, hk⟩, ⟨hp, hq⟩, hd⟩
        refine ⟨⟨?_, hp, hq⟩, ?_⟩
        · rintro a (rfl | ha)
          · exact hk
          · exact Nat.lt_trans hk (hp a ha)
        · rintro a (rfl | ha)
          · exact hv
          · exact hd a ha
      · rintro ⟨⟨h1, hp, hq⟩, hd⟩
        exact ⟨⟨hd _ (.inl rfl), h1 _ (.inl rfl)⟩, ⟨hp, hq⟩, fun a ha => hd a (.inr ha)⟩

/-- Dropping entries keeps the form. -/
theorem wf_filter [DecidableEq α] {d : α} {t : Tab α} (p : Nat × α → Bool) (h : Tab.wf d t = true) :
    Tab.wf d (t.filter p) = true := by
  rw [wf_iff] at h ⊢
  exact ⟨h.1.filter p, fun e he => h.2 e (List.mem_of_mem_filter he)⟩

theorem mem_tinsert {t : Tab α} {k : Nat} {v : α} {e : Nat × α} (h : e ∈ tinsert t k v) : e = (k, v) ∨ e ∈ t := by
  induction t with
  | nil => simpa [tinsert] using h
  | cons f t ih =>
    simp only [tinsert] at h
    split at h
    · simpa using h
    · simp only [List.mem_cons] at h ⊢
      rcases h with rfl | h
      · exact .inr (.inl rfl)
      · rcases ih h with rfl | h
        · exact .inl rfl
        · exact .inr (.inr h)

theorem pairwise_tinsert {t : Tab α} {k : Nat} {v : α} (h : t.Pairwise (fun a b => a.1 < b.1)) (hk : ∀ e ∈ t, e.1 ≠ k) :
    (tinsert t k v).Pairwise (fun a b => a.1 < b.1) := by
  induction t with
  | nil => simp [tinsert]
  | cons f t ih =>
    rw [List.pairwise_cons] at h
    simp only [tinsert]
    split
    · next hlt =>
      rw [List.pairwise_cons, List.pairwise_cons]
      refine ⟨?_, h.1, h.2⟩
      rintro a (_ | ⟨_, ha⟩)
      · exact hlt
      · exact Nat.lt_trans hlt (h.1 a ha)
    · next hge =>
      rw [List.pairwise_cons]
      refine ⟨fun a ha => ?_, ih h.2 fun e he => hk e (by simp [he])⟩
      rcases mem_tinsert ha with rfl | ha
      · exact Nat.lt_of_le_of_ne (Nat.not_lt.mp hge) (hk f (by simp))
      · exact h.1 a ha

/-- Setting a key keeps the form. -/
theorem wf_tset [DecidableEq α] {d : α} {t : Tab α} (k : Nat) (v : α) (h : Tab.wf d t = true) : Tab.wf d (tset d t k v) = true := by
  have hf : Tab.wf d (terase t k) = true := wf_filter _ h
  unfold tset
  split
  · exact hf
  · next hv =>
    rw [wf_iff] at hf ⊢
    refine ⟨pairwise_tinsert hf.1 fun e he => (mem_terase.mp he).2, fun e he => ?_⟩
    rcases mem_tinsert he with rfl | he
    · exact hv
    · exact hf.2 e he

/-- Clearing a range keeps the form. -/
theorem wf_tclear [DecidableEq α] {d : α} {t : Tab α} (lo n : Nat) (h : Tab.wf d t = true) : Tab.wf d (tclear t lo n) = true :=
  wf_filter _ h

/-- Setting consecutive keys keeps the form. -/
theorem wf_tsetMany [DecidableEq α] {d : α} (vs : List α) {t : Tab α} (k : Nat) (h : Tab.wf d t = true) :
    Tab.wf d (tsetMany d t k vs) = true := by
  induction vs generalizing t k with
  | nil => exact h
  | cons v vs ih => exact ih (k + 1) (wf_tset k v h)

/-- Replacing every value gives the form. -/
theorem wf_tmap [DecidableEq α] (d : α) (f : Nat → α → α) (t : Tab α) : Tab.wf d (tmap d f t) = true := by
  have key : ∀ (l : Tab α) (u : Tab α), Tab.wf d u = true → Tab.wf d (l.foldl (fun t e => tset d t e.1 (f e.1 e.2)) u) = true := by
    intro l
    induction l with
    | nil => exact fun u h => h
    | cons e l ih => exact fun u h => ih _ (wf_tset e.1 _ h)
  exact key t [] rfl

end Sys2Proof
end

