-- ==== Sys2Proof/Laws/Ops.lean ====
section
/-!
SUPPORT. What the shared operations over the state do, said once: the dictionary's store, counted requests, responses,
occurrences, long operations.
-/
namespace Sys2Proof.Machine

/-! ### The dictionary's store -/

theorem pdKey_ne {k k' u u' : Nat} (hk : k ≠ k') (hu : u < 16777216) (hu' : u' < 16777216) : pdKey k u ≠ pdKey k' u' := by
  unfold pdKey; omega

@[simp] theorem State.rd_wr_same (s : State) (k u v : Nat) : (s.wr k u v).rd k u = v := by simp [State.rd, State.wr]

theorem State.rd_wr (s : State) (k u v k' u' : Nat) :
    (s.wr k u v).rd k' u' = if pdKey k' u' = pdKey k u then v else s.rd k' u' := by
  simp [State.rd, State.wr, tget_tset]

theorem State.rd_wr_ne (s : State) {k u v k' u' : Nat} (h : k' ≠ k) (hu : u < 16777216) (hu' : u' < 16777216) :
    (s.wr k u v).rd k' u' = s.rd k' u' := by rw [State.rd_wr, if_neg (pdKey_ne h hu' hu)]

@[simp] theorem State.reg_setReg_same (s : State) (k v : Nat) : (s.setReg k v).reg k = v := State.rd_wr_same s k 0 v

theorem State.reg_setReg_ne (s : State) {k v k' : Nat} (h : k' ≠ k) : (s.setReg k v).reg k' = s.reg k' :=
  State.rd_wr_ne s h (by decide) (by decide)

theorem State.rd_of_pd {s t : State} (h : t.pd = s.pd) (k u : Nat) : t.rd k u = s.rd k u := by simp [State.rd, h]

/-! ### Frames of the store -/

theorem storeFrame.refl (keys : List Nat) (s : State) : storeFrame keys s s := fun _ _ _ _ => rfl

theorem storeFrame.of_pd {keys : List Nat} {s t : State} (h : t.pd = s.pd) : storeFrame keys s t :=
  fun k u _ _ => State.rd_of_pd h k u

theorem storeFrame.trans {keys : List Nat} {s t u : State} (h : storeFrame keys s t) (h' : storeFrame keys t u) :
    storeFrame keys s u := fun k v hk hv => (h' k v hk hv).trans (h k v hk hv)

theorem storeFrame.mono {keys keys' : List Nat} {s t : State} (h : storeFrame keys s t) (hs : ∀ k ∈ keys, k ∈ keys') :
    storeFrame keys' s t := fun k v hk hv => h k v (fun hx => hk (hs k hx)) hv

theorem storeFrame.wr {keys : List Nat} {s t : State} (h : storeFrame keys s t) {k u : Nat} (v : Nat) (hk : k ∈ keys)
    (hu : u < 16777216) : storeFrame keys s (t.wr k u v) := fun k' u' hk' hu' => by
  have hx : k' ≠ k := by rintro rfl; exact hk' hk
  rw [State.rd_wr_ne t hx hu hu', h k' u' hk' hu']

theorem storeFrame.setReg {keys : List Nat} {s t : State} (h : storeFrame keys s t) {k : Nat} (v : Nat) (hk : k ∈ keys) :
    storeFrame keys s (t.setReg k v) := h.wr v hk (by decide)

theorem storeFrame.reg {keys : List Nat} {s t : State} (h : storeFrame keys s t) {k : Nat} (hk : k ∉ keys) : t.reg k = s.reg k :=
  h k 0 hk (by decide)

/-! ### Occurrences -/

/-- `record` touches the recorder's queue, its count of dropped occurrences and OVERRUNS only. -/
theorem State.record_frame (s : State) (g : Nat) (c : BitVec 16) (uk un : Nat) (d : List Byte) :
    { s.record g c uk un d with pd := s.pd, strand := s.strand } = s := by
  unfold State.record; split <;> rfl

theorem State.record_store (s : State) (g : Nat) (c : BitVec 16) (uk un : Nat) (d : List Byte) :
    storeFrame [Pd.overruns] s (s.record g c uk un d) := by
  unfold State.record; split
  · exact storeFrame.of_pd rfl
  · exact (storeFrame.refl _ s).setReg _ (by simp)

theorem State.record_queue (s : State) (g : Nat) (c : BitVec 16) (uk un : Nat) (d : List Byte) (h : s.strand.queue.length < 256) :
    s.record g c uk un d = { s with strand := { s.strand with queue := s.strand.queue ++ [occurrence s g c uk un d] } } := by
  unfold State.record; rw [if_pos h]; rfl

end Sys2Proof.Machine
end

