-- ==== Sys2Proof/Laws/Coves.lean ====
section
/-!
SUPPORT. What reads do in the Coves, said once: the lines' state, the queues and the Coves' counters change, and nothing else
(spec/06 R146 to R151).
-/
namespace Sys2Proof.Machine

theorem covesRead.refl (s : State) : covesRead s s := ⟨rfl, storeFrame.refl _ s⟩

theorem covesRead.trans {s t u : State} (h : covesRead s t) (h' : covesRead t u) : covesRead s u := by
  refine ⟨?_, h.2.trans h'.2⟩
  have a := h.1
  have b := h'.1
  rw [← b] at a
  exact a

theorem covesRead.foldl {α : Type} {f : State → α → State} {l : List α} (hf : ∀ s a, a ∈ l → covesRead s (f s a)) :
    ∀ s, covesRead s (l.foldl f s) := by
  induction l with
  | nil => exact covesRead.refl
  | cons a l ih =>
    intro s
    exact (hf s a (by simp)).trans (ih (fun s b hb => hf s b (by simp [hb])) (f s a))

theorem covesRead.wr (s : State) {k : Nat} (u v : Nat) (hk : k ∈ coveKeys) (hu : u < 16777216) : covesRead s (s.wr k u v) :=
  ⟨rfl, (storeFrame.refl _ s).wr v hk hu⟩

theorem covesRead.bump (s : State) {k : Nat} (n : Nat) (hk : k ∈ coveKeys) : covesRead s (s.bump k n) :=
  covesRead.wr s 0 _ hk (by decide)

theorem covesRead.setCliff (s : State) (c : Nat) (v : Cliff) : covesRead s (s.setCliff c v) := ⟨rfl, storeFrame.of_pd rfl⟩

theorem coveSet_lt (b : Nat) : coveSet b < 4096 :=
  Nat.xor_lt_two_pow (n := 12) (Nat.mod_lt _ (by decide)) (Nat.mod_lt _ (by decide))

theorem covesRead.setCoveLine (s : State) {c set w : Nat} (v : Nat) (hc : c < 20) (hs : set < 4096) (hw : w < 24) :
    covesRead s (s.setCoveLine c set w v) :=
  covesRead.wr s _ v (by simp [coveKeys]) (by unfold lineIndex; omega)

theorem covesRead.mapLines (s : State) {c set : Nat} (w : Nat) (f : Nat → Nat) (hc : c < 20) (hs : set < 4096) :
    covesRead s (s.mapLines c set w f) := by
  refine covesRead.foldl (fun s i hi => ?_) s
  dsimp only
  split
  · exact .setCoveLine s _ hc hs (List.mem_range.1 hi)
  · exact .refl s

theorem covesRead.touchAge (s : State) {c set w : Nat} (hc : c < 20) (hs : set < 4096) (hw : w < 24) :
    covesRead s (s.touchAge c set w) := (covesRead.mapLines s _ _ hc hs).trans (.setCoveLine _ _ hc hs hw)

theorem covesRead.insertLine (s : State) {c set w : Nat} (v : Nat) (hc : c < 20) (hs : set < 4096) (hw : w < 24) :
    covesRead s (s.insertLine c set w v) := (covesRead.mapLines s _ _ hc hs).trans (.setCoveLine _ _ hc hs hw)

theorem covesRead.dropLine (s : State) {c set w : Nat} (hc : c < 20) (hs : set < 4096) (hw : w < 24) :
    covesRead s (s.dropLine c set w) := by
  unfold State.dropLine
  dsimp only
  split
  · exact (covesRead.mapLines s _ _ hc hs).trans (.setCoveLine _ _ hc hs hw)
  · exact .setCoveLine _ _ hc hs hw

theorem covesRead.accessLine (s : State) {c set w : Nat} (q : CliffReq) (hc : c < 20) (hs : set < 4096) (hw : w < 24) :
    covesRead s (s.accessLine c set w q) := (covesRead.setCoveLine s _ hc hs hw).trans (.touchAge _ hc hs hw)

theorem covesRead.queueAccess (s : State) (c : Nat) (x : LineAcc) : covesRead s (s.queueAccess c x) := .setCliff s c _

theorem covesRead.joinFetch (s : State) (c b : Nat) (ws : List CliffReq) : covesRead s (s.joinFetch c b ws) :=
  (covesRead.setCliff s c _).trans (.bump _ _ (by simp [coveKeys]))

/-- A way that holds a block is one of the 24. -/
theorem State.findWay_lt {s : State} {c b w : Nat} (h : s.findWay c b = some w) : w < 24 :=
  List.mem_range.1 (List.mem_of_find?_eq_some h)

theorem covesRead.blocks (s : State) (bad poison : List Nat) : covesRead s { s with badBlocks := bad, poisonBlocks := poison } :=
  ⟨rfl, storeFrame.of_pd rfl⟩

theorem covesRead.poison (s : State) {key : Nat} (hk : natCliff key < 20) : covesRead s (s.poison key) := by
  unfold State.poison
  dsimp only
  split
  · next w h => exact (covesRead.blocks s _ _).trans (covesRead.setCoveLine _ _ hk (coveSet_lt _) (State.findWay_lt h))
  · exact .blocks s _ _

/-- The block that a line's tag and set name lies in its own Cliff. -/
theorem lineBlock_cliff {c : Nat} (v set : Nat) (hc : c < 20) :
    natCliff (c * 0x2000000000 + 256 * (lineTag v * 4096 + ((set ^^^ lineTag v % 4096) % 4096))) < 20 := by
  have ht : lineTag v < 131072 := by unfold lineTag bits; exact Nat.mod_lt _ (by decide)
  have hx := Nat.mod_lt (set ^^^ lineTag v % 4096) (show 0 < 4096 by decide)
  unfold natCliff
  omega

theorem covesRead.ite {s a b : State} {p : Prop} [Decidable p] (ha : covesRead s a) (hb : covesRead s b) :
    covesRead s (if p then a else b) := by
  split
  · exact ha
  · exact hb

theorem covesRead.evict (s : State) {c set w : Nat} (hc : c < 20) (hs : set < 4096) (hw : w < 24) : covesRead s (s.evict c set w) := by
  unfold State.evict
  dsimp only
  exact ((covesRead.ite (.queueAccess s c _) (.refl s)).trans (.ite (.poison _ (lineBlock_cliff _ _ hc)) (.refl _))).trans
    (.dropLine _ hc hs hw)

/-- The way that a fill takes is one of the 24. -/
theorem State.victimWay_lt {s : State} {c set w : Nat} (h : s.victimWay c set = some w) : w < 24 := by
  have oldest : ∀ (l : List Nat) (f : Nat → Nat) (a : Option Nat), (∀ x ∈ l, x < 24) → (∀ x, a = some x → x < 24) →
      ∀ x, l.foldl (fun (a : Option Nat) w => match a with
        | none => some w
        | some b => if f b < f w then some w else some b) a = some x → x < 24 := by
    intro l f
    induction l with
    | nil => intro a _ ha; exact ha
    | cons y l ih =>
      intro a hl ha
      refine ih _ (fun x hx => hl x (by simp [hx])) ?_
      have hy := hl y (by simp)
      intro x hx
      cases a with
      | none => simp only [Option.some.injEq] at hx; omega
      | some b =>
        have hb := ha b rfl
        dsimp only at hx
        split at hx <;> simp only [Option.some.injEq] at hx <;> omega
  unfold State.victimWay at h
  dsimp only at h
  have mem : ∀ (p q : Nat → Bool), ∀ x ∈ ((List.range 24).filter p).filter q, x < 24 := by
    intro p q x hx
    simp only [List.mem_filter, List.mem_range] at hx
    exact hx.1.1
  split at h
  · next x hx =>
    cases h
    have := List.mem_of_find?_eq_some hx
    simp only [List.mem_filter, List.mem_range] at this
    exact this.1
  · split at h
    · next x hx => cases h; exact oldest _ _ none (mem _ _) (by simp) _ hx
    · refine oldest _ _ none ?_ (by simp) _ h
      intro x hx
      exact mem _ _ x (List.mem_of_mem_filter hx)

theorem covesRead.allocate (s : State) {c : Nat} (b : Nat) (q : CliffReq) (filling : Bool) (hc : c < 20) :
    covesRead s (s.allocate c b q filling).1 := by
  unfold State.allocate
  dsimp only
  split
  · exact .ite (.refl s) (.bump s _ (by simp [coveKeys]))
  · next w h =>
    have hw := State.victimWay_lt h
    exact ((covesRead.evict s hc (coveSet_lt b) hw).trans (.ite (.bump (k := Pd.pinDenied) _ _ (by simp [coveKeys])) (.refl _))).trans
      (.insertLine _ _ hc (coveSet_lt b) hw)

/-- A block read that nothing waits for and whose line shows no error of its code. -/
theorem covesRead.readBlock (s : State) {c : Nat} (q : CliffReq) (b : Nat) (hc : c < 20) :
    covesRead s (s.readBlock c q [] .clean b) := by
  unfold State.readBlock
  dsimp only
  split
  · next w h =>
    have hw := State.findWay_lt h
    split
    · exact .joinFetch s c b _
    · refine ((covesRead.bump (k := Pd.coveHits) s 1 (by simp [coveKeys])).trans (.accessLine _ q hc (coveSet_lt b) hw)).trans ?_
      rw [if_neg (by decide)]
      exact .ite (.bump (k := Pd.uncorrectableErrors) _ _ (by simp [coveKeys])) (.refl _)
  · split
    · exact (covesRead.bump s 1 (by simp [coveKeys])).trans (.ite (.bump (k := Pd.uncorrectableErrors) _ _ (by simp [coveKeys])) (.refl _))
    · split
      · exact .joinFetch s c b _
      · exact ((covesRead.allocate s b q true hc).trans (.bump _ _ (by simp [coveKeys]))).trans (.queueAccess _ _ _)

/-- Line reads of blocks in the twenty Cliffs. -/
theorem covesRead.passRead (s : State) (q : CliffReq) {blocks : List Nat} (h : ∀ n ∈ blocks, natCliff n < 20) :
    covesRead s (s.passRead q blocks) := covesRead.foldl (fun s n hn => .readBlock s q _ (h n hn)) s

/-! ### Where a unit's reads go -/

/-- A backed address of the Cliffs, in either view, lies in one of the twenty. -/
theorem cliffNative_cliff {a n : Nat} (h : cliffNative a = some n) : natCliff n < 20 := by
  unfold cliffNative isNative at h
  unfold natCliff
  split at h
  · next ha =>
    split at h
    · have := of_decide_eq_true ha
      cases h
      omega
    · cases h
  · split at h
    · split at h
      · next hx =>
        simp only [Option.some.injEq] at h
        rw [← h]
        unfold aliasToNative
        have hb : aliasBytes = 20 * cliffBytes := by decide
        have hc : cliffBytes < 0x2000000000 := by decide
        have h20 := Nat.mod_lt (7 * ((( a - aliasBase) / 256 % 20 + hashQ ((a - aliasBase) / 256 / 20)) % 20)) (show 0 < 20 by decide)
        dsimp only
        omega
      · cases h
    · cases h

theorem State.physCheck_cliff {s : State} {a n : Nat} (h : s.physCheck a = .ok n) : natCliff n < 20 := by
  unfold State.physCheck at h
  split at h
  · cases h
  · next m hm =>
    split at h
    · cases h
    · split at h
      · cases h
      · cases h; exact cliffNative_cliff hm

theorem State.chartCheck_cliff {s : State} {u : CliffUser} {p a n : Nat} {write : Bool} (h : s.chartCheck u p a write = .ok n) :
    natCliff n < 20 := by
  unfold State.chartCheck at h
  split at h
  · cases h
  · generalize (if write = true then _ else _ : Bool) = allowed at h
    cases allowed
    · cases h
    · exact State.physCheck_cliff h

theorem State.runAheadCheck_cliff {s : State} {u : CliffUser} {p a n : Nat} (h : s.runAheadCheck u p a = .ok n) : natCliff n < 20 := by
  unfold State.runAheadCheck at h
  split at h
  · cases h
  · split at h
    · cases h
    · split at h
      · next hc => cases h; exact State.chartCheck_cliff hc
      · cases h

theorem State.unitBlocks_cliff {s : State} {g : Agent} {runAhead write : Bool} {as : List Nat} :
    ∀ n ∈ s.unitBlocks g runAhead write as, natCliff n < 20 := by
  intro n hn
  unfold State.unitBlocks at hn
  rw [List.mem_eraseDups, List.mem_filterMap] at hn
  obtain ⟨a, -, ha⟩ := hn
  unfold State.nativeFor at ha
  split at ha
  · next m hm =>
    cases ha
    split at hm
    · exact State.runAheadCheck_cliff hm
    · exact State.chartCheck_cliff hm
  · cases ha

/-- A list's record read, and a task's descriptors read, leave everything but the Coves. -/
theorem State.passBytes_read (s : State) (g : Agent) (a n : Nat) : covesRead s (s.passBytes g false a n) :=
  .passRead s _ State.unitBlocks_cliff

theorem State.passDescs_read (s : State) (t : Task) : covesRead s (s.passDescs t) := .passRead s _ State.unitBlocks_cliff

end Sys2Proof.Machine
end

