-- ==== Sys2Proof/Laws/Links.lean ====
section
/-!
SUPPORT. Putting transfers on the Causeway, said once: nothing but the Causeway's own state changes.
-/
namespace Sys2Proof.Machine

/-- `t` is `s` but for the Causeway's state. -/
def causewayOnly (s t : State) : Prop := { t with causeway := s.causeway } = s

theorem causewayOnly.refl (s : State) : causewayOnly s s := rfl

theorem causewayOnly.eq {s t : State} (h : causewayOnly s t) : t = { s with causeway := t.causeway } := by
  unfold causewayOnly at h
  rw [← h]

theorem causewayOnly.trans {s t u : State} (h : causewayOnly s t) (h' : causewayOnly t u) : causewayOnly s u := by
  rw [h'.eq, h.eq]; rfl

theorem causewayOnly.foldl {α : Type} {f : State → α → State} (hf : ∀ s x, causewayOnly s (f s x)) (l : List α) :
    ∀ s, causewayOnly s (l.foldl f s) := by
  induction l with
  | nil => exact fun _ => rfl
  | cons x l ih => exact fun s => (hf s x).trans (ih _)

theorem State.setCport_causewayOnly (s : State) (p : Nat) (v : CausewayPort) : causewayOnly s (s.setCport p v) := rfl

theorem State.setUnacked_causewayOnly (s : State) (d : Nat) (l : List Transfer) : causewayOnly s (s.setUnacked d l) := rfl

theorem State.enqueue_causewayOnly (s : State) (p : Nat) (k : Packet) : causewayOnly s (s.enqueue p k) := rfl

theorem State.enqueueTowards_causewayOnly (s : State) (hop : Nat) (k : Packet) : causewayOnly s (s.enqueueTowards hop k) := by
  unfold State.enqueueTowards; split <;> rfl

theorem State.pushTransfer_causewayOnly (s : State) (t : Transfer) (retry : Bool) : causewayOnly s (s.pushTransfer t retry) := by
  unfold State.pushTransfer
  split
  · rfl
  · exact causewayOnly.foldl (fun s k => s.enqueueTowards_causewayOnly _ _) _ _

theorem State.sendHeld_causewayOnly (d : Nat) (path : List Nat × Bool) (ts : List Transfer) :
    ∀ (s : State) (under : Nat), causewayOnly s (s.sendHeld d path under ts).2 := by
  induction ts with
  | nil => exact fun _ _ => rfl
  | cons t ts ih =>
    intro s under
    unfold State.sendHeld
    split
    · exact ih s under
    · split
      · exact ih s under
      · split
        · exact (s.pushTransfer_causewayOnly _ _).trans (ih _ _)
        · rfl

theorem State.sendWaiting_causewayOnly (s : State) (d : Nat) : causewayOnly s (s.sendWaiting d) :=
  (State.sendHeld_causewayOnly d _ _ s _).trans (State.setUnacked_causewayOnly _ _ _)

theorem State.queueTransfer_causewayOnly (s : State) (d : Nat) (purpose : TransferFor) (ks : List Packet) :
    causewayOnly s (s.queueTransfer d purpose ks) := by
  simp only [State.queueTransfer]
  refine causewayOnly.trans ?_ (State.sendWaiting_causewayOnly _ _)
  rfl

theorem State.sendGdp_causewayOnly (s : State) (d role : Nat) (bytes : List Byte) : causewayOnly s (s.sendGdp d role bytes) := by
  unfold State.sendGdp
  split
  · rfl
  · exact s.queueTransfer_causewayOnly _ _ _

end Sys2Proof.Machine
end

