-- ==== Sys2Proof/Laws/Gdp.lean ====
section
/-!
SUPPORT. Dictionary requests, said once: what counting a request and answering it touch, and what receiving an admitted
request comes to (spec/03 R75 to R80).
-/
namespace Sys2Proof.Machine

/-! ### Counting a request -/

theorem State.countRequest_frame (s : State) (p : GdpPath) : { s.countRequest p with pd := s.pd } = s := by
  cases p <;> rfl

theorem State.countRequest_store (s : State) (p : GdpPath) : storeFrame requestCounters s (s.countRequest p) := by
  cases p
  · exact (storeFrame.refl _ s).setReg _ (by decide)
  · exact (storeFrame.refl _ s).setReg _ (by decide)
  · exact (storeFrame.refl _ s).setReg _ (by decide)
  · exact storeFrame.refl _ s
  · exact storeFrame.refl _ s

/-- Counting a request changes the store only: `t` is `s` with another store. -/
theorem State.countRequest_eq (s : State) (p : GdpPath) : s.countRequest p = { s with pd := (s.countRequest p).pd } := by
  cases p <;> rfl

theorem State.countRequest_reg (s : State) (p : GdpPath) {k : Nat} (h : k ∉ requestCounters) : (s.countRequest p).reg k = s.reg k :=
  (s.countRequest_store p).reg h

theorem State.countRequest_rd (s : State) (p : GdpPath) {k u : Nat} (h : k ∉ requestCounters) (hu : u < 16777216) :
    (s.countRequest p).rd k u = s.rd k u := s.countRequest_store p k u h hu

theorem State.countRequest_checks (s : State) (p : GdpPath) (role : Role) (b : Bool) (e : EntryInfo) (q : Req) :
    (s.countRequest p).entryChecks role b e q = s.entryChecks role b e q := by
  have h1 := s.countRequest_reg p (k := Pd.readPolicy) (by decide)
  have h2 := s.countRequest_reg p (k := Pd.lifeCycle) (by decide)
  have hp : (s.countRequest p).policyDenies q = s.policyDenies q := by
    unfold State.policyDenies State.cursorOf
    rw [h1, s.countRequest_eq p]
  have hb : ∀ l, (s.countRequest p).badOffset e q.key q.offset l = s.badOffset e q.key q.offset l := fun l => by
    rw [s.countRequest_eq p]; rfl
  unfold State.entryChecks
  simp only [hp, hb, h2]

/-! ### Answering -/

/-- A response's header names this module by its straps alone. -/
theorem State.responseTo_congr {s t : State} (h : t.reg Pd.straps = s.reg Pd.straps) (r : Req) (c : BitVec 16) (p : List Byte) :
    t.responseTo r c p = s.responseTo r c p := by
  unfold State.responseTo State.position; rw [h]

theorem reply_congr {s t : State} (h : t.reg Pd.straps = s.reg Pd.straps) (r : Req) (c : BitVec 16) (p : List Byte) :
    reply t r c p = reply s r c p := by
  unfold reply; rw [State.responseTo_congr h]

theorem State.reply_countRequest (s : State) (q : GdpPath) (r : Req) (c : BitVec 16) (p : List Byte) :
    reply (s.countRequest q) r c p = reply s r c p := reply_congr (s.countRequest_reg q (by decide)) r c p

/-- A message sent touches what is sent and the Causeway, and nothing else. -/
theorem State.sendMsg_frame (s : State) (q : GdpPath) (m : GdpMsg) :
    { s.sendMsg q m with out := s.out, causeway := s.causeway } = s := by
  unfold State.sendMsg
  cases q
  case causeway o r f =>
    exact congrArg (fun u : State => { u with out := s.out })
      (State.sendGdp_causewayOnly (s.emit (.gdpReply (.causeway o r f) m)) o ((m.flags.toNat / 4) % 4) (msgBytes m))
  all_goals rfl

theorem State.sendMsg_eq (s : State) (q : GdpPath) (m : GdpMsg) :
    s.sendMsg q m = { s with out := (s.sendMsg q m).out, causeway := (s.sendMsg q m).causeway } := by
  have h := s.sendMsg_frame q m
  generalize s.sendMsg q m = t at h ⊢
  exact congrArg (fun u : State => { u with out := t.out, causeway := t.causeway }) h

theorem State.sendMsg_kept (s : State) (q : GdpPath) (m : GdpMsg) : causewayKept q s (s.sendMsg q m) := by
  intro h
  cases q
  case causeway o r f => exact absurd rfl (h o r f)
  all_goals rfl

theorem State.sendMsg_out (s : State) (r : Req) (c : BitVec 16) (p : List Byte) :
    (s.sendMsg r.path (s.responseTo r c p)).out = s.out ++ reply s r c p := by
  unfold State.sendMsg reply
  cases r.path
  case causeway o q f =>
    dsimp only
    rw [(State.sendGdp_causewayOnly (s.emit (.gdpReply (.causeway o q f) (s.responseTo r c p))) o _ _).eq]
    simp [State.emit]
  all_goals simp [State.emit, State.vector]

/-- A response touches what is sent, the Causeway where it goes there, the cache, and nothing else. -/
theorem State.send_eq (s : State) (r : Req) (m : GdpMsg) :
    s.send r m = { s with out := (s.sendMsg r.path m).out, causeway := (s.sendMsg r.path m).causeway, gdp := (s.send r m).gdp } := by
  have h := s.sendMsg_eq r.path m
  have hg : (s.sendMsg r.path m).gdp = s.gdp := by rw [h]
  unfold State.send
  split
  · rw [hg]; exact h
  · generalize cacheAdd _ _ = c
    dsimp only
    rw [hg]
    conv => lhs; rw [h]

theorem State.send_touches (s : State) (r : Req) (m : GdpMsg) :
    ∃ o c g, s.send r m = { s with out := o, causeway := c, gdp := g } := ⟨_, _, _, s.send_eq r m⟩

theorem State.send_out (s : State) (r : Req) (c : BitVec 16) (p : List Byte) :
    (s.send r (s.responseTo r c p)).out = s.out ++ reply s r c p := by
  rw [State.send_eq, State.sendMsg_out]

theorem State.send_inflight (s : State) (r : Req) (m : GdpMsg) : (s.send r m).gdp.inflight = s.gdp.inflight := by
  have hg : (s.sendMsg r.path m).gdp = s.gdp := by rw [s.sendMsg_eq r.path m]
  unfold State.send
  split
  · rw [hg]
  · dsimp only; rw [hg]

theorem State.send_kept (s : State) (r : Req) (m : GdpMsg) : causewayKept r.path s (s.send r m) := by
  intro h
  rw [State.send_eq]; exact s.sendMsg_kept r.path m h

theorem State.noteRefusal_eq (s : State) (r : Req) (c : BitVec 16) : ∃ p, s.noteRefusal r c = { s with pd := p } := ⟨_, rfl⟩

theorem State.noteRefusal_straps (s : State) (r : Req) (c : BitVec 16) : (s.noteRefusal r c).reg Pd.straps = s.reg Pd.straps := by
  unfold State.noteRefusal State.bump
  rw [State.reg_setReg_ne _ (by decide), State.reg_setReg_ne _ (by decide)]

/-- A response that is no failure: the reply goes out, the cache may keep it, nothing else changes. -/
theorem State.respond_ok (s : State) (r : Req) {c : BitVec 16} (p : List Byte) (h : isFailure c = false) :
    s.respond r c p = s.send r (s.responseTo r c p) := by simp [State.respond, h]

theorem State.respond_out (s : State) (r : Req) (c : BitVec 16) (p : List Byte) :
    (s.respond r c p).out = s.out ++ reply s r c p := by
  unfold State.respond
  split
  · rw [State.send_out, reply_congr (s.noteRefusal_straps r c)]
    obtain ⟨p', hp⟩ := s.noteRefusal_eq r c
    rw [hp]
  · rw [State.send_out]

theorem State.respond_touches (s : State) (r : Req) (c : BitVec 16) (p : List Byte) :
    ∃ o w g d, s.respond r c p = { s with out := o, causeway := w, gdp := g, pd := d } := by
  unfold State.respond
  split
  · obtain ⟨p', hp⟩ := s.noteRefusal_eq r c
    obtain ⟨o, w, g, h⟩ := (s.noteRefusal r c).send_touches r ((s.noteRefusal r c).responseTo r c p)
    exact ⟨o, w, g, p', by rw [h, hp]⟩
  · obtain ⟨o, w, g, h⟩ := s.send_touches r (s.responseTo r c p)
    exact ⟨o, w, g, s.pd, by rw [h]⟩

/-- Any response: only what is sent, the Causeway, the unanswered and the cache, the count of refusals and LAST_REFUSAL may change. -/
theorem State.respond_frame (s : State) (r : Req) (c : BitVec 16) (p : List Byte) :
    { s.respond r c p with out := s.out, gdp := s.gdp, pd := s.pd, causeway := s.causeway } = s := by
  obtain ⟨o, w, g, d, h⟩ := s.respond_touches r c p
  rw [h]

theorem State.respond_kept (s : State) (r : Req) (c : BitVec 16) (p : List Byte) : causewayKept r.path s (s.respond r c p) := by
  unfold State.respond
  split
  · obtain ⟨p', hp⟩ := s.noteRefusal_eq r c
    intro h
    rw [State.send_kept _ _ _ h, hp]
  · exact State.send_kept _ _ _

theorem State.respond_store (s : State) (r : Req) (c : BitVec 16) (p : List Byte) :
    storeFrame [Pd.refused, Pd.lastRefusal] s (s.respond r c p) := by
  have hs : ∀ (t : State) m, storeFrame [Pd.refused, Pd.lastRefusal] t (t.send r m) := fun t m => by
    apply storeFrame.of_pd
    rw [State.send_eq]
  unfold State.respond
  split
  · refine storeFrame.trans ?_ (hs _ _)
    exact ((storeFrame.refl _ s).setReg _ (by simp)).setReg _ (by simp)
  · exact hs s _

/-! ### Receiving -/

/-- A request taken up is counted and served here. -/
theorem State.receiveOwn_taken {s : State} {q : Req} {role : Role} (serve : Serve) (h : taken s q role = true) :
    s.receiveOwn serve q = (s.countRequest q.path).serveLocal serve role q := by
  simp only [taken, Bool.and_eq_true, beq_iff_eq, decide_eq_true_eq, Option.isNone_iff_eq_none, Bool.or_eq_true] at h
  obtain ⟨⟨⟨⟨⟨h1, h2⟩, h3⟩, h4⟩, h5⟩, h6⟩ := h
  have hp : (s.countRequest q.path).position = s.position := by
    simp only [State.position, State.countRequest_reg s q.path (k := Pd.straps) (by decide)]
  have ho : (s.countRequest q.path).outstanding q.path = s.outstanding q.path := by
    rw [State.countRequest_eq]; rfl
  have hu : (s.countRequest q.path).unanswered (pathSource q.path) q.hdr.seq = none := by
    rw [State.countRequest_eq]; exact h4
  have hg : (s.countRequest q.path).gdp = s.gdp := by rw [State.countRequest_eq]
  unfold State.receiveOwn State.receive
  simp only [h1, h2, hg, h3, hu, ho, hp, Bool.not_true, Bool.false_eq_true, ↓reduceIte, Option.isSome_none]
  rw [if_neg (by omega), if_neg (by tauto)]

/-- An admitted request is counted, and its entry does its work. -/
theorem State.receiveOwn_admitted {s : State} {q : Req} {role : Role} {e : EntryInfo} (serve : Serve)
    (h : admitted s q role e = true) (h3 : q.hdr.opcode ≠ 3) (h4 : q.hdr.opcode ≠ 4) :
    s.receiveOwn serve q = (s.countRequest q.path).conclude e q (serve role e q (s.countRequest q.path)) := by
  simp only [admitted, Bool.and_eq_true, beq_iff_eq, Bool.not_eq_eq_eq_not, Bool.not_true, Option.isNone_iff_eq_none] at h
  obtain ⟨⟨⟨⟨ht, hr⟩, ha⟩, he⟩, hc⟩ := h
  rw [State.receiveOwn_taken serve ht]
  have hr' : (s.countRequest q.path).power.romOnly = false := by rw [State.countRequest_eq]; exact hr
  unfold State.serveLocal
  simp only [h3, h4, he, hr', ha, State.countRequest_checks, hc, Bool.false_and, Bool.false_eq_true, ↓reduceIte]

/-- Concluding where the entry keeps no flash and does not wait: a response. -/
theorem State.conclude_respond {s : State} {e : EntryInfo} {r : Req} {x : Served} (hw : x.wait = none)
    (hp : e.persistent = false ∨ isFailure x.status = true) : s.conclude e r x = x.state.respond r x.status x.payload := by
  unfold State.conclude
  rcases hp with hp | hp <;> simp [hw, hp]

end Sys2Proof.Machine
end

