-- ==== Sys2Proof/Laws/Memory.lean ====
section
/-!
SUPPORT. Device memory and the store: every operation on them keeps the canonical form, reads what was written, and leaves
every other byte alone.
-/
namespace Sys2Proof.Machine

/-! ### The canonical form is kept -/

theorem wf_foldl_tset {α β : Type} [DecidableEq α] {d : α} (key : β → Nat) (value : β → α) (l : List β) :
    ∀ {t : Tab α}, Tab.wf d t = true → Tab.wf d (l.foldl (fun t e => tset d t (key e) (value e)) t) = true := by
  induction l with
  | nil => exact fun h => h
  | cons e l ih => exact fun h => ih (wf_tset _ _ h)

theorem State.tablesOk.of_eq {s t : State} (h : s.tablesOk) (hm : t.mem = s.mem) (hp : t.pd = s.pd) : t.tablesOk := by
  unfold State.tablesOk; rw [hm, hp]; exact h

theorem State.tablesOk.wr {s : State} (h : s.tablesOk) (k u v : Nat) : (s.wr k u v).tablesOk := ⟨h.1, wf_tset _ _ h.2⟩

theorem State.tablesOk.setReg {s : State} (h : s.tablesOk) (k v : Nat) : (s.setReg k v).tablesOk := h.wr k 0 v

theorem State.tablesOk.bump {s : State} (h : s.tablesOk) (k n : Nat) : (s.bump k n).tablesOk := h.setReg _ _

theorem State.tablesOk.setFlags {s : State} (h : s.tablesOk) (k m : Nat) : (s.setFlags k m).tablesOk := h.setReg _ _

theorem State.tablesOk.clearFlags {s : State} (h : s.tablesOk) (k w m : Nat) : (s.clearFlags k w m).tablesOk := h.setReg _ _

theorem State.tablesOk.zeroUnits {s : State} (h : s.tablesOk) (k n : Nat) : (s.zeroUnits k n).tablesOk := ⟨h.1, wf_tclear _ _ h.2⟩

theorem State.tablesOk.zeroRoom {s : State} (h : s.tablesOk) (r : Nat) : (s.zeroRoom r).tablesOk := ⟨wf_tclear _ _ h.1, h.2⟩

theorem State.tablesOk.record {s : State} (h : s.tablesOk) (g : Nat) (c : BitVec 16) (uk un : Nat) (d : List Byte) :
    (s.record g c uk un d).tablesOk := by
  unfold State.record
  split
  · exact h
  · exact (h.bump Pd.overruns 1).of_eq rfl rfl

theorem State.putBytes_pd (bs : List (Option Byte)) : ∀ (s : State) (a : Nat), (s.putBytes a bs).pd = s.pd := by
  induction bs with
  | nil => exact fun _ _ => rfl
  | cons b bs ih => intro s a; cases b <;> exact ih _ _

theorem State.tablesOk.putBytes (bs : List (Option Byte)) : ∀ {s : State} (a : Nat), s.tablesOk → (s.putBytes a bs).tablesOk := by
  induction bs with
  | nil => exact fun _ h => h
  | cons b bs ih =>
    intro s a h
    cases b with
    | none => exact ih _ h
    | some b => exact ih _ ⟨wf_tset _ _ h.1, h.2⟩

theorem State.tablesOk.ite {p : Prop} [Decidable p] {s t : State} (h : s.tablesOk) (h' : t.tablesOk) : (if p then s else t).tablesOk := by
  split <;> assumption

theorem State.tablesOk.foldl {β : Type} {f : State → β → State} (hf : ∀ {s : State} (x : β), s.tablesOk → (f s x).tablesOk)
    (l : List β) : ∀ {s : State}, s.tablesOk → (l.foldl f s).tablesOk := by
  induction l with
  | nil => exact fun h => h
  | cons x l ih => exact fun h => ih (hf x h)

theorem State.tablesOk.viewWrite {s : State} (h : s.tablesOk) (a : Nat) (bs : List Byte) : (s.viewWrite a bs).tablesOk :=
  State.tablesOk.foldl (fun e h => h.putBytes [some e.1] (nativeOf (a + e.2))) _ h

theorem State.tablesOk.putBits {s t : State} (h : s.tablesOk) {g : Agent} {a lo n v : Nat} (ht : s.putBits g a lo n v = .ok t) :
    t.tablesOk := by
  unfold State.putBits at ht
  split at ht
  · cases ht; exact ⟨wf_tset _ _ h.1, h.2⟩
  · cases ht; exact h
  · cases ht

theorem State.tablesOk.unitWrite {s t : State} (h : s.tablesOk) {g : Agent} {a lo n v : Nat} (ht : s.unitWrite g a lo n v = .ok t) :
    t.tablesOk := by
  unfold State.unitWrite at ht
  split at ht
  · split at ht
    · cases ht
    · exact h.putBits ht
  · exact h.putBits ht

theorem State.tablesOk.unitWrites {g : Agent} (bs : List Byte) :
    ∀ {s t : State} {a : Nat}, s.tablesOk → s.unitWrites g a bs = .ok t → t.tablesOk := by
  induction bs with
  | nil => intro s t a h ht; cases ht; exact h
  | cons b bs ih =>
    intro s t a h ht
    simp only [State.unitWrites] at ht
    split at ht
    · next h' => exact ih (h.unitWrite h') ht
    · cases ht

theorem State.tablesOk.blurBytes {s : State} (h : s.tablesOk) (keys : List Nat) : (s.blurBytes keys).tablesOk :=
  ⟨wf_foldl_tset (fun e : Nat × Nat => e.1) (fun e => BitVec.ofNat 8 (Config.free (s.fresh + e.2))) _ h.1, h.2⟩

theorem State.tablesOk.setCoveLine {s : State} (h : s.tablesOk) (c i w v : Nat) : (s.setCoveLine c i w v).tablesOk := h.wr _ _ _

/-! ### Coves -/

theorem State.tablesOk.mapLines {s : State} (h : s.tablesOk) (c i w : Nat) (f : Nat → Nat) : (s.mapLines c i w f).tablesOk :=
  State.tablesOk.foldl (fun _ h => (h.setCoveLine _ _ _ _).ite h) _ h

theorem State.tablesOk.touchAge {s : State} (h : s.tablesOk) (c i w : Nat) : (s.touchAge c i w).tablesOk :=
  (h.mapLines _ _ _ _).setCoveLine _ _ _ _

theorem State.tablesOk.accessLine {s : State} (h : s.tablesOk) (c i w : Nat) (q : CliffReq) : (s.accessLine c i w q).tablesOk :=
  (h.setCoveLine _ _ _ _).touchAge _ _ _

theorem State.tablesOk.insertLine {s : State} (h : s.tablesOk) (c i w v : Nat) : (s.insertLine c i w v).tablesOk :=
  (h.mapLines _ _ _ _).setCoveLine _ _ _ _

theorem State.tablesOk.dropLine {s : State} (h : s.tablesOk) (c i w : Nat) : (s.dropLine c i w).tablesOk := by
  simp only [State.dropLine]
  split
  · exact (h.mapLines _ _ _ _).setCoveLine _ _ _ _
  · exact h.setCoveLine _ _ _ _

theorem State.tablesOk.setCliff {s : State} (h : s.tablesOk) (c : Nat) (v : Cliff) : (s.setCliff c v).tablesOk := h

theorem State.tablesOk.writeThrough {s : State} (h : s.tablesOk) (c b : Nat) : (s.writeThrough c b).tablesOk := h.setCliff _ _

theorem State.tablesOk.heal {s : State} (h : s.tablesOk) (n : Nat) : (s.heal n).tablesOk := by
  simp only [State.heal]
  split
  · exact State.tablesOk.setCoveLine (h.of_eq rfl rfl) _ _ _ _
  · exact h.of_eq rfl rfl

theorem State.tablesOk.poison {s : State} (h : s.tablesOk) (n : Nat) : (s.poison n).tablesOk := by
  simp only [State.poison]
  split
  · exact State.tablesOk.setCoveLine (h.of_eq rfl rfl) _ _ _ _
  · exact h.of_eq rfl rfl

theorem State.tablesOk.evict {s : State} (h : s.tablesOk) (c i w : Nat) : (s.evict c i w).tablesOk := by
  have h1 : (if (lineValid (s.coveLine c i w) && lineDirty (s.coveLine c i w)) = true then
      s.writeThrough c (lineTag (s.coveLine c i w) * 4096 + ((i ^^^ lineTag (s.coveLine c i w) % 4096) % 4096)) else s).tablesOk :=
    (h.writeThrough _ _).ite h
  exact State.tablesOk.dropLine ((h1.poison _).ite h1) _ _ _

theorem State.tablesOk.allocate {s : State} (h : s.tablesOk) (c b : Nat) (q : CliffReq) (filling : Bool) :
    (s.allocate c b q filling).1.tablesOk := by
  unfold State.allocate
  dsimp only
  split
  · exact h.ite (h.bump _ _)
  · exact State.tablesOk.insertLine (((h.evict _ _ _).bump _ _).ite (h.evict _ _ _)) _ _ _ _

theorem State.tablesOk.overwriteFill {s : State} (h : s.tablesOk) (c b w : Nat) : (s.overwriteFill c b w).tablesOk :=
  State.tablesOk.setCoveLine (h.of_eq rfl rfl) _ _ _ _

theorem State.tablesOk.writeBlock {s : State} (h : s.tablesOk) (c : Nat) (q : CliffReq) (whole : Bool) (b : Nat) :
    (s.writeBlock c q whole b).tablesOk := by
  have key : ∀ {t : State}, t.tablesOk →
      (match t.findWay c b with
        | some w =>
          let t := if whole && lineFilling (t.coveLine c (coveSet b) w) then t.overwriteFill c b w else t
          let t := t.accessLine c (coveSet b) w q
          if q.hint = 1 then
            (if whole then t.setCoveLine c (coveSet b) w (setBits (t.coveLine c (coveSet b) w) 45 1 0) else t).writeThrough c b
          else t.setCoveLine c (coveSet b) w (t.coveLine c (coveSet b) w ||| 2 ^ 45)
        | none =>
          if q.hint = 1 then t.writeThrough c b
          else if whole || t.writingBack c b then
            let a := t.allocate c b q false
            if a.2.isSome then a.1 else a.1.writeThrough c b
          else
            let a := t.allocate c b q true
            let t := (a.1.bump Pd.coveMisses).queueAccess c { block := b, write := false, way := a.2, waiters := [], since := t.time }
            match a.2 with
            | some w => t.setCoveLine c (coveSet b) w (t.coveLine c (coveSet b) w ||| 2 ^ 45)
            | none => t.writeThrough c b).tablesOk := fun {t} h => by
    split
    · next w _ =>
      have h1 : (if (whole && lineFilling (t.coveLine c (coveSet b) w)) = true then t.overwriteFill c b w else t).tablesOk :=
        (h.overwriteFill _ _ _).ite h
      have h2 := h1.accessLine c (coveSet b) w q
      exact (((h2.setCoveLine _ _ _ _).ite h2).writeThrough _ _).ite (h2.setCoveLine _ _ _ _)
    · split
      · exact h.writeThrough _ _
      · split
        · dsimp only
          split
          · exact h.allocate _ _ _ _
          · exact (h.allocate _ _ _ _).writeThrough _ _
        · dsimp only
          split
          · exact State.tablesOk.setCoveLine (((h.allocate _ _ _ _).bump _ _).setCliff _ _) _ _ _ _
          · exact State.tablesOk.writeThrough (((h.allocate _ _ _ _).bump _ _).setCliff _ _) _ _
  exact key ((h.heal _).ite h)

theorem State.tablesOk.passWrite {s : State} (h : s.tablesOk) (q : CliffReq) (whole : Nat → Bool) (blocks : List Nat) :
    (s.passWrite q whole blocks).tablesOk := State.tablesOk.foldl (fun _ h => h.writeBlock _ _ _ _) _ h

theorem State.tablesOk.putTargets {s : State} (h : s.tablesOk) (u : CliffUser) (l : List (Nat × Byte)) : (s.putTargets u l).tablesOk := by
  have h0 : ({ s with mem := l.foldl (fun m (e : Nat × Byte) => tset 0 m e.1 e.2) s.mem } : State).tablesOk :=
    ⟨wf_foldl_tset (fun e : Nat × Byte => e.1) (fun e => e.2) l h.1, h.2⟩
  refine State.tablesOk.passWrite ?_ _ _ _
  exact State.tablesOk.foldl (fun _ h => (h.heal _).ite h) _ h0

/-- A room whose bytes become free: below it, above it and in it. -/
theorem State.tablesOk.blurRoom {s : State} (h : s.tablesOk) (r : Nat) : (s.blurRoom r).tablesOk := by
  refine ⟨?_, h.2⟩
  have hs := (wf_iff 0 s.mem).mp h.1
  have hr : roomAddr r 0x40000 = roomAddr (r + 1) 0 := by unfold roomAddr; omega
  rw [wf_iff]
  simp only [State.blurRoom]
  have hlo : ∀ e ∈ s.mem.filter fun e => decide (e.1 < roomAddr r 0), e.1 < roomAddr r 0 := fun e he => by
    simpa using (List.mem_filter.mp he).2
  have hhi : ∀ e ∈ s.mem.filter fun e => decide (roomAddr (r + 1) 0 ≤ e.1), roomAddr (r + 1) 0 ≤ e.1 := fun e he => by
    simpa using (List.mem_filter.mp he).2
  have hin : ∀ e ∈ (List.range 0x40000).filterMap (fun i =>
      if BitVec.ofNat 8 (Config.free (s.fresh + i)) = 0 then none else some (roomAddr r i, BitVec.ofNat 8 (Config.free (s.fresh + i)))),
      roomAddr r 0 ≤ e.1 ∧ e.1 < roomAddr (r + 1) 0 ∧ e.2 ≠ 0 := fun e he => by
    obtain ⟨i, hi, h'⟩ := List.mem_filterMap.mp he
    split at h'
    · cases h'
    · next hne =>
      cases h'
      have := List.mem_range.mp hi
      exact ⟨by unfold roomAddr; omega, by unfold roomAddr; omega, hne⟩
  have hmid : ((List.range 0x40000).filterMap (fun i =>
      if BitVec.ofNat 8 (Config.free (s.fresh + i)) = 0 then none else some (roomAddr r i, BitVec.ofNat 8 (Config.free (s.fresh + i))))).Pairwise
      (fun a b => a.1 < b.1) := by
    rw [List.pairwise_filterMap]
    refine List.pairwise_lt_range.imp fun {i j} hij a ha b hb => ?_
    split at ha <;> split at hb <;> cases ha <;> cases hb
    show roomAddr r i < roomAddr r j
    unfold roomAddr; omega
  constructor
  · rw [List.pairwise_append, List.pairwise_append]
    refine ⟨⟨hs.1.filter _, hmid, fun a ha b hb => ?_⟩, hs.1.filter _, fun a ha b hb => ?_⟩
    · exact Nat.lt_of_lt_of_le (hlo a ha) (hin b hb).1
    · rcases List.mem_append.mp ha with ha | ha
      · have h1 := hlo a ha
        have h2 := hhi b hb
        unfold roomAddr at h1 h2; omega
      · exact Nat.lt_of_lt_of_le (hin a ha).2.1 (hhi b hb)
  · intro e he
    rcases List.mem_append.mp he with he | he
    · rcases List.mem_append.mp he with he | he
      · exact hs.2 e (List.mem_of_mem_filter he)
      · exact (hin e he).2.2
    · exact hs.2 e (List.mem_of_mem_filter he)

theorem wf_resetStore (keep : Nat → Bool) (pd : Tab Nat) (h : Tab.wf 0 defaultStore = true) : Tab.wf 0 (resetStore keep pd) = true :=
  wf_foldl_tset (fun e : Nat × Nat => e.1) (fun e => e.2) _ (wf_filter _ h)

theorem State.tablesOk.undoFlash {s : State} (h : s.tablesOk) : s.undoFlash.tablesOk := by
  have key : ∀ (l : List Pending) (s : State), s.tablesOk → (l.foldl (fun s p =>
      if p.wait = .flash then
        { s with pd := p.before.foldl (fun t e => tset 0 t e.1 e.2) (s.pd.filter fun e => e.1 / 16777216 != msgKey p.req.hdr) }
      else s) s).tablesOk := by
    intro l
    induction l with
    | nil => exact fun _ h => h
    | cons p l ih =>
      intro s h
      rw [List.foldl_cons]
      apply ih
      split
      · exact ⟨h.1, wf_foldl_tset (fun e : Nat × Nat => e.1) (fun e => e.2) _ (wf_filter _ h.2)⟩
      · exact h
  exact key _ _ h

/-! ### Reading what was written -/

theorem State.byteAt_of_mem {s t : State} (h : t.mem = s.mem) (a : Nat) : t.byteAt a = s.byteAt a := by simp [State.byteAt, h]

/-- A byte written reads as written; every other byte as before. -/
theorem State.byteAt_putByte (s : State) (a b : Nat) (v : Byte) :
    (s.putBytes a [some v]).byteAt b = if b = a then v else s.byteAt b := by
  simp [State.putBytes, State.byteAt, tget_tset]

/-- Bytes outside those written are left alone. -/
theorem State.byteAt_putBytes_ne (bs : List (Option Byte)) :
    ∀ (s : State) (a b : Nat), b < a ∨ a + bs.length ≤ b → (s.putBytes a bs).byteAt b = s.byteAt b := by
  induction bs with
  | nil => exact fun _ _ _ _ => rfl
  | cons x bs ih =>
    intro s a b hb
    simp only [List.length_cons] at hb
    cases x with
    | none => exact ih s (a + 1) b (by omega)
    | some x =>
      show (State.putBytes { s with mem := tset 0 s.mem a x } (a + 1) bs).byteAt b = _
      rw [ih _ (a + 1) b (by omega)]
      exact tget_tset_ne 0 s.mem x (by omega)

/-- Each byte written reads as written, each byte not enabled as before. -/
theorem State.byteAt_putBytes (bs : List (Option Byte)) :
    ∀ (s : State) (a i : Nat) (h : i < bs.length), (s.putBytes a bs).byteAt (a + i) = bs[i].getD (s.byteAt (a + i)) := by
  induction bs with
  | nil => intro s a i h; simp at h
  | cons x bs ih =>
    intro s a i h
    cases i with
    | zero =>
      cases x with
      | none => exact State.byteAt_putBytes_ne bs s (a + 1) a (by omega)
      | some x =>
        show (State.putBytes { s with mem := tset 0 s.mem a x } (a + 1) bs).byteAt a = _
        rw [State.byteAt_putBytes_ne bs _ (a + 1) a (by omega)]
        exact tget_tset_same 0 s.mem a x
    | succ i =>
      have hi : i < bs.length := by simpa using h
      have ha : a + (i + 1) = a + 1 + i := by omega
      cases x with
      | none => rw [ha]; exact ih s (a + 1) i hi
      | some x =>
        show (State.putBytes { s with mem := tset 0 s.mem a x } (a + 1) bs).byteAt (a + (i + 1)) = _
        rw [ha, ih _ (a + 1) i hi]
        congr 1
        exact tget_tset_ne 0 s.mem x (by omega)

/-- A wiped room reads as zero; every other byte is left alone. -/
theorem State.byteAt_zeroRoom (s : State) (r b : Nat) :
    (s.zeroRoom r).byteAt b = if roomAddr r 0 ≤ b ∧ b < roomAddr r 0 + 0x40000 then 0 else s.byteAt b :=
  tget_tclear 0 s.mem _ _ _

/-- Units zeroed read as zero; every other unit is left alone. -/
theorem State.rd_zeroUnits (s : State) (k n k' u : Nat) :
    (s.zeroUnits k n).rd k' u = if pdKey k 0 ≤ pdKey k' u ∧ pdKey k' u < pdKey k 0 + n then 0 else s.rd k' u :=
  tget_tclear 0 s.pd _ _ _

end Sys2Proof.Machine
end

