-- ==== Sys2Proof/Laws/Places.lean ====
section
/-!
SUPPORT. Reading after writing, for the tables of units that State holds, and what starting, filling and ending a long
operation does (spec/03 R84 to R86).
-/
namespace Sys2Proof.Machine

variable (s : State)

/-! ### One unit's place read after a write -/

@[simp] theorem State.op_setOp_same (r : Nat) (v : LongOp) : (s.setOp r v).op r = v := tget_tset_same _ _ _ _
theorem State.op_setOp_ne {r j : Nat} (v : LongOp) (h : j ≠ r) : (s.setOp r v).op j = s.op j := tget_tset_ne _ _ _ h
@[simp] theorem State.room_setRoom_same (r : Nat) (v : Room) : (s.setRoom r v).room r = v := tget_tset_same _ _ _ _
theorem State.room_setRoom_ne {r j : Nat} (v : Room) (h : j ≠ r) : (s.setRoom r v).room j = s.room j := tget_tset_ne _ _ _ h
@[simp] theorem State.cliff_setCliff_same (r : Nat) (v : Cliff) : (s.setCliff r v).cliff r = v := tget_tset_same _ _ _ _
theorem State.cliff_setCliff_ne {r j : Nat} (v : Cliff) (h : j ≠ r) : (s.setCliff r v).cliff j = s.cliff j := tget_tset_ne _ _ _ h
@[simp] theorem State.engine_setEngine_same (r : Nat) (v : Engine) : (s.setEngine r v).engine r = v := tget_tset_same _ _ _ _
theorem State.engine_setEngine_ne {r j : Nat} (v : Engine) (h : j ≠ r) : (s.setEngine r v).engine j = s.engine j :=
  tget_tset_ne _ _ _ h
@[simp] theorem State.headOf_setHead_same (r : Nat) (v : Option Head) : (s.setHead r v).headOf r = v := tget_tset_same _ _ _ _
theorem State.headOf_setHead_ne {r j : Nat} (v : Option Head) (h : j ≠ r) : (s.setHead r v).headOf j = s.headOf j :=
  tget_tset_ne _ _ _ h
@[simp] theorem State.specOf_setSpec_same (r : Nat) (v : List SpecTask) : (s.setSpec r v).specOf r = v := tget_tset_same _ _ _ _
theorem State.specOf_setSpec_ne {r j : Nat} (v : List SpecTask) (h : j ≠ r) : (s.setSpec r v).specOf j = s.specOf j :=
  tget_tset_ne _ _ _ h
@[simp] theorem State.stage_setStage_same (r : Nat) (v : Stage) : (s.setStage r v).stage r = v := tget_tset_same _ _ _ _
theorem State.stage_setStage_ne {r j : Nat} (v : Stage) (h : j ≠ r) : (s.setStage r v).stage j = s.stage j := tget_tset_ne _ _ _ h
@[simp] theorem State.cport_setCport_same (r : Nat) (v : CausewayPort) : (s.setCport r v).cport r = v := tget_tset_same _ _ _ _
theorem State.cport_setCport_ne {r j : Nat} (v : CausewayPort) (h : j ≠ r) : (s.setCport r v).cport j = s.cport j :=
  tget_tset_ne _ _ _ h
@[simp] theorem State.estGroup_setEstGroup_same (r : Nat) (v : EstGroup) : (s.setEstGroup r v).estGroup r = v :=
  tget_tset_same _ _ _ _
theorem State.estGroup_setEstGroup_ne {r j : Nat} (v : EstGroup) (h : j ≠ r) : (s.setEstGroup r v).estGroup j = s.estGroup j :=
  tget_tset_ne _ _ _ h
@[simp] theorem State.reduction_setReduction_same (g r : Nat) (v : Reduction) : (s.setReduction g r v).reduction g r = v :=
  tget_tset_same _ _ _ _
theorem State.reduction_setReduction_ne {g r g' r' : Nat} (v : Reduction) (hr : r < 2 ^ 32) (hr' : r' < 2 ^ 32)
    (h : (g', r') ≠ (g, r)) : (s.setReduction g r v).reduction g' r' = s.reduction g' r' := by
  refine tget_tset_ne _ _ _ fun e => h ?_
  have : g' = g ∧ r' = r := by omega
  rw [this.1, this.2]
@[simp] theorem State.unacked_setUnacked_same (d : Nat) (l : List Transfer) : (s.setUnacked d l).unacked d = l := tget_tset_same _ _ _ _
theorem State.unacked_setUnacked_ne {d j : Nat} (l : List Transfer) (h : j ≠ d) : (s.setUnacked d l).unacked j = s.unacked j :=
  tget_tset_ne _ _ _ h
@[simp] theorem State.mirror_setMirror_same (i : Nat) (m : MirrorState) : (s.setMirror i m).mirror i = m := tget_tset_same _ _ _ _
theorem State.mirror_setMirror_ne {i j : Nat} (m : MirrorState) (h : j ≠ i) : (s.setMirror i m).mirror j = s.mirror j :=
  tget_tset_ne _ _ _ h
@[simp] theorem State.crossing_setCrossing_same (a b : Nat) (v : Crossing) : (s.setCrossing a b v).crossing a b = v :=
  tget_tset_same _ _ _ _
theorem State.crossing_setCrossing_ne {a b a' b' : Nat} (v : Crossing) (hb : b < 128) (hb' : b' < 128) (h : (a', b') ≠ (a, b)) :
    (s.setCrossing a b v).crossing a' b' = s.crossing a' b' := by
  refine tget_tset_ne _ _ _ fun e => h ?_
  have : a' = a ∧ b' = b := by omega
  rw [this.1, this.2]
@[simp] theorem State.fabricPort_setFabricPort_same (f p : Nat) (v : Port) : (s.setFabricPort f p v).fabricPort f p = v :=
  tget_tset_same _ _ _ _

/-! ### Long operations -/

/-- An accepted START changes its own row only, which is then DEFERRED or RUNNING under the next run number. -/
theorem State.opStart_op (r st n : Nat) : (s.opStart r st n).op r =
    { state := st, progress := if st = 1 then 1 else 0, code := if st = 1 then St.deferred else St.ok
      run := ((s.op r).run + 1) % 2 ^ 32, slots := n } := s.op_setOp_same r _
theorem State.opStart_frame (r st n : Nat) : { s.opStart r st n with ops := s.ops } = s := rfl
theorem State.opStart_ne {r j : Nat} (st n : Nat) (h : j ≠ r) : (s.opStart r st n).op j = s.op j := s.op_setOp_ne _ h

/-- A run's end keeps its number, slots and results, and its final status is unread: the row is busy until it is read. -/
theorem State.opEnd_op (r st : Nat) (c : BitVec 16) : (s.opEnd r st c).op r =
    { s.op r with state := st, progress := s.opProgress r, code := c, unread := true } := s.op_setOp_same r _
theorem State.opEnd_frame (r st : Nat) (c : BitVec 16) : { s.opEnd r st c with ops := s.ops } = s := rfl
theorem State.opEnd_ne {r j : Nat} (st : Nat) (c : BitVec 16) (h : j ≠ r) : (s.opEnd r st c).op j = s.op j := s.op_setOp_ne _ h
theorem State.opEnd_busy (r st : Nat) (c : BitVec 16) : (s.opEnd r st c).opBusy r = true := by
  simp [State.opBusy, State.opEnd_op]

theorem State.opBegin_op (r : Nat) : (s.opBegin r).op r = { s.op r with state := 2, progress := 0, code := St.ok } :=
  s.op_setOp_same r _
theorem State.opBegin_frame (r : Nat) : { s.opBegin r with ops := s.ops } = s := rfl
theorem State.opBegin_ne {r j : Nat} (h : j ≠ r) : (s.opBegin r).op j = s.op j := s.op_setOp_ne _ h

/-- Filling a slot: an empty one below RESULT_SLOTS takes the record and is counted, and every other slot keeps its own. -/
theorem State.opFill_op {r i : Nat} (x : List Byte) (hi : i < (s.op r).slots) (h : tget none (s.op r).results i = none) :
    (s.opFill r i x).op r = { s.op r with results := tset none (s.op r).results i (some x), filled := (s.op r).filled + 1 } := by
  simp [State.opFill, hi, h]
theorem State.opFill_slot {r i : Nat} (x : List Byte) (hi : i < (s.op r).slots) (h : tget none (s.op r).results i = none) :
    tget none ((s.opFill r i x).op r).results i = some x := by
  simp [s.opFill_op x hi h]
/-- A slot that is filled, or beyond RESULT_SLOTS, stays as it is (spec/03 R86). -/
theorem State.opFill_kept {r i : Nat} (x : List Byte) (h : (s.op r).slots ≤ i ∨ tget none (s.op r).results i ≠ none) :
    s.opFill r i x = s := by
  unfold State.opFill
  rw [if_neg]
  rintro ⟨h1, h2⟩
  rcases h with h | h
  · omega
  · exact h h2
theorem State.opFill_frame (r i : Nat) (x : List Byte) : { s.opFill r i x with ops := s.ops } = s := by
  unfold State.opFill; dsimp only; split <;> rfl
theorem State.opFill_ne {r j : Nat} (i : Nat) (x : List Byte) (h : j ≠ r) : (s.opFill r i x).op j = s.op j := by
  unfold State.opFill
  dsimp only
  split
  · exact s.op_setOp_ne _ h
  · rfl
theorem State.opFill_slots (r i : Nat) (x : List Byte) : ((s.opFill r i x).op r).slots = (s.op r).slots := by
  unfold State.opFill; dsimp only; split <;> simp

/-! ### The recorder's bound -/

/-- An occurrence never makes more than 256 wait (spec/17 R444). -/
theorem State.record_bound (g : Nat) (c : BitVec 16) (uk un : Nat) (d : List Byte) (h : s.strand.queue.length ≤ 256) :
    (s.record g c uk un d).strand.queue.length ≤ 256 := by
  unfold State.record
  split
  · simp; omega
  · exact h

end Sys2Proof.Machine
end

