-- ==== Sys2Proof/Laws/Power.lean ====
section
/-!
SUPPORT. The shared operations of chapter 01, said once: an input reading, flags, step 2 of the power-up order.
-/
namespace Sys2Proof.Machine

/-! ### Flag registers -/

@[simp] theorem State.setFlags_reg (s : State) (k m : Nat) : (s.setFlags k m).reg k = s.reg k ||| m := State.reg_setReg_same _ _ _

@[simp] theorem State.clearFlags_reg (s : State) (k w m : Nat) :
    (s.clearFlags k w m).reg k = s.reg k &&& ((2 ^ w - 1) ^^^ (m % 2 ^ w)) := State.reg_setReg_same _ _ _

theorem State.setFlags_store (s : State) (k m : Nat) : storeFrame [k] s (s.setFlags k m) := (storeFrame.refl _ s).setReg _ (by simp)

theorem State.clearFlags_store (s : State) (k w m : Nat) : storeFrame [k] s (s.clearFlags k w m) :=
  (storeFrame.refl _ s).setReg _ (by simp)

@[simp] theorem State.bump_reg (s : State) (k n : Nat) : (s.bump k n).reg k = (s.reg k + n) % 2 ^ 64 := State.reg_setReg_same _ _ _

theorem State.bump_store (s : State) (k n : Nat) : storeFrame [k] s (s.bump k n) := (storeFrame.refl _ s).setReg _ (by simp)

/-! ### A reading of the input -/

theorem State.measureInput_store (s : State) (mv : Nat) (g : Bool) :
    storeFrame [Pd.inputVoltage, Pd.inputMin] s (s.measureInput mv g) :=
  ((storeFrame.refl _ s).setReg _ (by decide)).setReg _ (by decide)

theorem State.measureInput_frame (s : State) (mv : Nat) (g : Bool) :
    { s.measureInput mv g with pd := s.pd, power := s.power } = s := rfl

@[simp] theorem State.measureInput_power (s : State) (mv : Nat) (g : Bool) :
    (s.measureInput mv g).power = { s.power with inputMv := mv, pwrgood := g } := rfl

@[simp] theorem State.measureInput_voltage (s : State) (mv : Nat) (g : Bool) : (s.measureInput mv g).reg Pd.inputVoltage = mv := by
  show State.reg (State.setReg (State.setReg _ _ _) _ _) _ = _
  rw [State.reg_setReg_ne _ (by decide), State.reg_setReg_same]

/-! ### Step 2 -/

theorem State.stepTwo_store (s : State) : storeFrame [Pd.straps] s s.stepTwo :=
  ((storeFrame.refl _ s).setReg _ (by simp) : storeFrame [Pd.straps] s (s.setReg Pd.straps s.power.liveStraps.toNat))

@[simp] theorem State.stepTwo_straps (s : State) : s.stepTwo.reg Pd.straps = s.power.liveStraps.toNat :=
  State.reg_setReg_same s Pd.straps _

@[simp] theorem State.stepTwo_power (s : State) :
    s.stepTwo.power = { s.power with step := 2, booted := none, romOnly := false } := rfl

theorem State.stepTwo_frame (s : State) :
    { s.stepTwo with pd := s.pd, power := s.power, host := s.host, security := s.security, fresh := s.fresh } = s := rfl

end Sys2Proof.Machine
end

