-- ==== Sys2Proof/Tests/Slice0.lean ====
section
/-!
SUPPORT. Tests: ill-formed terms, commands on small states against the spec's own numbers, and, for every statement with
hypotheses, a state and operands that meet them.
-/
namespace Sys2Proof.Tests
open Sys2Proof Sys2Proof.Machine
set_option Elab.async false

/-! ### Small states -/

/-- A store with the values given, by entry and unit. -/
def store (l : List (Nat × Nat × Nat)) : Tab Nat := l.foldl (fun t e => tset 0 t (pdKey e.1 e.2.1) e.2.2) []

/-- A module whose firmware runs, READY, with these values besides. -/
def ready (l : List (Nat × Nat × Nat)) : State := { pd := store ((Pd.ready, 0, 1) :: l), power := { step := 3, forwarding := true } }

/-- The mailbox as a sender. -/
def host : Origin := { path := .mailbox, seq := 1 }

/-- Whether a request is admitted at its entry, which meets a condition. -/
def admits (s : State) (q : Req) (p : EntryInfo → Bool := fun _ => true) : Bool :=
  (entryInfo q.key).any fun e => p e && admitted s q ((pathRole q.path).getD .host) e

/-- Whether a signed request is. -/
def admitsSigned (s : State) (q : Req) : Bool := (entryInfo q.key).any fun e => admittedSigned s q ((pathRole q.path).getD .host) e

/-- A GDP message of the mailbox for an entry. -/
def msg (opcode : Nat) (key : Nat) (payload : List Byte) : GdpMsg :=
  { version := 1, opcode := BitVec.ofNat 8 opcode, seq := 1, target := 0xFF, source := 0xFF, flags := 0, sub := BitVec.ofNat 8 key
    index := BitVec.ofNat 16 (key / 256), status := 0, offset := 0, length := BitVec.ofNat 16 payload.length, payload := payload }

/-! ### Ill-formed commands: for each check of `wellFormed`, a term it refuses -/

def someEntry : CrossEntry := { port := none, cls := .af, level := 0, tag := 0 }
/-- A request at a room, a Cliff request, each well formed, and changed in one field. -/
def someRoomReq : RoomReq := { requester := 7, principal := none, cls := .dma, write := true, offset := 262143, len := 1, data := [some 1], tag := 0, lower := [] }
def someCliffReq : CliffReq :=
  { user := .estuary, part := some 15, write := false, addr := 256, blocks := 8, data := [], hint := 2, count := 16, tensor := 0, runAhead := false, tag := 0 }
def emptyPkt : Packet :=
  { ptype := 11, vc := 0, dest := 0, src := 0, last := true, signalValid := false, retry := false, detour := false, hops := 0, role := 0, linkSeq := 0, ack := 0
    ackValid := false, nack := false, creditVc := 0, credits := 0, length := 0, transfer := 0, count := 0, index := 0, address := 0, ownerKind := 0, ownerUnit := 0
    sigOp := 0, sigTag := 0, sigCounter := 0, sigOperand := 0, payload := [], crc := 0, fecOk := true }
theorem test_wellFormed : someRoomReq.wellFormed = true ∧ someCliffReq.wellFormed = true ∧ emptyPkt.wellFormed = true ∧ (Owner.engine 63).wellFormed = true
    ∧ (CtrSource.task 65 15).wellFormed = true ∧ (CtrSource.remote 63).wellFormed = true := by decide
theorem test_illFormed_requests : ([{ someRoomReq with requester := 8 }, { someRoomReq with len := 0, data := [] }, { someRoomReq with offset := 262144 }, { someRoomReq with data := [] },
      { someRoomReq with write := false }, { someRoomReq with offset := 0, len := 129, data := List.replicate 129 none }].all fun q => !q.wellFormed) = true
    ∧ ([{ someCliffReq with blocks := 0 }, { someCliffReq with blocks := 9 }, { someCliffReq with addr := 257 }, { someCliffReq with hint := 3 }, { someCliffReq with count := 0 },
      { someCliffReq with count := 17 }, { someCliffReq with write := true }, { someCliffReq with data := [none] }, { someCliffReq with part := some 16 }].all fun q => !q.wellFormed) = true := by
  decide +kernel
theorem test_illFormed_packet : ({ emptyPkt with payload := List.replicate 4097 0 } : Packet).wellFormed = false := by decide +kernel
theorem test_illFormed_senders : (Owner.engine 64).wellFormed = false ∧ (CtrSource.task 66 0).wellFormed = false ∧ (CtrSource.task 0 16).wellFormed = false
    ∧ (CtrSource.remote 64).wellFormed = false := by decide
theorem test_illFormed_units : (([.islandLockLoss 116, .crossingEntry 116 0 someEntry, .crossingEntry 0 116 someEntry, .crossingCredit 116 0, .crossingCredit 0 116, .tideSlot 0 0,
      .tideSlot 5 0, .columnFailure 1040 0, .tidewayBeat 64, .engineCheckFailure 64, .collectorDeadline 64 0, .ownerDeadline 64 0, .resultWaitExpiry 64, .stagePhaseDone 16,
      .stageEstuaryDone 16, .stageAgreementDone 16, .carryClear 16, .stageUpdateDone 16, .stowImageDone 16 ⟨true, true, false⟩,
      .d2hCompletion 0 []] : List Instr).all fun i => !i.wellFormed) = true := by decide +kernel
theorem test_illFormed_rooms : (([.roomRequest 1536 someRoomReq, .roomRequest 0 { someRoomReq with requester := 8 }, .roomCycle 1536 ⟨.clean, .clean⟩, .roomOwner host 1536 0,
      .handoverMarkerReturn 1536 true, .handoverResponseLimit 1536, .tileTranspose (.engine 64) 0 0 1, .tileTranspose .harbour 48 0 1, .squareTranspose (.engine 64) 0 0 1 64,
      .squareTranspose .harbour 48 0 1 64, .transposeDone ⟨48, []⟩, .roomWipeDone 1536] : List Instr).all fun i => !i.wellFormed) = true := by decide +kernel
theorem test_illFormed_cliffs : (([.coveRequest { someCliffReq with blocks := 9 } .clean, .coveSchedule 20 0, .coveSchedule 0 256, .stratumAccessDone 20 0 .clean,
      .stratumAccessDone 0 256 .clean, .bankRefresh 20 0 0, .bankRefresh 0 256 0, .bankRefresh 0 0 32, .softReplacementDone 20 0 0, .softReplacementDone 0 256 0,
      .softReplacementDone 0 0 32, .stratumFailure 20 0, .stratumFailure 0 256, .stratumRecalDone 20 0 true, .stratumRecalDone 0 256 true, .chartWalkDone .estuary 16 0,
      .stratumTrainingDone 20 0 true true #v[0, 0, 0, 0, 0, 0], .stratumTrainingDone 0 256 true true #v[0, 0, 0, 0, 0, 0]] : List Instr).all fun i => !i.wellFormed) = true := by
  decide +kernel
theorem test_illFormed_tasks : (([.taskListStart host 66 0, .taskListStart host 0 16, .taskListStop host 66 0, .taskListStop host 0 16, .headLoad 66 0, .headLoad 0 16,
      .taskRelease 66, .taskComplete 66, .counterAdd (.task 66 0) 0 0, .counterAdd .host 131072 0, .counterSubtract (.remote 64) 0 0, .counterSubtract .host 131072 0,
      .counterSet (.task 0 16) 0 0, .counterSet .host 131072 0, .arrive (.task 66 0) 0 0, .arrive .host 131072 0, .init (.task 66 0) 0 0, .init .host 131072 0,
      .preemptComplete 16] : List Instr).all fun i => !i.wellFormed) = true := by decide +kernel
theorem test_illFormed_ports : (([.write 20 emptyPkt, .read 20 emptyPkt, .readResponse 20 emptyPkt, .signal 20 emptyPkt, .snoop 20 emptyPkt, .mirror 20 emptyPkt, .ackE2e 20 emptyPkt,
      .linkState 20 emptyPkt, .null 20 emptyPkt, .partialSum 20 emptyPkt 0, .result 20 emptyPkt, .notice 20 emptyPkt, .raise 20 emptyPkt, .linkRetryTimeout 20, .portTransmit 20,
      .e2eResendTimeout 64 0, .laneFailure 20 0 ⟨true, .signalLoss 1001⟩, .laneFailure 0 9 ⟨true, .signalLoss 1001⟩, .portSignalLoss 20, .portSignalReturn 20, .sparePortTrained 20 ⟨0, 0⟩, .spareWaitExpiry 2,
      .portTrainingDone 20 .absent] : List Instr).all fun i => !i.wellFormed) = true := by decide +kernel
/-- A packet whose payload is too long is ill formed whichever packet command brings it. -/
theorem test_illFormed_payload (k : Packet) (h : k.wellFormed = false) (p : Nat) : (Instr.write p k).wellFormed = false ∧ (Instr.read p k).wellFormed = false
    ∧ (Instr.readResponse p k).wellFormed = false ∧ (Instr.signal p k).wellFormed = false ∧ (Instr.snoop p k).wellFormed = false ∧ (Instr.mirror p k).wellFormed = false
    ∧ (Instr.ackE2e p k).wellFormed = false ∧ (Instr.linkState p k).wellFormed = false ∧ (Instr.null p k).wellFormed = false ∧ (Instr.partialSum p k 0).wellFormed = false
    ∧ (Instr.result p k).wellFormed = false ∧ (Instr.notice p k).wellFormed = false ∧ (Instr.raise p k).wellFormed = false := by simp [Instr.wellFormed, h]

/-! ### Chapters 01 and 02 -/

theorem test_hyp_StepRunsFrontCommand : ({ pending := [.powerUp 40000 true true 5] } : State).pending = .powerUp 40000 true true 5 :: [] := rfl
theorem test_hyp_EmptyQueuePassesMicrosecond :
    State.reset.pending = [] ∧ State.reset.host.windows = [] ∧ State.reset.host.mirrors = [] ∧ State.reset.causeway.held = []
    ∧ State.reset.causeway.incoming = [] ∧ State.reset.stages = [] ∧ State.reset.rooms = [] ∧ State.reset.endings = [] ∧ State.reset.spec = []
    ∧ State.reset.heads = [] := by decide
/-- A command that completes, and MODULE_RESET on either side of the pulse that does not. -/
theorem test_hyp_EveryCommandCompletes : (∀ low, Instr.unpinDone = .moduleReset low → low < 1000 ∨ 10000 ≤ low)
    ∧ ((999 : Nat) < 1000 ∨ 10000 ≤ 999) ∧ ((10000 : Nat) < 1000 ∨ 10000 ≤ 10000) := ⟨(by intro _ h; cases h), by decide, by decide⟩
/-- An undervoltage below 35.0 V and no flash write under way. -/
theorem test_hyp_Undervoltage : (34999 : Nat) < 35000 ∧ (ready []).gdp.inflight = [] ∧ Tab.wf 0 (ready []).mem = true ∧ Tab.wf 0 (ready []).pd = true := by
  decide
theorem test_hyp_SupplyWarning : 2 ≤ (ready []).power.step ∧ ((36999 : Nat) < 37000 ∨ true = false) ∧ (ready []).strand.queue.length < 256 := by decide
theorem test_hyp_SupplyWarningClear : (37500 : Nat) < 37501 ∧ (42500 : Nat) < 42501 := by decide
theorem test_hyp_WarningRuns : (match exec (.supplyWarning 36999 true) (ready []) with
    | .next _ => true
    | _ => false) = true := by decide +kernel
def boots : State :=
  { power := { step := 2 }, security := { bank0 := { valid := true, secVersion := 3, build := 7, digest := 0, headerDigest := 0, written := 1 } } }
theorem test_hyp_HarbourBoot : boots.power.step = 2 ∧ boots.power.romOnly = false ∧ boots.security.bank0.valid = true
    ∧ boots.reg Pd.minSecurityVersion ≤ boots.security.bank0.secVersion := by decide
theorem test_hyp_PowerDown : admits (ready []) (ownWrite host Pd.powerDown 0 (natLE 4 0x5AFE)) = true ∧ (ready []).strand.queue.length < 256 := by
  decide +kernel
theorem test_hyp_QuiesceComplete : (ready [(Pd.powerState, 0, 1)]).reg Pd.powerState = 1 ∧ (ready [(Pd.powerState, 0, 1)]).inFlight = [] := by decide
theorem test_hyp_ModuleReset : (10000 : Nat) ≤ 10000 ∧ (ready []).reg Pd.powerState ≠ 3 ∧ (ready []).power.step ≠ 1 ∧ (ready []).gdp.inflight = []
    ∧ (ready []).strand.queue.length + 7 < 256 ∧ Tab.wf 0 (ready []).mem = true ∧ Tab.wf 0 (ready []).pd = true ∧ (999 : Nat) < 1000 := by decide
def tripped : State := { (ready [(Pd.powerState, 0, 3), (Pd.hottestJunction, 0, 85000)]) with power := { step := 3, heldReset := true } }
theorem test_hyp_TrippedReset : tripped.reg Pd.powerState = 3 ∧ (85000 : Int) ≤ tripped.hottest ∧ tripped.power.heldReset = true ∧ (84999 : Int) < 85000 := by
  decide +kernel
theorem test_hyp_ShortResetPulse : (1000 : Nat) ≤ 1000 ∧ (9999 : Nat) < 10000 := by decide
theorem test_hyp_StrapCheck : (ready []).strand.queue.length < 256 := by decide
/-- All eight readings at 104.999 °C, and at 105 °C. -/
theorem test_hyp_ThermalSample : (ready []).power.step ≠ 1 ∧ (ready []).reg Pd.powerState ≠ 3 ∧ (104999 : Int) ∈ (Vector.replicate 8 104999).toList
    ∧ (∀ x ∈ (Vector.replicate 8 (104999 : Int)).toList, x ≤ 104999) ∧ (104999 : Int) < 105000 ∧ (ready []).reg Pd.throttleLevel ≤ 4 := by decide +kernel
theorem test_hyp_ThermalTrip : (ready []).power.step ≠ 1 ∧ (ready []).reg Pd.powerState ≠ 3 ∧ (105000 : Int) ∈ (Vector.replicate 8 105000).toList
    ∧ (∀ x ∈ (Vector.replicate 8 (105000 : Int)).toList, x ≤ 105000) ∧ (105000 : Int) ≤ 105000 := by decide +kernel
def crossed : State := { crossings := [(128 * 2 + 66, { credits := [7, 8, 8, 8, 8, 8, 8], fifo := [{ port := none, cls := .af, level := 0, tag := 9 }] })] }
theorem test_hyp_Crossings : crossed.islandFenced 2 = false ∧ crossed.islandFenced 66 = false ∧ (crossed.crossing 2 66).credits.length = 7
    ∧ (crossed.crossing 2 66).fifo.find? crossed.takes = some { port := none, cls := .af, level := 0, tag := 9 }
    ∧ (ready []).crossing 2 66 = { credits := [8, 8, 8, 8, 8, 8, 8], fifo := [] } ∧ ((ready []).crossing 2 66).fifo.find? (ready []).takes = none
    ∧ (ready [(Pd.islandFenced, 0, 4)]).islandFenced 2 = true := by decide +kernel
/-- Port 5 of fabric 1, its first slot TS, with a TS entry waiting for a crossing; and with a host slot and a maintenance entry. -/
def slotted (cls : Nat) (k : TideClass) (credit : Nat) : State :=
  { ready [(Pd.tideActive, 0, leNat (List.replicate 256 (BitVec.ofNat 8 cls)))] with
    ports := [(4096 + 5, { queues := (List.range 6).map fun i => if i = classCode k then [{ port := none, cls := k, level := 0, tag := 3, out := some (7, 66) }] else [] })]
    crossings := [(128 * 7 + 66, { credits := List.replicate 7 credit, fifo := [] })] }
theorem test_hyp_Slot : (slotted 1 .ts 1).isReady = true ∧ firstWaiting 1 (((slotted 1 .ts 1).fabricPort 1 5).waiting 1) ≠ none
    ∧ ((firstWaiting 1 (((slotted 1 .ts 1).fabricPort 1 5).waiting 1)).all (slotted 1 .ts 1).mayLeave) = true
    ∧ ((firstWaiting 1 (((slotted 1 .ts 0).fabricPort 1 5).waiting 1)).all (slotted 1 .ts 0).mayLeave) = false
    ∧ firstWaiting 4 (((slotted 4 .ma 1).fabricPort 1 5).waiting 4) = none ∧ firstWaiting 5 (((slotted 4 .ma 1).fabricPort 1 5).waiting 5) ≠ none
    ∧ ((slotted 1 .ma 1).unitPort 6).waits = false := by decide +kernel
theorem test_hyp_TideApply : admits (ready []) (ownWrite host Pd.tideApply 0 [0]) = true := by decide +kernel
theorem test_hyp_LockLoss : (ready []).isReady = true ∧ (ready []).islandFenced 1 = false ∧ (ready []).islandFenced 115 = false
    ∧ (ready []).islandFenced 0 = false ∧ (ready []).gdp.inflight = [] ∧ (ready []).strand.queue.length + 8 < 256
    ∧ (ready [(Pd.islandFenced, 0, 2)]).islandFenced 1 = true := by decide
/-- A state that meets the invariant, with an entry under way in a crossing, and a step from it. -/
theorem test_hyp_StepKeepsSafe : crossed.safe ∧ (match step { crossed with pending := [.crossingCredit 2 66] } with
    | .next t => t.crossing 2 66 == { credits := [8, 8, 8, 8, 8, 8, 8], fifo := [] }
    | _ => false) = true :=
  ⟨⟨⟨rfl, rfl⟩, by simp [State.crossingsOk, crossed]; decide, by decide⟩, by decide +kernel⟩
/-- Codes of FP32 and of a format of eight bits that are no NaN; a number that is not zero. -/
theorem test_hyp_Numbers : (floatFmt 1).isSome = true ∧ (floatFmt 4).isSome = true ∧ val one32 ≠ .nan ∧ (val one32).isZero = false
    ∧ ((floatFmt 1).elim .nan fun f => f.decode 0x80000001) ≠ .nan := by decide +kernel

/-! ### Chapters 03 and 04 -/

theorem test_hyp_Read : (let m := msg 1 Pd.throttleStart []; let q := msgToReq m .mailbox false; let s := ready [(Pd.throttleStart, 0, 90000)]
    m.opcode = 1 ∧ badMessage m = false ∧ opRowOf q.key = none ∧ unknownReading q.key = false ∧ s.formedOne (pathSource .mailbox) 0 q.key = none
    ∧ s.formedSub q.key 0 = none ∧ q.key ∉ requestCounters ∧ watchedCounter q.key = false
    ∧ admits s q (fun e => decide (e.type < 6) && !e.records && e.unit == e.size && decide (0 < e.size)) = true) := by decide +kernel
/-- A value of the whole range and one outside. -/
theorem test_hyp_Write : (let m := msg 2 Pd.gateBays [4]; let q := msgToReq m (.management 1 9 true 255) false
    m.opcode = 2 ∧ badMessage m = false ∧ q.key ∈ plainEntries ∧ valueOk q.key q.value = true ∧ valueOk q.key 5 = false
    ∧ admits (ready []) q = true) := by decide +kernel
def waiting : Pending := { req := ownWrite host Pd.gateBays 0 [4], wait := .flash, before := [] }
theorem test_hyp_PersistentWriteDone : (let s : State := { gdp := { inflight := [waiting] } }
    s.unanswered (pathSource .mailbox) 1 = some waiting ∧ waiting.wait = .flash ∧ s.strand.flushing = false) := by decide
theorem test_hyp_LockedWrite : (let m := msg 2 Pd.soKey [1]; let q := msgToReq m .mailbox false; let s := ready [(Pd.lifeCycle, 0, 2)]
    m.opcode = 2 ∧ badMessage m = false ∧ taken s q .host = true ∧ s.power.romOnly = false ∧ s.policyDenies q = false
    ∧ ((entryInfo q.key).any fun e => !accessDenied (e.access .host) false && e.lock == 2) = true) := by decide +kernel
/-- A partner may not start Landfall. -/
theorem test_hyp_NoAccess : (let p : GdpPath := .causeway 1 .peer false; let m := msg 2 Pd.landfallStart [0]; let q := msgToReq m p false
    badMessage m = false ∧ taken (ready []) q .peer = true ∧ (ready []).power.romOnly = false
    ∧ ((entryInfo q.key).any fun e => e.access .peer == 0) = true) := by decide +kernel
theorem test_hyp_Describe : (let m := msg 3 Pd.gateBays []; let q := msgToReq m .mailbox false
    m.opcode = 3 ∧ badMessage m = false ∧ taken (ready []) q .host = true ∧ ((entryInfo q.key).any fun e => !e.records) = true) := by decide +kernel
theorem test_hyp_Next : ((entryInfo Pd.gateBays).isSome = true ∧ entryInfo 0 = none) ∧ (let m := msg 4 Pd.gateBays []; let q := msgToReq m .mailbox false
    m.opcode = 4 ∧ badMessage m = false ∧ taken (ready []) q .host = true) := by decide +kernel
/-- READ_POLICY written 1 with the challenge as nonce. -/
theorem test_hyp_SignedWrite : (let m := msg 5 Pd.readPolicy (natLE 1 1 ++ natLE 32 77 ++ List.replicate 3309 0); let q := msgToReq m .mailbox true
    let s : State := { ready [(Pd.soKey, 0, 1)] with security := { challenge := 77 } }
    m.opcode = 5 ∧ badMessage m = false ∧ q.key = Pd.readPolicy ∧ taken s q .host = true ∧ s.power.romOnly = false
    ∧ q.value ≤ 1 ∧ admitsSigned s q = true) := by decide +kernel
theorem test_hyp_Repetition : (let x : Reply := { source := .mailbox, seq := 1, msg := { msg 0x82 Pd.gateBays [] with flags := 0xC0 } }
    let s : State := { ready [] with gdp := { cache := [x] } }
    s.pathOpen .mailbox = true ∧ pathRole .mailbox = some .host ∧ (msg 2 Pd.gateBays [4]).opcode = 2
    ∧ (s.gdp.cache.find? fun x => x.source == pathSource .mailbox && x.seq == 1) = some x) := by decide +kernel
theorem test_hyp_Status : ((List.range 7).all fun r => admits (ready []) (ownReq host 1 (opBase (r + 1) + 2) 0 0 [] .unsigned)
    && admits (ready []) (ownWrite host (opBase (r + 1) + 4) 0 (natLE 4 1))) = true := by decide +kernel
theorem test_hyp_LinkTrained : 3 ≤ (ready []).power.step ∧ linkSupported 16 64 1 = true ∧ (ready []).strand.queue.length < 256
    ∧ (∀ e ∈ (ready []).host.mirrors, e.2.waiting = false) ∧ linkSupported 3 64 1 = false ∧ (ready []).reg Pd.linkState = 0 := by decide
theorem test_hyp_LinkDown : (ready [(Pd.linkState, 0, 2)]).reg Pd.linkState ≠ 0 ∧ (ready [(Pd.linkState, 0, 2)]).host.snoopWaits = []
    ∧ (ready [(Pd.linkState, 0, 2)]).host.ctrWaits = [] := by decide
theorem test_hyp_Mailbox : (ready [(Pd.linkState, 0, 2)]).reg Pd.linkState = 2 ∧ (ready []).host.logs[3]? = some ({} : EventLog) := by decide
theorem test_hyp_Forwarded : (let p : Pending := { waiting with wait := .forwarded 5 }
    let m : GdpMsg := { msg 2 Pd.gateBays [] with source := 5 }
    let s : State := { gdp := { inflight := [p] } }
    s.forwardedTo m.source.toNat m.seq (some (roleOfCode ((m.flags.toNat / 4) % 4))) = some p ∧ s.forwardedTo 5 1 none = some p) := by decide +kernel
/-- A module at position 0 of a gate of four bays, its link up, with the default tables of the fabrics that move host traffic. -/
def gate : State := ready [(Pd.linkState, 0, 2), (Pd.tideActive, 0, leNat (defaultTable 1)), (Pd.tideActive + 3, 0, leNat (defaultTable 4))]
theorem test_hyp_WindowRead : gate.reg Pd.linkState = 2 ∧ gate.working = true ∧ gate.host.windows = [] ∧ gate.position < 16 * gate.host.bays
    ∧ [Window.cliff, .house, .counter, .status].all (gate.windowMoves ·) = true ∧ (0 : Nat) < 8 ∧ 0 + 8 ≤ windowMapped .counter
    ∧ (0 : Nat) < windowSlice .counter ∧ gate.host.filter.length + 8 ≤ 262144 ∧ gate.counterBytes 0 8 = some (natLE 8 0)
    ∧ [Window.cliff, .house].all (fun w => match gate.dpaPlaces harbourAgent true (windowBase w) 8 with
        | .ok l => l.length == 8
        | .error _ => false) = true := by decide +kernel
theorem test_hyp_WindowWrite : 0x18000000 - 2 + 2 ≤ windowMapped .house ∧ 0x18000000 - 2 < windowSlice .house
    ∧ (match gate.dpaTargets harbourAgent true (windowBase .house + (0x18000000 - 2)) [some 1, none] with
        | .ok _ => true
        | .error _ => false) = true ∧ gate.ctrHeld 5 = false := by decide +kernel
theorem test_hyp_WindowEdges : windowMapped .house < (0x18000000 - 1) + 2 ∧ 0x18000000 - 1 < windowSlice .house ∧ 0xFFFF + 1 ≤ 0x10000
    ∧ 16 * gate.host.bays ≤ 64 := by decide
theorem test_hyp_WindowForwarded : (let s := ready [(Pd.linkState, 0, 2), (Pd.linkMap, 0, 3), (Pd.linkMap, 1, 1)]
    s.reg Pd.linkState = 2 ∧ s.host.windows = [] ∧ (s.route 1).isSome = true ∧ s.windowUnderWay 1 = false ∧ 1 ≠ s.position ∧ 1 < 16 * s.host.bays) := by
  decide +kernel
def oneWindow : WindowReq := { id := 0, window := .cliff, target := 1, offset := 0, size := 64, write := false, data := [], local_ := false }
theorem test_hyp_WindowTimeout : (({ host := { windows := [oneWindow] } } : State).host.windows.find? fun x => x.id == 0) = some oneWindow := by decide
def mirrored : State := { gate with host := { mirrors := [(3, { sequence := 1, inFlight := some 8 })] } }
theorem test_hyp_Coherence : gate.reg Pd.linkState = 2 ∧ gate.host.snoopWaits = [] ∧ gate.host.ctrWaits = [] ∧ 1 ≠ gate.position
    ∧ mirrored.reg Pd.linkState = 2 ∧ (mirrored.mirror 3).inFlight = some 8 ∧ (mirrored.mirror 3).waiting = false := by decide +kernel

/-! ### Chapter 05 -/

/-- A request of the Harbour at a room. -/
def roomReq (write : Bool) (offset len : Nat) : RoomReq :=
  { requester := 7, principal := some .harbour, cls := .owner, write := write, offset := offset, len := len
    data := if write then List.replicate len (some 0x5A) else [], tag := 9, lower := [] }

theorem test_hyp_RoomRequest : (ready []).unpowered = false ∧ (ready []).roomFenced 0 = false ∧ (ready [(Pd.roomOwner, 0, 2 ^ 62)]).roomFenced 0 = true
    ∧ (ready []).afterMarker 0 (roomReq true 0 4) = false ∧ (let s : State := { ready [(Pd.roomOwner, 0, 2 ^ 63)] with rooms := [(0, { newWord := some 0x1050000 })] }
      s.roomFenced 0 = false ∧ s.afterMarker 0 { roomReq true 0 4 with principal := some (s.roomOwnerOf 0) } = true) := by decide
/-- A write over a line of 128 bytes in the last room, a DMA waiting behind it. -/
def roomState (r : Nat) (q : RoomReq) : State :=
  { ready [] with rooms := [(r, { ownerQ := [q], dmaQ := [{ roomReq false 0 8 with cls := .dma }] })] }
theorem test_hyp_RoomCycle : ([roomReq true 126 4, roomReq false 262016 128].all fun q =>
    let s := roomState 1535 q
    !s.unpowered && !s.roomFenced 1535 && !s.roomWiping 1535 && !s.halted (66 + 1535 / 192) && (tget none s.transposes (1535 / 32)).isNone && !s.sharedMode 1535
      && decide ((s.room 1535).ownerQ = q :: []) && decide ((s.room 1535).portBQ = [])
      && decide (∀ x ∈ (s.room 1535).ownerQ ++ (s.room 1535).dmaQ, s.roomVerdict 1535 false x = .serve)
      && q.principal.isSome && q.wellFormed && !q.own) = true := by decide +kernel
/-- Words that keep the Harbour as owner, and that name engine 5 with partition 2. -/
def ownerWord5 : Nat := 2 * 2 ^ 48 + 1 * 2 ^ 24 + 5 * 2 ^ 16
theorem test_hyp_RoomOwner : (let s := ready []
    admits s (ownWrite host Pd.roomOwner (8 * 1535) (natLE 8 0)) = true ∧ s.handoverCheck 1535 (wordFields 0) = none
    ∧ s.sameOwnership 1535 (wordFields 0) = true
    ∧ admits s (ownWrite host Pd.roomOwner (8 * 1535) (natLE 8 ownerWord5)) = true ∧ s.handoverCheck 1535 (wordFields ownerWord5) = none
    ∧ s.sameOwnership 1535 (wordFields ownerWord5) = false ∧ s.unitFenced (s.roomOwnerOf 1535) = false ∧ s.roomReaderOf 1535 = none) := by
  decide +kernel
def handing : State :=
  { ready [(Pd.roomOwner, 1535, 2 ^ 63)] with
    rooms := [(1535, { marker := true, newWord := some (BitVec.ofNat 64 ownerWord5) })]
    gdp := { inflight := [{ req := ownWrite host Pd.roomOwner (8 * 1535) (natLE 8 ownerWord5), wait := .handover 1535, before := [] }] } }
theorem test_hyp_MarkerReturn : handing.roomPending 1535 = true ∧ (handing.room 1535).newWord = some (BitVec.ofNat 64 ownerWord5)
    ∧ (handing.room 1535).readerMarker = false
    ∧ handing.markerReady 1535 false = true := by decide
theorem test_hyp_Transpose : stripOk 258048 4 = true ∧ (ready []).wingRefusal 47 .harbour = none ∧ tget none (ready []).transposes 47 = none
    ∧ stripOk 0 1 = true ∧ 1 ≤ 64 ∧ 64 * 1 ≤ 128 ∧ 0 + 4096 * 64 ≤ 262144 := by decide +kernel
def transposing : State := { ready [] with transposes := [(47, some { offset := 258048, elem := 4, q := 0, cycles := 64 })] }
theorem test_hyp_TransposeDone : tget none transposing.transposes 47 = some { offset := 258048, elem := 4, q := 0, cycles := 64 }
    ∧ stripOk 258048 4 = true ∧ stripOk 258049 4 = false := by decide
theorem test_hyp_WipeDone : (ready [(Pd.roomOwner, 1535, 2 ^ 60)]).roomWiping 1535 = true := by decide
theorem test_hyp_Quiet : (∀ e ∈ (ready []).rooms, e.2.newWord = none) ∧ (ready []).endings = [] ∧ (ready []).spec = [] ∧ (ready []).heads = [] := by decide

/-! ### Chapter 06 -/

/-- A request of the Harbour for the last block of the first Cliff, 1 to 8 blocks of it. -/
def coveReq (write : Bool) (addr blocks : Nat) : CliffReq :=
  { user := .harbour, part := none, write := write, addr := addr, blocks := blocks
    data := if write then List.replicate (256 * blocks) (some 0x5A) else [], hint := 0, count := 1, tensor := 0, runAhead := false, tag := 3 }
def lastBlock : Nat := cliffBytes - 256
theorem test_hyp_CoveWrite : (let s := ready []; let q := coveReq true lastBlock 1
    (match s.reqCheck q with
      | .ok n => n == lastBlock && !s.unpowered && !q.own && !s.poolFull q.user && !s.behind q n && !s.overQuota q n && (s.trackedLines n q.blocks).isEmpty && q.data.length == 256 * q.blocks
      | _ => false) = true) := by decide +kernel
/-- Block 0 present in way 0 of set 0; and absent. -/
def covered : State := ready [(Pd.coveLineState, 0, 2 ^ 46)]
def filled (s : State) (q : CliffReq) (n : Nat) : CliffReq := { q with addr := n, data := enableAll (s.bytesAt n 256) }
theorem test_hyp_CoveRead : (let q := coveReq false 0 1
    (match covered.reqCheck q with
      | .ok n => n == 0 && !covered.unpowered && !q.own && !covered.poolFull q.user && !covered.behind q n && !covered.overQuota q n && (covered.trackedLines n 1).isEmpty && !covered.reqWaits 0 (filled covered q n)
      | _ => false) = true
    ∧ covered.findWay 0 0 = some 0 ∧ lineFilling (covered.coveLine 0 (coveSet 0) 0) = false ∧ linePoison (covered.coveLine 0 (coveSet 0) 0) = false
    ∧ (covered.cliff 0).slots = [] ∧ (ready []).findWay 0 0 = none ∧ (ready []).fetching 0 0 = false
    ∧ (ready []).writingBack 0 0 = false) := by decide +kernel
theorem test_hyp_CoveFails : (match (ready []).reqCheck (coveReq false cliffBytes 1) with
    | .fail c => c == St.unmapped
    | _ => false) = true := by decide
def access (write : Bool) (since : Nat) : LineAcc := { block := 0, write := write, way := none, waiters := if write then [] else [filled (ready []) (coveReq false 0 1) 0], since := since }
def scheduling (now : Nat) : State := { ready [] with time := now, cliffs := [(0, { queues := [(0, [access true 3, access false 9])] })] }
theorem test_hyp_Schedule : ([8, 9].all fun now => let s := scheduling now
    !s.unpowered && !s.cliffFenced 0 && !s.halted 74 && (tget none (s.cliff 0).inService 0).isNone && !(s.cliff 0).recal.contains 0
      && (s.coveChoice 0 0).1 == some (access (now == 8) (if now = 8 then 3 else 9)) || now == 9) = true := by decide +kernel
def serving (write : Bool) : State :=
  { ready [] with cliffs := [(0, { slots := [(filled (ready []) (coveReq false 0 1) 0, St.ok)], inService := [(0, some (access write 3))] })] }
theorem test_hyp_AccessDone : tget none ((serving true).cliff 0).inService 0 = some (access true 3) ∧ tget none ((serving false).cliff 0).inService 0 = some (access false 3)
    ∧ (access false 3).waiters = [filled (ready []) (coveReq false 0 1) 0] ∧ (serving false).badBlocks = [] ∧ (serving false).poisonBlocks = []
    ∧ (serving false).unpowered = false ∧ (access false 3).way = none ∧ (filled (ready []) (coveReq false 0 1) 0).own = false
    ∧ (((serving false).cliff 0).slots.find? fun e => e.1 == filled (ready []) (coveReq false 0 1) 0) = some (filled (ready []) (coveReq false 0 1) 0, St.ok)
    ∧ ((serving false).setCliff 0 { (serving false).cliff 0 with inService := tset none ((serving false).cliff 0).inService 0 none }).reqWaits 0
        (filled (ready []) (coveReq false 0 1) 0) = false := by decide +kernel
def copying : State := { ready [] with cliffs := [(19, { copying := [(bankKey 255 31, some 10239)], recal := [7] })] }
theorem test_hyp_SoftReplacement : tget none (copying.cliff 19).copying (bankKey 255 31) = some 10239 ∧ copying.isReady = true
    ∧ copying.cliffFenced 19 = false ∧ 255 ∉ (copying.cliff 19).recal ∧ 7 ∈ (copying.cliff 19).recal := by decide
theorem test_hyp_Unpin : admits (ready []) (ownWrite host Pd.unpinTensor 0 (natLE 2 7)) = true := by decide +kernel
def unpinning : State :=
  { ready [(Pd.coveLineState, 5, 2 * 2 ^ 42 + 7 * 2 ^ 16)] with
    unpinning := [7], gdp := { inflight := [{ req := ownWrite host Pd.unpinTensor 0 (natLE 2 7), wait := .unpin, before := [] }] } }
theorem test_hyp_UnpinDone : Tab.wf 0 unpinning.mem = true ∧ Tab.wf 0 unpinning.pd = true ∧ unpinning.unpinning = 7 :: []
    ∧ (unpinning.gdp.inflight.find? fun (p : Pending) => decide (p.wait = .unpin)).isSome = true := by decide +kernel
/-- Partition 0's Chart at native 0: entry 0 a leaf for native 0. -/
def charted : State := { ready [] with chartBase := [(0, some 0)], mem := [(7, 0xC0)] }
theorem test_hyp_ChartWalk : (charted.chartWalk 0 0).isSome = true ∧ (ready []).chartWalk 0 0 = none ∧ charted.harbourRoom (charted.walkReads 0 0) = true
    ∧ (ready []).harbourRoom ((ready []).walkReads 0 0) = true
    ∧ (let s : State := { ready [] with cliffs := [(0, { slots := List.replicate 1024 (coveReq false 0 1, St.ok) })] }
      s.harbourRoom (s.walkReads 0 0) = false) := by decide +kernel
def repairing (softly : Bool) : State :=
  { ready [] with cliffs := if softly then [(19, { softRows := [rowKey 255 31 10239] })] else [(19, { usedGroups := [(bankKey 255 31, 4)] })] }
theorem test_hyp_Repair : ([true, false].all fun b => let s := repairing b
    !s.opBusy 5 && !s.opActive 4 && !s.cliffFenced 19
      && [1, 2].all (fun a => admits s (ownWrite host Pd.repairStart 0 (repairArg a 19 255 31 10239)))
      && admits s (ownWrite host Pd.repairStart 0 (repairArg 3 19 0 0 0))) = true := by decide +kernel
def repairRuns : State := { ready [] with repair := some { action := 1, cliff := 19, stratum := 255, bank := 31, row := 10239 }, ops := [(5, { state := 2, run := 1 })] }
theorem test_hyp_RepairDone : repairRuns.repair = some { action := 1, cliff := 19, stratum := 255, bank := 31, row := 10239 }
    ∧ ((repairRuns.cliff 19).fusesUsed.foldl (fun a e => a + e.2) 0) < 16777216 := by decide
theorem test_hyp_BulkCopyStart : (let s := ready []; let n := 512
    n ≠ 0 ∧ n % 256 = 0 ∧ n ≤ 0x1000000000 ∧ s.rangeUsable 0 n = true ∧ s.rangeUsable (cliffBytes - n) n = true ∧ s.opBusy 6 = false ∧ s.opActive 4 = false
    ∧ admits s (ownWrite host Pd.bulkCopyStart 0 (natLE 8 0 ++ natLE 8 (cliffBytes - n) ++ natLE 8 n)) = true) := by decide +kernel
def bulk : State := { ready [] with bulk := some (0, 0x2000000000, 512), mem := [(3, 9), (0x2000000000 + 5, 7)], ops := [(6, { state := 2, slots := 1 })] }
theorem test_hyp_BulkCopyDone : bulk.bulk = some (0, 0x2000000000, 512) ∧ isNative 0 = true ∧ natLocal 0 + 512 ≤ cliffBytes
    ∧ isNative 0x2000000000 = true ∧ natLocal 0x2000000000 + 512 ≤ cliffBytes
    ∧ bulk.cliffFenced 0 = false ∧ bulk.cliffFenced 1 = false := by decide
theorem test_hyp_ChartRebuildStart : admits (ready []) (ownWrite host Pd.chartRebuildStart 0 [15]) = true ∧ (ready []).opBusy 7 = false
    ∧ (ready []).partTasks 15 = false ∧ chartBaseOk ((ready []).reg (Pd.chartBase + 15)) = true ∧ (ready []).cliffFenced 0 = false := by decide +kernel
def rebuilding (state : Nat) : State := { ready [] with rebuild := some 15, ops := [(7, { state := state, run := 1, slots := 4609 })] }
theorem test_hyp_ChartRebuildDone : (rebuilding 1).rebuild = some 15 ∧ ((rebuilding 1).op 7).state = 1 ∧ (rebuilding 1).partTasks 15 = false
    ∧ chartBaseOk ((rebuilding 1).reg (Pd.chartBase + 15)) = true ∧ ((rebuilding 2).op 7).state = 2 ∧ (rebuilding 1).cliffFenced (natCliff ((rebuilding 1).reg (Pd.chartBase + 15))) = false := by decide

/-! ### Chapters 08 to 10 -/

/-- Bytes of a record from fields: offset, bytes, value. -/
def record (n : Nat) (fields : List (Nat × Nat)) : List Byte := natLE n (fields.foldl (fun w e => w + e.2 * 2 ^ (8 * e.1)) 0)
/-- A descriptor's bytes: base, format, extents and strides in loop order. -/
def descBytes (base format : Nat) (dims : List (Nat × Nat)) : List Byte :=
  record 128 ([(0, base), (8, format * 2 ^ 56 + dims.length * 2 ^ 52)] ++ dims.zipIdx.map fun e => (64 + 8 * e.2, e.1.1 * 2 ^ 36 + e.1.2))
/-- Bytes at their addresses, in order. -/
def bytesAt (l : List (Nat × List Byte)) : Tab Byte := l.foldl (fun m e => tsetMany 0 m e.1 e.2) []
/-- A BF16 product of a 2 × 1 stationary and a 1 × 3 stream, the stationary from room 0, the stream from room 1, the FP32 results to room 2. -/
def matTask : Task :=
  { unit := 0, part := 0, position := 0, pass := 0, record := record 1024 [(512, 1), (516, 0x3F800000), (520, 0x3F800000)]
    descs := [parseDesc (descBytes (roomAddr 0 0) 2 [(2, 1), (1, 1)]), parseDesc (descBytes (roomAddr 1 0) 2 [(1, 1), (3, 1)]),
      parseDesc (descBytes (roomAddr 2 0) 1 [(2, 1), (3, 2)])] }
def feederWord : Nat := 2 * 2 ^ 24
def arrayState (h : Headland) : State :=
  { ready [(Pd.roomOwner, 0, feederWord), (Pd.roomOwner, 1, feederWord), (Pd.roomOwner, 2, feederWord), (Pd.width, 0, 1024)] with
    headland := h, mem := bytesAt [(roomAddr 0 0, [0x80, 0x3F, 0, 0x40]), (roomAddr 1 0, [0, 0x40, 0x80, 0x3F])] }
def arr : ArrayTask := { task := matTask, id := 5, pre := [], bias := [] }
/-- A tile waiting for its swap, its row loaded or not; and one that streams. -/
def waitsSwap (loaded since : Nat) : State := arrayState { running := some arr, loaded := loaded, since := since, shadowSet := [(0, [[Num.ofNat 1], [Num.ofNat 2]])] }
def streams : State := arrayState { running := some { arr with active := true }, activeSet := [(0, [[Num.ofNat 1], [Num.ofNat 2]])] }
theorem test_hyp_Frozen : (waitsSwap 1 19).headland.rerun = [] ∧ (waitsSwap 1 19).headland.busy = true ∧ (waitsSwap 1 19).halted 1 = false
    ∧ (waitsSwap 1 19).throttled 0 = false ∧ (waitsSwap 1 19).headland.swapDue = true ∧ (waitsSwap 1 19).headland.swapAllowed = false
    ∧ matTask.tileRows 0 = 1 ∧ (waitsSwap 0 20).headland.swapAllowed = false ∧ matTask.headStaging = []
    ∧ streams.headland.swapDue = false ∧ streams.headland.running.isSome = true ∧ streams.headland.target.isNone = true
    ∧ ({ streams with pd := tset 0 streams.pd (pdKey Pd.throttleLevel 0) 1 } : State).throttled 0 = true := by decide +kernel
theorem test_hyp_FrozenLoads : (match (waitsSwap 0 20).cellRow matTask 0 1 0 2 with
    | .ok r => r.2 == []
    | .error _ => false) = true ∧ (waitsSwap 0 20).headland.target = some (arr, 0) ∧ 0 < matTask.tileRows 0 := by decide +kernel
theorem test_hyp_ArrayConsumes : streams.headland.running = some { arr with active := true } ∧ streams.headland.trees = [] ∧ streams.headland.rerun = []
    ∧ (match streams.vectorSums { arr with active := true } with
      | .ok l => l.length == 2
      | .error _ => false) = true ∧ 0 + 1 < matTask.vectorsIn 0 := by decide +kernel
theorem test_hyp_ArraySwaps : (waitsSwap 1 20).headland.swapAllowed = true ∧ (waitsSwap 1 20).headland.trees = [] ∧ 0 + 1 = matTask.tiles * matTask.passes
    ∧ (waitsSwap 1 20).headland.shadow = none ∧ 1 < matTask.vectorsIn 0
    ∧ (match ({ waitsSwap 1 20 with headland := (waitsSwap 1 20).headland.swap } : State).vectorSums { arr with active := true } with
      | .ok _ => true
      | .error _ => false) = true := by decide +kernel
def tree (left : Nat) : InTree := { left := left, id := 5, slot := 0, first := true, last := true, vector := 0, sums := [one32, one32] }
def drains (left : Nat) : State := arrayState { draining := [{ arr with active := true, begun := true }], trees := [tree left] }
theorem test_hyp_ArrayDrains : (drains 3).headland.running = none ∧ (drains 3).headland.draining ≠ [] ∧ (drains 3).headland.trees = [tree 3]
    ∧ (tree 3).sums[1]? = some one32 ∧ (tree 3).sums.length ≤ 1024 ∧ (drains 1).headland.trees = [tree 1] ∧ 0 + 1 < matTask.hM
    ∧ (match (drains 1).drainVector { arr with active := true, begun := true } (tree 1) with
      | .ok _ => true
      | .error _ => false) = true := by decide +kernel
/-- Physical column 0 backs logical column 0; column 1039 is the pool's, or the pool is empty. -/
def columns (pool : Nat) : State := ready [(Pd.width, 0, 1), (Pd.columnState, 1039, pool), (Pd.poolFree, 0, pool)]
theorem test_hyp_ColumnFails : (columns 1).isReady = true ∧ (columns 1).rd Pd.columnState 0 = 0 ∧ (columns 1).logicalOf 0 = some 0
    ∧ (columns 1).headland.failed.length < (columns 1).poolColumns.length ∧ (columns 1).rd Pd.columnState 1039 = 1
    ∧ (columns 0).poolColumns.length ≤ (columns 0).headland.failed.length ∧ (columns 0).headland.busy = false := by decide +kernel
theorem test_hyp_ColumnRemap : (let s : State := { columns 1 with headland := { failed := [0] } }
    s.headland.busy = false ∧ s.headland.shadow = none ∧ s.headland.failed = [0] ∧ s.poolColumns = 1039 :: []) := by decide +kernel
/-- Engine 5 adds 1.0 to two FP32 values of room 0, its own. -/
def addRecord : List Byte :=
  record 1024 [(0, 2), (1, 5), (7, 2), (384, roomAddr 0 1024), (392, roomAddr 0 1152), (512, 1), (515, 0x11), (544, 0x3F800000),
    (576, 0x01 * 2 ^ 56 + 0x00 * 2 ^ 48 + 0x20 * 2 ^ 40 + 0xFF * 2 ^ 32 + 0xFF * 2 ^ 24)]
def addTask : Task :=
  { unit := 6, part := 0, position := 0, pass := 0, record := addRecord
    descs := [parseDesc (descBytes (roomAddr 0 4096) 1 [(2, 1)]), parseDesc (descBytes (roomAddr 0 8192) 1 [(2, 1)])] }
def engineWord : Nat := 2 ^ 24 + 5 * 2 ^ 16
def engineMem : Tab Byte :=
  bytesAt [(roomAddr 0 0, addRecord), (roomAddr 0 1024, descBytes (roomAddr 0 4096) 1 [(2, 1)]), (roomAddr 0 1152, descBytes (roomAddr 0 8192) 1 [(2, 1)]),
    (roomAddr 0 4096, natLE 4 0x40000000)]
def beating : State :=
  { ready [(Pd.roomOwner, 0, engineWord)] with mem := engineMem, engines := [(5, { running := some { task := addTask, started := true } })] }
/-- Which way the beat of engine 5 goes: its port failed, waits for a Cliff, for the House, for its writes, or it issues. -/
def beatGoes (s : State) : Nat :=
  match (s.engine 5).running with
  | none => 9
  | some x => match s.beginTask x with
    | .go s1 y =>
      let s0 := s1.setEngine 5 { s1.engine 5 with running := some y }
      let needs := if (s0.unitPort 6).begun then [] else s0.beatNeeds 5 y.at
      let asked := if (s0.unitPort 6).begun then s0 else s0.ask 6 (houseLines (needs.flatMap (·.addrs))) (needs.flatMap (·.reqs))
      let u := (asked.pump 6).noteStaged 6 (needs.flatMap (·.staged))
      let p := u.unitPort 6
      if p.failed.isSome then 0
      else if u.cliffPending 6 then 1
      else if p.lacksLines then 2
      else if 64 ≤ p.writes then 3
      else match u.runBeat 5 y.at with
        | .ok (v, _) => if (v.engine 5).running.isSome then 4 else 8
        | .error _ => 7
    | _ => 6
/-- Engine 5 with its port as given. -/
def porting (p : UnitPort) : State := { beating with unitPorts := [(6, p)] }
def cliffLine (addr : Nat) : CliffReq :=
  { user := .engine 5, part := none, write := false, addr := addr, blocks := 1, data := [], hint := 0, count := 1, tensor := 0, runAhead := false, tag := 6, own := true }
theorem test_hyp_Beat : (beating.engine 5).running = some { task := addTask, started := true } ∧ beating.halted 7 = false ∧ beating.throttled 0 = false
    ∧ (beating.engine 4).running = none
    ∧ ({ beating with pd := tset 0 beating.pd (pdKey Pd.throttleLevel 0) 1 } : State).throttled 0 = true := by decide +kernel
/-- The task with an index, which lies outside the two elements it indexes. -/
def indexTask : Task :=
  { addTask with record := addRecord.set 514 4, descs := addTask.descs ++ [parseDesc (descBytes (roomAddr 0 4096) 0x0C [(1, 1)]), parseDesc (descBytes (roomAddr 0 4096) 1 [(2, 1)])] }
theorem test_hyp_IndexRange : (match beating.beginTask { task := indexTask } with
    | .range j => j == 0
    | _ => false) = true := by decide +kernel
theorem test_hyp_BeatGoes : beatGoes (porting { begun := true, failed := some St.fenced }) = 0
    ∧ beatGoes { porting { begun := true } with cliffs := [(0, { slots := [(cliffLine 0, St.ok)] })] } = 1
    ∧ beatGoes { beating with pd := tset 0 beating.pd (pdKey Pd.islandFenced 0) (2 ^ 66) } = 6
    ∧ beatGoes beating = 2 ∧ beatGoes (porting { begun := true, writes := 64 }) = 3 ∧ beatGoes (porting { begun := true }) = 4 := by decide +kernel
theorem test_hyp_MicroPrograms : (let s := ready [(Pd.mpEngines, 0, 3)]
    admits s (ownWrite host Pd.mpLoad 0 (natLE 1 31)) = true ∧ admits s (ownWrite host Pd.mpUnload 0 (natLE 1 31)) = true ∧ s.slotInUse 31 = false
    ∧ (loadFault (s.rdBytes Pd.mpImage 2048 0 2048)).isSome = true) := by decide +kernel
theorem test_hyp_References : (let s := ready []
    admits s (ownWrite host Pd.sfnCheckInput 0 (natLE 4 7)) = true ∧ admits s (ownWrite host Pd.sfnCheckFunction 0 (natLE 2 5)) = true
    ∧ admits s (ownWrite host Pd.genCheckKey 0 (natLE 8 9)) = true ∧ admits s (ownWrite host Pd.genCheckCounter 14 [1, 2]) = true
    ∧ 5 % 256 ≤ 5 ∧ sfnModsOk 5 0 = true ∧ sfnModsOk 6 0 = false) := by decide +kernel
/-- An image of one step and no seam passes every check. -/
def goodImage : List Byte := record 2048 [(0, 1), (1, 1), (64, 1 * 2 ^ 26)]
theorem test_hyp_MicroProgramLoads : loadFault goodImage = none := by decide +kernel

/-! ### Chapter 11 -/

/-- Counter c with a word, of partition 0. -/
def counterAt (c w : Nat) : State := ready [(Pd.counterState, c, w)]
/-- A word of a counter with this value, of partition p. -/
def counterWord (v p : Nat) : Nat := v * 2 ^ 32 + 16 * p + 2
theorem test_hyp_CounterValues : ([CtrSource.task 7 3, .host, .remote 5].all fun src => let s := counterAt 131071 (counterWord (2 ^ 32 - 1) 3)
    s.working && !s.ctrHeld 131071 && !s.ctrFenced 131071 && ctrState (s.ctr 131071) == 1
      && match src with
        | .task _ p => ctrPart (s.ctr 131071) == p
        | .dictionary => false
        | _ => true) = true := by decide +kernel
theorem test_hyp_HeldOperations : (let s := { counterAt 131071 (counterWord 5 3) with host := { filter := [counterLine 131071] } }
    s.working = true ∧ s.ctrHeld 131071 = true ∧ CtrSource.host ≠ .dictionary) := by decide +kernel
/-- A barrier of the most participants, in round 255. -/
def barrierAt (arrived next : Nat) : State := counterAt 9 (barrierWord next arrived 255 65535 3)
theorem test_hyp_Barriers : ([(0, 0), (65534, 0), (65534, 65535), (65534, 65534)].all fun e => let s := barrierAt e.1 e.2
    s.working && !s.ctrHeld 9 && !s.ctrFenced 9 && ctrState (s.ctr 9) == 2 && ctrPart (s.ctr 9) == 3 && decide (ctrArrived (s.ctr 9) < ctrParticipants (s.ctr 9))
      && decide (ctrNext (s.ctr 9) ≤ ctrParticipants (s.ctr 9)) && ((3 + 256 - ctrRound (s.ctr 9)) % 4 == 0) && ((0 + 256 - ctrRound (s.ctr 9)) % 4 == 1)) = true := by
  decide +kernel
theorem test_hyp_Init : (let s := ready []
    s.working = true ∧ s.ctrHeld 9 = false ∧ s.ctrFenced 9 = false ∧ initForm (barrierWord 0 0 255 65535 15) = true ∧ ctrState (s.ctr 9) = 0 ∧ initForm (counterWord 7 3) = true
    ∧ initForm 0 = true ∧ ctrPart (counterWord 7 3) = 3) := by decide +kernel
theorem test_hyp_Refused : ([0, 2, 4, 6].all fun w => let s := counterAt 9 w
    s.working && !s.ctrHeld 9 && !s.ctrFenced 9 && (ctrState (s.ctr 9) == w / 2) && (ctrPart (s.ctr 9) != 1)) = true := by decide +kernel
/-- A task list record: base, completion, length, cursor, pass, state. -/
def listWord (base compl len cursor pass st : Nat) : Nat := base + compl * 2 ^ 64 + len * 2 ^ 128 + cursor * 2 ^ 144 + pass * 2 ^ 160 + st * 2 ^ 168
def listAt (u p w : Nat) : State := ready [(Pd.taskLists, listKey u p, w)]
def twoRecords : Nat := listWord (roomAddr 0 0) (roomAddr 0 8192) 2 1 255 0
theorem test_hyp_TaskLists : (let s := listAt 65 15 twoRecords; let k := 32 * listKey 65 15
    listClean (s.listRec 65 15) = s.listRec 65 15 ∧ listState (s.listRec 65 15) = 0 ∧ listStartable (s.listRec 65 15) = true
    ∧ admits s (ownWrite host Pd.taskLists k (natLE 32 twoRecords)) = true ∧ byteField twoRecords 21 1 = 0 ∧ (natLE 32 twoRecords).length = 32
    ∧ admits s (ownWrite host Pd.taskLists (k + 21) [1]) = true ∧ listStartable (s.listRec 0 0) = false ∧ listState (s.listRec 0 0) = 0) := by decide +kernel
theorem test_hyp_TaskListRuns : (let w := setByteField twoRecords 21 1 1; let s := listAt 65 15 w; let k := 32 * listKey 65 15
    listClean w = w ∧ s.listRec 65 15 = w ∧ listState w = 1 ∧ listChanged w (listClean 0) = true ∧ admits s (ownWrite host Pd.taskLists k (natLE 32 0)) = true
    ∧ admits s (ownWrite host Pd.taskLists (k + 21) [0]) = true) := by decide +kernel
/-- Engine 5's list of partition 0 runs at record 1, which lies in room 0 and guards on counter 9 at 7 or more. -/
def guardedRecord : List Byte :=
  addRecord.zipIdx.map fun e => if e.2 = 4 then 1 else if e.2 = 64 then 1 else if e.2 = 68 then 9 else if e.2 = 72 then 7 else e.1
def listBytes (r : List Byte) : Tab Byte :=
  bytesAt [(roomAddr 0 1024, descBytes (roomAddr 0 8192) 1 [(2, 1)]), (roomAddr 0 1152, descBytes (roomAddr 0 8320) 1 [(2, 1)]), (roomAddr 0 3072, r),
    (roomAddr 0 8192, natLE 4 0x40000000)]
def headList (compl : Nat) : Nat := listWord (roomAddr 0 2048) compl 2 1 255 1
def loadable : State :=
  { ready [(Pd.roomOwner, 0, engineWord), (Pd.taskLists, listKey 6 0, headList (roomAddr 0 16384)), (Pd.counterState, 9, counterWord 7 0)] with
    mem := listBytes guardedRecord }
theorem test_hyp_HeadLoad : loadable.working = true ∧ listState (loadable.listRec 6 0) = 1 ∧ loadable.headOf (listKey 6 0) = none
    ∧ (match loadable.unitBytes (agentOf 6 0) false (listBase (loadable.listRec 6 0) + 1024 * listCursor (loadable.listRec 6 0)) 1024 with
      | .ok (some r) => r == guardedRecord
      | _ => false) = true
    ∧ (loadable.passBytes (agentOf 6 0) false (listBase (loadable.listRec 6 0) + 1024 * listCursor (loadable.listRec 6 0)) 1024).specFault
        ((loadable.passBytes (agentOf 6 0) false (listBase (loadable.listRec 6 0) + 1024 * listCursor (loadable.listRec 6 0)) 1024).headTask 6 0 guardedRecord) = none
    ∧ recordOk guardedRecord 6 0 = true ∧ loadable.guardFault guardedRecord = none ∧ (ready []).guardFault guardedRecord ≠ none
    ∧ listState ((ready []).listRec 6 0) ≠ 1 := by decide +kernel
/-- Its head, all of whose guards have latched. -/
def releasable : State := { loadable with heads := [(listKey 6 0, some { record := guardedRecord, latched := [true], taken := [false] })] }
theorem test_hyp_Release : releasable.working = true ∧ releasable.reg Pd.powerState = 0 ∧ releasable.settle = releasable ∧ Tab.wf none releasable.heads = true
    ∧ releasable.unitAccepts 6 = true ∧ releasable.specOf 6 = [] ∧ tget [] releasable.reruns 6 = [] ∧ guardedRecord ≠ []
    ∧ listState (releasable.listRec 6 0) = 1 ∧ releasable.rebuild ≠ some 0 ∧ (∀ q, q < 16 → q ≠ 0 → releasable.headOf (listKey 6 q) = none)
    ∧ recSpeculative guardedRecord = false ∧ (∀ i, i < recGuards guardedRecord → guardKind guardedRecord i ≠ 3)
    ∧ (match releasable.tidePrepare (releasable.headTask 6 0 guardedRecord) with
      | .ok _ => true
      | .error _ => false) = true := by decide +kernel
/-- The Headland's record of the product of `matTask`, its descriptors from byte 1,024 of room 3 on; and the Estuary's of group 63. -/
def matRecord : List Byte :=
  record 1024 [(0, 1), (7, 3), (384, roomAddr 3 1024), (392, roomAddr 3 1152), (400, roomAddr 3 1280), (512, 1), (516, 0x3F800000), (520, 0x3F800000)]
def estRecord : List Byte := record 1024 [(0, 3), (7, 1), (384, roomAddr 3 1024), (512, 63)]
def headReleasable : State :=
  { ready [(Pd.roomOwner, 0, feederWord), (Pd.roomOwner, 1, feederWord), (Pd.roomOwner, 2, feederWord), (Pd.roomOwner, 3, feederWord), (Pd.width, 0, 1024),
      (Pd.taskLists, listKey 0 0, headList (roomAddr 3 16384))] with
    heads := [(listKey 0 0, some { record := matRecord, latched := [], taken := [] })]
    mem := bytesAt [(roomAddr 0 0, [0x80, 0x3F, 0, 0x40]), (roomAddr 1 0, [0, 0x40, 0x80, 0x3F]),
      (roomAddr 3 1024, descBytes (roomAddr 0 0) 2 [(2, 1), (1, 1)]), (roomAddr 3 1152, descBytes (roomAddr 1 0) 2 [(1, 1), (3, 1)]),
      (roomAddr 3 1280, descBytes (roomAddr 2 0) 1 [(2, 1), (3, 2)])] }
theorem test_hyp_ReleaseHeadland : headReleasable.settle = headReleasable ∧ headReleasable.unitAccepts 0 = true ∧ headReleasable.working = true
    ∧ headReleasable.headOf (listKey 0 0) ≠ none ∧ recGuards matRecord = 0 ∧ recSpeculative matRecord = false ∧ listState (headReleasable.listRec 0 0) = 1
    ∧ headReleasable.headland.running = none ∧ headReleasable.headland.swapped = false
    ∧ (match headReleasable.headPrepare (headReleasable.headTask 0 0 matRecord) with
      | .ok _ => true
      | .error _ => false) = true := by decide +kernel
/-- A group of these members (position 0 has rank 0), FP32, its tensor of 64 × b elements accumulated at 4,096 of the Cliffs; results at
8,192, scale table at 12,288, descriptors in room 3; `op` its operation, `steps` its steps. -/
def groupWord (members op steps : Nat) : Nat :=
  leNat (record 128 [(0, members), (8, op), (10, steps), (13, 1), (16, 0xFF), (28, 0x1234), (32, roomAddr 3 1152), (40, roomAddr 3 1280), (48, roomAddr 3 1280), (56, 12288)])
def estWord : Nat := 3 * 2 ^ 24
/-- An FP32 tensor of n elements in the Cliffs, hint 1. -/
def cliffDesc (base n : Nat) : List Byte := record 128 [(0, base), (8, 2 ^ 56 + 2 ^ 52 + 2 ^ 46), (64, n * 2 ^ 36 + 1)]
def estBytes (blocks : Nat) : Tab Byte :=
  bytesAt [(7, [0xF0]), (roomAddr 3 1024, descBytes (roomAddr 3 4096) 1 [(64 * blocks - 62, 1)]), (roomAddr 3 1152, cliffDesc 4096 (64 * blocks - 62)),
    (roomAddr 3 1280, cliffDesc 8192 (64 * blocks - 62)), (roomAddr 3 4096, natLE 4 0x40000000)]
def estReleasable : State :=
  { ready [(Pd.roomOwner, 3, estWord), (Pd.groupTable, 63, groupWord 3 1 1), (Pd.taskLists, listKey 65 0, headList (roomAddr 3 16384))] with
    heads := [(listKey 65 0, some { record := estRecord, latched := [], taken := [] })]
    chartBase := [(0, some 0)], mem := estBytes 2 }
theorem test_hyp_ReleaseEstuary : estReleasable.settle = estReleasable ∧ estReleasable.unitAccepts 65 = true ∧ recGuards estRecord = 0 ∧ estReleasable.working = true
    ∧ listState (estReleasable.listRec 65 0) = 1 ∧ recSpeculative estRecord = false
    ∧ (match estReleasable.estPrepare (estReleasable.headTask 65 0 estRecord) with
      | .ok _ => true
      | .error _ => false) = true := by decide +kernel
/-- A task of engine 5 that has ended, with this status code and one handover, of room 0 to the Harbour. -/
def endedTask (code : BitVec 16) : Task :=
  { unit := 6, part := 0, position := 1, pass := 3, record := addRecord.zipIdx.map fun e => if e.2 = 6 then 1 else if e.2 = 263 then 0x80 else e.1
    descs := [], code := code }
def ended (code : BitVec 16) : State :=
  { ready [(Pd.roomOwner, 0, engineWord), (Pd.taskLists, listKey 6 0, headList (roomAddr 0 16384))] with finished := [endedTask code] }
theorem test_hyp_Complete : ([St.ok, St.invalidValue].all fun code => let s := ended code; let t := endedTask code
    s.working && s.settle == s && (s.finished.find? fun t => t.unit == 6) == some t && !t.speculative && (isFailure code == (code != St.ok))
      && (match s.unitWrites t.agent (listCompletion (s.listRec 6 0) + 32 * t.position) t.completion with
        | .ok _ => true
        | .error _ => false)
      && (match s.handoverPrecheck t (handoverEntries t.record) with
        | .ok none => true
        | _ => false)) = true := by decide +kernel
def ending : State := { ready [] with endings := [{ task := endedTask St.ok, current := none, left := [], commit := false }] }
theorem test_hyp_Ending : ending.spec = [] ∧ ending.heads = [] ∧ ending.rooms = [] ∧ ending.endings = [{ task := endedTask St.ok, current := none, left := [], commit := false }] := ⟨rfl, rfl, rfl, rfl⟩
/-- Partition 15 with a running list, a counter, and, or not, a room. -/
def partitioned (state : Nat) (room : Bool) : State :=
  ready ([(Pd.taskLists, listKey 65 15, setByteField twoRecords 21 1 1), (Pd.counterState, 131071, counterWord 7 15), (Pd.partitionState, 15, state)]
    ++ if room then [(Pd.roomOwner, 1535, 15 * 2 ^ 48)] else [])
theorem test_hyp_Partitions : (let s := partitioned 0 true
    admits s (ownWrite host Pd.partitionPreempt 0 [15]) = true ∧ admits s (ownWrite host Pd.partitionPreempt 0 [16]) = true
    ∧ admits s (ownWrite host Pd.partitionReset 0 [15]) = true ∧ admits s (ownWrite host Pd.partitionReset 0 [255]) = true
    ∧ s.partTasks 15 = false ∧ s.spec = [] ∧ s.endings = [] ∧ s.heads = [] ∧ s.stow.run = none ∧ s.rooms = [] ∧ Tab.wf 0 s.mem = true ∧ Tab.wf 0 s.pd = true
    ∧ (partitioned 1 true).rd Pd.partitionState 15 = 1 ∧ Tab.wf 0 (partitioned 1 true).pd = true ∧ (partitioned 1 true).partTasks 15 = false) := by decide +kernel
theorem test_hyp_PartitionRooms : wordPartition ((partitioned 0 true).ownerWord 1535) = 15 ∧ (partitioned 0 true).roomFenced 1535 = false
    ∧ wordPartition ((partitioned 0 true).ownerWord 1534) = 0 := by decide +kernel

/-! ### Chapter 12 -/

/-- The module at position 0, its ports 0 and 1 up, to the modules at positions 1 and 2. -/
def linked (l : List (Nat × Nat × Nat)) : State :=
  { ready ([(Pd.tideActive, 0, leNat (defaultTable 1)), (Pd.tideActive + 1, 0, leNat (defaultTable 2)), (Pd.portStatus, 0, 2 + 1 * 65536), (Pd.portStatus, 1, 2 + 256 + 2 * 65536), (Pd.linkMap, 0, 3), (Pd.linkMap, 1, 1), (Pd.linkMap, 2, 1)]
      ++ ((List.range 18).map fun i => (Pd.logicalPorts, i, i)) ++ l) with power := { step := 3, forwarding := true, routed := true } }
/-- A packet with its CRC. -/
def sound (k : Packet) : Packet := { k with crc := packetCrc k }
theorem test_hyp_sound (k : Packet) : (sound k).crc = packetCrc (sound k) := rfl
/-- A packet of a type from position 1 with this payload, the one packet of its transfer, its link number 0. -/
def plain (ptype : BitVec 4) (payload : List Byte) : Packet :=
  { ptype := ptype, vc := BitVec.ofNat 4 (vcOf ptype.toNat 0), dest := 0, src := 1, last := true, signalValid := false, retry := false, detour := false
    hops := 0, role := 0, linkSeq := 0, ack := 0, ackValid := false, nack := false, creditVc := 15, credits := 0
    length := BitVec.ofNat 8 (payload.length - 1), transfer := 0, count := 1, index := 0, address := 0, ownerKind := 0, ownerUnit := 0, sigOp := 0, sigTag := 0
    sigCounter := 0, sigOperand := 0, payload := if hasPayload ptype.toNat then padTo 256 payload else [], crc := 0, fecOk := true }
/-- What `arrives`, `inTurn`, `quiet` and `leadsTo` ask of a sound packet, as a check. -/
def comesIn (s : State) (p x : Nat) (k : Packet) : Bool :=
  s.portOpen p && k.fecOk && !k.nack && k.linkSeq == (s.cport p).rxSeq && s.causeway.held.isEmpty && !k.ackValid
    && (k.dest != 0 || (k.dest.toNat == s.position && (s.incomingOf k.src.toNat).isEmpty && s.ingressMoves k.address.toNat && s.rooms.isEmpty && k.transfer == s.nextFrom k.src.toNat && k.count == 1
      && k.index == 0 && s.isReady && s.endings.isEmpty && s.spec.isEmpty && s.heads.isEmpty
      && (match s.route k.src.toNat with
        | some r => s.portTowards (r.firstHop k.src.toNat) == some x
        | none => false)))
theorem test_hyp_LinkLayer : (let s := linked []; let k := sound (plain 11 [])
    s.portOpen 0 = true ∧ k.fecOk = true ∧ k.nack = false ∧ s.causeway.held = [] ∧ k.ptype = 11 ∧ k.linkSeq = (s.cport 0).rxSeq
    ∧ k.ackValid = false) := by decide +kernel
theorem test_hyp_BadCrc : (plain 11 []).crc ≠ packetCrc (plain 11 []) := by decide +kernel
/-- A WRITE of two bytes to the start of the Cliffs, the ADD of a SIGNAL, a READ, a SNOOP and its answer, a MIRROR line. -/
def writePkt : Packet := sound (plain 1 [0x12, 0x34])
def signalPkt : Packet := sound { plain 4 [] with signalValid := true, sigOp := 1, sigCounter := 131071, sigOperand := 5 }
def readPkt : Packet := sound { plain 2 [] with length := 63 }
def snoopPkt (answered : Byte) : Packet := sound { plain 7 (answered :: List.replicate 63 0) with address := 64 }
def mirrorPkt : Packet := sound (plain 8 (List.replicate 64 7))
theorem test_hyp_WriteDelivered : (let s := linked []
    comesIn s 0 0 writePkt && writePkt.ptype == 1 && s.stowMayWrite 1 0 2
      && (match (received s 0 writePkt).dpaTargets (packetAgent writePkt) false 0 (enableAll (packetBytes writePkt)) with
        | .ok l => l.length == 2
        | .error _ => false)) = true := by decide +kernel
theorem test_hyp_SignalDelivered : (let s := linked [(Pd.counterState, 131071, counterWord 3 0)]
    comesIn s 0 0 signalPkt && !s.ctrHeld 131071 && ctrState (s.ctr 131071) == 1 && !s.ctrFenced 131071) = true := by decide +kernel
theorem test_hyp_ReadDelivered : (let s := linked []; let u := received s 0 readPkt
    comesIn s 0 0 readPkt && (match (u.dpaRead (packetAgent readPkt) false 0 64).2 with
      | some (c, l) => c == St.ok && l.length == 64
      | none => false)) = true ∧ fromHost readPkt = false := by decide +kernel
theorem test_hyp_SnoopDelivered : (let s := linked [(Pd.linkState, 0, 2)]
    comesIn s 0 0 (snoopPkt 0) && comesIn s 0 0 (snoopPkt 1) && comesIn s 0 0 mirrorPkt && s.isGate && s.host.snoopWaits.isEmpty && s.host.ctrWaits.isEmpty && s.causeway.incoming.isEmpty) = true := by decide +kernel
/-- A WRITE from position 1 to position 2, whose own link is down. -/
def transitPkt : Packet := sound { plain 1 [0x12] with dest := 2 }
theorem test_hyp_InTransit : (let s := linked []
    comesIn s 0 0 transitPkt && transitPkt.dest.toNat != s.position && s.power.routed && s.portState 1 == 2
      && ((s.nextOnPath 1 2).bind fun q => logicalPort s.position q).bind s.physicalOf == some 1) = true := by decide +kernel
/-- LINK_STATE of position q at a version. -/
def linkStatePkt (q version : Nat) : Packet := sound (plain 10 (natLE 4 5 ++ natLE 4 q ++ natLE 8 version ++ natLE 4 0))
theorem test_hyp_LinkState : (let s := linked []
    comesIn s 0 0 (linkStatePkt 63 1) = true ∧ comesIn s 0 0 (linkStatePkt 64 1) = true ∧ comesIn s 0 0 (linkStatePkt 63 0) = true ∧ s.causeway.unacked = []
    ∧ listField (linkStatePkt 63 1).payload 4 4 = 63 ∧ listField (linkStatePkt 63 1).payload 8 8 = 1 ∧ listField (linkStatePkt 63 1).payload 16 4 = 0
    ∧ listField (linkStatePkt 63 1).payload 20 4 = 0) := by
  decide +kernel
/-- A transfer to position 1 that was sent n times, of this purpose. -/
def sentTransfer (purpose : TransferFor) (n : Nat) : Transfer :=
  { id := 0, purpose := purpose, packets := [{ plain 1 [7] with dest := 1, src := 0 }], sendings := n, path := [1], detour := false }
def awaiting (purpose : TransferFor) (n : Nat) : State := { linked [] with causeway := { unacked := [(1, [sentTransfer purpose n])] } }
def ackPkt (code : BitVec 16) : Packet := sound (plain 9 (natLE 2 code.toNat ++ [0, 0]))
def response : Packet := sound (plain 3 (List.replicate 64 9))
def readWindow : WindowReq := { window := .cliff, id := 4, offset := 0, size := 64, write := false, data := List.replicate 64 none, target := 1, local_ := false }
theorem test_hyp_TransfersEnd : ([ackPkt St.ok, ackPkt St.residue].all fun k => let s := awaiting .signal 3
      comesIn s 0 0 k && s.unacked 1 == [sentTransfer .signal 3] && k.ptype == 9 && listField k.payload 0 2 < 65536) = true
    ∧ BitVec.ofNat 16 (listField (ackPkt St.ok).payload 0 2) = St.ok ∧ BitVec.ofNat 16 (listField (ackPkt St.residue).payload 0 2) = St.residue
    ∧ (awaiting .signal 4).unacked 1 = [sentTransfer .signal 4] := by decide +kernel
theorem test_hyp_ReadResponse : (let s := { awaiting (.window 4) 1 with host := { windows := [readWindow] } }
    comesIn s 0 0 response && response.ptype == 3 && s.host.windows == [readWindow] && readWindow.target == response.src.toNat
      && readWindow.data.length == (packetBytes response).length && s.unacked 1 == [sentTransfer (.window 4) 1]) = true := by decide +kernel
/-- Port 0 with a packet in channel 9 and one packet not yet acknowledged; and with an acknowledgement owed. -/
def queued : Packet := sound { plain 4 [] with dest := 1, src := 0, vc := 9 }
def withPort (x : CausewayPort) : State := { linked [] with causeway := { ports := [(0, x)] } }
def transmits : CausewayPort := { queues := [(9, [queued])], retry := [(queued, 7)], txSeq := 1 }
theorem test_hyp_Transmit : (withPort transmits).portOpen 0 = true ∧ transmits.nextVc = some 9 ∧ tget [] transmits.queues 9 = queued :: [] ∧ queued.vc.toNat = 9
    ∧ transmits.retry.length < 512 ∧ (transmits.retry.all fun y => decide (y.2 < 8)) = true
    ∧ (withPort { ackOwed := true }).portOpen 0 = true ∧ ({ ackOwed := true } : CausewayPort).nextVc = none
    ∧ ({ ackOwed := true } : CausewayPort).hasCredit 15 = true := by decide +kernel
theorem test_hyp_Lanes : ([0, 1, 0b11].all fun failed => let s := { linked [(Pd.portStatus, 18, 5)] with causeway := { ports := [(0, { txFailed := BitVec.ofNat 9 failed })] } }
    s.portState 0 == 2 && !((s.cport 0).txFailed).getLsbD 8 && s.freeSpare == some 18 && s.portLogical 0 < 18 && s.isReady
      && byteField (s.rd Pd.spareRequests 0) 0 1 == 0 && (popCount 9 ((s.cport 0).txFailed ||| BitVec.ofNat 9 (2 ^ 8)).toNat ≤ 2 || failed == 0b11)) = true := by
  decide +kernel
theorem test_hyp_LaneLimits : (linked []).laneLimit .reported = true ∧ (linked []).laneLimit (.signalLoss 1001) = true
    ∧ (linked []).laneLimit (.signalLoss 1000) = false ∧ (linked []).laneLimit (.uncorrectable 0) = false ∧ (linked []).laneLimit (.errorRatio 0) = false := by
  decide +kernel
theorem test_hyp_PortSignal : (linked []).portState 0 = 2 ∧ (linked [(Pd.portStatus, 19, 3)]).portState 19 = 3 ∧ (linked []).portState 19 = 0
    ∧ (linked [(Pd.portStatus, 19, 3)]).islandFenced 95 = false ∧ (linked [(Pd.portStatus, 19, 3)]).islandFenced 115 = false := by decide +kernel
/-- The management path as a sender. -/
def manager : Origin := { path := .management 1 9 true 255, seq := 1 }
/-- Request 1 asks for spare port 19 for logical port 17, its neighbour position 48, whose module's serial number is 3; the spare in a state. -/
def spared (state : Nat) : State :=
  { linked [(Pd.portStatus, 17, 4 + 17 * 256 + 48 * 65536), (Pd.portStatus, 19, state), (Pd.spareRequests, 1, 1 + 17 * 256 + 48 * 65536 + 19 * 2 ^ 24)] with
    causeway := { ports := [(17, { partner := 3 })] } }
theorem test_hyp_Spares : admits (spared 5) (ownWrite manager Pd.spareConnect 0 [19]) = true ∧ (spared 5).requestFor 19 = some 1
    ∧ admits (spared 5) (ownWrite manager Pd.spareConnect 0 [18]) = true ∧ (spared 5).requestFor 18 = none ∧ (spared 1).requestFor 19 = some 1
    ∧ (spared 1).portState 19 = 1 ∧ (spared 1).islandFenced 95 = false ∧ ((spared 1).cport ((spared 1).failedPortTo 48)).partner = 3 ∧ (spared 5).portState 19 = 5 ∧ byteField ((spared 5).rd Pd.spareRequests 1) 0 1 = 1
    ∧ byteField ((spared 5).rd Pd.spareRequests 1) 3 1 = 19 := by decide +kernel

/-! ### Chapter 13 -/

/-- The group's descriptors: its accumulation tensor and its results, of this many blocks,
two elements in the last. -/
def places (blocks : Nat) : EstGroup :=
  { part := 0, descs := [parseDesc (cliffDesc 4096 (64 * blocks - 62)), parseDesc (cliffDesc 8192 (64 * blocks - 62)), parseDesc (cliffDesc 8192 (64 * blocks - 62))] }
/-- The group 63 of positions 0 to 2, of this many blocks, with its descriptors. -/
def grouped (op steps blocks : Nat) (sums : List BlockSum) (tasks : List EstTask) : State :=
  { linked [(Pd.roomOwner, 3, estWord), (Pd.groupTable, 63, groupWord 7 op steps)] with
    chartBase := [(0, some 0)], mem := estBytes blocks
    estuary := { sums := sums, tasks := tasks
                 groups := [(63, places blocks)] } }
/-- A message for a block of its reduction 0, of the member at position 1; its packet h; and the module once its first half is here. -/
def message (kind block : Nat) : EstMsg :=
  { kind := kind, group := 63, reduction := 0, block := block, ranks := 2, maxExp := 5, tag := 0x1234, lanes := if kind < 3 then List.replicate 64 (if kind = 2 then 0x40000000 else -3) else [] }
def half (m : EstMsg) (h : Nat) : Packet := { plain 6 (estPayload m h) with count := if m.kind < 3 then 2 else 1, index := BitVec.ofNat 16 h }
def messagePkt (m : EstMsg) (h : Nat) : Packet := sound (half m h)
def firstHalf (s : State) (m : EstMsg) : State :=
  { s with causeway := { s.causeway with incoming := [(1, [{ id := 0, seen := [0], count := 2, signal := none, done := false, status := 0, parts := [half m 0] }])] } }
/-- What `completesMessage` asks, of a message of two packets at a module that has the first, or of one packet. -/
def completes (s : State) (k : Packet) (m : EstMsg) : Bool :=
  k.ptype == 6 && k.dest.toNat == s.position && s.isReady && !s.islandFenced 94 && k.transfer == s.nextFrom 1 && listField k.payload 192 1 == m.kind
    && !s.msgStale m && !(s.estGroup m.group).descs.isEmpty && decide (s.slotsInUse < 32768)
    && (if m.kind < 3 then decide (s.incomingOf 1 = (firstHalf s m).incomingOf 1) && estParse ([half m 0, k].map (·.payload)) == some m && k.count.toNat == 2
        else (s.incomingOf 1).isEmpty && estParse [k.payload] == some m && k.count == 1)
theorem test_hyp_GroupTable : (let s := grouped 1 1 3 [] []; let w := natLE 128 (groupWord 7 1 1)
    admits s (ownWrite host Pd.groupTable (128 * 63) w) = true ∧ w.length = 128 ∧ s.groupOk (leNat w) = true ∧ s.groupBusy 63 = false
    ∧ admits s (ownWrite host Pd.groupTable (128 * 63) (natLE 128 6)) = true ∧ s.groupOk 6 = false
    ∧ (grouped 1 1 3 [] [{ task := matTask, group := 63, step := 0, sent := false, place := {} }]).groupBusy 63 = true) := by decide +kernel
/-- The owner's sum of block 0, with this module's own values. -/
def ownSum (owner : Bool) (block : Nat) : BlockSum :=
  { group := 63, reduction := 0, block := block, owner := owner, attempt := 0, raises := 0, fp32 := false, lanes := List.replicate 64 (2 ^ 38), ranks := 1, maxExp := 4, input := true }
theorem test_hyp_Partial : (let m := message 1 0; let k := messagePkt m 1; let s := firstHalf (grouped 1 1 3 [ownSum true 0] []) m
    comesIn s 0 0 { k with dest := 1 } && completes s k m && blockOwner s 63 0 == s.position && grpReplay (s.groupRec 63) == 0
      && s.blockSum 63 0 0 true == some (ownSum true 0) && m.ranks &&& 1 == 0 && (((ownSum true 0).lanes.zip m.lanes).all fun e => decide ((e.1 + e.2).natAbs ≤ 2 ^ 38))
      && (1 ||| m.ranks) &&& grpWanted (s.groupRec 63) != grpWanted (s.groupRec 63)) = true := by decide +kernel
theorem test_hyp_Headers : ([2, 3].all fun kind => let m := message kind 2; let k := messagePkt m (3 - kind); let s := (if kind = 2 then firstHalf (grouped 1 1 3 [] []) m else grouped 1 1 3 [] [])
    comesIn s 0 0 { k with dest := 1 } && completes s k m && blockOwner s 63 2 != s.position && resultTargets (s.groupRec 63) (blockOwner s 63 2) s.position == []
      && s.placesFor 63 0 == some (s.estGroup 63) && !(s.reduction 63 0).final && (s.reduction 63 0).headers.isEmpty && decide (1 < groupBlocks s 63)
      && (match (received s 0 k).writeResult (s.estGroup 63) 63 0 2 (m.lanes.map fun v => BitVec.ofInt 32 v) with
        | .ok _ => true
        | .error _ => false)) = true := by decide +kernel
theorem test_hyp_Raise : (let m := message 4 1; let k := messagePkt m 0; let s := grouped 1 1 3 [] []; let a := estAgent 0
    comesIn s 0 0 { k with dest := 1 } && completes s k m && s.placesFor 63 0 == some (s.estGroup 63) && !(s.reduction 63 0).final && (s.blockSum 63 0 1 false).isNone && (s.estSent 63 0).isNone
      && (match (received s 0 k).scaleEntry a (s.groupRec 63) 1 with
        | .ok sc => (match (received s 0 k).setScaleEntry a (s.groupRec 63) 1 (withCarriage sc 0 false) with
          | .ok _ => true
          | .error _ => false)
        | .error _ => false)) = true := by decide +kernel
/-- A task of the group, with its own tensor of so many blocks. -/
def estTask (blocks : Nat) (sent : Bool) : EstTask :=
  { task := { unit := 65, part := 0, position := 0, pass := 0, record := estRecord, descs := [parseDesc (descBytes (roomAddr 3 4096) 1 [(64 * blocks - 62, 1)])] }
    group := 63, step := 0, sent := sent, place := places blocks }
theorem test_hyp_EstuaryCarries : (let e := estTask 1 false; let s := grouped 1 2 1 [] [e]
    s.working && !s.islandFenced 94 && s.estuary.tasks == [e] && !(s.estGroup 63).descs.isEmpty && decide (e.step % 2 + 1 < 2) && grpSteps (s.groupRec 63) == 2
      && (match State.carryBlocks e e.place (List.range (groupBlocks s 63)) s with
        | .ok _ => true
        | .error _ => false)) = true := by decide +kernel
theorem test_hyp_EstuarySends : (let e := estTask 1 false; let s := grouped 1 1 1 [] [e]
    s.working && !s.islandFenced 94 && s.estuary.tasks == [e] && groupBlocks s 63 == 1 && grpSteps (s.groupRec 63) == 1 && grpOp (s.groupRec 63) == 1 && (s.reduction 63 0).headers.isEmpty
      && (match (({ s with estuary := { s.estuary with tasks := [{ e with sent := true }] } } : State).setReduction 63 0 { s.reduction 63 0 with unsent := [0] }).sendBlock
            { e with sent := true } 0 e.place 0 with
        | .ok (_, l) => l.isEmpty
        | .error _ => false)) = true := by decide +kernel
theorem test_hyp_Deadlines : (let s := grouped 1 1 3 [ownSum false 2] []; let t := grouped 1 1 3 [ownSum true 0] []
    (s.estuary.sums.find? fun x => x.group == 63 && x.block == 2 && !x.owner && x.input && !x.closed) = some (ownSum false 2)
    ∧ blockOwner s 63 2 ≠ s.position ∧ s.route (blockOwner s 63 2) ≠ none ∧ (s.estGroup 63).descs ≠ []
    ∧ (t.estuary.sums.find? fun x => x.group == 63 && x.block == 0 && x.owner && !x.closed) = some (ownSum true 0) ∧ grpMembers (t.groupRec 63) ≠ 0
    ∧ t.placesFor 63 0 = some (t.estGroup 63) ∧ blockOwner t 63 0 = t.position ∧ (t.groupReds 63).all (fun e => !e.2.final) = true ∧ (t.reduction 63 0).headers.length + 1 < groupBlocks t 63
    ∧ resultTargets (t.groupRec 63) t.position t.position = [1, 2] ∧ t.route 1 ≠ none) := by decide +kernel
theorem test_hyp_GatherExpires : (let e := estTask 1 true; let s := grouped 3 1 1 [] [e]
    (s.estuary.tasks.find? fun e => e.group == 63 && e.sent) = some e ∧ (s.estGroup 63).descs ≠ [] ∧ grpOp (s.groupRec 63) = 3
    ∧ (s.reduction 63 0).final = false ∧ (s.reduction 63 0).unsent = [] ∧ (s.reduction 63 0).headers = []) := by decide +kernel

/-! ### Chapter 14 -/

/-- The record of a sequencer of one stage: 2 micro-batches, gate counters from 100 on, DONE 200, scaling between 0 and 20 with GROWTH_INTERVAL 2, step
word at 4,096, vote at 8,192, result at 12,288, loss at 16,384; AGREE group, state, phase, scale, clean steps. -/
def stageWord (agree state phase scale clean : Nat) : Nat :=
  leNat (record 128 [(0, 1), (2, 2), (4, 100), (8, 200), (12, 1), (13, 1), (14, 1), (15, 1), (16, 1), (18, 1), (20, 1), (22, 1), (24, 1), (25, agree), (27, 20), (28, 2),
    (32, 4096), (40, 8192), (48, 12288), (56, 16384), (64, 2 ^ 63), (72, 9), (76, scale), (77, state), (78, phase), (80, clean)])
/-- Partition 15's sequencer with this record, its gate counters at 3 and DONE at 5; its stage; its last agreement's values of elements 0 and 1. -/
def staged (w : Nat) (x : Stage) (agreed : List Nat := []) : State :=
  { ready ((Pd.stageTable, 15, w) :: (Pd.groupTable, 63, groupWord 1 1 1) :: ((200 :: (List.range 6).map (100 + ·)).map fun c => (Pd.counterState, c, counterWord (if c = 200 then 5 else 3) 15))) with
    stages := [(15, x)], mem := bytesAt [(12288, agreed.flatMap (natLE 4)), (16384, natLE 4 0x3F000000)] }
/-- What `gatesWork` asks. -/
def gates (s : State) (p k : Nat) : Bool :=
  let w := s.stageRec p
  let c := stgBase w + k - 1
  decide (p < 16) && decide (c < 131072) && c != stgDone w && !s.ctrHeld c && !s.ctrHeld (stgDone w) && !s.ctrFenced c && ctrState (s.ctr c) == 1
    && (List.range 16).all fun i => (stageCounters (s.stageRec i)).all fun c => ctrState (s.ctr c) != 3
theorem test_hyp_StageStart : (let s := staged (stageWord 0xFF 3 1 7 0) {}; let w := s.stageRec 15
    admits s (ownWrite host Pd.stageControl 0 [15, 1]) && stageState w == 3 && stageOk w && s.rangeUsable 4096 16
      && (stageCounters w).all (fun c => !s.ctrFenced c && !s.ctrHeld c) && (List.range 6).all (fun k => stgDone w != stgBase w + k) && gates s 15 1
      && !stageOk ((ready []).stageRec 15) && admits (ready []) (ownWrite host Pd.stageControl 0 [15, 1])
      && admits (staged (stageWord 0xFF 1 1 7 0) {}) (ownWrite host Pd.stageControl 0 [15, 2])) = true := by decide +kernel
theorem test_hyp_Phases : ([(1, 1), (1, 3), (1, 4), (4, 2)].all fun e => let s := staged (stageWord 0xFF e.1 e.2 7 0) {}; let w := s.stageRec 15
    stageState w == e.1 && stagePhase w == e.2 && decide (e.2 ≤ 2 * stgMicro w) && s.phaseReady 15 e.2 && (s.stage 15).stowTarget.isNone
      && gates s 15 (e.2 + 1)) = true := by decide +kernel
/-- Elements 0 and 1 of an agreement: no overflow, or overflow; and one that does not agree. -/
theorem test_hyp_Settles : ([(0xFF, 4, ({ waiting := true, estuaryDone := 1, overflow := true } : Stage)), (63, 4, { waiting := true, estuaryDone := 1 }), (63, 5, {}),
      (63, 6, { clearing := true })].all fun e => [0, 1].all fun clean => let s := staged (stageWord e.1 1 e.2.1 20 clean) e.2.2 [0, 0x3F800000]; let w := s.stageRec 15
    stageState w == 1 && s.rangeUsable (stgWord w) 16 && s.rangeUsable (stgVote w) 256 && decide (stgClean w < 65535) && gates s 15 5 && gates s 15 6
      && decide (stgEstuary w ≤ 1) && s.phaseReady 15 5 && (maskGroups (stgGroups w)).all (fun g => !s.groupBusy g)) = true := by decide +kernel
theorem test_hyp_Votes : ([([0x3F800000, 0], true), ([0x3F800000, 0x40000000], true), ([0, 0], false)].all fun e =>
    ((staged (stageWord 63 1 5 7 0) {} e.1).voteFault (stageWord 63 1 5 7 0)).isNone == e.2) = true := by decide +kernel
theorem test_hyp_StepEnds : ([1, 4].all fun state => let s := staged (stageWord 63 state 6 7 0) {}; let w := s.stageRec 15
    stagePhase w == 6 && s.phaseReady 15 6 && s.rangeUsable (stgWord w) 16 && (List.range 16).all (fun i => (s.stage i).stowTarget.isNone)
      && s.stow.held.isEmpty && cfgRepeat (s.stowCfg 15) == 0 && byteField (s.rd Pd.replayCheck 15) 2 1 != 1 && gates s 15 1) = true := by decide +kernel

/-! ### Chapter 15 -/

/-- A Landfall run in a phase, with what it keeps; every island locked, all engines passed, 1,024 columns wide. -/
def landing (ph : Nat) (x : Landfall) (l : List (Nat × Nat × Nat) := []) : State :=
  { pd := store ((Pd.islandLocked, 0, 2 ^ 116 - 1) :: (Pd.width, 0, 1024) :: l), power := { step := 3, forwarding := true }, landfall := x, time := 5000
    ops := [(1, { state := 2, phase := ph, run := 1, slots := 7981 })] }
theorem test_hyp_LandfallStart : ([0, 1, 2].all fun mode => let q := ownWrite host Pd.landfallStart 0 (natLE 1 mode)
    admits (ready []) q && (ready []).power.step != 1 && !(ready []).landfall.startPending && !(ready []).opBusy 1
      && admits (ready [(Pd.powerState, 0, 3)]) q && !(ready [(Pd.powerState, 0, 3)]).opBusy 1
      && admits (landing 2 {} [(Pd.ready, 0, 1)]) q && (landing 2 {}).opBusy 1) = true := by decide +kernel
theorem test_hyp_Wiping : (landing 0 {}).inPhase 0 = true ∧ (landing 0 {}).reg Pd.lifeCycle ≠ 4 ∧ (landing 1 { kind := 1 }).inPhase 1 = true
    ∧ (landing 1 { kind := 1 }).islandFenced 1 = false ∧ (landing 1 { kind := 1 }).wanting false = false ∧ (landing 1 {} [(Pd.cliffsFenced, 0, 1)]).wanting false = true := by
  decide +kernel
/-- Before the last stratum of the last Cliff, with no failed stratum there, two or three of them failed before. -/
def training (failed : Nat) : State := landing 3 { failedStrata := [(19, failed)], strata := 5118 } [(Pd.portStatus, 17, 1)]
theorem test_hyp_Training : ([0, 1, 2].all fun failed => let s := training failed
    s.inPhase 3 && (tget none (s.op 1).results (256 * 19 + 255)).isNone && (s.op 1).slots == 7981 && s.landfall.strata + 1 != 5120
      && !s.islandFenced 93 && !s.cliffFenced 19 && tget 0 s.landfall.failedStrata 19 == failed) = true
    ∧ tget none (training 0).landfall.outcomes 17 = none ∧ (training 0).landfall.portsDone + 1 ≠ 18 ∧ (training 0).islandFenced 113 = false ∧ (training 0).islandFenced 95 = false
    ∧ (training 0).portState 17 = 1 ∧ (maskLanes 0).length = 0 ∧ (maskLanes 0b111).length = 3 := by decide +kernel
theorem test_hyp_L4 : (let s := landing 4 { tests := 2638 }
    s.inPhase 4 = true ∧ (s.op 1).slots = 7981 ∧ s.landfall.tests + 1 < 2640 ∧ tget none (s.op 1).results (6340 + 1535) = none
    ∧ tget none (s.op 1).results (7876 + 63) = none ∧ (s.engine 63).running = none ∧ tget 0 s.landfall.columns 1039 = 0
    ∧ s.landfall.columns.length + 1 < 1040) := by decide +kernel
/-- Port 17 found the partner the chart names, port 16 another module, port 15 none where none is expected. -/
def charting : State :=
  landing 5 { outcomes := [(16, some (.trained 9 5 2 0 true)), (17, some (.trained 77 48 17 0 true))] }
    [(Pd.expectedChart, 48, 77), (Pd.expectedChart, 0, leNat (List.replicate 32 0 ++ (List.range 18).flatMap fun p =>
      if p = 17 then [48, 17] else if p = 16 then [6, 2] else [0xFF, 0xFF]))]
theorem test_hyp_Topology : charting.inPhase 5 = true ∧ charting.judge 15 .absent true = charting.judge 15 .absent false
    ∧ charting.judge 15 .absent true = St.ok ∧ charting.judge 16 (.trained 9 5 2 0 true) true = St.topology
    ∧ charting.judge 17 (.trained 77 48 17 0 true) true = St.ok
    ∧ (landing 6 { kind := 1 }).inPhase 6 = true ∧ (landing 6 { kind := 1 }).wanting true = false
    ∧ (landing 6 {} [(Pd.width, 0, 959)]).wanting true = true := by decide +kernel
/-- The first units of each kind, or the last. -/
theorem test_hyp_SelfTests : (([(1, 0, 0), (2, 63, 1), (3, 1535, 1), (4, 5119, 1), (5, 0, 1536), (6, 17, 1)] : List (Nat × Nat × Nat)).all fun e =>
    let s := ready []; let x : SelfTest := { kind := e.1, first := e.2.1, count := e.2.2, started := [], failed := false }
    admits s (ownWrite host Pd.selfTestStart 0 (natLE 2 e.1 ++ natLE 2 e.2.1 ++ natLE 2 e.2.2 ++ [0, 0])) && testArgOk e.1 e.2.1 e.2.2 && !s.opBusy 2 && s.isReady
      && !s.testFenced x 0 && s.testTargetIdle x 0 && !testArgOk e.1 6000 6000 == (e.1 != 1)) = true := by decide +kernel
theorem test_hyp_SelfTestFences : (let s := ready []; (List.range 3).all fun k => !s.testFenced { kind := 3, first := 0, count := 3, started := [], failed := false } k) = true := by
  decide +kernel
/-- A test of the rooms 7 and 8, the first under way. -/
def testing : State :=
  { ready [] with selfTest := some { kind := 3, first := 7, count := 2, started := [0], failed := false }, ops := [(2, { state := 2, run := 1, slots := 2 })] }
theorem test_hyp_SelfTestEnds : testing.selfTest = some { kind := 3, first := 7, count := 2, started := [0], failed := false } ∧ 0 < (testing.op 2).slots
    ∧ tget none (testing.op 2).results 0 = none ∧ (testing.op 2).filled + 1 ≠ 2
    ∧ (testing.testsToStart { kind := 3, first := 7, count := 2, started := [0], failed := false }) = [1] := by decide +kernel

/-! ### Chapter 16 -/

/-- A level to be kept 99 updates after it was last reached, and a supply event scored as `supply`. -/
def sea (level supply : Nat) (l : List (Nat × Nat × Nat) := []) : State :=
  { ready ((Pd.seaState, 0, level) :: (Pd.supplyFlags, 0, bit01 (supply != 0)) :: (Pd.supplyLevel, 0, supply) :: l) with health := { below := 99 } }
theorem test_hyp_SeaState : 3 ≤ (sea 9 0).power.step ∧ ({} : State).power.step < 3 ∧ (sea 9 0).strand.queue.length < 256
    ∧ (∀ p, p < 16 → (sea 9 0).autoPart p = false ∧ ((sea 9 0).stage p).stowTarget = none) := by decide +kernel
/-- Partition 15's configuration: one region of 256 bytes at 65,536, its table at 20,480, slots of 16 KiB at positions 1 and 2 or none, a host copy
or none; automatic. -/
def stowWord (partners : Bool) (host : Nat) : Nat :=
  leNat (record 128 [(0, 1 + 2 * host), (4, if partners then 1 else 0xFF), (5, if partners then 2 else 0xFF), (6, 0xFF), (7, 0xFF), (24, 20480), (32, 1),
    (72, if partners then 16384 else 0), (80, 0), (88, 16384 * host)])
/-- The module with it, its sequencer in a state. -/
def stowing (partners : Bool) (host state : Nat) : State :=
  { ready [(Pd.stowConfig, 15, stowWord partners host), (Pd.stageTable, 15, stageWord 0xFF state 1 7 0)] with
    mem := bytesAt [(20480, natLE 8 65536 ++ natLE 8 256), (65536, [5])] }
theorem test_hyp_Auto : (let s := { sea 4 5 with pd := store [(Pd.ready, 0, 1), (Pd.seaState, 0, 4), (Pd.supplyFlags, 0, 1), (Pd.supplyLevel, 0, 5),
      (Pd.stowConfig, 15, stowWord true 1), (Pd.stageTable, 15, stageWord 0xFF 1 1 7 0)], mem := (stowing true 1 1).mem }
    s.autoPart 15 = true ∧ s.opActive 3 = false ∧ (s.stage 15).stowTarget = none ∧ s.reg Pd.seaState < 5) := by decide +kernel
theorem test_hyp_StowAsked : (let s := stowing true 0 1; let q := ownWrite host Pd.stowRequest 0 (natLE 4 10)
    admits s q = true ∧ s.autoPart 15 = true ∧ s.opActive 3 = false ∧ admits (ready []) q = true
    ∧ (∀ p, p < 16 → (ready []).autoPart p = false ∧ ((ready []).stage p).stowTarget = none)) := by decide +kernel
theorem test_hyp_StowStart : ([1, 3].all fun state => let s := stowing true 1 state; let q := fun (mask when : Nat) => ownWrite host Pd.stowStart 0 (natLE 2 mask ++ [BitVec.ofNat 8 when, 0] ++ natLE 4 0)
    admits s (q 0x8000 1) && s.stowable 15 && !s.opBusy 3 && !s.opActive 4 && stageState (s.stageRec 15) == state
      && admits s (q 0 0) && admits s (q 0x8000 2) && !s.stowable 14 && admits s (q 0x4000 0)
      && ({ s with ops := [(3, { state := 2 })] } : State).opBusy 3 && ({ s with ops := [(4, { state := 2 })] } : State).opActive 4) = true := by decide +kernel
/-- An image of partition 15 on its way to a partner on another feed, or the same, or to none; and to the host. -/
def image (partner : Option (Nat × Nat)) (sameFeed toHost : Bool) : StowImage :=
  { part := 15, step := 9, phase := 0, number := 3, started := 100, bytes := 8960, crcs := [0], header := [], held := false, partner := partner, feed := 1
    sameFeed := sameFeed, slot := 0, hostSlot := 0, toHost := toHost }
def imaging (i : StowImage) : State :=
  { stowing false 0 0 with stow := { run := some { parts := [(15, 9)], images := [i] } }, ops := [(3, { state := 2, run := 1, slots := 1 })], time := 900 }
theorem test_hyp_Images : ([none, some (0, 1)].all fun partner => [true, false].all fun b => let i := image partner b true; let s := imaging i
    s.imageOf 15 == some i && i.ended.isNone && (s.imageOf 14).isNone && i.restarted == false && s.stow.run == some { parts := [(15, 9)], images := [i] }
      && (List.range 16).all fun p => (s.stage p).stowTarget.isNone) = true := by decide +kernel
theorem test_hyp_ImageEndsAlone : (let i := image (some (0, 1)) false false; let s := imaging i
    (s.choosePartner (s.stowCfg 15) (i.tried ++ (i.partner.map fun e => e.1).toList)).2.1 = none) := by decide +kernel
theorem test_hyp_RestoreStart : (let s := stowing true 1 3; let q := fun (p : Nat) => ownWrite host Pd.restoreStart 0 ([BitVec.ofNat 8 p, 1, 1, 1] ++ natLE 4 7)
    admits s (q 15) = true ∧ admits s (q 16) = true ∧ s.opBusy 4 = false ∧ s.opActive 3 = false ∧ stageState (s.stageRec 15) = 3 ∧ s.listsStill 15 = true
    ∧ maskGroups (cfgGroups (s.stowCfg 15)) = [] ∧ stageState ((stowing true 1 1).stageRec 15) = 1
    ∧ admits { s with ops := [(4, { unread := true, state := 3 })] } (q 15) = true ∧ ({ s with ops := [(4, { unread := true, state := 3 })] } : State).opBusy 4 = true) := by decide +kernel
/-- The image of partition 15 of this module: its header, complete, of step 42 and loss 0.5 (its CRC from another program), its region list, its
region's bytes 7 and 9 at its ends; then its check value. -/
def imageBytes (check : List (Nat × Byte)) : Tab Byte :=
  [(0, 0x53), (1, 0x54), (2, 0x4F), (3, 0x57), (4, 0x01), (5, 0x0F), (7, 0x01), (8, 0x03), (16, 0x2A), (31, 0x3F), (32, 0x2A), (204, 0x01),
    (209, 0x23), (4092, 0x5D), (4093, 0x21), (4094, 0x9B), (4095, 0xB2), (8194, 0x01), (8201, 0x01), (8448, 0x07), (8703, 0x09)] ++ check
def goodCheck : List (Nat × Byte) := [(8704, 0x08), (8705, 0x78), (8706, 0x3E), (8707, 0x8C)]
def restored (check : List (Nat × Byte)) : RestoreRun :=
  { part := 15, source := 1, other := false, force := none, cand := 4, chosen := some 0, bytes := imageBytes check }
def restoring (r : RestoreRun) : State :=
  { stowing true 1 3 with stow := { restore := some r }, ops := [(4, { state := 2, run := 1, slots := 1 })] }
theorem test_hyp_RestoreReads : (let r := { restored [] with chosen := none, lines := [(5, 12288), (6, 12352)] }
    r.lines.find? (fun e => e.1 == 6) = some (6, 12352) ∧ r.lines.erase (6, 12352) ≠ [] ∧ ({ r with lines := [(5, 12288)] } : RestoreRun).pick = some 0
    ∧ ({ r with bytes := [] } : RestoreRun).pick = none) := by decide +kernel
theorem test_hyp_RestoreFails : (restoring { restored [] with bytes := [] }).restoreFault { restored [] with bytes := [] } = some St.stowIncomplete := by decide +kernel
theorem test_hyp_Restored : (let r := restored goodCheck; let s := restoring r
    s.restoreFault r = none ∧ (s.imageParts r 0).regions = [(65536, 256)] ∧ (s.imageParts r 0).groups = [] ∧ (s.imageParts r 0).counters = []) := by decide +kernel
theorem test_hyp_RestoredBlocks : ((restored goodCheck).blocks 0).all (fun b => b.2) = true ∧ ((restored []).blocks 0).any (fun b => !b.2) = true := by
  decide +kernel

/-! ### Chapter 17 -/

/-- An occurrence of a failed task; an entry with a number; a signed write under the challenge. -/
def happening : Occurrence := { trigger := 1, code := St.misuse, unitKind := 8, unit := 3, detail := [1, 2], time := 44 }
def entryOf (n : Nat) : Entry :=
  { number := n, time := 44, run := 1, trigger := 1, permanent := decide (n < 1024), warningFlush := false, incomplete := false, code := St.misuse, unitKind := 8, seaState := 0
    lifeCycle := 1, unit := 3, detail := [], watch := [], watchCrc := 0 }
def signed : Auth := .signed 7 true
/-- The state with a Strandline, CHALLENGE 7 and an officer's key. -/
def stranded (x : Strand) : State := { ready [(Pd.soKey, 0, 1), (Pd.lifeCycle, 0, 1)] with strand := x, security := { challenge := 7 } }
theorem test_hyp_Entries : ([0, 3].all fun dropped => let s := stranded { queue := [happening], dropped := dropped, next := 1023, reserved := 1023 }
    s.strand.queue == [happening] && s.reg Pd.islandFenced == 0 && s.host.logs.length == 4 && decide ((s.host.logs.getD 2 {}).records.length < 64)) = true
    ∧ (stranded {}).strand.queue = [] := by decide +kernel
/-- Entry 9,216 waits, with the slot of entry 1,024; its writing is or is not what a CLEAR waits for. -/
def flashing (clearing : Bool) : State :=
  { stranded { unflushed := [entryOf 9216], flash := [entryOf 1024], next := 9217, flushing := true } with
    gdp := { inflight := if clearing then [{ req := ownWrite host Pd.clear 0 (natLE 8 9) signed, wait := .clear 9216, before := [] }] else [] } }
theorem test_hyp_Flash : (flashing true).strand.unflushed = entryOf 9216 :: [] ∧ (flashing false).gdp.inflight = []
    ∧ ((flashing true).gdp.inflight.find? fun p => p.wait == .clear 9216).isSome = true ∧ (stranded {}).strand.unflushed = [] := by decide +kernel
theorem test_hyp_Cursors : (let s := flashing false
    admits s (ownWrite host Pd.cursor 0 (natLE 8 9216)) = true ∧ admitsSigned s (ownWrite host Pd.cursor 0 (natLE 8 9216) signed) = true
    ∧ admits s (ownReq host 1 Pd.window 448 64 [] .unsigned) = true) := by decide +kernel
theorem test_hyp_SoftwareEvents : admits (stranded {}) (ownWrite host Pd.softwareEvent 0 (natLE 64 5)) = true := by decide +kernel
def clearing : State := stranded { unflushed := [entryOf 2048], flash := [entryOf 5, entryOf 1024], next := 2049 }
theorem test_hyp_Clears : admitsSigned clearing (ownWrite host Pd.clear 0 (natLE 8 1025) signed) = true ∧ clearing.strand.oldest ≤ 1025
    ∧ admitsSigned clearing (ownWrite host Pd.clear 0 (natLE 8 1023) signed) = true ∧ 1023 < clearing.strand.oldest := by decide +kernel
/-- The first record names an entry that may be watched; or the last does, after 47 that name none. -/
theorem test_hyp_WatchList : (let s := stranded {}
    admits s (ownWrite manager Pd.watchList 0 (natLE 4 (Pd.unmappedCount * 256 + 1))) = true ∧ watchOk ((Pd.unmappedCount * 256 + 1) :: List.replicate 47 0) = true
    ∧ admits s (ownWrite manager Pd.watchList 188 (natLE 4 (Pd.unmappedCount * 256 + 1))) = true
    ∧ watchOk (List.replicate 47 0 ++ [Pd.unmappedCount * 256 + 1]) = false) := by decide +kernel

/-! ### Chapter 18 -/

/-- A module in a life-cycle state, with an officer's key and identity certificates, CHALLENGE 7; a return key staged or not. -/
def living (state : Nat) (returned : Bool) : State :=
  { ready [(Pd.lifeCycle, 0, state), (Pd.soKey, 0, 1), (Pd.identityCertificates, 0, 5)] with security := { challenge := 7, returnOk := returned } }
theorem test_hyp_LifeCycle : ([(0, 1, false, Auth.unsigned), (1, 2, false, signed), (2, 3, false, signed), (3, 1, true, signed), (1, 4, false, signed), (2, 4, false, signed),
      (3, 4, true, signed), (2, 1, false, signed)].all fun e => let s := living e.1 e.2.2.1; let q := ownWrite host Pd.lifecycleRequest 0 (natLE 1 e.2.1) e.2.2.2
    (entryInfo q.key).any (fun x => mayAsk s q .host x) && Tab.wf 0 s.pd && !s.opActive 3 && s.gdp.inflight.isEmpty) = true := by decide +kernel
theorem test_hyp_LifeCycleBusy : (let s := { living 1 false with ops := [(6, { state := 2 })] }
    s.opActive 6 = true ∧ (entryInfo Pd.lifecycleRequest).any (fun x => mayAsk s (ownWrite host Pd.lifecycleRequest 0 (natLE 1 2) signed) .host x) = true) := by
  decide +kernel
theorem test_hyp_LifeCycleTripped : (let s : State := { living 1 false with pd := tset 0 (living 1 false).pd (pdKey Pd.powerState 0) 3 }
    s.reg Pd.powerState = 3 ∧ (entryInfo Pd.lifecycleRequest).any (fun x => mayAsk s (ownWrite host Pd.lifecycleRequest 0 (natLE 1 2) signed) .host x) = true) := by
  decide +kernel
/-- All but the last byte of the return key is staged, in RETURN. -/
def returning : State :=
  { living 3 false with security := { challenge := 7, returnBytes := 2 ^ 1951 - 1 } }
theorem test_hyp_ReturnKey : admits returning (ownWrite host Pd.returnKeyStage 1951 [9]) = true
    ∧ returning.security.returnBytes ||| ((2 ^ 1 - 1) * 2 ^ 1951) = 2 ^ 1952 - 1 := by decide +kernel
/-- An image without a payload, staged whole: its header's fields, its digest (of another program). -/
def imageStage : Tab Byte := bytesAt [(0, natLE 4 0x4D524648 ++ [1, 1, 0, 0] ++ natLE 4 2), (24, natLE 64
  0xbec4b7b3ac2e294086b49a47491c82fcf692b5679d0105cb00f2c0d8ddc45dd72f76d56e64270cb5821bb862ea52cd3f24eb3e74eb3f3b23138da80b2bddb946)]
def committing (minimum : Nat) (fw : Nat) : State :=
  { ready [(Pd.lifeCycle, 0, 1), (Pd.minSecurityVersion, 0, minimum), (Pd.fwState, 0, fw)] with
    security := { stage := imageStage, staged := 8192, bank0 := { valid := true, secVersion := 2, build := 7, digest := 0, headerDigest := 0, written := 1 } }
    power := { step := 3, forwarding := true, booted := some 0 } }
theorem test_hyp_FwStage : (let s := committing 0 0
    admits s (ownWrite host Pd.fwStage 8192 [5]) = true ∧ s.programming = false ∧ (committing 0 2).programming = true ∧ admits s (ownWrite host Pd.fwStage 8191 [5]) = true
    ∧ admits (committing 0 2) (ownWrite host Pd.fwStage 8192 [5]) = true) := by decide +kernel
theorem test_hyp_FwCommit : (let s := committing 2 0; let field := fun (lo len : Nat) => leNat (tgetMany 0 s.security.stage lo len)
    admits s (ownWrite host Pd.fwCommit 0 [1]) = true ∧ admits s (ownWrite host Pd.fwCommit 0 [2]) = true ∧ field 0 4 = 0x4D524648 ∧ field 4 1 = 1 ∧ field 5 1 = 1
    ∧ field 12 4 = 8192 - 8192 ∧ field 8 4 = s.reg Pd.minSecurityVersion ∧ shake256 (tgetMany 0 s.security.stage 8192 0) = field 24 64) := by decide +kernel
theorem test_hyp_MinVersion : (let s := { committing 1 0 with pd := store [(Pd.ready, 0, 1), (Pd.lifeCycle, 0, 1), (Pd.soKey, 0, 1), (Pd.minSecurityVersion, 0, 1)] }
    let t := { s with security := { s.security with challenge := 7 } }
    [1, 2, 3].all fun v => admitsSigned t (ownWrite host Pd.minSecurityVersion 0 (natLE 4 v) signed)
      && t.reg Pd.minSecurityVersion == 1 && (t.power.booted.elim 0 fun i => (t.bank i).secVersion) == 2) = true := by decide +kernel
theorem test_hyp_Measure : admits (ready []) (ownWrite host Pd.measurementExtend 0 (natLE 64 5)) = true
    ∧ admits (ready []) (ownWrite host (Pd.measurementExtend + 1) 0 (natLE 64 5)) = true := by decide +kernel
theorem test_hyp_RetiredList : ([1, 3].all fun life => [1, 2].all fun v =>
    admits (ready [(Pd.lifeCycle, 0, life), (Pd.retiredList, 8191, 5)]) (ownWrite host Pd.retiredListClear 0 [BitVec.ofNat 8 v])) = true := by decide +kernel
theorem test_hyp_Attestation : (let s := { ready [] with security := { spdmNegotiated := true } }
    3 ≤ s.power.step ∧ s.security.spdmNegotiated = true ∧ (ready []).security.spdmNegotiated = false ∧ s.security.keyDisabled = false
    ∧ s.reg Pd.lifeCycle < 3 ∧ 3 ≤ (living 3 false).reg Pd.lifeCycle) := by decide
def tapped : State := { living 3 false with security := { tapActive := true } }
theorem test_hyp_TestPort : (let m := msg 1 Pd.throttleStart []; let q := msgToReq m .testPort false
    tapped.security.tapActive = true ∧ (ready []).security.tapActive = false ∧ badMessage m = false ∧ opRowOf q.key = none ∧ unknownReading q.key = false
    ∧ tapped.formedOne (pathSource .testPort) 0 q.key = none ∧ tapped.formedSub q.key 0 = none
    ∧ (entryInfo q.key).any (fun e => admitted tapped q .management e && decide (e.type < 6) && !e.records && e.unit == e.size && decide (0 < e.size)
        && e.access .management != 5) = true) := by decide +kernel

/-! ### The spec's own numbers -/

/-- spec/06 Table 06-2. -/
theorem test_aliasMapping : [0x0, 0x100, 0x123400, 0x40000000].map aliasToNative = [0, 7 * 0x2000000000, 0x02400000E900, 0x010003333300]
    ∧ nativeToAlias 8 0x03333300 = 0x40000000 ∧ blockStratum (natLocal 0x02400000E900 / 256) = 0xE9 := by decide +kernel
/-- spec/05, the worked element of a diagonal strip. -/
theorem test_diagonalElement : diagonalAddr 3 0x8000 2 5 200 = 0x0C0001B4828C ∧ diagonalAddr 3 0x8000 2 8 197 = roomAddr 109 0x840C := by decide
/-- spec/12, the ports of the module at bay 2, slot 5. -/
theorem test_logicalPorts : [0x29, 0x23, 0x05, 0x15, 0x35, 0x19].map (logicalPort 0x25) = [some 8, some 3, some 15, some 16, some 17, none] := by decide
/-- spec/13, residues. -/
theorem test_residues : residue (ofSigned 40 (-5)) = 122 ∧ residue (2 ^ 38) = 8 := by decide +kernel
/-- spec/07, the worked index tensor under each policy. -/
theorem test_indexPolicies : [3, -1, 50000, 49999, -50001].map (selectIndex 2 50000) = [.at 3 false, .at 0 true, .at 49999 true, .at 49999 false, .at 0 true]
    ∧ [3, -1, 50000, 49999, -50001].map (selectIndex 3 50000) = [.at 3 false, .at 49999 true, .at 0 true, .at 49999 false, .at 49999 true]
    ∧ selectIndex 0 50000 (-1) = .fault ∧ selectIndex 1 50000 50000 = .zero := by decide
/-- spec/07, the worked descriptor and its transposed copy; a shape lists the extents in loop order, innermost first. -/
def workedDesc (control perm : Nat) : Desc :=
  parseDesc (record 128 [(0, 0x080040000000), (8, control), (40, perm), (44, 0x0123), (64, 0x0001C00000000001), (72, 0x0000800000001C00)])
theorem test_workedDescriptor : (workedDesc 0x0220080000000000 0).valid .read false false = true ∧ (workedDesc 0x0220080000000000 0).footprint = [(0x080040000000, 0x080041BFFFFF)]
    ∧ (workedDesc 0x0220080000000000 0).shape = [7168, 2048] ∧ (workedDesc 0x0224080000000000 0x00FAC681).shape = [2048, 7168]
    ∧ (workedDesc 0x0224080000000000 0x00FAC681).valid .read false false = true := by decide +kernel
/-- spec/11 Table 11-8, row by row: the word before, the unit that arrives, the tag, the word after. -/
theorem test_arrivals : ([(0x0000000208000424, 2, 0, 0x0000000308000424), (0x0000000308000424, 0, 1, 0x0001000308000424),
      (0x0001000308000424, 1, 1, 0x0002000308000424), (0x0002000308000424, 0, 2, 0x0002000308000424),
      (0x0002000308000424, 3, 0, 0x0000000209000425)]).all (fun e =>
    match exec (.arrive (.task (1 + e.2.1) 2) 70000 (BitVec.ofNat 2 e.2.2.1)) (ready [(Pd.counterState, 70000, e.1)]) with
    | .next t => t.ctr 70000 == e.2.2.2 && t.reg Pd.misuseCount == bit01 (e.2.2.1 == 2)
    | _ => false) = true := by decide +kernel
/-- IEEE 802.3's CRC-32 of the nine digits (spec/12 R331). -/
theorem test_crc32 : crc32 [0x31, 0x32, 0x33, 0x34, 0x35, 0x36, 0x37, 0x38, 0x39] = 0xCBF43926 := by decide +kernel
/-- FIPS 202: SHAKE256 of the empty message. -/
theorem test_shake256 : shake256 [] = 0xbec4b7b3ac2e294086b49a47491c82fcf692b5679d0105cb00f2c0d8ddc45dd72f76d56e64270cb5821bb862ea52cd3f24eb3e74eb3f3b23138da80b2bddb946 := by
  decide +kernel

end Sys2Proof.Tests
end

section
/-!
PROOFS. A dictionary write that the Harbour takes up (spec/03 R67, R79): what answering leaves alone, what an admitted
message comes to, what a plain entry does with a value, and the statement `WriteKeepsPermittedValue` assembled from them.
-/
namespace Sys2Proof.Machine

/-! ### What answering leaves alone -/

theorem answered.trans {p : GdpPath} {s t u : State} (h : answered p s t) (h' : answered p t u) : answered p s u := by
  obtain ⟨hst, hcst⟩ := h
  obtain ⟨htu, hctu⟩ := h'
  refine ⟨?_, fun hp => (hctu hp).trans (hcst hp)⟩
  have := congrArg (fun x : State => { x with pd := s.pd, out := s.out, gdp := s.gdp, causeway := s.causeway }) htu
  exact this.trans hst

theorem answered.landfall {p : GdpPath} {s t : State} (h : answered p s t) : t.landfall = s.landfall := by
  have hl := congrArg State.landfall h.1
  exact hl

/-- A change of the store alone is within what an answer may change. -/
theorem answered_of_pd (p : GdpPath) (s : State) (d : Tab Nat) : answered p s { s with pd := d } := ⟨rfl, fun _ => rfl⟩

theorem State.countRequest_answered (s : State) (p : GdpPath) : answered p s (s.countRequest p) := by
  rw [s.countRequest_eq p]; exact answered_of_pd p s _

theorem State.setReg_answered (s : State) (p : GdpPath) (k v : Nat) : answered p s (s.setReg k v) := answered_of_pd p s _

theorem State.respond_answered (s : State) (r : Req) (c : BitVec 16) (b : List Byte) : answered r.path s (s.respond r c b) :=
  ⟨s.respond_frame r c b, s.respond_kept r c b⟩

theorem State.await_answered (s : State) (p : GdpPath) (r : Req) (w : Wait) (b : Tab Nat) : answered p s (s.await r w b) :=
  ⟨rfl, fun _ => rfl⟩

theorem State.unawait_answered (s : State) (p : GdpPath) (x : Pending) : answered p s (s.unawait x) := ⟨rfl, fun _ => rfl⟩

/-- A response that is no failure leaves the store as it is. -/
theorem State.respond_ok_pd (s : State) (r : Req) {c : BitVec 16} (b : List Byte) (h : isFailure c = false) :
    (s.respond r c b).pd = s.pd := by
  rw [s.respond_ok r b h, s.send_eq]

theorem State.respond_ok_inflight (s : State) (r : Req) {c : BitVec 16} (b : List Byte) (h : isFailure c = false) :
    (s.respond r c b).gdp.inflight = s.gdp.inflight := by
  rw [s.respond_ok r b h, s.send_inflight]

theorem State.countRequest_gdp (s : State) (p : GdpPath) : (s.countRequest p).gdp = s.gdp := by rw [s.countRequest_eq p]

theorem State.countRequest_out (s : State) (p : GdpPath) : (s.countRequest p).out = s.out := by rw [s.countRequest_eq p]

/-- A refusal after the count of requests: the store holds the counts and LAST_REFUSAL, and nothing else changes there. -/
theorem State.respond_countRequest_store (s : State) (p : GdpPath) (r : Req) (c : BitVec 16) (b : List Byte) :
    storeFrame (Pd.refused :: Pd.lastRefusal :: requestCounters) s ((s.countRequest p).respond r c b) :=
  ((s.countRequest_store p).mono fun _ h => List.mem_append_right [Pd.refused, Pd.lastRefusal] h).trans
    (((s.countRequest p).respond_store r c b).mono fun _ h => List.mem_append_left requestCounters h)

/-! ### What an admitted message comes to -/

/-- Where neither a Landfall START nor a life-cycle transition was accepted, nothing follows the response. -/
theorem State.afterRequest_eq_self {s t : State} (hl : t.landfall = s.landfall) (hc : t.reg Pd.lifeCycle = s.reg Pd.lifeCycle) :
    s.afterRequest t = t := by
  unfold State.afterRequest State.afterTransition
  simp [hl, hc]

/-- A path that is open carries whole messages, not packets. -/
theorem State.onPath_of_pathOpen {s : State} {path : GdpPath} (h : s.pathOpen path = true) (m : GdpMsg) (v : Bool) :
    s.onPath path m v = s.message path m v := by
  cases path with
  | packet p k => exact absurd h Bool.false_ne_true
  | _ => rfl

/-- A well-framed message for this module is received as the request it spells. -/
theorem State.receiveMsg_eq_receiveOwn (s : State) (serve : Serve) (path : GdpPath) {m : GdpMsg} (v : Bool)
    (hb : badMessage m = false) (h5 : m.opcode ≠ 5) :
    s.receiveMsg serve path m v = s.receiveOwn serve (msgToReq m path v) := by
  have hdata : (msgToReq m path v).data = m.payload := if_neg h5
  rw [State.receiveMsg, State.receiveOwn, hb, hdata]

theorem taken_of_admitted {s : State} {q : Req} {role : Role} {e : EntryInfo} (h : admitted s q role e = true) :
    taken s q role = true := by
  simp only [admitted, Bool.and_eq_true] at h
  obtain ⟨⟨⟨⟨ht, _⟩, _⟩, _⟩, _⟩ := h
  exact ht

theorem entryInfo_of_admitted {s : State} {q : Req} {role : Role} {e : EntryInfo} (h : admitted s q role e = true) :
    entryInfo q.key = some e := by
  simp only [admitted, Bool.and_eq_true, beq_iff_eq] at h
  obtain ⟨⟨_, he⟩, _⟩ := h
  exact he

theorem pathOpen_of_taken {s : State} {q : Req} {role : Role} (h : taken s q role = true) : s.pathOpen q.path = true := by
  simp only [taken, Bool.and_eq_true] at h
  obtain ⟨⟨⟨⟨⟨hopen, _⟩, _⟩, _⟩, _⟩, _⟩ := h
  exact hopen

/-- An admitted DICTIONARY_WRITE is counted, its entry does its work, and the response or the wait follows. -/
theorem exec_dictionaryWrite_of_admitted {s : State} {path : GdpPath} {m : GdpMsg} {role : Role} {e : EntryInfo}
    (h2 : m.opcode = 2) (hb : badMessage m = false) (ha : admitted s (msgToReq m path false) role e = true) :
    exec (.dictionaryWrite path m) s = .next (s.afterRequest
      ((s.countRequest path).conclude e (msgToReq m path false)
        (serveWrite s.security.returnOk role e (msgToReq m path false) (s.countRequest path)))) := by
  have hop : (msgToReq m path false).hdr.opcode = 2 := h2
  have hserve : serveEntry s.security.returnOk role e (msgToReq m path false)
      = serveWrite s.security.returnOk role e (msgToReq m path false) := by
    funext t; simp [serveEntry, Req.isRead, hop]
  calc exec (.dictionaryWrite path m) s
      = .next (s.onPath path m false) := rfl
    _ = .next (s.afterRequest (s.receiveMsg (serveEntry s.security.returnOk) path m false)) := by
        rw [State.onPath_of_pathOpen (path := path) (pathOpen_of_taken (taken_of_admitted ha)), State.message]
    _ = .next (s.afterRequest (s.receiveOwn (serveEntry s.security.returnOk) (msgToReq m path false))) := by
        rw [State.receiveMsg_eq_receiveOwn s _ path false hb (by simp [h2])]
    _ = _ := by
        rw [State.receiveOwn_admitted _ ha (by simp [hop]) (by simp [hop]), hserve]
        rfl

/-- A write of a persistent entry that succeeded waits for flash, with the entry's value before it (spec/03 R67). -/
theorem State.conclude_await_flash {s : State} {e : EntryInfo} {r : Req} {x : Served} (hw : x.wait = none)
    (hp : e.persistent = true) (hr : r.isRead = false) (hx : isFailure x.status = false) :
    s.conclude e r x = x.state.await r .flash (s.pd.filter fun y => y.1 / 16777216 == r.key) := by
  simp [State.conclude, hw, hp, hr, hx]

/-! ### Plain entries -/

/-- A plain entry is a scalar that no role may only clear (spec/00 Table 00-3). -/
theorem plainEntries_scalar : ∀ k ∈ plainEntries, (entryInfo k).all (fun e =>
    e.type != 7 && [Role.host, .management, .peer, .officer].all fun r => e.access r != 3) = true := by
  decide +kernel

theorem plainEntry_type {k : Nat} {e : EntryInfo} (hk : k ∈ plainEntries) (he : entryInfo k = some e) : e.type ≠ 7 := by
  have h := plainEntries_scalar k hk
  simp only [he, Option.all_some, Bool.and_eq_true, bne_iff_ne] at h
  exact h.1

theorem plainEntry_access {k : Nat} {e : EntryInfo} (hk : k ∈ plainEntries) (he : entryInfo k = some e) (role : Role) :
    e.access role ≠ 3 := by
  have h := plainEntries_scalar k hk
  simp only [he, Option.all_some, Bool.and_eq_true, List.all_eq_true, bne_iff_ne] at h
  exact h.2 role (by cases role <;> simp)

/-- A plain entry belongs to no long operation. -/
theorem opRowOf_plainEntry : ∀ k ∈ plainEntries, opRowOf k = none := by decide +kernel

/-- A plain entry is no special case of its chapters: `serveUnits` and `serveWork` only store it. -/
theorem serveChapters_plainEntry (under : Bool) {k : Nat} (hk : k ∈ plainEntries) :
    (if k < 0x500000 then (if k / 65536 = 0x10 then serveSecurity under k else serveUnits k)
      else if k < 0x700000 then serveWork k else serveSecurity under k) = serveStore := by
  simp only [plainEntries, List.mem_cons, List.not_mem_nil, or_false] at hk
  rcases hk with rfl | rfl | rfl | rfl | rfl | rfl | rfl | rfl | rfl | rfl | rfl | rfl | rfl <;> rfl

theorem serveWrite_plainEntry (under : Bool) (role : Role) (e : EntryInfo) {q : Req} (hk : q.key ∈ plainEntries) (s : State) :
    serveWrite under role e q s = serveStore role e q s := by
  rw [← serveChapters_plainEntry under hk]
  simp only [serveWrite, opRowOf_plainEntry q.key hk]
  split
  · split <;> rfl
  · split <;> rfl

/-- A scalar entry keeps a value its table permits, less its reserved bits, and refuses any other (spec/00 R13, spec/03 R79). -/
theorem serveStore_scalar {role : Role} {e : EntryInfo} (ht : e.type ≠ 7) (ha : e.access role ≠ 3) (q : Req) (s : State) :
    serveStore role e q s = if valueOk q.key q.value = true then { state := s.setReg q.key (q.value &&& scalarMask q.key) }
      else refuse s St.invalidValue := by
  unfold serveStore
  rw [if_neg ha, if_neg ht]
  cases valueOk q.key q.value <;> rfl

theorem serveWrite_plainEntry_permitted (under : Bool) (role : Role) {e : EntryInfo} {q : Req} (hk : q.key ∈ plainEntries)
    (he : entryInfo q.key = some e) (hv : valueOk q.key q.value = true) (s : State) :
    serveWrite under role e q s = { state := s.setReg q.key (q.value &&& scalarMask q.key) } := by
  rw [serveWrite_plainEntry under role e hk, serveStore_scalar (plainEntry_type hk he) (plainEntry_access hk he role), if_pos hv]

theorem serveWrite_plainEntry_refused (under : Bool) (role : Role) {e : EntryInfo} {q : Req} (hk : q.key ∈ plainEntries)
    (he : entryInfo q.key = some e) (hv : valueOk q.key q.value = false) (s : State) :
    serveWrite under role e q s = refuse s St.invalidValue := by
  rw [serveWrite_plainEntry under role e hk, serveStore_scalar (plainEntry_type hk he) (plainEntry_access hk he role),
    if_neg (by simp [hv])]

/-- What a counted write of a plain entry changes is neither the straps nor LIFE_CYCLE, which the answer to it depends on. -/
theorem straps_lifeCycle_not_written :
    ∀ k ∈ plainEntries, Pd.straps ∉ k :: requestCounters ∧ Pd.lifeCycle ∉ k :: requestCounters := by decide

/-! ### The counted request with its value kept -/

/-- The state in which the request `q` is counted and the scalar it names holds `v`, before any answer. -/
def State.keptValue (s : State) (q : Req) (v : Nat) : State := (s.countRequest q.path).setReg q.key v

theorem State.keptValue_reg (s : State) (q : Req) (v : Nat) : (s.keptValue q v).reg q.key = v := State.reg_setReg_same _ _ _

theorem State.keptValue_out (s : State) (q : Req) (v : Nat) : (s.keptValue q v).out = s.out := s.countRequest_out q.path

theorem State.keptValue_gdp (s : State) (q : Req) (v : Nat) : (s.keptValue q v).gdp = s.gdp := s.countRequest_gdp q.path

theorem State.keptValue_store (s : State) (q : Req) (v : Nat) : storeFrame (q.key :: requestCounters) s (s.keptValue q v) :=
  ((s.countRequest_store q.path).mono fun _ h => List.mem_cons_of_mem _ h).setReg v List.mem_cons_self

theorem State.keptValue_answered (s : State) (q : Req) (v : Nat) : answered q.path s (s.keptValue q v) :=
  (s.countRequest_answered q.path).trans (State.setReg_answered _ _ _ _)

theorem State.reply_keptValue (s : State) {q : Req} (v : Nat) (hq : q.key ∈ plainEntries) (r : Req) (c : BitVec 16) (b : List Byte) :
    reply (s.keptValue q v) r c b = reply s r c b :=
  reply_congr ((s.keptValue_store q v).reg (straps_lifeCycle_not_written q.key hq).1) r c b

/-! ### The outcomes of a write -/

section
variable {s : State} {path : GdpPath} {m : GdpMsg} {role : Role} {e : EntryInfo}

/-- The message handled on its way out: a state that answers `s` and keeps LIFE_CYCLE has nothing to follow. -/
theorem State.afterRequest_of_answered {keys : List Nat} {p : GdpPath} {t : State} (ha : answered p s t)
    (hf : storeFrame keys s t) (hk : Pd.lifeCycle ∉ keys) : s.afterRequest t = t :=
  State.afterRequest_eq_self ha.landfall (hf.reg hk)

/-- A value that is not permitted: the request is counted and refused. -/
theorem exec_dictionaryWrite_refused (h2 : m.opcode = 2) (hb : badMessage m = false)
    (hk : (msgToReq m path false).key ∈ plainEntries) (ha : admitted s (msgToReq m path false) role e = true)
    (hv : valueOk (msgToReq m path false).key (msgToReq m path false).value = false) :
    exec (.dictionaryWrite path m) s
      = .next ((s.countRequest path).respond (msgToReq m path false) St.invalidValue []) := by
  rw [exec_dictionaryWrite_of_admitted h2 hb ha, serveWrite_plainEntry_refused _ _ hk (entryInfo_of_admitted ha) hv,
    State.conclude_respond rfl (.inr rfl)]
  exact congrArg _ (State.afterRequest_of_answered ((s.countRequest_answered path).trans (State.respond_answered _ _ _ _))
    (s.respond_countRequest_store path _ _ _) (by decide))

/-- A permitted value of an entry that is not persistent: kept, and answered OK at once. -/
theorem exec_dictionaryWrite_kept (h2 : m.opcode = 2) (hb : badMessage m = false)
    (hk : (msgToReq m path false).key ∈ plainEntries) (ha : admitted s (msgToReq m path false) role e = true)
    (hv : valueOk (msgToReq m path false).key (msgToReq m path false).value = true) (hp : e.persistent = false) :
    let q := msgToReq m path false
    exec (.dictionaryWrite path m) s = .next ((s.keptValue q (q.value &&& scalarMask q.key)).respond q St.ok []) := by
  intro q
  rw [exec_dictionaryWrite_of_admitted h2 hb ha, serveWrite_plainEntry_permitted _ _ hk (entryInfo_of_admitted ha) hv,
    State.conclude_respond rfl (.inl hp)]
  exact congrArg _ (State.afterRequest_of_answered
    ((s.keptValue_answered q _).trans (State.respond_answered _ _ _ _))
    ((s.keptValue_store q _).trans (storeFrame.of_pd (State.respond_ok_pd _ _ _ rfl)))
    (straps_lifeCycle_not_written q.key hk).2)

/-- A permitted value of a persistent entry: kept, and waiting for flash. -/
theorem exec_dictionaryWrite_awaitsFlash (h2 : m.opcode = 2) (hb : badMessage m = false)
    (hk : (msgToReq m path false).key ∈ plainEntries) (ha : admitted s (msgToReq m path false) role e = true)
    (hv : valueOk (msgToReq m path false).key (msgToReq m path false).value = true) (hp : e.persistent = true) :
    let q := msgToReq m path false
    ∃ before, exec (.dictionaryWrite path m) s
      = .next ((s.keptValue q (q.value &&& scalarMask q.key)).await q .flash before) := by
  intro q
  have hread : q.isRead = false := by simp [q, Req.isRead, msgToReq, h2]
  refine ⟨(s.countRequest path).pd.filter fun y => y.1 / 16777216 == q.key, ?_⟩
  rw [exec_dictionaryWrite_of_admitted h2 hb ha, serveWrite_plainEntry_permitted _ _ hk (entryInfo_of_admitted ha) hv,
    State.conclude_await_flash rfl hp hread rfl]
  exact congrArg _ (State.afterRequest_of_answered
    ((s.keptValue_answered q _).trans (State.await_answered _ _ _ _ _)) (s.keptValue_store q _)
    (straps_lifeCycle_not_written q.key hk).2)

end

/-- PERSISTENT_WRITE_DONE of a write that waits for flash answers it OK, while no warning flush lasts. -/
theorem exec_persistentWriteDone_of_waiting {s : State} {path : GdpPath} {seq : BitVec 16} {p : Pending}
    (hp : s.unanswered (pathSource path) seq = some p) (hw : p.wait = .flash) (hf : s.strand.flushing = false) :
    exec (.persistentWriteDone path seq) s = .next ((s.unawait p).respond p.req St.ok []) := by
  change execPersistentWriteDone path seq s = _
  simp only [execPersistentWriteDone, hp, hw, hf, and_self, ↓reduceIte, State.answer]

end Sys2Proof.Machine

open Sys2Proof Sys2Proof.Machine

/-- Settles O17: an admitted write of a plain entry ends in one of three states (refused, answered, waiting for flash), and
PERSISTENT_WRITE_DONE answers the write that waits. -/
theorem writeKeepsPermittedValue : Obligations.WriteKeepsPermittedValue := by
  unfold Obligations.WriteKeepsPermittedValue
  refine ⟨fun s path m role e => ?_, fun s path seq p hp hw hf => ?_⟩
  · intro q h2 hb hk ha
    cases hv : valueOk q.key q.value with
    | false =>
      refine ⟨_, exec_dictionaryWrite_refused h2 hb hk ha hv, nofun, fun _ => ⟨?_, ?_⟩⟩
      · rw [State.respond_out, s.countRequest_out, s.reply_countRequest]
      · exact s.respond_countRequest_store path _ _ _
    | true =>
      have hreg := s.keptValue_reg q (q.value &&& scalarMask q.key)
      have hstore := s.keptValue_store q (q.value &&& scalarMask q.key)
      have hans := s.keptValue_answered q (q.value &&& scalarMask q.key)
      have hout := s.keptValue_out q (q.value &&& scalarMask q.key)
      have hgdp := s.keptValue_gdp q (q.value &&& scalarMask q.key)
      cases hp : e.persistent with
      | true =>
        obtain ⟨before, hexec⟩ := exec_dictionaryWrite_awaitsFlash h2 hb hk ha hv hp
        refine ⟨_, hexec, fun _ => ⟨hreg, hstore, hans.trans (State.await_answered _ _ _ _ _), nofun,
          fun _ => ⟨hout, before, ?_⟩⟩, nofun⟩
        exact congrArg (fun g : Gdp => g.inflight ++ _) hgdp
      | false =>
        have hpd := State.respond_ok_pd (s.keptValue q (q.value &&& scalarMask q.key)) q (c := St.ok) [] rfl
        refine ⟨_, exec_dictionaryWrite_kept h2 hb hk ha hv hp, fun _ => ⟨(State.rd_of_pd hpd _ _).trans hreg,
          hstore.trans (storeFrame.of_pd hpd), hans.trans (State.respond_answered _ _ _ _), fun _ => ⟨?_, ?_⟩, nofun⟩, nofun⟩
        · rw [State.respond_out, hout, s.reply_keptValue _ hk]
        · rw [State.respond_ok_inflight _ _ _ rfl, hgdp]
  · refine ⟨_, exec_persistentWriteDone_of_waiting hp hw hf, ?_, ?_, ?_, ?_⟩
    · exact State.respond_out _ _ _ _
    · exact State.respond_ok_inflight _ _ _ rfl
    · exact State.respond_ok_pd _ _ _ rfl
    · exact (s.unawait_answered _ p).trans (State.respond_answered _ _ _ _)
end

section
/-!
PROOFS. Every command completes (spec/INDEX.md, spec/01 R29): how an outcome that is a next state passes through a
meaning's branches, the meanings that look at what they find, and the statement `EveryCommandCompletes` assembled from them.
-/
namespace Sys2Proof.Machine

/-! ### Outcomes that are a next state -/

/-- An outcome that is a next state. -/
def Completes (r : Res) : Prop := ∃ t, r = .next t

theorem Completes.next {t : State} : Completes (.next t) := ⟨t, rfl⟩

theorem Completes.ite {p : Prop} [Decidable p] {a b : Res} (ha : Completes a) (hb : Completes b) :
    Completes (if p then a else b) := by
  split
  · exact ha
  · exact hb

/-! ### Meanings that look at what they find

Each branch of these is a next state. -/

variable (s : State)

/-! #### Chapters 01 to 03 -/

theorem execHarbourBootDone_completes (ok0 ok1 : Bool) : Completes (execHarbourBootDone ok0 ok1 s) := by
  refine .ite ?_ .next
  split <;> exact .next

/-- The one pulse without a next state lies from 1 µs up to 10 µs (spec/01 R29). -/
theorem execModuleReset_completes {low : Nat} (h : low < 1000 ∨ 10000 ≤ low) : Completes (execModuleReset low s) := by
  unfold execModuleReset
  by_cases hlow : low < 1000
  · rw [if_pos hlow]
    exact .next
  · rw [if_neg hlow, if_neg (by omega)]
    exact .ite (.ite .next .next) (.ite .next .next)

theorem execCrossingCredit_completes (src dst : Nat) : Completes (execCrossingCredit src dst s) := by
  unfold execCrossingCredit
  dsimp only
  split <;> exact .next

theorem execTideSlot_completes (fabric port : Nat) : Completes (execTideSlot fabric port s) := by
  refine .ite .next ?_
  dsimp only
  split <;> exact .next

theorem execGdpResponse_completes (arrival : GdpArrival) : Completes (execGdpResponse arrival s) := by
  cases arrival <;> exact .next

theorem execGdpForwardTimeout_completes (target : Nat) (seq : BitVec 16) : Completes (execGdpForwardTimeout target seq s) := by
  unfold execGdpForwardTimeout
  split <;> exact .next

theorem execPersistentWriteDone_completes (path : GdpPath) (seq : BitVec 16) : Completes (execPersistentWriteDone path seq s) := by
  unfold execPersistentWriteDone
  split
  · exact .next
  · exact .ite .next .next

/-! #### Chapter 04 -/

theorem execLinkDown_completes (event : LinkEvent) : Completes (execLinkDown event s) := by
  cases event <;> exact .ite .next .next

theorem State.mailboxReply_completes (opcode code : Nat) (payload : List Byte) : Completes (s.mailboxReply opcode code payload) :=
  .ite .next .next

theorem execGetEventRecords_completes (log : Nat) : Completes (execGetEventRecords log s) := by
  unfold execGetEventRecords
  split <;> exact State.mailboxReply_completes _ _ _ _

theorem execClearEventRecords_completes (log : Nat) (handles : List Nat) : Completes (execClearEventRecords log handles s) := by
  unfold execClearEventRecords
  split
  · exact s.mailboxReply_completes _ _ _
  · exact .ite .next (State.mailboxReply_completes _ _ _ _)

theorem execGetFwInfo_completes : Completes (execGetFwInfo s) := by
  unfold execGetFwInfo
  split <;> exact s.mailboxReply_completes _ _ _

theorem execWindowTimeout_completes (id : Nat) : Completes (execWindowTimeout id s) := by
  unfold execWindowTimeout
  split <;> exact .next

/-! #### Chapters 05 and 06 -/

theorem execRoomCycle_completes (room : Nat) (ecc : RoomEcc) : Completes (execRoomCycle room ecc s) := by
  refine .ite .next (.ite .next ?_)
  dsimp only
  split <;> exact .next

theorem execTransposeDone_completes (done : TransposeEnd) : Completes (execTransposeDone done s) := by
  unfold execTransposeDone
  dsimp only
  split
  · exact .next
  · exact .ite .next .next

theorem execChartRebuildBegin_completes : Completes (execChartRebuildBegin s) := by
  unfold execChartRebuildBegin
  split <;> exact .next

theorem execCoveSchedule_completes (cliff stratum : Nat) : Completes (execCoveSchedule cliff stratum s) := by
  refine .ite .next ?_
  split <;> exact .next

theorem execStratumAccessDone_completes (cliff stratum : Nat) (ecc : Ecc) : Completes (execStratumAccessDone cliff stratum ecc s) := by
  unfold execStratumAccessDone
  dsimp only
  split
  · exact .next
  · exact .ite .next (.ite .next .next)

theorem execSoftReplacementDone_completes (cliff stratum bank : Nat) :
    Completes (execSoftReplacementDone cliff stratum bank s) := by
  unfold execSoftReplacementDone
  dsimp only
  split <;> exact .next

theorem execUnpinDone_completes : Completes (execUnpinDone s) := by
  unfold execUnpinDone
  split
  · exact .next
  · dsimp only
    split <;> exact .next

theorem execRepairDone_completes (took : Bool) : Completes (execRepairDone took s) := by
  unfold execRepairDone
  split
  · exact .next
  · exact .ite .next .next

theorem execBulkCopyDone_completes : Completes (execBulkCopyDone s) := by
  unfold execBulkCopyDone
  split <;> exact .next

theorem execChartRebuildDone_completes : Completes (execChartRebuildDone s) := by
  unfold execChartRebuildDone
  split
  · exact .ite (.ite .next .next) .next
  · exact .next

theorem execChartWalkDone_completes (user : CliffUser) (part addr : Nat) : Completes (execChartWalkDone user part addr s) := by
  refine .ite .next ?_
  split <;> exact .next

/-! #### Chapters 08 to 11 -/

theorem execColumnFailure_completes (physical check : Nat) : Completes (execColumnFailure physical check s) := by
  refine .ite .next (.ite .next ?_)
  split
  · exact .next
  · exact .ite .next .next

theorem execTidewayBeat_completes (n : Nat) : Completes (execTidewayBeat n s) := by
  unfold execTidewayBeat
  split
  · exact .next
  · refine .ite .next (.ite .next ?_)
    split <;> exact .next

theorem execHeadLoad_completes (unit part : Nat) : Completes (execHeadLoad unit part s) := by
  refine .ite ?_ .next
  split <;> exact .next

theorem execTaskComplete_completes (unit : Nat) : Completes (execTaskComplete unit s) := by
  refine .ite ?_ .next
  dsimp only
  split
  · exact .next
  · exact .ite .next .next

/-! #### Chapters 12 to 14 -/

theorem execLinkRetryTimeout_completes (port : Nat) : Completes (execLinkRetryTimeout port s) := by
  unfold execLinkRetryTimeout
  split
  · exact .next
  · exact .ite .next .next

theorem execPortTransmit_completes (port : Nat) : Completes (execPortTransmit port s) := by
  refine .ite .next ?_
  split
  · split <;> exact .next
  · exact .ite .next .next

theorem execE2eResendTimeout_completes (dest : Nat) (transfer : BitVec 16) : Completes (execE2eResendTimeout dest transfer s) := by
  unfold execE2eResendTimeout
  split <;> exact .next

theorem execSparePortTrained_completes (port : Nat) (neighbour : Neighbour) :
    Completes (execSparePortTrained port neighbour s) := by
  unfold execSparePortTrained
  split
  · exact .next
  · exact .ite .next (.ite .next .next)

theorem execEstuarySendBegin_completes : Completes (execEstuarySendBegin s) := by
  refine .ite .next ?_
  dsimp only
  split <;> exact .next

theorem execCollectorDeadline_completes (group block : Nat) : Completes (execCollectorDeadline group block s) := by
  unfold execCollectorDeadline
  split
  · exact .next
  · split <;> exact .next

theorem execOwnerDeadline_completes (group block : Nat) : Completes (execOwnerDeadline group block s) := by
  unfold execOwnerDeadline
  split <;> exact .next

theorem execResultWaitExpiry_completes (group : Nat) : Completes (execResultWaitExpiry group s) := by
  unfold execResultWaitExpiry
  split
  · exact .ite .next .next
  · exact .next

theorem execStageAgreementDone_completes (part : Nat) : Completes (execStageAgreementDone part s) := by
  refine .ite ?_ .next
  dsimp only
  split <;> exact .next

/-! #### Chapters 15 to 18 -/

theorem execL4TestDone_completes (unit : TestUnit) (failing : Option (Nat × Nat × Nat)) :
    Completes (execL4TestDone unit failing s) := by
  refine .ite .next ?_
  cases unit with
  | column j => exact .ite .next .next
  | room r => exact .ite .next .next
  | engine n => exact .ite .next .next
  | stratum c t => exact .next
  | port p => exact .next

theorem execSelfTestUnitDone_completes (slot : Nat) (failing : Option (Nat × Nat × Nat)) (record : List Byte) :
    Completes (execSelfTestUnitDone slot failing record s) := by
  unfold execSelfTestUnitDone
  split
  · exact .next
  · exact .ite .next .next

theorem execStowImageDone_completes (part : Nat) (outcome : StowOutcome) : Completes (execStowImageDone part outcome s) := by
  unfold execStowImageDone
  split
  · exact .next
  · refine .ite .next (.ite ?_ .next)
    dsimp only
    split <;> exact .next

theorem execD2hCompletion_completes (line : Nat) (bytes : List Byte) : Completes (execD2hCompletion line bytes s) := by
  unfold execD2hCompletion
  split
  · exact .next
  · split <;> exact .next

theorem execRestoreDone_completes : Completes (execRestoreDone s) := by
  unfold execRestoreDone
  split
  · exact .next
  · split
    · exact .next
    · exact .ite .next .next

theorem execStrandlineEntry_completes : Completes (execStrandlineEntry s) := by
  unfold execStrandlineEntry
  split <;> exact .next

theorem execStrandlineFlashWrite_completes : Completes (execStrandlineFlashWrite s) := by
  unfold execStrandlineFlashWrite
  split
  · exact .next
  · dsimp only
    split <;> exact .next

theorem execGetDigests_completes : Completes (execGetDigests s) := by
  unfold execGetDigests
  split <;> exact .next

theorem execGetCertificate_completes (slot offset length : Nat) : Completes (execGetCertificate slot offset length s) := by
  unfold execGetCertificate
  split
  · exact .next
  · exact .ite .next .next

theorem execChallenge_completes (slot : Nat) (nonce : BitVec 256) : Completes (execChallenge slot nonce s) := by
  unfold execChallenge
  split
  · exact .next
  · exact .ite .next .next

theorem execGetMeasurements_completes (signed : Bool) (block : Nat) : Completes (execGetMeasurements signed block s) := by
  unfold execGetMeasurements
  split
  · exact .next
  · exact .ite .next .next

/-! ### Every command -/

/-- Every command completes but a RESET_N pulse from 1 µs to 10 µs: its meaning is a next state at once, chooses between next
states, or is one of those above. -/
theorem exec_completes (i : Instr) (h : ∀ low, i = .moduleReset low → low < 1000 ∨ 10000 ≤ low) : Completes (exec i s) := by
  cases i with
  | moduleReset low => exact execModuleReset_completes s (h low rfl)
  | harbourBootDone => exact execHarbourBootDone_completes s _ _
  | crossingCredit => exact execCrossingCredit_completes s _ _
  | tideSlot => exact execTideSlot_completes s _ _
  | gdpResponse => exact execGdpResponse_completes s _
  | gdpForwardTimeout => exact execGdpForwardTimeout_completes s _ _
  | persistentWriteDone => exact execPersistentWriteDone_completes s _ _
  | linkDown => exact execLinkDown_completes s _
  | getEventRecords => exact execGetEventRecords_completes s _
  | clearEventRecords => exact execClearEventRecords_completes s _ _
  | getFwInfo => exact execGetFwInfo_completes s
  | windowTimeout => exact execWindowTimeout_completes s _
  | roomCycle => exact execRoomCycle_completes s _ _
  | transposeDone => exact execTransposeDone_completes s _
  | chartRebuildBegin => exact execChartRebuildBegin_completes s
  | coveSchedule => exact execCoveSchedule_completes s _ _
  | stratumAccessDone => exact execStratumAccessDone_completes s _ _ _
  | softReplacementDone => exact execSoftReplacementDone_completes s _ _ _
  | unpinDone => exact execUnpinDone_completes s
  | repairDone => exact execRepairDone_completes s _
  | bulkCopyDone => exact execBulkCopyDone_completes s
  | chartRebuildDone => exact execChartRebuildDone_completes s
  | chartWalkDone => exact execChartWalkDone_completes s _ _ _
  | columnFailure => exact execColumnFailure_completes s _ _
  | tidewayBeat => exact execTidewayBeat_completes s _
  | headLoad => exact execHeadLoad_completes s _ _
  | taskComplete => exact execTaskComplete_completes s _
  | linkRetryTimeout => exact execLinkRetryTimeout_completes s _
  | portTransmit => exact execPortTransmit_completes s _
  | e2eResendTimeout => exact execE2eResendTimeout_completes s _ _
  | sparePortTrained => exact execSparePortTrained_completes s _ _
  | estuarySendBegin => exact execEstuarySendBegin_completes s
  | collectorDeadline => exact execCollectorDeadline_completes s _ _
  | ownerDeadline => exact execOwnerDeadline_completes s _ _
  | resultWaitExpiry => exact execResultWaitExpiry_completes s _
  | stageAgreementDone => exact execStageAgreementDone_completes s _
  | l4TestDone => exact execL4TestDone_completes s _ _
  | selfTestUnitDone => exact execSelfTestUnitDone_completes s _ _ _
  | stowImageDone => exact execStowImageDone_completes s _ _
  | d2hCompletion => exact execD2hCompletion_completes s _ _
  | restoreDone => exact execRestoreDone_completes s
  | strandlineEntry => exact execStrandlineEntry_completes s
  | strandlineFlashWrite => exact execStrandlineFlashWrite_completes s
  | getDigests => exact execGetDigests_completes s
  | getCertificate => exact execGetCertificate_completes s _ _ _
  | challenge => exact execChallenge_completes s _ _
  | getMeasurements => exact execGetMeasurements_completes s _ _
  | islandLockLoss => exact .ite .next (.ite .next (.ite .next .next))
  | thermalSample | bisnpResponse | crossingEntry | portTrainingDone =>
    exact .ite .next (.ite .next .next)
  | setEventInterruptPolicy =>
    exact .ite (State.mailboxReply_completes _ _ _ _) (.ite .next (State.mailboxReply_completes _ _ _ _))
  | setTimestamp => exact .ite .next (State.mailboxReply_completes _ _ _ _)
  | getEventInterruptPolicy => exact s.mailboxReply_completes _ _ _
  | getTimestamp => exact s.mailboxReply_completes _ _ _
  | getSupportedLogs => exact s.mailboxReply_completes _ _ _
  | getLog => exact s.mailboxReply_completes _ _ _
  | landfallL6Done | stageEstuaryDone => exact .ite (.ite .next .next) .next
  | squareTranspose | stratumFailure | stratumRecalDone | laneFailure | portSignalLoss | portSignalReturn | spareWaitExpiry
  | supplyWarning | supplyWarningClear | inputOvervoltage | undervoltageReset | quiesceComplete | trippedResetRelease | strapCheck
  | headlandCycle | columnRemap | taskRelease | handoverMarkerReturn | roomWipeDone | counterAdd | counterSubtract | counterSet
  | arrive | init | preemptComplete | linkTrained | hostWindowRead | hostWindowWrite | mirrorWriteDone
  | engineCheckFailure | conversionTimeout | landfallL0Done | landfallL1Done | stratumTrainingDone | l5WaitExpiry
  | topologyAgreement | seaStateUpdate | stagePhaseDone | carryClear | stageUpdateDone | fwProgramDone | islandHalt | debugAccess
  | h2dSnoop => exact .ite .next .next
  | _ => exact .next

end Sys2Proof.Machine

open Sys2Proof Sys2Proof.Machine

/-- Settles O2: `exec_completes`, command by command. -/
theorem everyCommandCompletes : Obligations.EveryCommandCompletes := by
  unfold Obligations.EveryCommandCompletes
  exact fun i s h => exec_completes s i h
end

section
/-!
PROOFS. What power-on reset leaves (spec/01 R27, spec/03 R67, spec/18 R452): the statement `ResetLeavesDefaults`.
-/
open Sys2Proof Sys2Proof.Machine

/-- Settles O4: reset is the default state with the default store, in which the entries named are looked up. -/
theorem resetLeavesDefaults : Obligations.ResetLeavesDefaults := by
  unfold Obligations.ResetLeavesDefaults
  refine ⟨rfl, rfl, rfl, rfl, rfl, rfl, rfl, rfl, rfl, rfl, fun _ => rfl, ?_⟩
  decide +kernel
end

section
/-!
PROOFS. Chapter 01: power-up, undervoltage and the module reset. What a reset keeps of the dictionary, what a power cycle leaves,
and the statements `PowerComesAndGoes` and `ModuleResets` assembled from them.
-/
namespace Sys2Proof

/-! ### Entries written into a table in turn -/

variable {α : Type} [DecidableEq α]

/-- A key that no entry names reads as before. -/
theorem tget_foldl_tset_of_not_named (d : α) {l : Tab α} {k : Nat} (hk : ∀ e ∈ l, e.1 ≠ k) (t : Tab α) :
    tget d (l.foldl (fun t e => tset d t e.1 e.2) t) k = tget d t k := by
  induction l generalizing t with
  | nil => rfl
  | cons e l ih =>
    rw [List.foldl_cons, ih (fun x hx => hk x (by simp [hx])), tget_tset_ne d t e.2 (hk e (by simp)).symm]

/-- Entries of distinct keys written over a table that does not list a key: it reads as the entries have it. -/
theorem tget_foldl_tset_of_unlisted (d : α) {l : Tab α} (hl : l.Pairwise fun a b => a.1 < b.1) {k : Nat} {t : Tab α}
    (ht : tget d t k = d) : tget d (l.foldl (fun t e => tset d t e.1 e.2) t) k = tget d l k := by
  induction l generalizing t with
  | nil => exact ht
  | cons e l ih =>
    obtain ⟨hfirst, hrest⟩ := List.pairwise_cons.mp hl
    rw [List.foldl_cons]
    by_cases he : e.1 = k
    · subst he
      rw [tget_foldl_tset_of_not_named d (fun x hx => (hfirst x hx).ne'), tget_tset_same]
      simp [tget]
    · rw [ih hrest (by rw [tget_tset_ne d t e.2 (Ne.symm he), ht])]
      simp [tget, he]

end Sys2Proof

namespace Sys2Proof.Machine

/-! ### The dictionary after a reset (spec/03 R67) -/

theorem pdKey_entry {u : Nat} (k : Nat) (hu : u < 16777216) : pdKey k u / 16777216 = k := by unfold pdKey; omega

theorem State.reset_rd (k u : Nat) : State.reset.rd k u = tget 0 defaultStore (pdKey k u) := by simp only [State.rd, State.reset]

section
variable {keep : Nat → Bool} {k u : Nat} (hu : u < 16777216)
include hu

/-- Of two stores merged entry by entry, an entry of the first one's share reads as that one has it. -/
theorem tget_merge_kept {pd : Tab Nat} (dflt : Tab Nat) (hpd : Tab.wf 0 pd = true) (hk : keep k = true) :
    tget 0 ((pd.filter fun e => keep (e.1 / 16777216)).foldl (fun t e => tset 0 t e.1 e.2)
      (dflt.filter fun e => !keep (e.1 / 16777216))) (pdKey k u) = tget 0 pd (pdKey k u) := by
  rw [tget_foldl_tset_of_unlisted, tget_filter 0 pd fun j => keep (j / 16777216), pdKey_entry k hu, if_pos hk]
  · exact ((wf_iff 0 pd).mp hpd).1.filter _
  · rw [tget_filter 0 dflt fun j => !keep (j / 16777216), pdKey_entry k hu, hk]
    rfl

/-- An entry of the other's share reads as the other has it. -/
theorem tget_merge_lost (pd dflt : Tab Nat) (hk : keep k = false) :
    tget 0 ((pd.filter fun e => keep (e.1 / 16777216)).foldl (fun t e => tset 0 t e.1 e.2)
      (dflt.filter fun e => !keep (e.1 / 16777216))) (pdKey k u) = tget 0 dflt (pdKey k u) := by
  rw [tget_foldl_tset_of_not_named, tget_filter 0 dflt fun j => !keep (j / 16777216), pdKey_entry k hu, hk]
  · rfl
  · intro e he hkey
    have hkeep := (List.mem_filter.mp he).2
    rw [hkey, pdKey_entry k hu, hk] at hkeep
    exact Bool.false_ne_true hkeep

/-- An entry that a reset does not keep takes its default. -/
theorem tget_resetStore_lost (pd : Tab Nat) (hk : keep k = false) :
    tget 0 (resetStore keep pd) (pdKey k u) = State.reset.rd k u := by
  rw [State.reset_rd, resetStore]
  exact tget_merge_lost hu pd defaultStore hk

/-- After a reset an entry holds its value where the reset keeps it, and its default elsewhere. -/
theorem tget_resetStore {pd : Tab Nat} (hpd : Tab.wf 0 pd = true) :
    tget 0 (resetStore keep pd) (pdKey k u) = if keep k then tget 0 pd (pdKey k u) else State.reset.rd k u := by
  cases hk : keep k with
  | true =>
    rw [if_pos rfl, resetStore]
    exact tget_merge_kept hu defaultStore hpd hk
  | false =>
    rw [if_neg Bool.false_ne_true]
    exact tget_resetStore_lost hu pd hk

end

/-! ### Writes on their way to flash -/

/-- Taking back the writes that had not reached flash changes the dictionary's store only. -/
theorem State.undoFlash_frame (s : State) : s.undoFlash = { s with pd := s.undoFlash.pd } := by
  unfold State.undoFlash
  generalize s.gdp.inflight.reverse = l
  induction l using List.reverseRecOn with
  | nil => rfl
  | append_singleton l p ih =>
    rw [List.foldl_append, List.foldl_cons, List.foldl_nil]
    split
    · rw [ih]
    · exact ih

theorem State.undoFlash_eq_self {s : State} (h : s.gdp.inflight = []) : s.undoFlash = s := by simp [State.undoFlash, h]

/-! ### A power cycle (spec/01 R25) -/

theorem State.powerCycle_power (s : State) : s.powerCycle.power =
    { inputMv := s.power.inputMv, pwrgood := s.power.pwrgood, resetN := s.power.resetN, liveStraps := s.power.liveStraps } := by
  unfold State.powerCycle
  rw [s.undoFlash_frame]

theorem State.powerCycle_strand (s : State) : s.powerCycle.strand = s.strand.acrossPower := by
  unfold State.powerCycle
  rw [s.undoFlash_frame]

theorem State.powerCycle_pending (s : State) : s.powerCycle.pending = s.pending := by
  unfold State.powerCycle
  rw [s.undoFlash_frame]

/-- Where no flash write is under way, a power cycle keeps the persistent entries and gives every other its default. -/
theorem State.powerCycle_rd {s : State} (hf : s.gdp.inflight = []) (hs : s.tablesOk) (k : Nat) {u : Nat} (hu : u < 16777216) :
    s.powerCycle.rd k u = if keptAlways k then s.rd k u else State.reset.rd k u := by
  have h : s.powerCycle.rd k u = tget 0 (resetStore keptAlways s.undoFlash.pd) (pdKey k u) := rfl
  rw [h, State.undoFlash_eq_self hf]
  exact tget_resetStore hu hs.2

/-- An entry that is not persistent takes its default, whatever was on its way to flash. -/
theorem State.powerCycle_rd_lost (s : State) {k u : Nat} (hk : keptAlways k = false) (hu : u < 16777216) :
    s.powerCycle.rd k u = State.reset.rd k u := tget_resetStore_lost hu s.undoFlash.pd hk

/-! ### What the recorder notes -/

/-- `t` is `s` with occurrences noted and long operations ended: of the store only OVERRUNS may differ, of the recorder only
what waits and the count of what was dropped. -/
def runsNoted (s t : State) : Prop :=
  t = { s with pd := t.pd, ops := t.ops, strand := t.strand } ∧ storeFrame [Pd.overruns] s t
    ∧ { t.strand with queue := s.strand.queue, dropped := s.strand.dropped } = s.strand

theorem runsNoted.refl (s : State) : runsNoted s s := ⟨rfl, storeFrame.refl _ s, rfl⟩

theorem runsNoted.trans {s t u : State} (h : runsNoted s t) (h' : runsNoted t u) : runsNoted s u := by
  obtain ⟨hst, hstore, hstrand⟩ := h
  obtain ⟨htu, hstore', hstrand'⟩ := h'
  refine ⟨htu.trans (by rw [hst]), hstore.trans hstore', ?_⟩
  rw [← hstrand'] at hstrand
  exact hstrand

theorem runsNoted.ite {s t u : State} {p : Prop} [Decidable p] (ht : runsNoted s t) (hu : runsNoted s u) :
    runsNoted s (if p then t else u) := by
  split
  · exact ht
  · exact hu

theorem runsNoted.foldl {α : Type} {f : State → α → State} (hf : ∀ s a, runsNoted s (f s a)) (l : List α) (s : State) :
    runsNoted s (l.foldl f s) := by
  induction l generalizing s with
  | nil => exact .refl s
  | cons a l ih => exact (hf s a).trans (ih (f s a))

theorem runsNoted.record (s : State) (g : Nat) (c : BitVec 16) (uk un : Nat) (d : List Byte) :
    runsNoted s (s.record g c uk un d) := by
  refine ⟨?_, s.record_store g c uk un d, ?_⟩ <;> unfold State.record <;> split <;> rfl

theorem runsNoted.recordAborted (s : State) (r : Nat) : runsNoted s (s.recordAborted r) := .record s _ _ _ _ _

theorem runsNoted.opEnd (s : State) (r st : Nat) (c : BitVec 16) : runsNoted s (s.opEnd r st c) := ⟨rfl, storeFrame.of_pd rfl, rfl⟩

theorem runsNoted.abortRuns (s : State) (byStart : Bool) : runsNoted s (s.abortRuns byStart) :=
  (runsNoted.ite ((runsNoted.recordAborted s 1).trans (.opEnd _ 1 5 St.aborted)) (.refl s)).trans
    (.foldl (fun s r => .ite (.recordAborted s r) (.refl s)) _ _)

/-- What a reset reads of the state after its runs are ended is as it was before. -/
theorem runsNoted.fields {s t : State} (h : runsNoted s t) :
    t.reg Pd.islandLocked = s.reg Pd.islandLocked ∧ t.reg Pd.islandFenced = s.reg Pd.islandFenced
      ∧ t.crossings = s.crossings ∧ t.power = s.power ∧ t.causeway = s.causeway ∧ t.time = s.time ∧ t.pending = s.pending
      ∧ t.strand.flash = s.strand.flash ∧ t.strand.unflushed = s.strand.unflushed ∧ t.strand.next = s.strand.next := by
  obtain ⟨hframe, hstore, hstrand⟩ := h
  refine ⟨hstore.reg (by decide), hstore.reg (by decide), by rw [hframe], by rw [hframe], by rw [hframe], by rw [hframe],
    by rw [hframe], ?_⟩
  rw [← hstrand]
  exact ⟨rfl, rfl, rfl⟩

theorem State.tablesOk.abortRuns {s : State} (h : s.tablesOk) (byStart : Bool) : (s.abortRuns byStart).tablesOk := by
  have hfirst : (if (s.opActive 1 && !byStart) = true then (s.recordAborted 1).opEnd 1 5 St.aborted else s).tablesOk :=
    (show ((s.recordAborted 1).opEnd 1 5 St.aborted).tablesOk from
      (h.record 0x0A St.aborted 0 noUnit (natLE 4 1 ++ natLE 4 (s.op 1).run)).of_eq rfl rfl).ite h
  exact State.tablesOk.foldl (fun r h => (h.record _ _ _ _ _).ite h) _ hfirst

/-! ### A module reset (spec/01 R29, spec/02 R46) -/

/-- The bits of a number from place `m` on. -/
theorem testBit_sub_mod_two_pow (x m n : Nat) : (x - x % 2 ^ m).testBit n = (decide (m ≤ n) && x.testBit n) := by
  have hx : x - x % 2 ^ m = 2 ^ m * (x / 2 ^ m) := by
    have := Nat.div_add_mod x (2 ^ m)
    omega
  rw [hx, Nat.testBit_two_pow_mul]
  by_cases h : m ≤ n
  · simp [h, Nat.testBit_div_two_pow]
  · simp [h]

/-- OVERRUNS counts for the present run of power. -/
theorem keptByModuleReset_overruns : keptByModuleReset Pd.overruns = false := by decide +kernel

section
variable {s : State} (hflash : s.gdp.inflight = [])
include hflash

/-- What a module reset leaves: the store's kept entries with the islands' locks and fences from 95 on, and, of the rest,
what goes on. -/
theorem State.moduleReset_spec :
    ∃ t : State, s.moduleReset false = (t.setReg Pd.islandLocked (s.reg Pd.islandLocked - s.reg Pd.islandLocked % 2 ^ 95)).setReg
        Pd.islandFenced (s.reg Pd.islandFenced - s.reg Pd.islandFenced % 2 ^ 95)
      ∧ t.pd = resetStore keptByModuleReset (s.abortRuns false).pd
      ∧ t.crossings = s.crossings.filter (fun e => decide (95 ≤ e.1 / 128) && decide (95 ≤ e.1 % 128))
      ∧ t.power = { inputMv := s.power.inputMv, pwrgood := s.power.pwrgood, resetN := s.power.resetN, liveStraps := s.power.liveStraps
                    stageCliffs := s.power.stageCliffs, stageLinks := s.power.stageLinks, stageHouse := s.power.stageHouse
                    forwarding := s.power.forwarding, routed := s.power.routed }
      ∧ t.causeway = s.causeway ∧ t.inFlight = [] ∧ t.rooms = [] ∧ t.engines = [] ∧ t.headland = {} ∧ t.gdp = {} ∧ t.host = {}
      ∧ t.time = s.time ∧ t.pending = s.pending ∧ t.strand.flash = s.strand.flash ∧ t.strand.unflushed = s.strand.unflushed
      ∧ t.strand.next = s.strand.next := by
  have hnoted := runsNoted.abortRuns s false
  unfold State.moduleReset
  rw [State.undoFlash_eq_self hflash]
  generalize s.abortRuns false = n at *
  obtain ⟨hlocked, hfenced, hcrossings, hpower, hcauseway, htime, hpending, hflashed, hunflushed, hnext⟩ := hnoted.fields
  rw [← hlocked, ← hfenced, ← hcrossings, ← hpower, ← hcauseway, ← htime, ← hpending, ← hflashed, ← hunflushed, ← hnext]
  exact ⟨_, rfl, rfl, rfl, rfl, rfl, rfl, rfl, rfl, rfl, rfl, rfl, rfl, rfl, rfl, rfl, rfl⟩

end

/-- The entries a module reset keeps are those that the noting of ended runs leaves alone: OVERRUNS is not kept. -/
theorem tget_resetStore_abortRuns {s : State} (hs : s.tablesOk) {k u : Nat} (hu : u < 16777216) :
    tget 0 (resetStore keptByModuleReset (s.abortRuns false).pd) (pdKey k u)
      = if keptByModuleReset k then s.rd k u else State.reset.rd k u := by
  rw [tget_resetStore hu (hs.abortRuns false).2]
  by_cases hk : keptByModuleReset k = true
  · have hne : k ∉ [Pd.overruns] := by
      intro hmem
      rw [List.mem_singleton.mp hmem, keptByModuleReset_overruns] at hk
      exact Bool.false_ne_true hk
    rw [if_pos hk, if_pos hk]
    exact (runsNoted.abortRuns s false).2.1 k u hne hu
  · rw [if_neg hk, if_neg hk]

/-! ### Power-up (spec/01 R27, R35) -/

/-- The pins as POWER_UP brings them. -/
def State.takePins (s : State) (mv : Nat) (good resetN : Bool) (straps : BitVec 10) : State :=
  let t := s.measureInput mv good
  { t with power := { t.power with resetN := resetN, liveStraps := straps } }

/-- RESET_N has gone high. -/
def State.resetHigh (s : State) : State := { s with power := { s.power with resetN := true } }

theorem State.resetHigh_power (s : State) : s.resetHigh.power = { s.power with resetN := true } := rfl

theorem State.takePins_store (s : State) (mv : Nat) (good resetN : Bool) (straps : BitVec 10) :
    storeFrame [Pd.inputVoltage, Pd.inputMin] s (s.takePins mv good resetN straps) := s.measureInput_store mv good

theorem State.takePins_frame (s : State) (mv : Nat) (good resetN : Bool) (straps : BitVec 10) :
    { s.takePins mv good resetN straps with
      pd := s.pd, power := s.power, host := s.host, security := s.security, fresh := s.fresh } = s := by
  cases s
  rfl

/-- Step 2 begun with new pins changes the store, the pins, and what step 2 changes. -/
theorem State.stepTwo_takePins_frame (s : State) (mv : Nat) (good resetN : Bool) (straps : BitVec 10) :
    { (s.takePins mv good resetN straps).stepTwo with
      pd := s.pd, power := s.power, host := s.host, security := s.security, fresh := s.fresh } = s := by
  cases s
  rfl

theorem State.takePins_voltage (s : State) (mv : Nat) (good resetN : Bool) (straps : BitVec 10) :
    (s.takePins mv good resetN straps).reg Pd.inputVoltage = mv := s.measureInput_voltage mv good

theorem State.mayBoot_iff (s : State) :
    s.mayBoot = true ↔ 38000 ≤ s.power.inputMv ∧ s.power.pwrgood = true ∧ s.power.resetN = true := by
  rw [State.mayBoot, Bool.and_eq_true, Bool.and_eq_true, decide_eq_true_iff, and_assoc]

/-- POWER_UP takes the pins, and step 2 begins where they allow it. -/
theorem exec_powerUp (s : State) (mv : Nat) (good resetN : Bool) (straps : BitVec 10) :
    exec (.powerUp mv good resetN straps) s =
      .next (if s.power.step = 1 ∧ 38000 ≤ mv ∧ good = true ∧ resetN = true ∧ s.reg Pd.powerState ≠ 3
        then (s.takePins mv good resetN straps).stepTwo else s.takePins mv good resetN straps) := by
  have hexec : exec (.powerUp mv good resetN straps) s =
      .next (if s.power.step = 1 ∧ (s.takePins mv good resetN straps).mayBoot = true
          ∧ (s.takePins mv good resetN straps).reg Pd.powerState ≠ 3
        then (s.takePins mv good resetN straps).stepTwo else s.takePins mv good resetN straps) := rfl
  rw [hexec, (s.takePins_store mv good resetN straps).reg (by decide)]
  simp only [State.mayBoot_iff, and_assoc]
  rfl

/-- RESET_N_RELEASE lets step 2 begin where the input as last read allows it. -/
theorem exec_resetNRelease (s : State) :
    exec .resetNRelease s =
      .next (if s.power.step = 1 ∧ 38000 ≤ s.power.inputMv ∧ s.power.pwrgood = true ∧ s.reg Pd.powerState ≠ 3
        then s.resetHigh.stepTwo else s.resetHigh) := by
  have hexec : exec .resetNRelease s = .next (if s.power.step = 1 ∧ s.resetHigh.mayBoot = true ∧ s.resetHigh.tripped = false
      then s.resetHigh.stepTwo else s.resetHigh) := rfl
  have htripped : s.resetHigh.tripped = false ↔ s.reg Pd.powerState ≠ 3 := beq_eq_false_iff_ne
  rw [hexec]
  simp only [State.mayBoot_iff, htripped, State.resetHigh_power, and_assoc, true_and]

theorem powerUpBeginsStepTwo : Claims.PowerUpBeginsStepTwo := by
  refine ⟨fun s mv good resetN straps => ?_, fun s => ?_⟩
  · have hstore := (s.takePins_store mv good resetN straps).mono (keys' := [Pd.inputVoltage, Pd.inputMin, Pd.straps]) (by simp)
    intro go
    refine ⟨_, exec_powerUp s mv good resetN straps, ?_⟩
    by_cases hgo : go
    · rw [if_pos hgo, if_pos hgo, if_pos hgo, State.stepTwo_power, State.stepTwo_straps,
        (State.stepTwo_store _).reg (by decide), State.takePins_voltage]
      exact ⟨rfl, rfl, rfl, rfl, rfl, rfl, rfl, hstore.trans ((State.stepTwo_store _).mono (by simp)),
        s.stepTwo_takePins_frame mv good resetN straps⟩
    · rw [if_neg hgo, if_neg hgo, if_neg hgo, State.takePins_voltage,
        (s.takePins_store mv good resetN straps).reg (by decide)]
      exact ⟨rfl, rfl, rfl, rfl, rfl, rfl, rfl, hstore, s.takePins_frame mv good resetN straps⟩
  · intro go
    refine ⟨_, exec_resetNRelease s, ?_⟩
    by_cases hgo : go
    · rw [if_pos hgo, if_pos hgo, if_pos hgo, State.stepTwo_power, State.stepTwo_straps]
      exact ⟨rfl, rfl, rfl, s.resetHigh.stepTwo_store, rfl⟩
    · rw [if_neg hgo, if_neg hgo, if_neg hgo]
      exact ⟨rfl, rfl, rfl, storeFrame.of_pd rfl, rfl⟩

theorem undervoltageIsPowerCycle : Claims.UndervoltageIsPowerCycle := by
  intro s mv hmv hflash hs
  have hstore := s.powerCycle.measureInput_store mv s.power.pwrgood
  have hstrand : (s.powerCycle.measureInput mv s.power.pwrgood).strand = s.strand.acrossPower := s.powerCycle_strand
  refine ⟨s.powerCycle.measureInput mv s.power.pwrgood, if_pos hmv, ?_⟩
  rw [State.measureInput_power, s.powerCycle_power, hstrand]
  refine ⟨rfl, rfl, rfl, rfl, rfl, rfl, rfl, rfl, rfl, rfl, rfl, State.measureInput_voltage _ _ _, s.powerCycle_pending, ?_⟩
  intro k u hu hvoltage hmin
  rw [hstore k u (by simp [hvoltage, hmin]) hu]
  exact State.powerCycle_rd hflash hs k hu

/-! ### RESET_N (spec/01 R29, R43) -/

/-- A pulse of 10 µs or more. -/
theorem exec_moduleReset_long (s : State) {ns : Nat} (h : 10000 ≤ ns) :
    exec (.moduleReset ns) s = if s.tripped then
        if s.hottest < 85000 then .next s.powerCycle.resetLow
        else .next { s.resetLow with power := { s.resetLow.power with heldReset := true } }
      else if s.power.step = 1 then .next s.resetLow
      else .next (s.moduleReset false).resetLow := by
  change execModuleReset ns s = _
  rw [execModuleReset, if_neg (by omega), if_neg (by omega)]

theorem State.tripped_iff (s : State) : s.tripped = true ↔ s.reg Pd.powerState = 3 := beq_iff_eq

theorem moduleResetKeepsForwarding : Claims.ModuleResetKeepsForwarding := by
  refine ⟨fun s ns h => if_pos h, fun s ns hns hstate hstep hflash _ hs => ?_⟩
  obtain ⟨t, ht, hpd, hcrossings, hpower, hcauseway, hflight, hrooms, hengines, hheadland, hgdp, hhost, htime, hpending, hflash',
    hunflushed, hnext⟩ := State.moduleReset_spec hflash
  refine ⟨(s.moduleReset false).resetLow, ?_, ?_⟩
  · rw [exec_moduleReset_long s hns, if_neg (mt s.tripped_iff.mp hstate), if_neg hstep]
  have hkept : (s.moduleReset false).resetLow.power = { t.power with resetN := false } := by rw [ht]; rfl
  rw [hkept, hpower, ht]
  refine ⟨hcrossings, fun n _ => ⟨?_, ?_⟩, rfl, rfl, rfl, rfl, rfl, rfl, hcauseway, hflight, hrooms, hengines, hheadland, hgdp,
    hhost, htime, hpending, hflash', hunflushed, hnext, fun k u hu hlocked hfenced => ?_⟩
  · have hreg := State.reg_setReg_ne (t.setReg Pd.islandLocked (s.reg Pd.islandLocked - s.reg Pd.islandLocked % 2 ^ 95))
      (k := Pd.islandFenced) (v := s.reg Pd.islandFenced - s.reg Pd.islandFenced % 2 ^ 95) (k' := Pd.islandLocked) (by decide)
    rw [State.reg_setReg_same] at hreg
    exact (congrArg (Nat.testBit · n) hreg).trans (testBit_sub_mod_two_pow _ _ _)
  · have hreg := State.reg_setReg_same (t.setReg Pd.islandLocked (s.reg Pd.islandLocked - s.reg Pd.islandLocked % 2 ^ 95))
      Pd.islandFenced (s.reg Pd.islandFenced - s.reg Pd.islandFenced % 2 ^ 95)
    exact (congrArg (Nat.testBit · n) hreg).trans (testBit_sub_mod_two_pow _ _ _)
  · rw [← tget_resetStore_abortRuns hs hu, ← hpd]
    exact (State.rd_wr_ne _ hfenced (by decide) hu).trans (State.rd_wr_ne _ hlocked (by decide) hu)

/-- A power cycle leaves POWER_STATE at its default. -/
theorem State.powerCycle_powerState (s : State) : s.powerCycle.reg Pd.powerState = 0 := by
  have hdefault : State.reset.rd Pd.powerState 0 = 0 := by decide +kernel
  exact (s.powerCycle_rd_lost (by decide +kernel) (by decide)).trans hdefault

theorem trippedResetIsHeld : Claims.TrippedResetIsHeld := by
  refine ⟨fun s ns hns hstate hhot => ?_, fun s hot hstate hheld hhot => ?_⟩
  · rw [exec_moduleReset_long s hns, if_pos (s.tripped_iff.mpr hstate), if_neg (by omega)]
    rfl
  · have hexec : exec (.trippedResetRelease hot) s
        = .next (if (s.powerCycle.setReg Pd.hottestJunction (ofSigned 32 hot)).mayBoot
          then (s.powerCycle.setReg Pd.hottestJunction (ofSigned 32 hot)).stepTwo
          else s.powerCycle.setReg Pd.hottestJunction (ofSigned 32 hot)) := if_pos ⟨s.tripped_iff.mpr hstate, hheld, hhot⟩
    have hreg : (s.powerCycle.setReg Pd.hottestJunction (ofSigned 32 hot)).reg Pd.powerState = 0 :=
      (State.reg_setReg_ne _ (by decide)).trans s.powerCycle_powerState
    have hhottest := s.powerCycle.reg_setReg_same Pd.hottestJunction (ofSigned 32 hot)
    have hmem : (s.powerCycle.setReg Pd.hottestJunction (ofSigned 32 hot)).mem = [] := rfl
    have hflight : (s.powerCycle.setReg Pd.hottestJunction (ofSigned 32 hot)).inFlight = [] := rfl
    have hpower : (s.powerCycle.setReg Pd.hottestJunction (ofSigned 32 hot)).power = _ := s.powerCycle_power
    have hstrand : (s.powerCycle.setReg Pd.hottestJunction (ofSigned 32 hot)).strand = _ := s.powerCycle_strand
    refine ⟨_, hexec, ?_⟩
    generalize s.powerCycle.setReg Pd.hottestJunction (ofSigned 32 hot) = u at *
    have hboot := u.mayBoot_iff
    have hflash : u.strand.flash = s.strand.flash := by rw [hstrand]; rfl
    rw [hpower] at hboot
    by_cases hgo : u.mayBoot = true
    · rw [if_pos hgo, if_pos (hboot.mp hgo), State.stepTwo_power, hpower, u.stepTwo_store.reg (by decide),
        u.stepTwo_store.reg (by decide)]
      exact ⟨hreg, rfl, hmem, hflight, hflash, rfl, hhottest⟩
    · rw [if_neg hgo, if_neg (mt hboot.mpr hgo), hpower]
      exact ⟨hreg, rfl, hmem, hflight, hflash, rfl, hhottest⟩

theorem shortResetPulseFaults : Claims.ShortResetPulseFaults := by
  intro s ns hlo hhi
  change execModuleReset ns s = _
  rw [execModuleReset, if_neg (by omega), if_pos hhi]

end Sys2Proof.Machine

open Sys2Proof Sys2Proof.Machine

/-- Settles O9: POWER_UP and RESET_N_RELEASE by their one branch, UNDERVOLTAGE_RESET by what a power cycle keeps. -/
theorem powerComesAndGoes : Obligations.PowerComesAndGoes := by
  unfold Obligations.PowerComesAndGoes
  exact ⟨powerUpBeginsStepTwo, undervoltageIsPowerCycle⟩

/-- Settles O11: a short pulse by its branch, a long one by what a module reset keeps, a held one by what a power cycle leaves. -/
theorem moduleResets : Obligations.ModuleResets := by
  unfold Obligations.ModuleResets
  exact ⟨moduleResetKeepsForwarding, trippedResetIsHeld, shortResetPulseFaults⟩
end

section
/-!
PROOFS. The supply warning (spec/01 R24): what it changes, and the statement `SupplyWarningDisturbsNothing`.
-/
namespace Sys2Proof.Machine

/-- `t` is `s` but for the supply readings and flags, what was sent, what the recorder waits to write and the entries of these. -/
def supplyOnly (s t : State) : Prop :=
  storeFrame [Pd.inputVoltage, Pd.inputMin, Pd.supplyFlags, Pd.overruns] s t
    ∧ { t with pd := s.pd, power := s.power, out := s.out, strand := s.strand } = s
    ∧ { t.power with inputMv := s.power.inputMv, pwrgood := s.power.pwrgood } = s.power
    ∧ t.strand.unflushed = s.strand.unflushed ∧ t.strand.flash = s.strand.flash

theorem supplyOnly.refl (s : State) : supplyOnly s s := ⟨storeFrame.refl _ s, rfl, rfl, rfl, rfl⟩

theorem supplyOnly.trans {s t u : State} (h : supplyOnly s t) (h' : supplyOnly t u) : supplyOnly s u := by
  obtain ⟨hstore, hframe, hpower, hwaits, hflash⟩ := h
  obtain ⟨hstore', hframe', hpower', hwaits', hflash'⟩ := h'
  refine ⟨hstore.trans hstore', ?_, ?_, hwaits'.trans hwaits, hflash'.trans hflash⟩
  · rw [← hframe'] at hframe
    exact hframe
  · rw [← hpower'] at hpower
    exact hpower

theorem supplyOnly.ite {s t u : State} {p : Prop} [Decidable p] (ht : supplyOnly s t) (hu : supplyOnly s u) :
    supplyOnly s (if p then t else u) := by
  split
  · exact ht
  · exact hu

theorem supplyOnly.measureInput (s : State) (mv : Nat) (good : Bool) : supplyOnly s (s.measureInput mv good) :=
  ⟨(s.measureInput_store mv good).mono (by simp), rfl, rfl, rfl, rfl⟩

theorem supplyOnly.setFlags (s : State) (m : Nat) : supplyOnly s (s.setFlags Pd.supplyFlags m) :=
  ⟨(s.setFlags_store Pd.supplyFlags m).mono (by simp), rfl, rfl, rfl, rfl⟩

theorem supplyOnly.record (s : State) (g : Nat) (c : BitVec 16) (uk un : Nat) (d : List Byte) :
    supplyOnly s (s.record g c uk un d) := by
  refine ⟨(s.record_store g c uk un d).mono (by simp), ?_⟩
  unfold State.record
  split <;> exact ⟨rfl, rfl, rfl, rfl⟩

theorem supplyOnly.vector (s : State) (v : Nat) : supplyOnly s (s.vector v) := ⟨storeFrame.of_pd rfl, rfl, rfl, rfl, rfl⟩

theorem supplyOnly.startFlush (s : State) : supplyOnly s s.startFlush := ⟨storeFrame.of_pd rfl, rfl, rfl, rfl, rfl⟩

theorem supplyOnly.raiseSupplyWarning (s : State) : supplyOnly s s.raiseSupplyWarning :=
  (((supplyOnly.setFlags s 3).trans (.vector _ 0)).trans (.record _ _ _ _ _ _)).trans (.startFlush _)

/-- SUPPLY_WARNING reads the input, notes a drop of PWRGOOD_IN, and raises the warning, each where it applies. -/
theorem execSupplyWarning_supplyOnly {s t : State} {mv : Nat} {good : Bool} (h : execSupplyWarning mv good s = .next t) :
    supplyOnly s t := by
  unfold execSupplyWarning at h
  split at h
  · cases h
    have hread : supplyOnly s (if (s.power.pwrgood && !good) = true
        then (s.measureInput mv good).setFlags Pd.supplyFlags 4 else s.measureInput mv good) :=
      .ite ((supplyOnly.measureInput s mv good).trans (.setFlags _ 4)) (.measureInput s mv good)
    exact .ite hread (hread.trans (.raiseSupplyWarning _))
  · cases h
    exact .refl s

end Sys2Proof.Machine

open Sys2Proof Sys2Proof.Machine

/-- Settles O8: each thing SUPPLY_WARNING does is about the supply and the recorder alone. -/
theorem supplyWarningDisturbsNothing : Obligations.SupplyWarningDisturbsNothing := by
  unfold Obligations.SupplyWarningDisturbsNothing
  exact fun _ _ _ _ h => execSupplyWarning_supplyOnly h
end

section
/-!
PROOFS. Straps and temperature (spec/01 R35, R40 to R43): what a sample stores and moves, what a trip stops, and the statement
`StrapsAndTemperature` assembled from them.
-/
namespace Sys2Proof.Machine

/-! ### Straps -/

theorem strapCheckChangesNoNumber : Claims.StrapCheckChangesNoNumber := by
  intro s live hqueue
  have hexec : exec (.strapCheck live) s = if 2 ≤ s.power.step ∧ live.toNat ≠ s.reg Pd.straps then
      .next ((({ s with power := { s.power with liveStraps := live } } : State).setFlags Pd.strapMismatch 1).record 0x02 St.ok 0
        noUnit (natLE 2 (s.reg Pd.straps) ++ natLE 2 live.toNat))
      else .next { s with power := { s.power with liveStraps := live } } := rfl
  by_cases hdiff : 2 ≤ s.power.step ∧ live.toNat ≠ s.reg Pd.straps
  · rw [if_pos hdiff, State.record_queue _ _ _ _ _ _ (by exact hqueue)] at hexec
    refine ⟨_, hexec, rfl, ?_, rfl, ?_⟩
    · exact (State.setFlags_store _ _ _ : storeFrame [Pd.strapMismatch] { s with power := { s.power with liveStraps := live } } _)
    · rw [if_pos hdiff]
      exact ⟨State.setFlags_reg _ _ _, rfl⟩
  · rw [if_neg hdiff] at hexec
    refine ⟨_, hexec, rfl, storeFrame.of_pd rfl, rfl, ?_⟩
    rw [if_neg hdiff]
    exact ⟨rfl, rfl⟩

/-! ### The hottest reading -/

/-- The running maximum is one of the readings passed or the first taken, and no reading passed is above it. -/
theorem hottest_foldl (l : List (Int × Nat)) (a : Int × Nat) :
    let m := l.foldl (fun a e => if a.1 < e.1 then (e.1, e.2 + 1) else a) a
    (m.1 = a.1 ∨ ∃ e ∈ l, m.1 = e.1) ∧ a.1 ≤ m.1 ∧ ∀ e ∈ l, e.1 ≤ m.1 := by
  induction l generalizing a with
  | nil => simp
  | cons e l ih =>
    intro m
    obtain ⟨hmem, hge, hall⟩ := ih (if a.1 < e.1 then (e.1, e.2 + 1) else a)
    change (m.1 = _ ∨ ∃ x ∈ l, m.1 = x.1) at hmem
    change _ ≤ m.1 at hge
    change ∀ x ∈ l, x.1 ≤ m.1 at hall
    by_cases h : a.1 < e.1
    · rw [if_pos h] at hmem hge
      refine ⟨.inr ?_, by omega, ?_⟩
      · rcases hmem with hm | ⟨x, hx, hm⟩
        · exact ⟨e, by simp, hm⟩
        · exact ⟨x, by simp [hx], hm⟩
      · simpa [List.forall_mem_cons] using ⟨hge, fun i n hx => hall (i, n) hx⟩
    · rw [if_neg h] at hmem hge
      refine ⟨hmem.imp_right fun ⟨x, hx, hm⟩ => ⟨x, by simp [hx], hm⟩, hge, ?_⟩
      exact List.forall_mem_cons.mpr ⟨by omega, hall⟩

/-- The hottest of the readings is the one that no other exceeds. -/
theorem hottestOf_fst {l : List Int} {hot : Int} (hmem : hot ∈ l) (hmax : ∀ x ∈ l, x ≤ hot) : (hottestOf l).1 = hot := by
  obtain ⟨hone, hfirst, hall⟩ := hottest_foldl l.zipIdx (l.headD 0, 1)
  have hle : hot ≤ (hottestOf l).1 := by
    obtain ⟨i, hi, rfl⟩ := List.getElem_of_mem hmem
    exact hall (l[i], i) (by rw [List.mk_mem_zipIdx_iff_getElem?, List.getElem?_eq_getElem hi])
  have hge : (hottestOf l).1 ≤ hot := by
    rcases hone with h | ⟨e, he, h⟩
    · have hne : l ≠ [] := List.ne_nil_of_mem hmem
      exact (le_of_eq h).trans (hmax _ (by cases l with
        | nil => exact absurd rfl hne
        | cons x l => simp))
    · exact (le_of_eq h).trans (hmax _ (List.fst_mem_of_mem_zipIdx he))
  omega

/-! ### The throttle level (spec/01 R40, R42) -/

/-- The thresholds rise by 2 °C from level to level, so those a reading has reached are those of the lowest levels. -/
theorem State.levelThreshold_reached (s : State) (hot : Int) :
    ∃ up ≤ 4, ([1, 2, 3, 4].filter fun l => decide (s.levelThreshold l ≤ hot)).length = up
      ∧ ∀ l, 1 ≤ l → l ≤ 4 → (s.levelThreshold l ≤ hot ↔ l ≤ up) := by
  obtain ⟨up, hup, hreached⟩ : ∃ up ≤ 4, ∀ l, 1 ≤ l → l ≤ 4 → (s.levelThreshold l ≤ hot ↔ l ≤ up) := by
    refine ⟨min 4 ((hot - toSigned 32 (s.reg Pd.throttleStart)) / 2000 + 1).toNat, by omega, fun l hl hl' => ?_⟩
    unfold State.levelThreshold
    omega
  refine ⟨up, hup, ?_, hreached⟩
  have hfilter : ([1, 2, 3, 4].filter fun l => decide (s.levelThreshold l ≤ hot)) = [1, 2, 3, 4].filter fun l => decide (l ≤ up) := by
    refine List.filter_congr fun l hl => decide_eq_decide.mpr (hreached l ?_ ?_) <;> simp at hl <;> omega
  rw [hfilter]
  interval_cases up <;> rfl

/-- The level after a sample: up to the highest threshold reached, down by one 2 °C below the present one, else as it was. -/
theorem State.levelAfter_spec (s : State) (hot : Int) (h : s.reg Pd.throttleLevel ≤ 4) :
    s.levelAfter hot ≤ 4
      ∧ (s.reg Pd.throttleLevel < s.levelAfter hot → s.levelThreshold (s.levelAfter hot) ≤ hot)
      ∧ (s.levelAfter hot < s.reg Pd.throttleLevel → s.levelAfter hot + 1 = s.reg Pd.throttleLevel
          ∧ hot ≤ s.levelThreshold (s.reg Pd.throttleLevel) - 2000)
      ∧ (∀ l, 1 ≤ l → l ≤ 4 → s.levelThreshold l ≤ hot → l ≤ s.levelAfter hot)
      ∧ (s.levelAfter hot = s.reg Pd.throttleLevel → 0 < s.reg Pd.throttleLevel →
          s.levelThreshold (s.reg Pd.throttleLevel) - 2000 < hot) := by
  obtain ⟨up, hup, hlength, hreached⟩ := s.levelThreshold_reached hot
  unfold State.levelAfter
  rw [hlength]
  generalize s.reg Pd.throttleLevel = old at *
  dsimp only
  split_ifs with hrise hfall
  · exact ⟨hup, fun _ => (hreached up (by omega) hup).mpr le_rfl, by omega, fun l hl hl' ht => (hreached l hl hl').mp ht, by omega⟩
  · refine ⟨by omega, by omega, fun _ => ⟨by omega, hfall.2⟩, fun l hl hl' ht => ?_, by omega⟩
    have hlu := (hreached l hl hl').mp ht
    have hne : l ≠ old := by rintro rfl; omega
    omega
  · refine ⟨h, by omega, by omega, fun l hl hl' ht => ?_, fun _ hpos => ?_⟩
    · have := (hreached l hl hl').mp ht
      omega
    · by_contra hcold
      exact hfall ⟨hpos, by omega⟩

/-! ### What a sample stores (spec/01 R40, Table 01-10) -/

/-- Consecutive entries written from a list: each reads as its element has it, and nothing else changes. -/
theorem State.setRegs_spec (k : Nat) (f : Int → Nat) (l : List Int) (s : State) (m : Nat) :
    let t := (l.zipIdx m).foldl (fun s e => s.setReg (k + e.2) (f e.1)) s
    (∀ i (h : i < l.length), t.reg (k + (m + i)) = f l[i])
      ∧ storeFrame ((List.range' m l.length).map (k + ·)) s t ∧ t = { s with pd := t.pd } := by
  induction l generalizing s m with
  | nil => exact ⟨fun i h => absurd h (by simp), storeFrame.refl _ s, rfl⟩
  | cons x l ih =>
    intro t
    obtain ⟨hreads, hstore, hframe⟩ := ih (s.setReg (k + m) (f x)) (m + 1)
    refine ⟨fun i hi => ?_, ?_, hframe⟩
    · cases i with
      | zero =>
        have hout : k + m ∉ (List.range' (m + 1) l.length).map (k + ·) := by
          simp
        exact (hstore.reg hout).trans (s.reg_setReg_same _ _)
      | succ i =>
        have hread := hreads i (by simpa using hi)
        rwa [Nat.add_assoc m 1 i, Nat.add_comm 1 i] at hread
    · exact ((storeFrame.refl _ s).setReg _ (by simp)).trans (hstore.mono (by
        simp only [List.length_cons, List.range'_succ, List.map_cons]
        exact fun _ h => List.mem_cons_of_mem _ h))

section
variable (s : State) (j : Vector Int 8) (hot : Int) (block : Nat)

theorem State.storeJunctions_frame (l : List Int) : s.storeJunctions l hot block = { s with pd := (s.storeJunctions l hot block).pd } := by
  obtain ⟨-, -, hframe⟩ := State.setRegs_spec Pd.blockJunction (ofSigned 32) l s 0
  unfold State.storeJunctions
  rw [hframe]
  rfl

theorem State.storeJunctions_hottest : (s.storeJunctions j.toList hot block).reg Pd.hottestJunction = ofSigned 32 hot :=
  (State.reg_setReg_ne _ (by decide)).trans (State.reg_setReg_same _ _ _)

theorem State.storeJunctions_reading (i : Fin 8) :
    (s.storeJunctions j.toList hot block).reg (Pd.blockJunction + i.val) = ofSigned 32 j[i] := by
  obtain ⟨hreads, -, -⟩ := State.setRegs_spec Pd.blockJunction (ofSigned 32) j.toList s 0
  have hread := hreads i.val (by simp)
  have hne : Pd.blockJunction + i.val ≠ Pd.hottestBlock ∧ Pd.blockJunction + i.val ≠ Pd.hottestJunction := by
    constructor <;> simp only [Pd.blockJunction, Pd.hottestBlock, Pd.hottestJunction] <;> omega
  rw [Nat.zero_add] at hread
  exact (State.reg_setReg_ne _ hne.1).trans ((State.reg_setReg_ne _ hne.2).trans (by simpa using hread))

end

/-! ### The throttle level and THERM_N -/

theorem State.setThrottle_level (s : State) (l : Nat) : (s.setThrottle l).reg Pd.throttleLevel = l := by
  unfold State.setThrottle
  dsimp only
  split
  · rw [(State.clearFlags_store _ _ _ _).reg (by decide), State.reg_setReg_same]
  · rw [(State.setFlags_store _ _ _).reg (by decide), State.reg_setReg_same]

theorem State.setThrottle_store (s : State) (l : Nat) : storeFrame [Pd.throttleLevel, Pd.thermalFlags] s (s.setThrottle l) := by
  have hlevel : storeFrame [Pd.throttleLevel, Pd.thermalFlags] s (s.setReg Pd.throttleLevel l) :=
    (storeFrame.refl _ s).setReg _ (by simp)
  unfold State.setThrottle
  dsimp only
  split
  · exact hlevel.trans ((State.clearFlags_store _ _ _ _).mono (by simp))
  · exact hlevel.trans ((State.setFlags_store _ _ _).mono (by simp))

theorem State.setThrottle_frame (s : State) (l : Nat) : s.setThrottle l = { s with pd := (s.setThrottle l).pd } := by
  unfold State.setThrottle
  dsimp only
  split <;> rfl

theorem State.setTherm_store (s : State) (on : Bool) (d : List Byte) :
    storeFrame [Pd.thermalFlags, Pd.overruns] s (s.setTherm on d) := by
  have hpin : storeFrame [Pd.thermalFlags, Pd.overruns] s { s with power := { s.power with thermN := on } } := storeFrame.of_pd rfl
  unfold State.setTherm
  cases on with
  | false => exact hpin.trans ((State.clearFlags_store _ _ _ _).mono (by simp))
  | true =>
    have hflags := hpin.trans ((State.setFlags_store _ Pd.thermalFlags 12).mono (by simp))
    dsimp only
    rw [if_pos rfl]
    split
    · exact hflags
    · exact hflags.trans (((State.record_store _ _ _ _ _ _).mono (by simp)).trans (storeFrame.of_pd rfl))

theorem State.setTherm_frame (s : State) (on : Bool) (d : List Byte) :
    s.setTherm on d = { s with pd := (s.setTherm on d).pd, power := { s.power with thermN := on }
                               out := (s.setTherm on d).out, strand := (s.setTherm on d).strand } := by
  unfold State.setTherm State.record
  cases on with
  | false => rfl
  | true =>
    dsimp only
    split_ifs <;> rfl

/-! ### A sample (spec/01 R40 to R42) -/

/-- The recorder's detail of a sample: the hottest reading and its block. -/
def sampleDetail (j : Vector Int 8) : List Byte := natLE 4 (ofSigned 32 (hottestOf j.toList).1) ++ natLE 1 (hottestOf j.toList).2

/-- What a sample of a running module leaves short of the trip: the readings, the throttle level, THERM_N. -/
def State.sampled (s : State) (j : Vector Int 8) : State :=
  ((s.storeJunctions j.toList (hottestOf j.toList).1 (hottestOf j.toList).2).setThrottle (s.levelAfter (hottestOf j.toList).1)).setTherm
    (decide (103000 ≤ (hottestOf j.toList).1)) (sampleDetail j)

theorem exec_thermalSample {s : State} {j : Vector Int 8} (hstep : s.power.step ≠ 1) (hstate : s.reg Pd.powerState ≠ 3) :
    exec (.thermalSample j) s = .next (if 105000 ≤ (hottestOf j.toList).1 then (s.sampled j).trip (sampleDetail j) else s.sampled j) := by
  have hrunning : s.tripped ≠ true := mt s.tripped_iff.mp hstate
  change execThermalSample j s = _
  rw [execThermalSample, if_neg hstep, if_neg hrunning]
  rfl

/-- A sample changes its entries, THERM_N, the recorder and what was sent. -/
theorem State.sampled_frame (s : State) (j : Vector Int 8) :
    s.sampled j = { s with pd := (s.sampled j).pd, power := { s.power with thermN := decide (103000 ≤ (hottestOf j.toList).1) }
                           out := (s.sampled j).out, strand := (s.sampled j).strand } := by
  unfold State.sampled
  rw [State.setTherm_frame, State.setThrottle_frame, State.storeJunctions_frame]

/-- The entries that a sample moves besides its readings. -/
theorem State.sampled_reg {s : State} {j : Vector Int 8} {k : Nat} (hk : k ∉ [Pd.throttleLevel, Pd.thermalFlags, Pd.overruns]) :
    (s.sampled j).reg k = (s.storeJunctions j.toList (hottestOf j.toList).1 (hottestOf j.toList).2).reg k := by
  simp only [List.mem_cons, List.not_mem_nil, or_false, not_or] at hk
  obtain ⟨hlevel, hflags, hoverruns⟩ := hk
  exact ((State.setTherm_store _ _ _).reg (by simp [hflags, hoverruns])).trans
    ((State.setThrottle_store _ _).reg (by simp [hlevel, hflags]))

theorem State.sampled_level (s : State) (j : Vector Int 8) :
    (s.sampled j).reg Pd.throttleLevel = s.levelAfter (hottestOf j.toList).1 :=
  ((State.setTherm_store _ _ _).reg (by decide)).trans (State.setThrottle_level _ _)

theorem thermalSampleMovesThrottle : Claims.ThermalSampleMovesThrottle := by
  intro s j hot hstep hstate hmem hmax hlow hold
  have hhot := hottestOf_fst hmem hmax
  have hexec := exec_thermalSample (j := j) hstep hstate
  rw [hhot, if_neg (by omega)] at hexec
  obtain ⟨hle, hrise, hfall, hreached, hstays⟩ := s.levelAfter_spec hot hold
  refine ⟨_, hexec, ?_, fun i => ?_, ?_⟩
  · rw [State.sampled_reg (by decide), State.storeJunctions_hottest, hhot]
  · rw [State.sampled_reg, State.storeJunctions_reading]
    have := i.isLt
    simp only [Pd.blockJunction, Pd.throttleLevel, Pd.thermalFlags, Pd.overruns, List.mem_cons, List.not_mem_nil, or_false]
    omega
  · rw [s.sampled_level, hhot, s.sampled_frame, hhot]
    exact ⟨rfl, hle, hrise, hfall, hreached, hstays, rfl, rfl, rfl, rfl⟩

/-! ### The trip (spec/01 R43) -/

/-- A long operation that runs ends ABORTED, with its entry (log 162). -/
def State.endRun (s : State) (r : Nat) : State := if s.opActive r then (s.recordAborted r).opEnd r 5 St.aborted else s

theorem runsNoted.endRun (s : State) (r : Nat) : runsNoted s (s.endRun r) :=
  .ite ((runsNoted.recordAborted s r).trans (.opEnd _ r 5 St.aborted)) (.refl s)

theorem State.recordAborted_op (s : State) (r i : Nat) : (s.recordAborted r).op i = s.op i := by
  unfold State.recordAborted State.record
  split <;> rfl

theorem State.endRun_op (s : State) {r : Nat} (h : s.opActive r = true) :
    ((s.endRun r).op r).state = 5 ∧ ((s.endRun r).op r).code = St.aborted := by
  rw [State.endRun, if_pos h, State.opEnd_op]
  exact ⟨rfl, rfl⟩

theorem State.endRun_op_ne (s : State) {r i : Nat} (h : i ≠ r) : (s.endRun r).op i = s.op i := by
  unfold State.endRun
  split
  · rw [State.opEnd_ne _ _ _ h, s.recordAborted_op]
  · rfl

/-- Rows ended in turn: each that ran has ended ABORTED, and the others stay. -/
theorem State.endRuns_op {l : List Nat} (hl : l.Nodup) (s : State) :
    (∀ r ∈ l, s.opActive r = true → ((l.foldl State.endRun s).op r).state = 5 ∧ ((l.foldl State.endRun s).op r).code = St.aborted)
      ∧ ∀ r, r ∉ l → (l.foldl State.endRun s).op r = s.op r := by
  induction l generalizing s with
  | nil => simp
  | cons a l ih =>
    obtain ⟨ha, hl⟩ := List.nodup_cons.mp hl
    obtain ⟨hin, hout⟩ := ih hl (s.endRun a)
    refine ⟨fun r hr hactive => ?_, fun r hr => ?_⟩
    · rcases List.mem_cons.mp hr with rfl | hr
      · rw [List.foldl_cons, hout r ha]
        exact s.endRun_op hactive
      · have hne : r ≠ a := fun h => ha (h ▸ hr)
        exact hin r hr (by rwa [State.opActive, s.endRun_op_ne hne])
    · rw [List.mem_cons, not_or] at hr
      rw [List.foldl_cons, hout r hr.2, s.endRun_op_ne hr.1]

/-- Unlocking a range of islands changes the lock bits' entry only. -/
theorem State.unlockIslands_frame (s : State) (a b : Nat) : s.unlockIslands a b = { s with pd := (s.unlockIslands a b).pd } := by
  unfold State.unlockIslands
  cases s
  rfl

/-- No island from a to b stays locked. -/
theorem State.unlockIslands_testBit (s : State) {a b n : Nat} (ha : a ≤ n) (hn : n ≤ b) (hb : b < 128) :
    ((s.unlockIslands a b).reg Pd.islandLocked).testBit n = false := by
  have hmask : (2 ^ (b + 1) - 2 ^ a).testBit n = true := by
    have hsplit : 2 ^ (b + 1) - 2 ^ a = 2 ^ a * (2 ^ (b + 1 - a) - 1) := by
      rw [Nat.mul_sub, ← pow_add, Nat.add_sub_cancel' (by omega), Nat.mul_one]
    rw [hsplit, Nat.testBit_two_pow_mul, Nat.testBit_two_pow_sub_one]
    simp only [ha, decide_true, Bool.true_and, decide_eq_true_eq]
    omega
  unfold State.unlockIslands
  rw [State.clearFlags_reg, Nat.testBit_and, Nat.testBit_xor, Nat.testBit_mod_two_pow, hmask, Nat.testBit_two_pow_sub_one]
  simp [show n < 128 by omega]

/-- Clearing consecutive entries of one key changes no entry of another. -/
theorem storeFrame.clearEntries (s : State) {k lo n : Nat} (h : lo + n ≤ 16777216) :
    storeFrame [k] s { s with pd := tclear s.pd (pdKey k lo) n } := by
  intro k' u hk hu
  have hne : k' ≠ k := fun h => hk (by simp [h])
  change tget 0 (tclear s.pd (pdKey k lo) n) (pdKey k' u) = tget 0 s.pd (pdKey k' u)
  rw [tget_tclear, if_neg]
  unfold pdKey
  omega

/-- A trip before the runs end: noted, the flush begun, vector 1 sent, POWER_STATE TRIPPED. -/
def State.tripNoted (s : State) (d : List Byte) : State :=
  ((s.record 0x01 St.ok 0 noUnit d).startFlush.vector 1).setReg Pd.powerState 3

theorem State.tripNoted_fields (s : State) (d : List Byte) :
    (s.tripNoted d).reg Pd.powerState = 3 ∧ (s.tripNoted d).power = s.power ∧ (s.tripNoted d).strand.flushing = true
      ∧ (s.tripNoted d).out.getLast? = some (.msix 1) ∧ (s.tripNoted d).ops = s.ops := by
  obtain ⟨hframe, -, -⟩ := runsNoted.record s 0x01 St.ok 0 noUnit d
  refine ⟨State.reg_setReg_same _ _ _, ?_, rfl, List.getLast?_concat, ?_⟩
  · exact (congrArg State.power hframe :)
  · unfold State.tripNoted State.record
    split <;> rfl

/-- The links' entries cleared: the module's place in LINK_MAP, and PORT_STATUS of every port. -/
def State.linksCleared (s : State) : State :=
  { s with pd := tclear (tclear s.pd (pdKey Pd.linkMap s.position) 1) (pdKey Pd.portStatus 0) 20 }

theorem State.linksCleared_store (s : State) : storeFrame [Pd.linkMap, Pd.portStatus] s s.linksCleared := by
  have hposition : s.position < 64 := Nat.mod_lt _ (by decide)
  have hmap := storeFrame.clearEntries s (k := Pd.linkMap) (lo := s.position) (n := 1) (by omega)
  have hports := storeFrame.clearEntries { s with pd := tclear s.pd (pdKey Pd.linkMap s.position) 1 } (k := Pd.portStatus) (lo := 0)
    (n := 20) (by decide)
  exact (hmap.mono (by simp)).trans (hports.mono (by simp))

/-- A trip after the runs have ended: the islands unlocked, the links' entries cleared, every stage but the Harbour's off. -/
def State.tripStopped (s : State) : State :=
  { (s.unlockIslands 1 115).linksCleared with
    power := { s.power with stageCliffs := false, stageLinks := false, stageHouse := false, forwarding := false
                            routed := false, thermN := true }
    headland := {}, engines := [], finished := [], endings := [], spec := [], reruns := [], estuary := {}, heads := []
    causeway := {}, rooms := [] }

theorem State.trip_eq (s : State) (d : List Byte) : s.trip d = (s.tripNoted d).tripRuns.tripStopped := by
  unfold State.trip
  change _ = State.tripStopped (State.tripRuns (((s.record 0x01 St.ok 0 noUnit d).startFlush.vector 1).setReg Pd.powerState 3))
  generalize State.tripRuns (((s.record 0x01 St.ok 0 noUnit d).startFlush.vector 1).setReg Pd.powerState 3) = u
  rfl

/-- The runs' end leaves POWER_STATE, the power and what was sent; each run under way has ended ABORTED (log 162). -/
theorem State.tripRuns_fields (s : State) :
    s.tripRuns.reg Pd.powerState = s.reg Pd.powerState ∧ s.tripRuns.power = s.power ∧ s.tripRuns.out = s.out
      ∧ s.tripRuns.strand.flushing = s.strand.flushing
      ∧ ∀ r, 1 ≤ r → r ≤ 7 → s.opActive r = true → (s.tripRuns.op r).state = 5 ∧ (s.tripRuns.op r).code = St.aborted := by
  obtain ⟨hended, -⟩ := s.endRuns_op (l := [1, 2, 3, 4, 5, 6, 7]) (by decide)
  obtain ⟨hframe, hstore, hstrand⟩ := runsNoted.foldl runsNoted.endRun [1, 2, 3, 4, 5, 6, 7] s
  have hruns : ∀ u, [1, 2, 3, 4, 5, 6, 7].foldl State.endRun s = u → s.tripRuns =
      { u with selfTest := none, repair := none, bulk := none, rebuild := none, stow := { u.stow with run := none, restore := none } } := by
    have hrun : (fun (s : State) (r : Nat) => if s.opActive r then (s.recordAborted r).opEnd r 5 St.aborted else s) = State.endRun := rfl
    intro u hu
    unfold State.tripRuns
    rw [hrun, hu]
  generalize [1, 2, 3, 4, 5, 6, 7].foldl State.endRun s = u at *
  rw [hruns u rfl]
  refine ⟨hstore.reg (by decide), ?_, ?_, ?_, fun r hr hr' => hended r ?_⟩
  · exact (congrArg State.power hframe :)
  · exact (congrArg State.out hframe :)
  · exact (congrArg Strand.flushing hstrand :)
  · simp
    omega

/-- The store of a stopped module: the islands' lock bits, LINK_MAP and PORT_STATUS aside, as it was. -/
theorem State.tripStopped_store (s : State) : storeFrame [Pd.islandLocked, Pd.linkMap, Pd.portStatus] s s.tripStopped :=
  ((State.clearFlags_store s Pd.islandLocked 128 (2 ^ (115 + 1) - 2 ^ 1)).mono (by simp)).trans
    (((s.unlockIslands 1 115).linksCleared_store.mono (by simp)).trans (storeFrame.of_pd rfl))

theorem State.tripStopped_fields (s : State) :
    s.tripStopped.power = { s.power with stageCliffs := false, stageLinks := false, stageHouse := false, forwarding := false
                                         routed := false, thermN := true }
      ∧ s.tripStopped.strand = s.strand ∧ s.tripStopped.out = s.out ∧ s.tripStopped.ops = s.ops ∧ s.tripStopped.inFlight = [] := by
  unfold State.tripStopped State.linksCleared
  rw [State.unlockIslands_frame]
  exact ⟨rfl, rfl, rfl, rfl, rfl⟩

theorem State.tripStopped_unlocked (s : State) {n : Nat} (h : 1 ≤ n) (h' : n < 116) :
    (s.tripStopped.reg Pd.islandLocked).testBit n = false :=
  (congrArg (Nat.testBit · n) ((s.unlockIslands 1 115).linksCleared_store.reg (by decide))).trans
    (s.unlockIslands_testBit h (show n ≤ 115 by omega) (by decide))

theorem thermalTripStopsTheModule : Claims.ThermalTripStopsTheModule := by
  intro s j hot hstep hstate hmem hmax hhigh
  have hhot := hottestOf_fst hmem hmax
  have hexec := exec_thermalSample (j := j) hstep hstate
  rw [hhot, if_pos hhigh] at hexec
  have hframe := s.sampled_frame j
  refine ⟨_, hexec, ?_⟩
  rw [State.trip_eq]
  obtain ⟨hstateReg, hpower, hflushing, hout, hops⟩ := (s.sampled j).tripNoted_fields (sampleDetail j)
  generalize (s.sampled j).tripNoted (sampleDetail j) = n at *
  obtain ⟨hstateReg', hpower', hout', hflushing', hended⟩ := n.tripRuns_fields
  generalize n.tripRuns = u at *
  obtain ⟨hpower'', hstrand, hout'', hops', hflight⟩ := u.tripStopped_fields
  have hstep' : u.power.step = s.power.step := by
    rw [hpower', hpower, hframe]
  rw [hpower'', hstrand, hout'', u.tripStopped_store.reg (by decide)]
  refine ⟨hstateReg'.trans hstateReg, rfl, hflushing'.trans hflushing, hout' ▸ hout, rfl, rfl, rfl, rfl, hstep', hflight,
    fun i hi hi' => u.tripStopped_unlocked hi hi', fun r hr hr' hactive => ?_⟩
  have hrow : u.tripStopped.op r = u.op r := by rw [State.op, hops']; rfl
  have hactive' : n.opActive r = true := by
    rw [State.opActive, State.op, hops, hframe]
    exact hactive
  rw [hrow]
  exact hended r hr hr' hactive'

end Sys2Proof.Machine

open Sys2Proof Sys2Proof.Machine

/-- Settles O12: STRAP_CHECK by its branch, THERMAL_SAMPLE by what a sample moves, and at 105 °C by what a trip stops. -/
theorem strapsAndTemperature : Obligations.StrapsAndTemperature := by
  unfold Obligations.StrapsAndTemperature
  exact ⟨strapCheckChangesNoNumber, thermalSampleMovesThrottle, thermalTripStopsTheModule⟩
end

section
/-!
PROOFS. A beat's cycle held up for a House line (spec/09 R226, R236), with a write among the requests that the engine's port holds: the
port issues what it holds before the cycle is counted, so memory does not stay as it was. `BeatsAdvanceTheTask` speaks of every state and
sets no bound on what a port holds; the requests that a beat asks for are reads.
-/
namespace Sys2Proof.Machine

/-- A write of a unit's own: byte 0 of Cliff 0, kept by engine 0's port. -/
def heldWrite : CliffReq := { plainReq (.engine 0) true with data := [some 1], hint := 1, tag := 1, own := true }

/-- A task of engine 0 that has begun, with no stream. -/
def begunTask : EngineTask := { task := { unit := 1, part := 0, position := 0, pass := 0, record := [], descs := [] }, started := true }

/-- Engine 0 runs the task; its beat has asked for House line 0, and its port holds the write. -/
def heldWriteState : State :=
  { engines := [(0, { running := some begunTask })], unitPorts := [(1, { begun := true, lines := [0], held := [heldWrite] })] }

/-- What a beat's cycle of engine 0 finds once the port has issued what it can. -/
def heldWriteIssued : State :=
  let s0 := heldWriteState.setEngine 0 { heldWriteState.engine 0 with running := some begunTask }
  (s0.pump 1).noteStaged 1 []

theorem beginTask_heldWriteState : heldWriteState.beginTask begunTask = .go heldWriteState begunTask := by
  decide +kernel

theorem heldWriteIssued_mem : heldWriteIssued.mem = [(0, 1)] := by decide +kernel

theorem heldWriteIssued_waits : (heldWriteIssued.unitPort 1).failed = none ∧ heldWriteIssued.cliffPending 1 = false
    ∧ (heldWriteIssued.unitPort 1).lacksLines = true := by decide +kernel

end Sys2Proof.Machine

open Sys2Proof Sys2Proof.Machine

/-- Refutes O34: a cycle held up for a House line issues a write that the engine's port held, and memory changes. -/
theorem not_beatsAdvanceTheTask : ¬ Obligations.BeatsAdvanceTheTask := by
  unfold Obligations.BeatsAdvanceTheTask
  intro h
  obtain ⟨-, hrunning⟩ := h heldWriteState 0 (by decide)
  obtain ⟨-, hissues⟩ := hrunning begunTask rfl (by decide)
  obtain ⟨-, -, hgo⟩ := hissues (by decide)
  obtain ⟨-, -, hhouse, -⟩ := hgo heldWriteState begunTask beginTask_heldWriteState
  obtain ⟨hfailed, hpending, hlacks⟩ := heldWriteIssued_waits
  obtain ⟨t, -, hmem, -, -, -, hframe⟩ := hhouse hfailed hpending hlacks
  have hissued : t.mem = heldWriteIssued.mem := (congrArg State.mem hframe :)
  rw [hissued, heldWriteIssued_mem] at hmem
  exact absurd hmem (by decide)
end

section
/-!
PROOFS. Crossings (spec/02 R49, R52): credits and entries of a crossing, of an entry written and of an entry removed.
-/
namespace Sys2Proof.Machine

theorem classCode_lt (c : TideClass) : classCode c < 6 := by cases c <;> decide

theorem entryPool_lt (e : CrossEntry) : entryPool e < 7 := by
  have := classCode_lt e.cls
  unfold entryPool
  split <;> omega

/-! ### One crossing -/

/-- A crossing's credits and entries: in each pool they are 8 together. -/
def Crossing.conserves (x : Crossing) : Prop :=
  x.credits.length = 7 ∧ ∀ k < 7, x.pool k + (x.fifo.filter fun e => entryPool e == k).length = 8

theorem Crossing.conserves_default : ({} : Crossing).conserves := ⟨rfl, by decide⟩

section
variable {x : Crossing} {e : CrossEntry}

/-- A pool of credits after one pool was set. -/
theorem getD_set_credits {l : List Nat} {i k v : Nat} (hi : i < l.length) :
    (l.set i v).getD k 0 = if k = i then v else l.getD k 0 := by
  simp only [List.getD_eq_getElem?_getD, List.getElem?_set]
  split
  · next h => simp [h.symm]
  · next h => rw [if_neg (Ne.symm h)]

theorem Crossing.pool_push (hx : x.credits.length = 7) (k : Nat) :
    (x.push e).pool k = if k = entryPool e then x.pool k - 1 else x.pool k := by
  unfold Crossing.push Crossing.pool
  rw [getD_set_credits (by have := entryPool_lt e; omega)]
  split
  · next h => rw [h]
  · rfl

theorem Crossing.pool_drop (hx : x.credits.length = 7) (k : Nat) :
    (x.drop e).pool k = if k = entryPool e then x.pool k + 1 else x.pool k := by
  unfold Crossing.drop Crossing.pool
  rw [getD_set_credits (by have := entryPool_lt e; omega)]
  split
  · next h => rw [h]
  · rfl

/-- An entry written takes the credit it needs. -/
theorem Crossing.conserves.push (h : x.conserves) (hp : x.pool (entryPool e) ≠ 0) : (x.push e).conserves := by
  obtain ⟨hl, hk⟩ := h
  refine ⟨by simp [Crossing.push, hl], fun k hk7 => ?_⟩
  have := hk k hk7
  rw [Crossing.pool_push hl]
  simp only [Crossing.push, List.filter_append, List.length_append, List.filter_cons, List.filter_nil, beq_iff_eq]
  split
  · next he => subst he; simp; omega
  · next he => rw [if_neg (Ne.symm he)]; simpa using this

/-- An entry removed gives its credit back. -/
theorem Crossing.conserves.drop (h : x.conserves) (he : e ∈ x.fifo) : (x.drop e).conserves := by
  obtain ⟨hl, hk⟩ := h
  refine ⟨by simp [Crossing.drop, hl], fun k hk7 => ?_⟩
  have hsum := hk k hk7
  rw [Crossing.pool_drop hl]
  simp only [Crossing.drop, ← List.countP_eq_length_filter] at hsum ⊢
  rw [List.countP_erase]
  split
  · next hke =>
    subst hke
    have : 0 < x.fifo.countP fun y => entryPool y == entryPool e := List.countP_pos_iff.mpr ⟨e, he, by simp⟩
    simp [he]
    omega
  · next hke => simp [Ne.symm hke, hsum]

/-- Every entry goes back to its sender. -/
theorem Crossing.conserves.dropAll : ∀ {x : Crossing}, x.conserves → (x.fifo.foldl Crossing.drop x).conserves := by
  have key : ∀ (l : List CrossEntry) (x : Crossing), x.fifo = l → x.conserves → (l.foldl Crossing.drop x).conserves := by
    intro l
    induction l with
    | nil => exact fun _ _ h => h
    | cons e l ih => exact fun x hx h => ih _ (by simp [Crossing.drop, hx]) (h.drop (by simp [hx]))
  exact fun {_} h => key _ _ rfl h

end

/-! ### The table of crossings -/

theorem mem_tset [DecidableEq α] {d : α} {t : Tab α} {k : Nat} {v : α} {e : Nat × α} (h : e ∈ tset d t k v) :
    e = (k, v) ∨ e ∈ t := by
  unfold tset at h
  split at h
  · exact .inr (mem_terase.mp h).1
  · exact (mem_tinsert h).imp_right fun h => (mem_terase.mp h).1

/-- A key reads as the default, or as an entry of the table. -/
theorem tget_mem_or (d : α) (t : Tab α) (k : Nat) : tget d t k = d ∨ (k, tget d t k) ∈ t := by
  induction t with
  | nil => exact .inl rfl
  | cons e t ih =>
    simp only [tget]
    split
    · next h => subst h; exact .inr (by simp)
    · exact ih.imp_right (List.mem_cons_of_mem _)

section
variable {s : State}

theorem State.crossingsOk.conserves (h : s.crossingsOk) (a b : Nat) : (s.crossing a b).conserves := by
  rcases tget_mem_or {} s.crossings (128 * a + b) with hd | hm
  · unfold State.crossing
    rw [hd]; exact Crossing.conserves_default
  · exact h _ hm

theorem State.crossingsOk.setCrossing {a b : Nat} {x : Crossing} (h : s.crossingsOk) (hx : x.conserves) :
    (s.setCrossing a b x).crossingsOk := by
  intro e he
  rcases mem_tset he with rfl | he
  · exact hx
  · exact h e he

end

end Sys2Proof.Machine
end

section
/-!
PROOFS. `State.safe`, kept by every operation: the forms in which the operations' rules are stated, and the rules of the ways in
which operations are put together. An operation that answers a state, a pair, an `Except` or a command's outcome has its rule under
the name of the form (`State.safe.bump`, `SafeFst.send`, `SafeOk.writeElems`, `execPowerUp_safe`), so that a proof follows the
operation's own text from the last state back to the first.
-/
namespace Sys2Proof.Machine

/-! ### The invariant in what an operation answers -/

/-- A pair whose state is safe. -/
def SafeFst {α : Type} (x : State × α) : Prop := x.1.safe

/-- An entry's work that leaves a safe state. -/
def Served.safe (x : Served) : Prop := x.state.safe

/-- What an entry does with a request, where it leaves every safe state safe. -/
def Serve.safe (v : Serve) : Prop := ∀ r e q s, s.safe → (v r e q s).safe

/-- An outcome whose next state, where it has one, is safe. -/
def SafeRes (r : Res) : Prop := ∀ t, r = .next t → t.safe

/-- A state, where there is one, that is safe. -/
def SafeOption (r : Option State) : Prop := ∀ t, r = some t → t.safe

/-- An operation of a unit that stops or leaves a safe state. -/
def SafeOk {ε : Type} (r : Except ε State) : Prop := ∀ t, r = .ok t → t.safe

/-- An operation of a unit that stops or answers a pair whose state is safe. -/
def SafeOkFst {ε α : Type} (r : Except ε (State × α)) : Prop := ∀ t, r = .ok t → t.1.safe

variable {s t : State} {α ε : Type} {p : Prop} [Decidable p]

theorem SafeFst.fst {x : State × α} (h : SafeFst x) : x.1.safe := h

theorem State.safe.fst {x : State × α} (h : SafeFst x) : x.1.safe := h

/-- The state of a pair that is known. -/
theorem State.safe.of_fst {x : State × α} {a : α} (h : SafeFst x) (e : x = (t, a)) : t.safe := by
  subst e; exact h

theorem SafeFst.mk {a : α} (h : s.safe) : SafeFst (s, a) := h

theorem SafeFst.ite {x y : State × α} (h : SafeFst x) (h' : SafeFst y) : SafeFst (if p then x else y) :=
  iteInduction (fun _ => h) (fun _ => h')

theorem State.safe.ite (h : s.safe) (h' : t.safe) : (if p then s else t).safe :=
  iteInduction (fun _ => h) (fun _ => h')

/-- An operation that is carried out in some states only. -/
theorem State.safe.when (hf : s.safe → t.safe) (h : s.safe) : (if p then t else s).safe := .ite (hf h) h

theorem State.safe.unless (hf : s.safe → t.safe) (h : s.safe) : (if p then s else t).safe := .ite h (hf h)

theorem State.safe.dite {a : p → State} {b : ¬p → State} (h : ∀ hp, (a hp).safe) (h' : ∀ hp, (b hp).safe) : (dite p a b).safe := by
  split
  · exact h _
  · exact h' _

theorem Served.safe.ite {x y : Served} (h : x.safe) (h' : y.safe) : (if p then x else y).safe :=
  iteInduction (fun _ => h) (fun _ => h')

theorem Served.safe.mk {c : BitVec 16} {bs : List Byte} {w : Option Wait} (h : s.safe) :
    Served.safe { state := s, status := c, payload := bs, wait := w } := h

theorem Served.safe.of_serve {v : Serve} {r : Role} {e : EntryInfo} {q : Req} (hv : Serve.safe v) (h : s.safe) : (v r e q s).safe :=
  hv r e q s h

theorem Serve.safe.ite {v w : Serve} (h : Serve.safe v) (h' : Serve.safe w) : Serve.safe (if p then v else w) :=
  iteInduction (fun _ => h) (fun _ => h')

theorem State.safe.served {x : Served} (h : x.safe) : x.state.safe := h

theorem SafeRes.next (h : t.safe) : SafeRes (.next t) := fun _ e => by cases e; exact h

theorem SafeRes.fault {f : Fault} : SafeRes (.fault f) := fun _ e => by cases e

theorem SafeRes.ite {x y : Res} (h : SafeRes x) (h' : SafeRes y) : SafeRes (if p then x else y) :=
  iteInduction (fun _ => h) (fun _ => h')

theorem SafeOption.some (h : t.safe) : SafeOption (some t) := fun _ e => by cases e; exact h

theorem SafeOption.none : SafeOption none := fun _ e => by cases e

theorem SafeOption.ite {x y : Option State} (h : SafeOption x) (h' : SafeOption y) : SafeOption (if p then x else y) :=
  iteInduction (fun _ => h) (fun _ => h')

theorem SafeOk.ok (h : t.safe) : SafeOk (.ok t : Except ε State) := fun _ e => by cases e; exact h

theorem SafeOk.error {e : ε} : SafeOk (.error e) := fun _ e => by cases e

theorem SafeOk.ite {x y : Except ε State} (h : SafeOk x) (h' : SafeOk y) : SafeOk (if p then x else y) :=
  iteInduction (fun _ => h) (fun _ => h')

theorem SafeOkFst.ok {a : α} (h : t.safe) : SafeOkFst (.ok (t, a) : Except ε (State × α)) := fun _ e => by cases e; exact h

theorem SafeOkFst.okOf {x : State × α} (h : SafeFst x) : SafeOkFst (.ok x : Except ε (State × α)) := fun _ e => by cases e; exact h

theorem SafeOkFst.error {e : ε} : SafeOkFst (.error e : Except ε (State × α)) := fun _ e => by cases e

theorem SafeOkFst.ite {x y : Except ε (State × α)} (h : SafeOkFst x) (h' : SafeOkFst y) :
    SafeOkFst (if p then x else y) :=
  iteInduction (fun _ => h) (fun _ => h')

theorem wf_defaultStore : Tab.wf 0 defaultStore = true := by decide +kernel

/-! ### Folds -/

theorem State.safe.foldl {β : Type} {f : State → β → State} {l : List β} (hf : ∀ s x, s.safe → (f s x).safe) :
    ∀ {s : State}, s.safe → (l.foldl f s).safe := by
  induction l with
  | nil => exact fun h => h
  | cons x l ih => exact fun h => ih (hf _ x h)

/-- A fold whose step is only known safe for the list's own entries. -/
theorem State.safe.foldl_mem {β : Type} {f : State → β → State} {l : List β} (hf : ∀ s x, x ∈ l → s.safe → (f s x).safe) :
    ∀ {s : State}, s.safe → (l.foldl f s).safe := by
  induction l with
  | nil => exact fun h => h
  | cons x l ih => exact fun h => ih (fun s y hy => hf s y (.tail _ hy)) (hf _ x (.head _) h)

theorem SafeFst.foldl {β : Type} {f : State × α → β → State × α} {l : List β} (hf : ∀ s x, SafeFst s → SafeFst (f s x)) :
    ∀ {s : State × α}, SafeFst s → SafeFst (l.foldl f s) := by
  induction l with
  | nil => exact fun h => h
  | cons x l ih => exact fun h => ih (hf _ x h)

/-! ### Parts of the state that the invariant does not speak of -/

/-- The invariant speaks of device memory, the store, the crossings and the recorder's queue. -/
theorem State.safe.of_eq (h : s.safe) (hm : t.mem = s.mem) (hp : t.pd = s.pd) (hc : t.crossings = s.crossings)
    (hq : t.strand.queue = s.strand.queue) : t.safe := by
  obtain ⟨h1, h2, h3⟩ := h
  exact ⟨h1.of_eq hm hp, by unfold State.crossingsOk; rw [hc]; exact h2, by rw [hq]; exact h3⟩

/-- An operation on the tables alone. -/
theorem State.safe.of_tables (h : s.safe) (ht : t.tablesOk) (hc : t.crossings = s.crossings)
    (hq : t.strand.queue = s.strand.queue) : t.safe := by
  obtain ⟨-, h2, h3⟩ := h
  exact ⟨ht, by unfold State.crossingsOk; rw [hc]; exact h2, by rw [hq]; exact h3⟩

section
variable {pending : List Instr} {out : List Output} {time fresh : Nat} {power : Power} {ports : Tab Port} {gdp : Gdp} {ops : Tab LongOp}
  {host : HostLink} {rooms : Tab Room} {transposes : Tab (Option Transpose)} {cliffs : Tab Cliff} {badBlocks poisonBlocks : List Nat}
  {unitPorts : Tab UnitPort} {chartBase : Tab (Option Nat)} {tlb : List TlbEntry} {repair : Option RepairRun}
  {bulk : Option (Nat × Nat × Nat)} {rebuild : Option Nat} {rebuildBase : Nat} {unpinning : List Nat} {headland : Headland}
  {engines : Tab Engine} {programs : Tab (Option MicroProgram)} {heads : Tab (Option Head)} {finished : List Task}
  {endings : List Ending} {spec : Tab (List SpecTask)} {reruns : Tab (List Task)} {lastPart : Tab Nat} {refusedCtr : List Nat}
  {causeway : Causeway} {estuary : Estuary} {stages : Tab Stage} {landfall : Landfall} {warmRecord : Option WarmRecord}
  {selfTest : Option SelfTest} {health : Health} {stow : Stow} {strand : Strand} {security : Security}

variable {pd : Tab Nat} {mem : Tab Byte} {crossings : Tab Crossing}

theorem State.safe.intro (hm : Tab.wf 0 mem = true) (hp : Tab.wf 0 pd = true) (hc : ∀ e ∈ crossings, e.2.conserves)
    (hq : strand.queue.length ≤ 256) :
    (State.mk pending out time fresh pd mem power crossings ports gdp ops host rooms transposes cliffs badBlocks poisonBlocks
      unitPorts chartBase tlb repair bulk rebuild rebuildBase unpinning headland engines programs heads finished endings spec reruns
      lastPart refusedCtr causeway estuary stages landfall warmRecord selfTest health stow strand security).safe :=
  ⟨⟨hm, hp⟩, hc, hq⟩

/-- Any other part may change. -/
theorem State.safe.update (h : s.safe) :
    (State.mk pending out time fresh s.pd s.mem power s.crossings ports gdp ops host rooms transposes cliffs badBlocks poisonBlocks
      unitPorts chartBase tlb repair bulk rebuild rebuildBase unpinning headland engines programs heads finished endings spec reruns
      lastPart refusedCtr causeway estuary stages landfall warmRecord selfTest health stow s.strand security).safe := h

variable {dropped next reserved : Nat} {unflushed flash : List Entry} {flushing : Bool} {cursors : List StrandCursor}

theorem State.safe.updateStrand (h : s.safe) :
    (State.mk pending out time fresh s.pd s.mem power s.crossings ports gdp ops host rooms transposes cliffs badBlocks poisonBlocks
      unitPorts chartBase tlb repair bulk rebuild rebuildBase unpinning headland engines programs heads finished endings spec reruns
      lastPart refusedCtr causeway estuary stages landfall warmRecord selfTest health stow
      (Strand.mk s.strand.queue dropped unflushed flash next reserved flushing cursors) security).safe := h

end

end Sys2Proof.Machine
end

section
/-!
PROOFS. `State.safe`, kept by every operation of the model's parts: the operations over the state; the sending side of the
Causeway; power cycles, resets and boots; the dictionary protocol; the House; cliffs and Charts; coves, rows, strata and repairs.
-/
namespace Sys2Proof.Machine

variable {s : State}

/-! ### The operations over the state -/

theorem State.safe.wr {s : State} {k u v : Nat} (h : s.safe) : (s.wr k u v).safe := h.of_tables (h.1.wr k u v) rfl rfl
theorem State.safe.setReg {k v : Nat} (h : s.safe) : (s.setReg k v).safe := .wr h
theorem State.safe.bump {k n : Nat} (h : s.safe) : (s.bump k n).safe := .setReg h
theorem State.safe.setFlags {k mask : Nat} (h : s.safe) : (s.setFlags k mask).safe := .setReg h
theorem State.safe.clearFlags {k w mask : Nat} (h : s.safe) : (s.clearFlags k w mask).safe := .setReg h

theorem State.safe.wrBytes {k unit : Nat} {bs : List Byte} :
    ∀ {s : State} {off : Nat}, s.safe → (s.wrBytes k unit off bs).safe := by
  induction bs with
  | nil => exact fun h => h
  | cons b bs ih => exact fun h => ih (.wr h)

theorem State.safe.zeroUnits {s : State} {k n : Nat} (h : s.safe) : (s.zeroUnits k n).safe :=
  h.of_tables (h.1.zeroUnits k n) rfl rfl

theorem State.safe.putBytes {bs : List (Option Byte)} : ∀ {s : State} {a : Nat}, s.safe → (s.putBytes a bs).safe := by
  induction bs with
  | nil => exact fun h => h
  | cons b bs ih =>
    intro s a h
    cases b with
    | none => exact ih h
    | some b => exact ih (h.of_tables ⟨wf_tset _ _ h.1.1, h.1.2⟩ rfl rfl)

theorem State.safe.emit {o : Output} (h : s.safe) : (s.emit o).safe := .update h
theorem State.safe.vector {v : Nat} (h : s.safe) : (s.vector v).safe := .emit h
theorem State.safe.used (h : s.safe) : s.used.safe := .update h

theorem State.safe.record {s : State} {trigger : Nat} {code : BitVec 16} {unitKind unit : Nat} {detail : List Byte} (h : s.safe) :
    (s.record trigger code unitKind unit detail).safe := by
  obtain ⟨h1, h2, h3⟩ := h
  refine ⟨h1.record _ _ _ _ _, ?_, s.record_bound _ _ _ _ _ h3⟩
  have hc : (s.record trigger code unitKind unit detail).crossings = s.crossings := by
    unfold State.record; split <;> rfl
  unfold State.crossingsOk
  rw [hc]; exact h2

theorem State.safe.startFlush (h : s.safe) : s.startFlush.safe := .updateStrand h
theorem State.safe.setRoom {r : Nat} {v : Room} (h : s.safe) : (s.setRoom r v).safe := .update h
theorem State.safe.setCliff {c : Nat} {v : Cliff} (h : s.safe) : (s.setCliff c v).safe := .update h
theorem State.safe.setEngine {n : Nat} {v : Engine} (h : s.safe) : (s.setEngine n v).safe := .update h
theorem State.safe.setUnitPort {u : Nat} {v : UnitPort} (h : s.safe) : (s.setUnitPort u v).safe := .update h
theorem State.safe.setCport {p : Nat} {v : CausewayPort} (h : s.safe) : (s.setCport p v).safe := .update h
theorem State.safe.setStage {p : Nat} {v : Stage} (h : s.safe) : (s.setStage p v).safe := .update h
theorem State.safe.setReduction {g r : Nat} {v : Reduction} (h : s.safe) : (s.setReduction g r v).safe := .update h
theorem State.safe.setEstGroup {g : Nat} {v : EstGroup} (h : s.safe) : (s.setEstGroup g v).safe := .update h
theorem State.safe.setHead {k : Nat} {v : Option Head} (h : s.safe) : (s.setHead k v).safe := .update h
theorem State.safe.setSpec {u : Nat} {v : List SpecTask} (h : s.safe) : (s.setSpec u v).safe := .update h

theorem State.safe.setCrossing {s : State} {src dst : Nat} {x : Crossing} (h : s.safe) (hx : x.conserves) :
    (s.setCrossing src dst x).safe :=
  ⟨h.1, h.2.1.setCrossing hx, h.2.2⟩

theorem State.safe.setFabricPort {f p : Nat} {v : Port} (h : s.safe) : (s.setFabricPort f p v).safe := .update h
theorem State.safe.setOp {r : Nat} {v : LongOp} (h : s.safe) : (s.setOp r v).safe := .update h
theorem State.safe.opStart {r state slots : Nat} (h : s.safe) : (s.opStart r state slots).safe := .setOp h
theorem State.safe.opFill {r i : Nat} {record : List Byte} (h : s.safe) : (s.opFill r i record).safe := .ite (.setOp h) h
theorem State.safe.opEnd {r state : Nat} {code : BitVec 16} (h : s.safe) : (s.opEnd r state code).safe := .setOp h
theorem State.safe.opBegin {r : Nat} (h : s.safe) : (s.opBegin r).safe := .setOp h
theorem State.safe.recordAborted {r : Nat} (h : s.safe) : (s.recordAborted r).safe := .record h

/-! ### The sending side of the Causeway (chapter 12) -/

theorem State.safe.setPortState {p st : Nat} (h : s.safe) : (s.setPortState p st).safe := .wr h
theorem State.safe.enqueue {p : Nat} {k : Packet} (h : s.safe) : (s.enqueue p k).safe := .setCport h

theorem State.safe.enqueueTowards {hop : Nat} {k : Packet} (h : s.safe) : (s.enqueueTowards hop k).safe := by
  unfold State.enqueueTowards
  split
  · exact .enqueue h
  · exact h

theorem State.safe.setUnacked {d : Nat} {l : List Transfer} (h : s.safe) : (s.setUnacked d l).safe := .update h

theorem State.safe.pushTransfer {t : Transfer} {retry : Bool} (h : s.safe) : (s.pushTransfer t retry).safe := by
  unfold State.pushTransfer
  split
  · exact h
  · exact .foldl (fun _ _ h' => .enqueueTowards h') h

theorem State.safe.sendHeld {d : Nat} {path : List Nat × Bool} {ts : List Transfer} :
    ∀ {s : State} {under : Nat}, s.safe → (s.sendHeld d path under ts).2.safe := by
  induction ts with
  | nil => exact fun h => h
  | cons t ts ih =>
    intro s under h
    unfold State.sendHeld
    split
    · exact ih h
    · split
      · exact ih h
      · split
        · exact ih (.pushTransfer h)
        · exact h

theorem State.safe.sendWaiting {d : Nat} (h : s.safe) : (s.sendWaiting d).safe := .setUnacked (.sendHeld h)
theorem State.safe.resumeTransfers (h : s.safe) : s.resumeTransfers.safe := .foldl (fun _ _ h' => .sendWaiting h') h

theorem State.safe.queueTransfer {d : Nat} {purpose : TransferFor} {ks : List Packet} (h : s.safe) :
    (s.queueTransfer d purpose ks).safe := .sendWaiting (.setUnacked (.update h))

theorem SafeFst.sendTransfer {d : Nat} {purpose : TransferFor} {ks : List Packet} (h : s.safe) :
    SafeFst (s.sendTransfer d purpose ks) := .ite (.mk h) (.mk (.queueTransfer h))

theorem State.safe.sendGdp {d role : Nat} {bytes : List Byte} (h : s.safe) : (s.sendGdp d role bytes).safe :=
  .ite h (.queueTransfer h)

theorem State.safe.endTransfer {d : Nat} {id : BitVec 16} (h : s.safe) : (s.endTransfer d id).safe := .sendWaiting (.setUnacked h)

theorem State.safe.resend {d : Nat} {t : Transfer} {path : List Nat × Bool} (h : s.safe) : (s.resend d t path).safe :=
  .setUnacked (.pushTransfer (.bump h))

theorem State.safe.sendSignal {d op tag counter operand : Nat} (h : s.safe) : (s.sendSignal d op tag counter operand).safe :=
  .emit (.fst (.sendTransfer h))

theorem State.safe.sendAck {d : Nat} {id code : BitVec 16} (h : s.safe) : (s.sendAck d id code).safe := by
  unfold State.sendAck
  split
  · exact h
  · exact .enqueueTowards h

theorem State.safe.spreadLinks {p : Nat} {except_ : Option Nat} (h : s.safe) : (s.spreadLinks p except_).safe :=
  .foldl (fun _ _ h' => .enqueue h') h

theorem State.safe.sendLinkMap {x : Nat} (h : s.safe) : (s.sendLinkMap x).safe := .foldl (fun _ _ h' => .enqueue h') h

theorem State.safe.rerouted (h : s.safe) : s.rerouted.safe := by
  unfold State.rerouted
  refine .foldl (fun _ _ h' => ?_) h
  split
  · exact h'
  · exact .foldl (fun _ _ h'' => .resend h'') h'

theorem State.safe.sendOwnLinks (h : s.safe) : s.sendOwnLinks.safe := .rerouted (.spreadLinks (.update (.wr h)))
theorem State.safe.announceLinks (h : s.safe) : s.announceLinks.safe := .ite h (.sendOwnLinks h)
theorem SafeFst.sendSnoop {line : Nat} (h : s.safe) : SafeFst (s.sendSnoop line) := .ite (.mk (.emit h)) (.sendTransfer h)
theorem State.safe.askBack {line : Nat} (h : s.safe) : (s.askBack line).safe := .ite (.when .update (.fst (.sendSnoop h))) h
theorem State.safe.setMirror {i : Nat} {m : MirrorState} (h : s.safe) : (s.setMirror i m).safe := .update h

theorem State.safe.writeMirror {i : Nat} (h : s.safe) : (s.writeMirror i).safe :=
  .ite (.emit (.setMirror h)) (.ite (.setMirror (.fst (.sendTransfer h))) (.setMirror h))

theorem State.safe.tryMirror {i : Nat} (h : s.safe) : (s.tryMirror i).safe :=
  .ite (.setMirror h) (.ite (.setMirror h) (.writeMirror h))

theorem State.safe.retryMirrors (h : s.safe) : s.retryMirrors.safe := .foldl (fun _ _ h' => .tryMirror h') h

theorem State.safe.mirrorChange {c : Nat} {reached : Bool} (h : s.safe) : (s.mirrorChange c reached).safe :=
  .foldl (fun _ _ h' => .ite (.setMirror (.bump h')) (.tryMirror h')) h

/-! ### Power cycles, resets and boots (chapters 01, 15) -/

theorem State.safe.undoFlash {s : State} (h : s.safe) : s.undoFlash.safe := by
  refine .foldl (fun s p h' => ?_) h
  split
  · exact h'.of_tables ⟨h'.1.1, wf_foldl_tset (fun e : Nat × Nat => e.1) (fun e => e.2) _ (wf_filter _ h'.1.2)⟩ rfl rfl
  · exact h'

theorem State.safe.abortRuns {byStart : Bool} (h : s.safe) : (s.abortRuns byStart).safe :=
  .foldl (fun _ _ h' => .ite (.recordAborted h') h') (.ite (.opEnd (.recordAborted h)) h)

theorem State.safe.powerCycle {s : State} : s.powerCycle.safe :=
  ⟨⟨rfl, wf_resetStore _ _ wf_defaultStore⟩, nofun, by simp [State.powerCycle, Strand.acrossPower]⟩

theorem State.safe.moduleReset {s : State} {byStart : Bool} (h : s.safe) : (s.moduleReset byStart).safe := by
  obtain ⟨⟨hm, -⟩, hc, hq⟩ : (s.undoFlash.abortRuns byStart).safe := .abortRuns (.undoFlash h)
  have hkept : ∀ x : Strand, x.queue.length ≤ 256 → x.acrossReset.queue.length ≤ 256 := fun _ h => h
  exact .setReg (.setReg (.intro hm (wf_resetStore _ _ wf_defaultStore)
    (fun e he => hc e (List.mem_of_mem_filter he)) (hkept _ hq)))

theorem State.safe.stepTwo (h : s.safe) : s.stepTwo.safe := .update (.setReg h)
theorem State.safe.extend {i digest : Nat} (h : s.safe) : (s.extend i digest).safe := .update h

theorem State.safe.measureBoot {i : Nat} (h : s.safe) : (s.measureBoot i).safe :=
  .extend (.extend (.extend (.extend (.extend (.extend h)))))

theorem State.safe.landfallBegin (h : s.safe) : s.landfallBegin.safe := .update (.zeroUnits (.setReg (.bump (.setOp h))))

/-! ### The dictionary protocol (chapter 03) -/

theorem Served.safe.refuse {code : BitVec 16} (h : s.safe) : (refuse s code).safe := .mk h

theorem State.safe.countRequest {path : GdpPath} (h : s.safe) : (s.countRequest path).safe := by
  unfold State.countRequest
  split
  · exact .bump h
  · exact .bump h
  · exact .bump h
  · exact h
  · exact h

theorem State.safe.sendMsg {path : GdpPath} {m : GdpMsg} (h : s.safe) : (s.sendMsg path m).safe := by
  unfold State.sendMsg
  dsimp only
  split
  · exact .vector (.emit (.emit h))
  · exact .sendGdp (.emit h)
  · exact .emit h

theorem State.safe.send {r : Req} {m : GdpMsg} (h : s.safe) : (s.send r m).safe := .unless .update (.sendMsg h)
theorem State.safe.replay {path : GdpPath} {x : Reply} (h : s.safe) : (s.replay path x).safe := .sendMsg (.bump h)
theorem State.safe.noteRefusal {r : Req} {status : BitVec 16} (h : s.safe) : (s.noteRefusal r status).safe := .setReg (.bump h)

theorem State.safe.respond {r : Req} {status : BitVec 16} {payload : List Byte} (h : s.safe) : (s.respond r status payload).safe :=
  .send (.ite (.noteRefusal h) h)

theorem State.safe.await {r : Req} {w : Wait} {before : Tab Nat} (h : s.safe) : (s.await r w before).safe := .update h
theorem State.safe.unawait {p : Pending} (h : s.safe) : (s.unawait p).safe := .update h

theorem State.safe.answer {p : Pending} {status : BitVec 16} {payload : List Byte} (h : s.safe) :
    (s.answer p status payload).safe := .respond (.unawait h)

theorem SafeFst.authenticate {r : Req} {nonce : BitVec 256} {verifies : Bool} (h : s.safe) :
    SafeFst (s.authenticate r nonce verifies) := .mk (.ite (.update h) (.update h))

theorem State.safe.conclude {e : EntryInfo} {r : Req} {x : Served} (h : x.safe) : (s.conclude e r x).safe := by
  unfold State.conclude
  dsimp only
  split
  · exact .await (.served h)
  · exact .ite (.await (.served h)) (.respond (.served h))

theorem State.safe.serveLocal {serve : Serve} {role : Role} {r : Req} (h : s.safe) (h1 : Serve.safe serve) :
    (s.serveLocal serve role r).safe := by
  unfold State.serveLocal
  dsimp only
  split
  · exact .respond h
  · refine .ite ?_ (.ite (.respond h) (.ite (.respond h) ?_))
    · split <;> exact .respond h
    · split
      · split
        · exact .respond h
        · exact .conclude (.of_serve h1 h)
      · refine .ite (.respond (.bump (.fst (.authenticate h)))) ?_
        split
        · exact .respond (.fst (.authenticate h))
        · exact .conclude (.of_serve h1 (.fst (.authenticate h)))

theorem State.safe.forward {role : Role} {r : Req} {payload : List Byte} (h : s.safe) : (s.forward role r payload).safe :=
  .ite (.await (.sendGdp (.emit (.bump h)))) (.respond h)

theorem State.safe.receive {serve : Serve} {r : Req} {bad : Bool} {payload : List Byte} (h : s.safe) (h1 : Serve.safe serve) :
    (s.receive serve r bad payload).safe := by
  have hcount : (s.countRequest r.path).safe := .countRequest h
  unfold State.receive
  refine .ite h ?_
  split
  · exact .bump hcount
  · dsimp only
    split
    · exact .replay hcount
    · exact .ite (.bump hcount) (.ite (.respond hcount) (.ite (.respond hcount) (.ite (.forward hcount) (.serveLocal hcount h1))))

theorem State.safe.receiveMsg {serve : Serve} {path : GdpPath} {m : GdpMsg} {verifies : Bool} (h : s.safe) (h1 : Serve.safe serve) :
    (s.receiveMsg serve path m verifies).safe := .receive h h1

theorem State.safe.receiveOwn {serve : Serve} {r : Req} (h : s.safe) (h1 : Serve.safe serve) : (s.receiveOwn serve r).safe :=
  .receive h h1

theorem State.safe.relay {m : GdpMsg} (h : s.safe) : (s.relay m).safe := by
  unfold State.relay
  split
  · exact h
  · exact .send (.unawait h)

/-! ### The House (chapter 05) -/

theorem State.safe.setOwnerWord {r w : Nat} (h : s.safe) : (s.setOwnerWord r w).safe := .wr h

theorem State.safe.noteNotOwner {r requester : Nat} {principal : Option Owner} {write : Bool} (h : s.safe) :
    (s.noteNotOwner r requester principal write).safe := .unless (fun h' => .record (.setRoom h')) (.setReg (.bump h))

theorem State.safe.completeHandover {r w : Nat} (h : s.safe) : (s.completeHandover r w).safe := .setRoom (.bump (.setOwnerWord h))

theorem State.safe.beginHandover {r w : Nat} {by_ : HandoverBy} (h : s.safe) : (s.beginHandover r w by_).safe :=
  .ite (.completeHandover h) (.when .emit (.when .emit (.setRoom (.setOwnerWord h))))

theorem serveRoomOwner_safe : Serve.safe serveRoomOwner := by
  intro _ _ _ s h
  unfold serveRoomOwner
  refine .ite (.refuse h) ?_
  split
  · exact .refuse h
  · exact .ite (.mk h) (.ite (.mk (.beginHandover h)) (.mk (.beginHandover h)))

theorem State.safe.answerHandover {r : Nat} {status : BitVec 16} (h : s.safe) : (s.answerHandover r status).safe :=
  .foldl (fun _ _ h' => .answer h') h

theorem State.safe.markerReturn {r : Nat} {reader : Bool} (h : s.safe) : (s.markerReturn r reader).safe := by
  unfold State.markerReturn
  dsimp only
  split
  · exact .unless (fun h' => .answerHandover (.completeHandover h')) (.setRoom h)
  · exact .setRoom h

theorem State.safe.roomAnswer {r : Nat} {q : RoomReq} {code : BitVec 16} {data : List Byte} (h : s.safe) :
    (s.roomAnswer r q code data).safe := .ite (.setUnitPort h) (.emit h)

theorem State.safe.flushRoom {r : Nat} {code : BitVec 16} (h : s.safe) : (s.flushRoom r code).safe :=
  .setRoom (.foldl (fun _ _ h' => .roomAnswer h') h)

theorem State.safe.announceFence {code : BitVec 16} {kind unit : Nat} {failure : List Byte} (h : s.safe) :
    (s.announceFence code kind unit failure).safe := .setReg (.vector (.record h))

theorem State.safe.fenceRoom {r : Nat} (h : s.safe) : (s.fenceRoom r).safe :=
  .setRoom (.answerHandover (.flushRoom (.setOwnerWord h)))

theorem State.safe.roomFails {r : Nat} (h : s.safe) : (s.roomFails r).safe := .ite h (.when .announceFence (.fenceRoom h))

theorem State.safe.refuseAll {r : Nat} {qs : List RoomReq} : ∀ {s : State}, s.safe → (s.refuseAll r qs).safe := by
  induction qs with
  | nil => exact fun h => h
  | cons q qs ih => exact fun h => ih (.roomAnswer (.ite h (.noteNotOwner h)))

theorem SafeFst.enterRoom {room : Nat} {req : RoomReq} (h : s.safe) : SafeFst (s.enterRoom room req) := by
  unfold State.enterRoom
  refine .ite (.mk h) (.ite (.mk (.roomAnswer h)) (.ite (.mk (.refuseAll h)) (.ite (.ite (.mk (.setRoom h)) (.mk h)) ?_)))
  split <;> exact .ite (.mk (.setRoom h)) (.mk h)

theorem State.safe.roomAccess {r : Nat} {q : RoomReq} {requeue : State → RoomReq → State} (h : s.safe)
    (hrequeue : ∀ t a, t.safe → (requeue t a).safe) : (s.roomAccess r q requeue).safe :=
  .ite (hrequeue _ _ (.ite (.putBytes h) h)) (.roomAnswer (.ite (.putBytes h) h))

theorem State.safe.checked {r : Nat} {ecc : Ecc} {access : State → State} (h : s.safe) (haccess : ∀ t, t.safe → (access t).safe) :
    (s.checked r ecc access).safe := by
  unfold State.checked
  split
  · exact haccess _ h
  · exact haccess _ (.bump h)
  · exact .roomFails h

theorem State.safe.portBCycle {r : Nat} {ecc : Ecc} (h : s.safe) : (s.portBCycle r ecc).safe := by
  unfold State.portBCycle
  dsimp only
  split
  · exact h
  · exact .checked (.ite h (.bump h)) (fun _ h' => .roomAccess (.setRoom h') (fun _ _ h'' => .setRoom h''))

theorem State.safe.portACycle {r : Nat} {q : RoomReq} (h : s.safe) : (s.portACycle r q).safe :=
  .ite (.roomAnswer (.setRoom h)) (.roomAccess (.setRoom h) (fun _ _ h' => .setRoom h'))

theorem execRoomCycle_safe {room : Nat} {ecc : RoomEcc} (h : s.safe) : SafeRes (execRoomCycle room ecc s) := by
  unfold execRoomCycle
  refine .ite (.next h) (.ite (.next (.bump h)) ?_)
  dsimp only
  split
  · exact .next (.portBCycle (.refuseAll (.setRoom h)))
  · exact .next (.checked (.ite (.wr (.portBCycle (.refuseAll (.setRoom h)))) (.when .bump (.portBCycle (.refuseAll
      (.setRoom h))))) (fun _ h' => .portACycle h'))

theorem State.safe.noteWing {wing : Nat} {who : Owner} {code : BitVec 16} (h : s.safe) : (s.noteWing wing who code).safe := by
  unfold State.noteWing
  refine .ite ?_ h
  split
  · exact .noteNotOwner h
  · exact h

theorem State.safe.startTranspose {who : Owner} {wing offset elem q cycles : Nat} (h : s.safe) :
    (s.startTranspose who wing offset elem q cycles).safe := by
  unfold State.startTranspose
  split
  · exact .emit (.noteWing h)
  · exact .ite h (.update h)

theorem State.safe.transposeInvalid {wing : Nat} (h : s.safe) : (s.transposeInvalid wing).safe := .emit h

theorem State.safe.moveElement {old : State} {wing elem offset i c offset' i' c' : Nat} (h : s.safe) :
    (s.moveElement old wing elem offset i c offset' i' c').safe := .putBytes h

theorem State.safe.tileTransposed {wing offset elem : Nat} (h : s.safe) : (s.tileTransposed wing offset elem).safe :=
  .foldl (fun _ _ h' => .foldl (fun _ _ h'' => .moveElement h'') h') h

theorem State.safe.squareTransposed {wing offset elem q : Nat} (h : s.safe) : (s.squareTransposed wing offset elem q).safe :=
  .foldl (fun _ _ h' => .foldl (fun _ _ h'' => .moveElement h'') h') h

theorem execTransposeDone_safe {done : TransposeEnd} (h : s.safe) : SafeRes (execTransposeDone done s) := by
  unfold execTransposeDone
  dsimp only
  split
  · exact .next h
  · exact .ite (.next (.emit (.update (.foldl (fun _ _ h' => .roomFails h') (.bump h))))) (.next (.emit (.update (.ite
      (.tileTransposed (.bump h)) (.squareTransposed (.bump h))))))

theorem State.safe.zeroRoom {s : State} {r : Nat} (h : s.safe) : (s.zeroRoom r).safe := h.of_tables (h.1.zeroRoom r) rfl rfl
theorem State.safe.wiped {room : Nat} (h : s.safe) : (s.wiped room).safe := .setOwnerWord (.zeroRoom h)

/-! ### Cliffs and Charts (chapter 06) -/

theorem State.safe.setCoveLine {c set w v : Nat} (h : s.safe) : (s.setCoveLine c set w v).safe := .wr h

theorem State.safe.cliffAnswer {q : CliffReq} {status : BitVec 16} {data : List Byte} (h : s.safe) :
    (s.cliffAnswer q status data).safe := .ite (.ite h (.setUnitPort h)) (.emit h)

theorem State.safe.cliffReply {c : Nat} {q : CliffReq} {status : BitVec 16} {data : List Byte} (h : s.safe) :
    (s.cliffReply c q status data).safe := .cliffAnswer (.setCliff h)

theorem State.safe.fenceCliff {c : Nat} (h : s.safe) : (s.fenceCliff c).safe :=
  .setCliff (.update (.foldl (fun _ _ h' => .cliffAnswer h') (.foldl (fun _ _ h' => .cliffReply h') (.setFlags h))))

theorem State.safe.cliffFails {c : Nat} (h : s.safe) : (s.cliffFails c).safe := .ite h (.when .announceFence (.fenceCliff h))

theorem State.safe.retirePage {c page : Nat} {cause : BitVec 16} (h : s.safe) : (s.retirePage c page cause).safe := by
  unfold State.retirePage
  refine .ite h ?_
  dsimp only
  split
  · exact h
  · exact .ite (.cliffFails h) (.record (.record (.wr h)))

theorem State.safe.retireAll {which : Nat → Bool} (h : s.safe) : (s.retireAll which).safe := .foldl (fun _ _ h' => .wr h') h

theorem State.safe.countAccess {code : BitVec 16} (h : s.safe) : (s.countAccess code).safe :=
  .ite (.bump h) (.ite (.bump h) (.ite (.bump h) h))

theorem State.safe.rebuildRun {p : Nat} (h : s.safe) : (s.rebuildRun p).safe := .ite (.update h) (.update (.opFill h))
theorem Served.safe.acceptedStart {r : Nat} {deferred : Bool} (h : s.safe) : (acceptedStart s r deferred).safe := .mk h

theorem serveRebuildStart_safe : Serve.safe serveRebuildStart :=
  fun _ _ _ _ h => .ite (.refuse h) (.ite (.refuse h) (.ite (.acceptedStart (.update h)) (.acceptedStart (.rebuildRun
    (.opStart h)))))

theorem execChartRebuildBegin_safe (h : s.safe) : SafeRes (execChartRebuildBegin s) := by
  unfold execChartRebuildBegin
  split
  · exact .next (.ite (.rebuildRun (.opBegin h)) h)
  · exact .next h

theorem State.safe.opFillAll {r : Nat} {records : List (List Byte)} (h : s.safe) : (s.opFillAll r records).safe := .setOp h

/-! ### Coves, rows, strata and repairs (chapter 06) -/

theorem State.safe.mapLines {c set w : Nat} {f : Nat → Nat} (h : s.safe) : (s.mapLines c set w f).safe :=
  .foldl (fun _ _ h' => .ite (.setCoveLine h') h') h

theorem State.safe.touchAge {c set w : Nat} (h : s.safe) : (s.touchAge c set w).safe := .setCoveLine (.mapLines h)
theorem State.safe.insertLine {c set w v : Nat} (h : s.safe) : (s.insertLine c set w v).safe := .setCoveLine (.mapLines h)
theorem State.safe.dropLine {c set w : Nat} (h : s.safe) : (s.dropLine c set w).safe := .setCoveLine (.ite (.mapLines h) h)

theorem State.safe.accessLine {c set w : Nat} {q : CliffReq} (h : s.safe) : (s.accessLine c set w q).safe :=
  .touchAge (.setCoveLine h)

theorem State.safe.queueAccess {c : Nat} {x : LineAcc} (h : s.safe) : (s.queueAccess c x).safe := .setCliff h

theorem State.safe.poison {key : Nat} (h : s.safe) : (s.poison key).safe := by
  unfold State.poison
  dsimp only
  split
  · exact .setCoveLine (.update h)
  · exact .update h

theorem State.safe.heal {key : Nat} (h : s.safe) : (s.heal key).safe := by
  unfold State.heal
  dsimp only
  split
  · exact .setCoveLine (.update h)
  · exact .update h

theorem State.safe.writeThrough {c b : Nat} (h : s.safe) : (s.writeThrough c b).safe := .queueAccess h

theorem State.safe.evict {c set w : Nat} (h : s.safe) : (s.evict c set w).safe :=
  .dropLine (.when .poison (.ite (.writeThrough h) h))

theorem SafeFst.allocate {c b : Nat} {q : CliffReq} {filling : Bool} (h : s.safe) : SafeFst (s.allocate c b q filling) := by
  unfold State.allocate
  dsimp only
  split
  · exact .mk (.ite h (.bump h))
  · exact .mk (.insertLine (.when .bump (.evict h)))

theorem State.safe.mapFetch {c b : Nat} {f : LineAcc → LineAcc} (h : s.safe) : (s.mapFetch c b f).safe := .setCliff h
theorem State.safe.joinFetch {c b : Nat} {ws : List CliffReq} (h : s.safe) : (s.joinFetch c b ws).safe := .bump (.mapFetch h)
theorem State.safe.worsen {c : Nat} {q : CliffReq} {code : BitVec 16} (h : s.safe) : (s.worsen c q code).safe := .setCliff h

theorem State.safe.coveError {c set w b : Nat} (h : s.safe) : (s.coveError c set w b).safe :=
  .unless (fun h' => .record (.setCliff (.evict h'))) (.setCoveLine (.setCliff h))

theorem State.safe.readBlock {c : Nat} {q : CliffReq} {ws : List CliffReq} {ecc : Ecc} {b : Nat} (h : s.safe) :
    (s.readBlock c q ws ecc b).safe := by
  unfold State.readBlock
  dsimp only
  split
  · exact .ite (.joinFetch h) (.ite (.coveError (.bump (.foldl (fun _ _ h' => .worsen h') (.accessLine (.bump h))))) (.when
      (fun h'' => .bump (.foldl (fun _ _ h' => .worsen h') h'')) (.accessLine (.bump h))))
  · exact .ite (.when (fun h'' => .bump (.foldl (fun _ _ h' => .worsen h') h'')) (.bump h)) (.ite (.joinFetch h) (.queueAccess
      (.bump (.fst (.allocate h)))))

theorem State.safe.overwriteFill {c b w : Nat} (h : s.safe) : (s.overwriteFill c b w).safe := .setCoveLine (.mapFetch h)

theorem State.safe.writeBlock {c : Nat} {q : CliffReq} {whole : Bool} {b : Nat} (h : s.safe) : (s.writeBlock c q whole b).safe := by
  unfold State.writeBlock
  dsimp only
  split
  · exact .ite (.writeThrough (.when .setCoveLine (.accessLine (.when .overwriteFill (.ite (.heal h) h))))) (.setCoveLine
      (.accessLine (.when .overwriteFill (.ite (.heal h) h))))
  · refine .ite (.writeThrough (.ite (.heal h) h)) (.ite (.unless .writeThrough (.fst (.allocate (.ite (.heal h) h)))) ?_)
    split
    · exact .setCoveLine (.queueAccess (.bump (.fst (.allocate (.ite (.heal h) h)))))
    · exact .writeThrough (.queueAccess (.bump (.fst (.allocate (.ite (.heal h) h)))))

theorem State.safe.finishReq {c : Nat} {q : CliffReq} (h : s.safe) : (s.finishReq c q).safe := by
  unfold State.finishReq
  refine .ite h ?_
  split
  · exact h
  · exact .cliffReply h

theorem State.safe.coveAccept {q : CliffReq} {ecc : Ecc} {n : Nat} (h : s.safe) : (s.coveAccept q ecc n).safe :=
  .ite (.cliffAnswer (.foldl (fun _ _ h' => .writeBlock h') (.putBytes h))) (.finishReq (.foldl (fun _ _ h' => .readBlock h')
    (.setCliff h)))

theorem State.safe.issue {q : CliffReq} {ecc : Ecc} {n : Nat} (h : s.safe) : (s.issue q ecc n).safe :=
  .ite (.coveAccept h) (.update (.foldl (fun _ _ h' => .askBack h') h))

theorem State.safe.coveRequest {q : CliffReq} {ecc : Ecc} (h : s.safe) : (s.coveRequest q ecc).safe := by
  unfold State.coveRequest
  refine .ite h ?_
  split
  · exact .cliffAnswer (.countAccess h)
  · exact .ite h (.ite (.bump h) (.issue h))

theorem State.safe.passRead {q : CliffReq} {blocks : List Nat} (h : s.safe) : (s.passRead q blocks).safe :=
  .foldl (fun _ _ h' => .readBlock h') h

theorem State.safe.passWrite {q : CliffReq} {whole : Nat → Bool} {blocks : List Nat} (h : s.safe) :
    (s.passWrite q whole blocks).safe := .foldl (fun _ _ h' => .writeBlock h') h

theorem execCoveSchedule_safe {cliff stratum : Nat} (h : s.safe) : SafeRes (execCoveSchedule cliff stratum s) := by
  unfold execCoveSchedule
  refine .ite (.next h) ?_
  split
  · exact .next h
  · exact .next (.setCliff h)

theorem State.safe.correctedRead {c b : Nat} (h : s.safe) : (s.correctedRead c b).safe :=
  .unless (.unless (fun h' => .ite (.setCliff h') (.retirePage h'))) (.setCliff (.bump h))

theorem State.safe.uncorrectableRead {c b : Nat} (h : s.safe) : (s.uncorrectableRead c b).safe :=
  .retirePage (.unless .update (.bump h))

theorem State.safe.fillLine {c : Nat} {x : LineAcc} {poison : Bool} (h : s.safe) : (s.fillLine c x poison).safe := by
  unfold State.fillLine
  split
  · exact h
  · exact .setCoveLine h

theorem execStratumAccessDone_safe {cliff stratum : Nat} {ecc : Ecc} (h : s.safe) :
    SafeRes (execStratumAccessDone cliff stratum ecc s) := by
  unfold execStratumAccessDone
  dsimp only
  split
  · exact .next h
  · refine .ite (.next h) (.ite (.next (.setCliff h)) (.next (.foldl (fun _ _ h' => .finishReq h') (.when (.foldl
      (fun _ _ h' => .worsen h')) (.fillLine (.when .bump (.when .uncorrectableRead ?_)))))))
    split
    · exact .unless .correctedRead (.setCliff h)
    · exact .setCliff h

theorem execSoftReplacementDone_safe {cliff stratum bank : Nat} (h : s.safe) :
    SafeRes (execSoftReplacementDone cliff stratum bank s) := by
  unfold execSoftReplacementDone
  dsimp only
  split
  · exact .next h
  · exact .next (.setCliff (.bump h))

theorem serveUnpin_safe : Serve.safe serveUnpin := fun _ _ _ _ h => .mk (.update h)

theorem execUnpinDone_safe (h : s.safe) : SafeRes (execUnpinDone s) := by
  unfold execUnpinDone
  split
  · exact .next h
  · next =>
    extract_lets t
    have ht : t.safe := .intro h.1.1 (wf_tmap _ _ _) h.2.1 h.2.2
    clear_value t
    split
    · exact .next (.answer ht)
    · exact .next ht

theorem State.safe.repairEnd {code : BitVec 16} {c bank us : Nat} (h : s.safe) : (s.repairEnd code c bank us).safe :=
  .update (.opFill h)

theorem serveRepair_safe : Serve.safe serveRepair :=
  fun _ _ _ _ h => .ite (.refuse h) (.ite (.refuse h) (.ite (.refuse h) (.ite (.refuse h) (.ite (.acceptedStart (.repairEnd
    (.retireAll (.opStart h)))) (.ite (.acceptedStart (.update h)) (.acceptedStart (.repairEnd (.opStart h))))))))

theorem State.safe.burnFuse {r : RepairRun} (h : s.safe) : (s.burnFuse r).safe := .wr (.setCliff h)

theorem execRepairDone_safe {fuseTook : Bool} (h : s.safe) : SafeRes (execRepairDone fuseTook s) := by
  unfold execRepairDone
  split
  · exact .next h
  · exact .ite (.next (.repairEnd (.burnFuse h))) (.next (.repairEnd h))

theorem serveBulkCopy_safe : Serve.safe serveBulkCopy :=
  fun _ _ _ _ h => .ite (.refuse h) (.ite (.refuse h) (.ite (.refuse h) (.ite (.refuse h) (.acceptedStart (.update h)))))

theorem State.safe.viewWrite {a : Nat} {bs : List Byte} (h : s.safe) : (s.viewWrite a bs).safe :=
  .foldl (fun _ _ h' => .putBytes h') h

theorem State.safe.copyBlock {old : State} {src dst : Nat} (h : s.safe) : (s.copyBlock old src dst).safe := by
  unfold State.copyBlock
  split
  · exact .ite h (.foldl (fun _ _ h' => .poison h') (.viewWrite h))
  · exact .passWrite (.viewWrite (.passRead h))

theorem execBulkCopyDone_safe (h : s.safe) : SafeRes (execBulkCopyDone s) := by
  unfold execBulkCopyDone
  split
  · exact .next h
  · extract_lets t rows bad u
    have hu : u.safe := .opEnd (.opFillAll (.foldl (fun _ _ h' => .copyBlock h') h))
    clear_value u
    exact .next (.update hu)

theorem execChartRebuildDone_safe (h : s.safe) : SafeRes (execChartRebuildDone s) := by
  unfold execChartRebuildDone
  split
  · extract_lets base r v t u
    have hv : v.safe := .opFillAll (.passRead h)
    clear_value v
    have ht : t.safe := .update hv
    clear_value t
    have hu : u.safe := .update ht
    clear_value u
    exact .ite (.ite (.next (.opEnd (.setReg hu))) (.next (.opEnd ht))) (.next h)
  · exact .next h

theorem execChartWalkDone_safe {user : CliffUser} {part addr : Nat} (h : s.safe) :
    SafeRes (execChartWalkDone user part addr s) := by
  unfold execChartWalkDone
  refine .ite (.next (.ite h (.bump h))) ?_
  dsimp only
  split
  · exact .next (.bump (.passRead h))
  · exact .next (.update (.bump (.passRead h)))

end Sys2Proof.Machine
end

section
/-!
PROOFS. `State.safe`, kept by every operation of the model's parts: operands read and written; what the compute units share; sync
counters and barriers; the Estuary, contributions; the Estuary, collectors, owners and results; lanes and ports; power; the
Headland.
-/
namespace Sys2Proof.Machine

variable {s : State}

/-! ### Operands read and written (chapter 07) -/

theorem SafeOk.putBits {s : State} {g : Agent} {a lo n v : Nat} (h : s.safe) : SafeOk (s.putBits g a lo n v) := by
  unfold State.putBits
  split
  · exact .ok (h.of_tables ⟨wf_tset _ _ h.1.1, h.1.2⟩ rfl rfl)
  · exact .ok h
  · exact .error

theorem SafeOk.unitWrite {g : Agent} {a lo n v : Nat} (h : s.safe) : SafeOk (s.unitWrite g a lo n v) := by
  unfold State.unitWrite
  refine .ite ?_ (.putBits h)
  split
  · exact .error
  · exact .putBits h

theorem SafeOk.unitWrites {g : Agent} {bs : List Byte} : ∀ {s : State} {a : Nat}, s.safe → SafeOk (s.unitWrites g a bs) := by
  induction bs with
  | nil => exact fun h => .ok h
  | cons b bs ih =>
    intro s a h
    unfold State.unitWrites
    split
    · next he => exact ih (SafeOk.unitWrite h _ he)
    · exact .error

theorem State.safe.noteStop {g : Agent} {x : Stop} (h : s.safe) : (s.noteStop g x).safe := by
  unfold State.noteStop
  split
  · exact h
  · exact .askBack h
  · exact .ite (.noteNotOwner h) (.ite (.bump h) (.countAccess h))

theorem SafeOk.writePieces {g : Agent} {l : List (Nat × Nat × Nat)} :
    ∀ {s : State} {c : Nat}, s.safe → SafeOk (s.writePieces g l c) := by
  induction l with
  | nil => exact fun h => .ok h
  | cons e l ih =>
    intro s c h
    unfold State.writePieces
    split
    · next he => exact ih (SafeOk.unitWrite h _ he)
    · exact .error

theorem State.safe.countConversion {x : Converted} (h : s.safe) : (s.countConversion x).safe := .when .bump (.ite (.bump h) h)

theorem SafeOk.writeValue {g : Agent} {d : Desc} {o : Int} {x : Converted} (h : s.safe) : SafeOk (s.writeValue g d o x) := by
  unfold State.writeValue
  split
  · exact .error
  · exact .writePieces (.countConversion h)

theorem SafeOk.writePlain {g : Agent} {d : Desc} {l : List (Int × F32)} : ∀ {s : State}, s.safe → SafeOk (s.writePlain g d l) := by
  induction l with
  | nil => exact fun h => .ok h
  | cons e l ih =>
    intro s h
    unfold State.writePlain
    split
    · next he => exact ih (SafeOk.writeValue h _ he)
    · exact .error

theorem SafeOk.writeScaled {g : Agent} {d : Desc} {e : Nat} {l : List (Nat × Num × Bool)} :
    ∀ {s : State}, s.safe → SafeOk (s.writeScaled g d e l) := by
  induction l with
  | nil => exact fun h => .ok h
  | cons x l ih =>
    intro s h
    unfold State.writeScaled
    split
    · next he => exact ih (SafeOk.writeValue h _ he)
    · exact .error

theorem SafeOk.writeBlock32 {g : Agent} {d : Desc} {ws : List (Int × F32)} {b : Nat} (h : s.safe) :
    SafeOk (s.writeBlock32 g d ws b) := by
  unfold State.writeBlock32
  split
  · exact .error
  · exact .error
  · dsimp only
    split
    · exact .error
    · next he1 => exact .writeScaled (SafeOk.unitWrite h _ he1)

theorem SafeOk.writeBlocks {g : Agent} {d : Desc} {ws : List (Int × F32)} {l : List Nat} :
    ∀ {s : State}, s.safe → SafeOk (s.writeBlocks g d ws l) := by
  induction l with
  | nil => exact fun h => .ok h
  | cons b l ih =>
    intro s h
    unfold State.writeBlocks
    split
    · next he => exact ih (SafeOk.writeBlock32 h _ he)
    · exact .error

theorem SafeOk.writeElems {g : Agent} {d : Desc} {ws : List (Int × F32)} (h : s.safe) : SafeOk (s.writeElems g d ws) :=
  .ite (.writeBlocks h) (.writePlain h)

theorem State.safe.blurBytes {s : State} {keys : List Nat} (h : s.safe) : (s.blurBytes keys).safe :=
  h.of_tables (h.1.blurBytes keys) rfl rfl

theorem State.safe.blur {g : Agent} {parts : List Interval} {kept : List Nat} (h : s.safe) : (s.blur g parts kept).safe :=
  .blurBytes h

theorem State.safe.blurRoom {s : State} {r : Nat} (h : s.safe) : (s.blurRoom r).safe := h.of_tables (h.1.blurRoom r) rfl rfl

/-! ### What the compute units share -/

theorem SafeFst.issueOwn {q : CliffReq} (h : s.safe) : SafeFst (s.issueOwn q) := by
  unfold State.issueOwn
  split
  · exact .mk (.cliffAnswer h)
  · exact .ite (.mk h) (.ite (.mk h) (.mk (.issue h)))

theorem State.safe.issueHeld {u : Nat} (h : s.safe) : (s.issueHeld u).safe := by
  unfold State.issueHeld
  refine .setUnitPort (.when .bump (.fst (.foldl (fun _ _ h' => ?_) (.mk h))))
  split
  · next he => exact .mk (.of_fst (.issueOwn (.fst h')) he)
  · next he => exact .mk (.of_fst (.issueOwn (.fst h')) he)

theorem State.safe.ask {u : Nat} {lines : List Nat} {reqs : List CliffReq} (h : s.safe) : (s.ask u lines reqs).safe :=
  .setUnitPort h

theorem State.safe.pump {u : Nat} (h : s.safe) : (s.pump u).safe := .setUnitPort (.issueHeld h)
theorem State.safe.noteStaged {u : Nat} {blocks : List Nat} (h : s.safe) : (s.noteStaged u blocks).safe := .ite h (.setUnitPort h)
theorem State.safe.clearUnit {u : Nat} (h : s.safe) : (s.clearUnit u).safe := .setUnitPort (.unless .update (.ite (.update h) h))

theorem State.safe.beatDone {u : Nat} {staged : List Nat} {room writes : Nat} (h : s.safe) :
    (s.beatDone u staged room writes).safe := .setUnitPort h

theorem State.safe.sendTransferOf {u : Nat} (h : s.safe) : (s.sendTransferOf u).safe := by
  unfold State.sendTransferOf
  refine .setUnitPort (.foldl (fun _ _ h' => ?_) h)
  dsimp only
  split
  · exact .setUnitPort h'
  · exact .ite (.fst (.enterRoom (.setUnitPort h'))) h'

theorem State.safe.endTask {t : Task} {code : BitVec 16} {detail : Nat} (h : s.safe) : (s.endTask t code detail).safe := .update h

theorem State.safe.passElems {u part : Nat} {ahead : Bool} {d : Desc} {write : Bool} {os : List Int} (h : s.safe) :
    (s.passElems u part ahead d write os).safe := .ite h (.ite (.passWrite h) (.passRead h))

theorem State.safe.passDescs {t : Task} (h : s.safe) : (s.passDescs t).safe := .passRead h

theorem State.safe.passBytes {g : Agent} {write : Bool} {a n : Nat} (h : s.safe) : (s.passBytes g write a n).safe :=
  .ite (.passWrite h) (.passRead h)

theorem SafeFst.rejectTask {t : Task} {x : Reject} (h : s.safe) : SafeFst (s.rejectTask t x) := by
  unfold State.rejectTask
  split
  · exact .mk (.noteStop h)
  · exact .mk (.endTask (.bump h))
  · refine .mk (.endTask ?_)
    split
    · exact .noteStop h
    · exact h

theorem State.safe.countSuppressed {n : Nat} (h : s.safe) : (s.countSuppressed n).safe := .ite h (.bump h)

/-! ### Sync counters and barriers (chapter 11) -/

theorem State.safe.setListRec {u p w : Nat} (h : s.safe) : (s.setListRec u p w).safe := .wr h
theorem State.safe.reportCounter {c : Nat} (h : s.safe) : (s.reportCounter c).safe := .update h

theorem State.safe.setCounter {c w : Nat} {reached : Bool} (h : s.safe) : (s.setCounter c w reached).safe :=
  .ite h (.unless .mirrorChange (.reportCounter (.askBack (.wr h))))

theorem State.safe.refuseOp {src : CtrSource} {c : Nat} {op : CtrOp} {tag : Nat} {code : BitVec 16} (h : s.safe) :
    (s.refuseOp src c op tag code).safe :=
  .unless (fun h' => .update (.record h')) (.when .bump (.setReg (.ite (.bump h) (.ite (.bump h) h))))

theorem State.safe.stickyFlag {key : Nat} {code : BitVec 16} {src : CtrSource} {c : Nat} {op : CtrOp} (h : s.safe) :
    (s.stickyFlag key code src c op).safe := .ite h (.record (.wr h))

theorem State.safe.setValue {c v : Nat} (h : s.safe) : (s.setValue c v).safe := .setCounter h

theorem State.safe.ctrAdd {src : CtrSource} {c operand : Nat} (h : s.safe) : (s.ctrAdd src c operand).safe := by
  unfold State.ctrAdd
  split
  · exact .refuseOp h
  · exact .when .stickyFlag (.setValue h)

theorem State.safe.ctrSubtract {src : CtrSource} {c operand : Nat} (h : s.safe) : (s.ctrSubtract src c operand).safe := by
  unfold State.ctrSubtract
  split
  · exact .refuseOp h
  · exact .when .stickyFlag (.setValue h)

theorem State.safe.ctrSet {src : CtrSource} {c operand : Nat} (h : s.safe) : (s.ctrSet src c operand).safe := by
  unfold State.ctrSet
  split
  · exact .refuseOp h
  · exact .setValue h

theorem State.safe.ctrArrive {src : CtrSource} {c tag : Nat} (h : s.safe) : (s.ctrArrive src c tag).safe := by
  unfold State.ctrArrive
  refine .unless (fun h' => ?_) (.refuseOp h)
  split
  · exact .refuseOp h
  · split
    · exact h'
    · exact .setCounter h

theorem State.safe.initCounter {c w : Nat} (h : s.safe) : (s.initCounter c w).safe := .setCounter (.update h)

theorem State.safe.ctrInit {src : CtrSource} {c w : Nat} (h : s.safe) : (s.ctrInit src c w).safe := by
  unfold State.ctrInit
  split
  · exact .refuseOp h
  · exact .initCounter h

theorem State.safe.ctrDo {w : CtrWait} (h : s.safe) : (s.ctrDo w).safe := by
  unfold State.ctrDo
  split
  · exact .ctrAdd h
  · exact .ctrSubtract h
  · exact .ctrSet h
  · exact .ctrArrive h
  · exact .ctrInit h

theorem State.safe.ctrOp {src : CtrSource} {op tag c operand : Nat} (h : s.safe) : (s.ctrOp src op tag c operand).safe :=
  .ite (.update (.askBack h)) (.ctrDo h)

theorem State.safe.retryOps (h : s.safe) : s.retryOps.safe := .foldl (fun _ _ h' => .ite (.update h') (.ctrDo h')) (.update h)
theorem SafeOption.consume {c : Nat} (h : s.safe) : SafeOption (s.consume c) := .ite (.some (.setValue h)) .none
theorem State.safe.breakCounter {c : Nat} (h : s.safe) : (s.breakCounter c).safe := .setCounter h

theorem serveInit_safe {settle : State → State} (hsettle : ∀ t, t.safe → (settle t).safe) : Serve.safe (serveInit settle) := by
  intro _ _ _ s h
  unfold serveInit
  refine .ite (.refuse h) ?_
  split
  · exact .mk (.ite h (.refuseOp h))
  · exact .mk (hsettle _ (.ctrOp h))

theorem State.safe.breakPartition {p : Nat} (h : s.safe) : (s.breakPartition p).safe := .foldl (fun _ _ h' => .breakCounter h') h

/-! ### The Estuary: contributions (chapter 13) -/

theorem serveGroup_safe : Serve.safe serveGroup :=
  fun _ _ _ _ h => .ite (.refuse h) (.ite (.refuse h) (.ite (.refuse h) (.mk (.update (.wr h)))))

theorem SafeFst.send {r : EstOut} {dest : Nat} {m : EstMsg} (h : SafeFst r) : SafeFst (r.send dest m) :=
  .ite (.mk (.fst h)) (.mk (.fst (.sendTransfer (.fst h))))

theorem SafeFst.estRelease {t : Task} (h : s.safe) : SafeFst (s.estRelease t) := by
  unfold State.estRelease
  split
  · exact .rejectTask h
  · extract_lets g u place v
    have hv : v.safe := .setEstGroup (.passDescs (.wr h))
    clear_value v
    exact .mk (.update hv)

theorem State.safe.passScale {g : Agent} {w b : Nat} {write : Bool} (h : s.safe) : (s.passScale g w b write).safe :=
  .ite (.passWrite h) (.passRead h)

theorem SafeOk.setScaleEntry {g : Agent} {w b v : Nat} (h : s.safe) : SafeOk (s.setScaleEntry g w b v) := by
  unfold State.setScaleEntry
  split
  · exact .error
  · next he => exact .ok (.passScale (SafeOk.unitWrites h _ he))

theorem State.safe.passBlock {e : EstTask} {p : EstGroup} {add : Bool} {span : Nat × Nat} (h : s.safe) :
    (s.passBlock e p add span).safe := .when .passElems (.passElems h)

theorem SafeOkFst.sendBlock {e : EstTask} {r : Nat} {p : EstGroup} {b : Nat} (h : s.safe) : SafeOkFst (s.sendBlock e r p b) := by
  unfold State.sendBlock
  refine .ite (.ok h) ?_
  split
  · exact .error
  · dsimp only
    split
    · exact .error
    · exact .okOf (.send (.mk (.passBlock (.passScale h))))

/-! ### The Estuary: collectors, owners and results (chapter 13) -/

theorem State.safe.estStale (h : s.safe) : s.estStale.safe := .bump h
theorem State.safe.setBlockSum {x : BlockSum} (h : s.safe) : (s.setBlockSum x).safe := .update h

theorem SafeFst.forwardSum {x : BlockSum} {owner : Nat} (h : s.safe) : SafeFst (s.forwardSum x owner) :=
  .send (.mk (.setBlockSum h))

theorem SafeFst.atCollector {m : EstMsg} {owner : Nat} (h : s.safe) : SafeFst (s.atCollector m owner) := by
  unfold State.atCollector
  dsimp only
  split
  · exact .mk (.estStale h)
  · refine .ite (.mk (.setBlockSum h)) (.ite (.send (.mk h)) ?_)
    split
    · exact .mk (.estStale h)
    · exact .ite (.forwardSum h) (.mk (.setBlockSum h))

theorem SafeFst.finalise {x : BlockSum} (h : s.safe) : SafeFst (s.finalise x) :=
  .mk (.fst (.foldl (fun _ _ h' => .send h') (.mk (.when .bump (.when .bump (.setBlockSum h))))))

theorem SafeFst.reopen {x : BlockSum} (h : s.safe) : SafeFst (s.reopen x) :=
  .foldl (fun _ _ h' => .send h') (.mk (.setBlockSum h))

theorem SafeFst.atOwner {m : EstMsg} (h : s.safe) : SafeFst (s.atOwner m) := by
  unfold State.atOwner
  dsimp only
  split
  · exact .mk (.estStale h)
  · refine .ite (.mk (.estStale h)) (.ite (.mk (.setBlockSum h)) ?_)
    split
    · exact .mk (.estStale h)
    · exact .ite (.reopen h) (.ite (.finalise h) (.mk (.setBlockSum h)))

theorem SafeFst.onPartial {m : EstMsg} (h : s.safe) : SafeFst (s.onPartial m) := by
  unfold State.onPartial
  split
  · exact .mk (.estStale h)
  · exact .ite (.atOwner h) (.ite (.mk (.estStale h)) (.atCollector h))

theorem State.safe.estEnd {e : EstTask} {code : BitVec 16} {result : Option Desc} (h : s.safe) : (s.estEnd e code result).safe := by
  unfold State.estEnd
  dsimp only
  split
  · exact .when .blur (.endTask (.update h))
  · exact .endTask (.update h)

theorem SafeOkFst.sendShardBlock {e : EstTask} {r : Nat} {p : EstGroup} {b : Nat} (h : s.safe) :
    SafeOkFst (s.sendShardBlock e r p b) := by
  unfold State.sendShardBlock
  dsimp only
  split
  · exact .error
  · exact .ok (.passBlock (.fst (.foldl (fun _ _ h' => .send h') (.mk h))))

theorem SafeFst.pushUnsent {e : EstTask} {r : Nat} {p : EstGroup} {l : List Nat} :
    ∀ {s : State}, s.safe → SafeFst (State.pushUnsent e r p l s) := by
  induction l with
  | nil => exact fun h => .mk (.setReduction h)
  | cons b l ih =>
    intro s h
    have hsent : SafeOkFst (if grpOp (s.groupRec e.group) = 3 then s.sendShardBlock e r p b else s.sendBlock e r p b) :=
      .ite (.sendShardBlock h) (.sendBlock h)
    unfold State.pushUnsent
    split
    · next he => exact .mk (.fst (ih (hsent _ he)))
    · dsimp only
      split
      · exact .mk (.estEnd (.setReduction (.setReduction (.noteStop h))))
      · exact .mk (.setReduction (.noteStop h))

theorem SafeFst.sendUnsent {g r : Nat} (h : s.safe) : SafeFst (s.sendUnsent g r) := by
  unfold State.sendUnsent
  split
  · exact .pushUnsent h
  · exact .mk h

theorem SafeFst.onRaise {m : EstMsg} (h : s.safe) : SafeFst (s.onRaise m) := by
  unfold State.onRaise
  extract_lets g r t x x' u w v
  have ht : t.safe := by
    dsimp only [t]
    split
    · split
      · exact .setBlockSum h
      · exact h
    · exact h
  clear_value t
  have hv : v.safe := by
    dsimp only [v, u]
    split
    · exact .setReduction ht
    · split
      · exact .setReduction ht
      · split
        · next he => exact .setReduction (SafeOk.setScaleEntry (.setReduction ht) _ he)
        · exact .setReduction ht
  exact .ite (.mk (.estStale ht)) (.sendUnsent hv)

theorem SafeOk.writeResult {p : EstGroup} {g r b : Nat} {v : List F32} (h : s.safe) : SafeOk (s.writeResult p g r b v) := by
  unfold State.writeResult
  dsimp only
  split
  · exact .error
  · next he => exact .ok (.passElems (SafeOk.writeElems h _ he))

theorem SafeOk.carryBlock {e : EstTask} {p : EstGroup} {b : Nat} (h : s.safe) : SafeOk (s.carryBlock e p b) := by
  unfold State.carryBlock
  dsimp only
  split
  · exact .error
  · split
    · exact .error
    · split
      · exact .error
      · next he2 => exact .setScaleEntry (.passElems (SafeOk.writeElems (.passBlock (.passScale h)) _ he2))

theorem SafeOk.carryBlocks {e : EstTask} {p : EstGroup} {bs : List Nat} :
    ∀ {s : State}, s.safe → SafeOk (State.carryBlocks e p bs s) := by
  induction bs with
  | nil => exact fun h => .ok h
  | cons b bs ih =>
    intro s h
    unfold State.carryBlocks
    split
    · exact .error
    · next he => exact ih (SafeOk.carryBlock h _ he)

theorem SafeOkFst.finalBlock {e : Option EstTask} {p : EstGroup} {g r b : Nat} {hd : Option BlockHeader} (h : s.safe) :
    SafeOkFst (s.finalBlock e p g r b hd) := by
  have hwrote : SafeOk (match hd.bind (·.values) with
      | some v => s.writeResult p g r b v
      | none => .ok s) := by
    split
    · exact .writeResult h
    · exact .ok h
  unfold State.finalBlock
  dsimp only
  split
  · exact .error
  · next t he =>
    have ht : t.safe := hwrote _ he
    refine .ite (.ok ht) ?_
    split
    · exact .error
    · next u he' =>
      have hu : u.safe := by
        split at he'
        · exact SafeOk.ite (.ok ht) (.carryBlock ht) _ he'
        · cases he'; exact ht
      split
      · exact .error
      · split
        · exact .error
        · next hset => exact .ok (SafeOk.setScaleEntry hu _ hset)

/-- Every block of a final reduction: the state it ends in is safe, and so is the one it stops in. -/
theorem finalBlocks_safe {e : Option EstTask} {p : EstGroup} {g r : Nat} {hs : List BlockHeader} {bs : List Nat} :
    ∀ {s : State}, s.safe → SafeOkFst (State.finalBlocks e p g r hs bs s)
      ∧ ∀ x, State.finalBlocks e p g r hs bs s = .error x → x.2.safe := by
  induction bs with
  | nil => exact fun h => ⟨.ok h, fun _ hx => by cases hx⟩
  | cons b bs ih =>
    intro s h
    unfold State.finalBlocks
    split
    · exact ⟨.error, fun _ hx => by cases hx; exact h⟩
    · next he =>
      obtain ⟨hok, herr⟩ := ih (SafeOkFst.finalBlock h _ he)
      split
      · next he' => exact ⟨.error, fun _ hx => by cases hx; exact herr _ he'⟩
      · next he' => exact ⟨.ok (hok _ he'), fun _ hx => by cases hx⟩

theorem State.safe.pruneReductions {g r : Nat} (h : s.safe) : (s.pruneReductions g r).safe := .update h

theorem State.safe.blurMissing {p : EstGroup} {g r : Nat} {hs : List BlockHeader} (h : s.safe) : (s.blurMissing p g r hs).safe :=
  .blur h

theorem State.safe.finishReduction {g r : Nat} {p : EstGroup} {hs : List BlockHeader} {unreach : Bool} (h : s.safe) :
    (s.finishReduction g r p hs unreach).safe := by
  unfold State.finishReduction
  extract_lets w e blocks close
  clear_value e
  have hclose : ∀ {t : State} {late : Nat} {fault : Option (BitVec 16)}, t.safe → (close t late fault).safe := by
    intro t late fault ht
    dsimp -zeta only [close]
    extract_lets old x code record u v w' y z last
    have hy : y.safe := .wr (.ite (.bump (.bump (.wr (.setReduction ht)))) (.bump (.wr (.setReduction ht))))
    have hz : z.safe := .ite hy (.foldl (fun _ _ h' => .record h') hy)
    have hl : last.safe := .pruneReductions hz
    clear_value last
    split
    · exact hl
    · exact .ite (.estEnd (.blurMissing hl)) (.estEnd hl)
  obtain ⟨hok, herr⟩ := finalBlocks_safe (e := e) (p := p) (g := g) (r := r) (hs := hs) (bs := List.range blocks) h
  split
  · next he => exact hclose (hok _ he)
  · next he =>
    split
    · exact hclose (.noteStop (herr _ he))
    · exact .noteStop h

theorem SafeFst.checkFinal {g r n : Nat} : ∀ {s : State}, s.safe → SafeFst (s.checkFinal g r n) := by
  induction n with
  | zero => exact fun h => .mk h
  | succ n ih =>
    intro s h
    unfold State.checkFinal
    dsimp only
    split
    · exact .mk h
    · exact .ite (.mk h) (.ite (.mk (.fst (ih (.fst (.sendUnsent (.setReduction (.bump h))))))) (.mk (.finishReduction h)))

theorem SafeFst.onHeader {m : EstMsg} (h : s.safe) : SafeFst (s.onHeader m) := by
  unfold State.onHeader
  extract_lets g r w values hd
  split
  · exact .mk (.estStale h)
  · extract_lets owner o t x done u c
    have ht : t.safe := .fst (.ite (.mk h) (.foldl (fun _ _ h' => .send h') (.mk h)))
    clear_value t hd values
    have hu : u.safe := by
      dsimp only [u, done]
      split
      · next he =>
        refine .setReduction ?_
        split at he
        · exact SafeOk.writeResult ht _ he
        · cases he; exact ht
      · exact .setReduction ht
    exact .ite (.mk (.estStale ht)) (.mk (.fst (.checkFinal hu)))

theorem SafeFst.onMessage {m : EstMsg} (h : s.safe) : SafeFst (s.onMessage m) := by
  unfold State.onMessage
  refine .ite (.mk (.estStale h)) ?_
  split
  · exact .onPartial h
  · exact .onHeader h
  · exact .onHeader h
  · exact .onRaise h
  · exact .mk (.estStale h)

theorem State.safe.onMessages {n : Nat} : ∀ {ms : List EstMsg} {s : State}, s.safe → (State.onMessages n ms s).safe := by
  induction n with
  | zero => exact fun h => h
  | succ n ih =>
    intro ms s h
    cases ms with
    | nil => exact h
    | cons m ms => exact ih (.fst (.onMessage h))

theorem State.safe.run {o : EstOut} (h : SafeFst o) : o.run.safe := .onMessages (.fst h)

theorem SafeFst.estBegin {e : EstTask} {p : EstGroup} (h : s.safe) : SafeFst (s.estBegin e p) := by
  unfold State.estBegin
  extract_lets w n r t all x carry
  have hcarry : ∀ code, (carry code).1.safe := by
    intro code
    dsimp only [carry]
    split
    · next he => exact .estEnd (SafeOk.carryBlocks h _ he)
    · split
      · exact .estEnd (.noteStop h)
      · exact .noteStop h
  exact .ite (.mk (hcarry _)) (.ite (.ite (.mk (.record (.wr (.bump (.setReduction (hcarry _)))))) (.mk (hcarry _)))
    (.mk (.fst (.checkFinal (.fst (.sendUnsent (.setReduction (.update h))))))))

theorem SafeFst.estRetry (h : s.safe) : SafeFst s.estRetry :=
  .foldl (fun _ _ h' => .mk (.fst (.checkFinal (.fst (.sendUnsent (.fst h')))))) (.mk h)

theorem execEstuarySendBegin_safe (h : s.safe) : SafeRes (execEstuarySendBegin s) := by
  unfold execEstuarySendBegin
  refine .ite (.next h) ?_
  dsimp only
  split
  · exact .next (.run (.estRetry h))
  · exact .next (.run (.estBegin (.run (.estRetry h))))

theorem execCollectorDeadline_safe {group block : Nat} (h : s.safe) : SafeRes (execCollectorDeadline group block s) := by
  unfold execCollectorDeadline
  split
  · exact .next h
  · split
    · exact .next h
    · exact .next (.run (.forwardSum h))

theorem execOwnerDeadline_safe {group block : Nat} (h : s.safe) : SafeRes (execOwnerDeadline group block s) := by
  unfold execOwnerDeadline
  split
  · exact .next h
  · exact .next (.run (.finalise h))

theorem execResultWaitExpiry_safe {group : Nat} (h : s.safe) : SafeRes (execResultWaitExpiry group s) := by
  unfold execResultWaitExpiry
  split
  · exact .ite (.next h) (.next (.finishReduction h))
  · exact .next h

/-! ### Lanes and ports (chapter 12) -/

theorem State.safe.storeLanes {p : Nat} (h : s.safe) : (s.storeLanes p).safe := .wr h
theorem State.safe.freshPort {p : Nat} (h : s.safe) : (s.freshPort p).safe := .setCport h
theorem State.safe.clearPort {p : Nat} (h : s.safe) : (s.clearPort p).safe := .bump (.freshPort h)
theorem State.safe.portDown {p st : Nat} (h : s.safe) : (s.portDown p st).safe := .announceLinks (.setPortState (.clearPort h))

theorem State.safe.requeue {k : Packet} (h : s.safe) : (s.requeue k).safe := by
  unfold State.requeue
  split
  · exact .enqueue h
  · exact .ite h (.bump h)

theorem State.safe.unback {p : Nat} (h : s.safe) : (s.unback p).safe := .ite (.wr h) h
theorem State.safe.vacate {l p : Nat} (h : s.safe) : (s.vacate l p).safe := .sendOwnLinks (.vector (.record (.wr (.unback h))))

theorem State.safe.requestSpare {l p : Nat} (h : s.safe) : (s.requestSpare l p).safe := by
  unfold State.requestSpare
  split
  · exact .wr h
  · exact .vacate h

theorem State.safe.failPort {p : Nat} (h : s.safe) : (s.failPort p).safe :=
  .when .requestSpare (.foldl (fun _ _ h' => .requeue h') (.announceLinks (.setPortState (.freshPort h))))

theorem State.safe.partnerFailed {q failed : Nat} (h : s.safe) : (s.partnerFailed q failed).safe := by
  unfold State.partnerFailed
  split
  · split
    · exact .ite (.failPort h) h
    · exact h
  · exact h

theorem State.safe.partnerVacant {q vacant : Nat} (h : s.safe) : (s.partnerVacant q vacant).safe := by
  unfold State.partnerVacant
  split
  · split
    · exact .ite (.vacate (.wr h)) h
    · exact h
  · exact h

theorem State.safe.portFails {p : Nat} (h : s.safe) : (s.portFails p).safe := .ite h (.when .announceFence (.failPort h))

theorem State.safe.laneFails {p lane : Nat} {receive : Bool} (h : s.safe) : (s.laneFails p lane receive).safe :=
  .ite h (.ite (.record (.storeLanes (.setCport (.bump h)))) (.ite (.record (.storeLanes (.setCport (.bump h)))) (.portFails
    (.storeLanes (.setCport (.bump h))))))

theorem serveSpareConnect_safe : Serve.safe serveSpareConnect := by
  intro _ _ _ s h
  unfold serveSpareConnect
  split
  · exact .refuse h
  · exact .mk (.setPortState h)

theorem execSparePortTrained_safe {port : Nat} {neighbour : Neighbour} (h : s.safe) :
    SafeRes (execSparePortTrained port neighbour s) := by
  unfold execSparePortTrained
  split
  · exact .next h
  · exact .ite (.next h) (.ite (.next (.announceLinks (.record (.wr (.storeLanes (.setCport (.wr (.unback (.wr h))))))))) (.next
      (.vacate (.setPortState (.wr h)))))

/-! ### Power (chapter 01) -/

theorem State.safe.measureInput {mv : Nat} {pwrgood : Bool} (h : s.safe) : (s.measureInput mv pwrgood).safe :=
  .update (.setReg (.setReg h))

theorem State.safe.raiseSupplyWarning (h : s.safe) : s.raiseSupplyWarning.safe := .startFlush (.record (.vector (.setFlags h)))

theorem execHarbourBootDone_safe {ok0 ok1 : Bool} (h : s.safe) : SafeRes (execHarbourBootDone ok0 ok1 s) := by
  unfold execHarbourBootDone
  refine .ite ?_ (.next h)
  split
  · exact .next (.update h)
  · extract_lets t
    have ht : t.safe := .measureBoot h
    clear_value t
    exact .next (.landfallBegin (.update ht))

theorem State.safe.unlockIslands {a b : Nat} (h : s.safe) : (s.unlockIslands a b).safe := .clearFlags h
theorem servePowerDown_safe : Serve.safe servePowerDown := fun _ _ _ _ h => .ite (.mk (.ite (.setReg h) h)) (.refuse (.record h))
theorem State.safe.resetLow (h : s.safe) : s.resetLow.safe := .update h

theorem execModuleReset_safe {lowNs : Nat} (h : s.safe) : SafeRes (execModuleReset lowNs s) :=
  .ite (.next h) (.ite .fault (.ite (.ite (.next (.resetLow .powerCycle)) (.next (.update h))) (.ite (.next (.resetLow h))
    (.next (.resetLow (.moduleReset h))))))

theorem State.safe.tripRuns (h : s.safe) : s.tripRuns.safe :=
  .update (.foldl (fun _ _ h' => .ite (.opEnd (.recordAborted h')) h') h)

theorem State.safe.trip {detail : List Byte} (h : s.safe) : (s.trip detail).safe := by
  unfold State.trip
  extract_lets t u
  have ht : t.safe := .unlockIslands (.tripRuns (.setReg (.vector (.startFlush (.record h)))))
  clear_value t
  exact .intro ht.1.1 (wf_tclear _ _ (wf_tclear _ _ ht.1.2)) ht.2.1 ht.2.2

theorem State.safe.storeJunctions {j : List Int} {hot : Int} {block : Nat} (h : s.safe) : (s.storeJunctions j hot block).safe :=
  .setReg (.setReg (.foldl (fun _ _ h' => .setReg h') h))

theorem State.safe.setThrottle {level : Nat} (h : s.safe) : (s.setThrottle level).safe :=
  .ite (.clearFlags (.setReg h)) (.setFlags (.setReg h))

theorem State.safe.setTherm {on : Bool} {detail : List Byte} (h : s.safe) : (s.setTherm on detail).safe :=
  .ite (.unless (fun h' => .vector (.record h')) (.setFlags (.update h))) (.clearFlags (.update h))

theorem execThermalSample_safe {junctions : Vector Int 8} (h : s.safe) : SafeRes (execThermalSample junctions s) :=
  .ite (.next h) (.ite (.next (.storeJunctions h)) (.next (.when .trip (.setTherm (.setThrottle (.storeJunctions h))))))

/-! ### The Headland (chapter 08) -/

theorem State.safe.headPlace {a : ArrayTask} (h : s.safe) : (s.headPlace a).safe := .ite (.update h) (.update h)
theorem State.safe.headRemove {id : Nat} (h : s.safe) : (s.headRemove id).safe := .ite (.update h) (.update h)

theorem State.safe.headFail {a : ArrayTask} {code : BitVec 16} (h : s.safe) : (s.headFail a code).safe :=
  .when .blur (.endTask (.clearUnit (.headRemove h)))

theorem State.safe.headStop {a : ArrayTask} {x : Stop} (h : s.safe) : (s.headStop a x).safe := by
  unfold State.headStop
  split
  · exact .headFail (.noteStop h)
  · exact .noteStop h

theorem State.safe.askRow {t : Task} {tile row : Nat} (h : s.safe) : (s.askRow t tile row).safe :=
  .ite h (.pump (.ite h (.noteStaged (.ask h))))

theorem State.safe.loadRow (h : s.safe) : s.loadRow.safe := by
  unfold State.loadRow
  split
  · exact h
  · refine .ite h ?_
    dsimp only
    split
    · exact .headStop (.askRow h)
    · exact .headFail (.askRow h)
    · refine .unless (fun h'' => ?_) (.askRow h)
      split
      · exact .headStop (.when .beatDone h'')
      · exact .update (.countSuppressed (.when (.foldl (fun _ _ h' => .blurRoom h')) (.when .beatDone h'')))

theorem SafeFst.headRelease {t : Task} (h : s.safe) : SafeFst (s.headRelease t) := by
  unfold State.headRelease
  split
  · exact .mk (.when .loadRow (.headPlace (.passDescs h)))
  · exact .rejectTask h

theorem SafeOk.writeThroughDesc {t : Task} {j : Nat} {ws : List (Int × F32)} (h : s.safe) : SafeOk (s.writeThroughDesc t j ws) := by
  unfold State.writeThroughDesc
  split
  · exact .error
  · next he => exact .ok (.passElems (SafeOk.writeElems h _ he))

theorem SafeOk.drainVector {a : ArrayTask} {x : InTree} (h : s.safe) : SafeOk (s.drainVector a x) := by
  unfold State.drainVector
  dsimp only
  split
  · exact .error
  · split
    · exact .error
    · next he1 => exact .writeThroughDesc (SafeOk.ite (.writeThroughDesc h) (.ok h) _ he1)

theorem State.safe.drained {a : ArrayTask} (h : s.safe) : (s.drained a).safe :=
  .ite (.update h) (.ite (.update h) (.endTask (.update h)))

theorem State.safe.countCycle {c : ArrayCycle} (h : s.safe) : (s.countCycle c).safe := .when .bump (.bump h)

theorem State.safe.advance (h : s.safe) : s.advance.safe := by
  have hdrain : ∀ t, (match s.headland.drainDue with
      | none => .ok s
      | some x => match s.headland.find x.id with
        | none => .ok s
        | some a => match s.drainVector a x with
          | .ok t => .ok (t.drained a)
          | .error e => .error (a, e) : Except (ArrayTask × Stop) State) = .ok t → t.safe := by
    intro t he
    split at he
    · cases he; exact h
    · split at he
      · cases he; exact h
      · split at he
        · next hv => cases he; exact .drained (SafeOk.drainVector h _ hv)
        · cases he
  unfold State.advance
  dsimp only
  split
  · exact .loadRow (.headStop (.countCycle h))
  · next he =>
    have ht := hdrain _ he
    split
    · exact .loadRow (.countCycle (.update ht))
    · split
      · exact .loadRow (.headStop (.countCycle h))
      · exact .loadRow (.countCycle (.update ht))

theorem State.safe.arrayEdge {feedReady drainCredit : Bool} (h : s.safe) : (s.arrayEdge feedReady drainCredit).safe :=
  .ite (.loadRow (.countCycle (.update h))) (.ite (.loadRow (.countCycle h)) (.ite (.loadRow (.countCycle h)) (.advance h)))

theorem State.safe.startRerun (h : s.safe) : s.startRerun.safe := by
  unfold State.startRerun
  dsimp only
  split
  · exact h
  · refine .ite h ?_
    split
    · exact .headPlace (.bump (.update h))
    · exact .unless .update (.fst (.rejectTask (.update h)))

theorem execHeadlandCycle_safe {feedReady drainCredit : Bool} (h : s.safe) : SafeRes (execHeadlandCycle feedReady drainCredit s) :=
  .ite (.next (.startRerun h)) (.next (.ite (.countCycle (.update (.startRerun h))) (.arrayEdge (.update (.startRerun h)))))

theorem State.safe.noteColumn {j physical check outcome : Nat} (h : s.safe) : (s.noteColumn j physical check outcome).safe :=
  .announceFence (.setReg h)

theorem State.safe.takeFinished {s : State} {p : Task → Bool} (h : s.safe) : (s.takeFinished p).2.safe := .update h

theorem State.safe.spoil {code : BitVec 16} {ts : List Task} (h : s.safe) : (s.spoil code ts).safe :=
  .foldl (fun _ _ h' => .blur (.endTask h')) h

theorem State.safe.loseColumn {j : Nat} (h : s.safe) : (s.loseColumn j).safe :=
  .spoil (.update (.foldl (fun _ _ h' => .headFail h') (.wr (.spoil (.takeFinished h)))))

theorem execColumnFailure_safe {physical check : Nat} (h : s.safe) : SafeRes (execColumnFailure physical check s) := by
  unfold execColumnFailure
  refine .ite (.next h) (.ite (.next (.noteColumn (.setReg (.bump (.wr h))))) ?_)
  split
  · exact .next (.noteColumn (.bump (.wr h)))
  · exact .ite (.next (.update (.takeFinished (.noteColumn (.bump (.wr h)))))) (.next (.loseColumn (.noteColumn (.bump
      (.wr h)))))

theorem State.safe.remapColumn {j : Nat} (h : s.safe) : (s.remapColumn j).safe := by
  unfold State.remapColumn
  split
  · exact .loseColumn h
  · exact .setReg (.wr (.wr h))

end Sys2Proof.Machine
end

section
/-!
PROOFS. `State.safe`, kept by every operation of the model's parts: the Tideway engines; tasks; the host link; the stage
sequencers; stowing; restoring.
-/
namespace Sys2Proof.Machine

variable {s : State}

/-! ### The Tideway engines (chapter 09) -/

theorem SafeFst.tideRelease {t : Task} (h : s.safe) : SafeFst (s.tideRelease t) := by
  unfold State.tideRelease
  split
  · exact .mk (State.safe.update (State.safe.setEngine (.passDescs h)))
  · exact .rejectTask h

theorem SafeOk.scatterAdd {g : Agent} {d : Desc} {l : List (Int × F32)} : ∀ {s : State}, s.safe → SafeOk (s.scatterAdd g d l) := by
  induction l with
  | nil => exact fun h => .ok h
  | cons e l ih =>
    intro s h
    unfold State.scatterAdd
    split
    · exact .error
    · split
      · exact .error
      · next he => exact ih (SafeOk.writeElems h _ he)

theorem SafeOkFst.writeBeat {v : Beat} {j : Nat} {acc : Written} {ws : List (Int × F32)} {write : State → Except Stop State}
    (h : s.safe) (hwrite : ∀ t, t.safe → SafeOk (write t)) : SafeOkFst (s.writeBeat v j acc ws write) := by
  unfold State.writeBeat
  dsimp only
  split
  · exact .error
  · next he => exact .ok (.passWrite (hwrite _ h _ he))

theorem SafeOkFst.writeOp {v : Beat} {w : Work} {levels : List Nat} {last n : Nat} {acc : Written} (h : s.safe) :
    SafeOkFst (s.writeOp v w levels last n acc) := by
  unfold State.writeOp
  split
  · exact .ok h
  · refine .ite (.ite (.ok h) ?_) (.ite ?_ (.ok h))
    · dsimp only
      split
      · exact .error
      · exact .ite (.writeBeat h (fun _ h' => .writeElems h')) (.writeBeat (.bump h) (fun _ h' => .scatterAdd h'))
    · dsimp only
      split
      · exact .error
      · exact .writeBeat h (fun _ h' => .writeElems h')

theorem State.safe.flushPartials {x : EngineTask} (h : s.safe) : (s.flushPartials x).safe :=
  .foldl (fun _ _ h' => .passWrite h') h

theorem State.safe.idleEngine {n : Nat} (h : s.safe) : (s.idleEngine n).safe := .clearUnit (.setEngine h)

theorem State.safe.tideEnd {n : Nat} {x : EngineTask} (h : s.safe) : (s.tideEnd n x).safe :=
  .endTask (.idleEngine (.flushPartials h))

theorem State.safe.tideFail {n : Nat} {x : EngineTask} {code : BitVec 16} (h : s.safe) : (s.tideFail n x code).safe :=
  .blur (.endTask (.idleEngine (.flushPartials h)))

theorem State.safe.tideStop {n : Nat} {x : EngineTask} {e : Stop} (h : s.safe) : (s.tideStop n x e).safe := by
  unfold State.tideStop
  dsimp only
  split
  · exact .bump (.noteStop h)
  · exact .bump (.noteStop h)
  · exact .tideFail (.noteStop h)

theorem State.safe.keepWork {n : Nat} {v : Beat} {w : Work} {wr : Written} (h : s.safe) : (s.keepWork n v w wr).safe :=
  .setEngine (.update (.foldl (fun _ _ h' => .ite h' (.bump h')) h))

theorem SafeOkFst.writeOps {v : Beat} {w : Work} {levels : List Nat} {last : Nat} {l : List Nat} :
    ∀ {s : State} {acc : Written}, s.safe → SafeOkFst (s.writeOps v w levels last acc l) := by
  induction l with
  | nil => exact fun h => .ok h
  | cons i l ih =>
    intro s acc h
    unfold State.writeOps
    split
    · exact .error
    · next he => exact ih (SafeOkFst.writeOp h _ he)

theorem SafeOkFst.runBeat {n : Nat} {v : Beat} (h : s.safe) : SafeOkFst (s.runBeat n v) := by
  unfold State.runBeat
  split
  · exact .error
  · split
    · exact .error
    · next he1 => exact .ok (.keepWork (.fst (SafeOkFst.writeOps h _ he1)))

theorem State.safe.issueBeat {n : Nat} {x : EngineTask} {staged : List Nat} (h : s.safe) : (s.issueBeat n x staged).safe := by
  unfold State.issueBeat
  extract_lets v
  split
  · exact .tideStop h
  · next he =>
    extract_lets counted cycles t u w
    have hw : w.safe := .beatDone (.setEngine (.bump (.bump (SafeOkFst.runBeat h _ he))))
    split
    · exact hw
    · split
      · exact .setEngine hw
      · exact .tideEnd hw

theorem State.safe.tryBeat {n : Nat} {x : EngineTask} (h : s.safe) : (s.tryBeat n x).safe := by
  unfold State.tryBeat
  extract_lets u needs t v
  have hv : v.safe := .noteStaged (.pump (.ite h (.ask h)))
  split
  · exact .tideFail hv
  · exact .ite (.bump hv) (.ite (.bump hv) (.ite (.bump hv) (.issueBeat hv)))

theorem State.safe.beginTask {x y : EngineTask} {t : State} (h : s.safe) (he : s.beginTask x = .go t y) : t.safe := by
  have hgo : ∀ {u v : State} {rooms : List Nat} {x : EngineTask}, u.safe → Begun.go (rooms.foldl State.blurRoom u) x = .go v y →
    v.safe :=
    fun hu he => by cases he; exact .foldl (fun _ _ h' => .blurRoom h') hu
  unfold State.beginTask at he
  dsimp only at he
  split at he
  · cases he
  · split at he
    · cases he
    · split at he
      · cases he; exact h
      · split at he
        · exact hgo h he
        · split at he
          · split at he
            · cases he
            · cases he
            · exact hgo h he
          · split at he
            · cases he
            · exact hgo (.bump h) he

theorem execTidewayBeat_safe {n : Nat} (h : s.safe) : SafeRes (execTidewayBeat n s) := by
  unfold execTidewayBeat
  split
  · exact .next h
  · refine .ite (.next h) (.ite (.next (.bump (.bump (.setEngine h)))) ?_)
    split
    · exact .next (.tideStop h)
    · exact .next (.endTask (.idleEngine h))
    · next he => exact .next (.tryBeat (.setEngine (.beginTask h he)))

theorem State.safe.fenceEngine {n engineState : Nat} (h : s.safe) : (s.fenceEngine n engineState).safe := by
  unfold State.fenceEngine
  refine .setUnitPort ?_
  split
  · exact .tideFail (.wr (.setFlags h))
  · exact .wr (.setFlags h)

theorem State.safe.setSlot {slot : Nat} {m : Option MicroProgram} (h : s.safe) : (s.setSlot slot m).safe :=
  .foldl (fun _ _ h' => .setEngine (.update h')) h

theorem State.safe.setMpError {code : BitVec 16} {check place : Nat} (h : s.safe) : (s.setMpError code check place).safe :=
  .setReg h

theorem serveMpLoad_safe : Serve.safe serveMpLoad := by
  intro _ _ _ s h
  unfold serveMpLoad
  refine .ite (.refuse h) (.ite (.refuse h) ?_)
  dsimp only
  split
  · exact .refuse (.setMpError h)
  · exact .mk (.extend (.setMpError (.setSlot h)))

theorem serveMpUnload_safe : Serve.safe serveMpUnload := fun _ _ _ _ h => .ite (.refuse h) (.ite (.refuse h) (.mk (.setSlot h)))
theorem serveSfnCheck_safe : Serve.safe serveSfnCheck := fun _ _ _ _ h => .ite (.refuse h) (.mk (.setReg h))
theorem serveGenCheck_safe : Serve.safe serveGenCheck := fun _ _ _ _ h => .ite (.mk (.setReg h)) (.mk (.wrBytes h))

/-! ### Tasks (chapter 11) -/

theorem State.safe.failStage {p : Nat} {code : BitVec 16} (h : s.safe) : (s.failStage p code).safe :=
  .ite (.record (.setReg (.wr h))) h

theorem State.safe.failBrokenStages (h : s.safe) : s.failBrokenStages.safe := .foldl (fun _ _ h' => .ite (.failStage h') h') h
theorem State.safe.breakCounters {p : Nat} (h : s.safe) : (s.breakCounters p).safe := .failBrokenStages (.breakPartition h)

theorem State.safe.sendSignalEntry {t : Task} {i : Nat} (h : s.safe) : (s.sendSignalEntry t i).safe :=
  .ite (.ctrOp h) (.ite (.refuseOp h) (.sendSignal h))

theorem State.safe.sendSignals {t : Task} {apply : List Nat} (h : s.safe) : (s.sendSignals t apply).safe :=
  .foldl (fun _ _ h' => .sendSignalEntry h') h

theorem State.safe.setListState {u p st : Nat} (h : s.safe) : (s.setListState u p st).safe := .setListRec h
theorem State.safe.advanceList {u p : Nat} (h : s.safe) : (s.advanceList u p).safe := .setListRec h
theorem State.safe.stopIfDone {u p : Nat} (h : s.safe) : (s.stopIfDone u p).safe := .ite (.setListState h) h

theorem SafeFst.writeCompletion {t : Task} (h : s.safe) : SafeFst (s.writeCompletion t) := by
  unfold State.writeCompletion
  dsimp only
  split
  · next he => exact .mk (.passBytes (SafeOk.unitWrites h _ he))
  · split
    · exact .mk (.blur (.noteStop h))
    · exact .mk (.noteStop h)

theorem State.safe.rewriteCompletion {t : Task} {flags : Nat} (h : s.safe) : (s.rewriteCompletion t flags).safe := by
  unfold State.rewriteCompletion
  split
  · next he => exact .passBytes (SafeOk.unitWrites h _ he)
  · exact h

theorem State.safe.failList {t : Task} (h : s.safe) : (s.failList t).safe := .failStage (.record (.bump (.setListState h)))
theorem State.safe.failTask {t : Task} (h : s.safe) : (s.failTask t).safe := .failList (.sendSignals h)

theorem State.safe.completeHead {u p : Nat} {t : Task} (h : s.safe) : (s.completeHead u p t).safe := by
  unfold State.completeHead
  dsimp only
  split
  · exact .fst (.writeCompletion h)
  · exact .failTask (.advanceList (.setHead (.fst (.writeCompletion h))))

theorem State.safe.newHead {u p : Nat} {r : List Byte} (h : s.safe) : (s.newHead u p r).safe := by
  unfold State.newHead
  refine .ite (.completeHead h) ?_
  split
  · exact .completeHead h
  · split
    · exact .completeHead (.ite (.bump h) h)
    · exact .setHead h

theorem State.safe.loadHead {u p : Nat} (h : s.safe) : (s.loadHead u p).safe := by
  unfold State.loadHead
  dsimp only
  split
  · exact .newHead (.passBytes h)
  · split
    · exact .completeHead (.noteStop h)
    · exact .noteStop h

theorem SafeFst.handOn {commit : Bool} {l : List Nat} : ∀ {s : State}, s.safe → SafeFst (State.handOn commit l s) := by
  induction l with
  | nil => exact fun h => .mk h
  | cons x l ih =>
    intro s h
    have hb : ∀ b, (s.beginHandover (handoverRoom x) (handoverWord x) b).safe := fun _ => .beginHandover h
    unfold State.handOn
    dsimp only
    split
    · exact .ite (.mk h) (.ite (.ite (.mk (hb _)) (ih (hb _))) (ih h))
    · exact .ite (ih h) (.ite (.mk (hb _)) (ih (hb _)))

theorem State.safe.afterTask {t : Task} (h : s.safe) : (s.afterTask t).safe := .when .setStage (.stopIfDone h)

theorem State.safe.handedOver {e : Ending} (h : s.safe) : (s.handedOver e).safe :=
  .ite (.stopIfDone (.bump (.rewriteCompletion (.sendSignals h)))) (.afterTask (.sendSignals h))

theorem State.safe.runEnding {e : Ending} (h : s.safe) : (s.runEnding e).safe :=
  .ite (.update h) (.ite (.handedOver (.fst (.handOn h))) (.update (.fst (.handOn h))))

theorem State.safe.runEndings (h : s.safe) : s.runEndings.safe := .foldl (fun _ _ h' => .runEnding h') (.update h)

theorem SafeFst.unitRelease {t : Task} (h : s.safe) : SafeFst (s.unitRelease t) :=
  .ite (.headRelease h) (.ite (.estRelease h) (.tideRelease h))

theorem State.safe.takeRooms {t : Task} {shadow : Bool} {rooms : List Nat} (h : s.safe) : (s.takeRooms t shadow rooms).safe :=
  .foldl (fun _ _ h' => .beginHandover h') h

theorem State.safe.returnRoom {e : Nat × Nat} (h : s.safe) : (s.returnRoom e).safe := .ite h (.setRoom (.setOwnerWord h))

theorem State.safe.discardSpec {x : SpecTask} (h : s.safe) : (s.discardSpec x).safe :=
  .bump (.sendSignals (.rewriteCompletion (.foldl (fun _ _ h' => .returnRoom h') h)))

theorem State.safe.rerunSpec {x : SpecTask} (h : s.safe) : (s.rerunSpec x).safe := .update (.bump h)

theorem State.safe.resolveSpec {x : SpecTask} (h : s.safe) : (s.resolveSpec x).safe :=
  .ite (.update h) (.when .rerunSpec (.discardSpec h))

theorem State.safe.resolveUnit {u : Nat} (h : s.safe) : (s.resolveUnit u).safe :=
  .foldl (fun _ _ h' => .resolveSpec h') (.setSpec h)

theorem State.safe.startSpec {u : Nat} (h : s.safe) : (s.startSpec u).safe := by
  unfold State.startSpec
  split
  · exact h
  · exact .ite (.when .setSpec (.fst (.unitRelease h))) h

theorem State.safe.doomHeads (h : s.safe) : s.doomHeads.safe := by
  unfold State.doomHeads
  refine .foldl (fun _ _ h' => ?_) h
  split
  · exact h'
  · refine .ite h' ?_
    split
    · exact h'
    · exact .completeHead h'

theorem State.safe.dropLost (h : s.safe) : s.dropLost.safe := .update h

theorem State.safe.drainFenced (h : s.safe) : s.drainFenced.safe :=
  .foldl (fun _ _ h' => .when .markerReturn (.ite (.markerReturn h') h')) h

theorem State.safe.settleOnce (h : s.safe) : s.settleOnce.safe :=
  .doomHeads (.foldl (fun _ _ h' => .startSpec h') (.foldl (fun _ _ h' => .resolveUnit h') (.runEndings (.dropLost
    (.drainFenced h)))))

theorem State.safe.settleN {n : Nat} : ∀ {s : State}, s.safe → (State.settleN n s).safe := by
  induction n with
  | zero => exact fun h => h
  | succ n ih => exact fun h => ih (.settleOnce h)

theorem State.safe.settle (h : s.safe) : s.settle.safe := .settleN h

theorem State.safe.putList {i new : Nat} {written : Bool} (h : s.safe) : (s.putList i new written).safe :=
  .ite (.when .wr (.setListState (.ite (.setListRec (.setHead h)) h))) (.when (fun h' => .stopIfDone (.setListState h')) (.ite
    (.setListRec (.setHead h)) h))

theorem serveTaskLists_safe : Serve.safe serveTaskLists := by
  intro _ _ _ s h
  unfold serveTaskLists
  refine .ite (.refuse h) ?_
  split
  · exact .refuse h
  · exact .mk (.foldl (fun _ _ h' => .putList h') h)

theorem execHeadLoad_safe {unit part : Nat} (h : s.safe) : SafeRes (execHeadLoad unit part s) := by
  unfold execHeadLoad
  refine .ite ?_ (.next h)
  split
  · exact .next (.settle (.loadHead h))
  · exact .next h

theorem SafeFst.takeGuards {l : List Nat} : ∀ {s : State} {hd : Head}, s.safe → SafeFst (s.takeGuards hd l) := by
  induction l with
  | nil => exact fun h => .mk h
  | cons i l ih =>
    intro s hd h
    unfold State.takeGuards
    split
    · exact ih h
    · split
      · exact .mk (.askBack h)
      · next he => exact ih (SafeOption.consume h _ he)

theorem State.safe.headTaken {u p : Nat} (h : s.safe) : (s.headTaken u p).safe := .update (.bump (.advanceList (.setHead h)))

theorem State.safe.releaseHead {u p : Nat} {header : Head} (h : s.safe) : (s.releaseHead u p header).safe :=
  .ite (.when .headTaken (.fst (.unitRelease h))) (.startSpec (.setSpec (.takeRooms (.headTaken h))))

theorem State.safe.releaseFrom {u : Nat} {ps : List Nat} : ∀ {s : State}, s.safe → (State.releaseFrom u ps s).safe := by
  induction ps with
  | nil => exact fun h => h
  | cons p ps ih =>
    intro s h
    unfold State.releaseFrom
    split
    · exact ih h
    · split
      · exact ih h
      · have h1 := fun (hd : Head) (l : List Nat) => State.safe.setHead (k := listKey u p) (v := some (s.takeGuards hd l).2)
          (State.safe.fst (.takeGuards (hd := hd) (l := l) h))
        exact .ite (.releaseHead (h1 _ _)) (ih (h1 _ _))

theorem State.safe.releaseRerun {u : Nat} {t : Task} (h : s.safe) : (s.releaseRerun u t).safe :=
  .ite h (.unless (fun h' => .when .update (.fst (.unitRelease h'))) (.takeRooms h))

theorem State.safe.releaseNext {u : Nat} (h : s.safe) : (s.releaseNext u).safe := by
  unfold State.releaseNext
  refine .ite h ?_
  split
  · exact .releaseRerun h
  · exact .ite (.releaseFrom h) h

theorem State.safe.countTask {t : Task} (h : s.safe) : (s.countTask t).safe := .ite (.ite h (.bump h)) (.ite h (.bump h))

theorem State.safe.recorded {t : Task} (h : s.safe) : (s.recorded t).safe :=
  .ite (.stopIfDone (.when .failList (.setSpec (.countTask h)))) (.ite (.afterTask (.failTask (.countTask h))) (.update
    (.countTask h)))

theorem State.safe.completeTask {t : Task} (h : s.safe) : (s.completeTask t).safe := by
  unfold State.completeTask
  dsimp only
  split
  · exact h
  · split
    · exact .fst (.writeCompletion h)
    · exact .recorded (.update (.fst (.writeCompletion h)))

theorem execTaskComplete_safe {unit : Nat} (h : s.safe) : SafeRes (execTaskComplete unit s) := by
  unfold execTaskComplete
  refine .ite ?_ (.next h)
  dsimp only
  split
  · exact .next (.settle h)
  · exact .ite (.next (.settle h)) (.next (.settle (.completeTask (.settle h))))

theorem State.safe.endPartitionReset {p : Nat} (h : s.safe) : (s.endPartitionReset p).safe :=
  .ite (.foldl (fun _ _ h' => .answer h') (.wr h)) h

theorem State.safe.abortTask {t : Task} (h : s.safe) : (s.abortTask t).safe :=
  .record (.bump (.fst (.writeCompletion (.countTask h))))

theorem State.safe.stopUnits {p : Nat} (h : s.safe) : (s.stopUnits p).safe := by
  unfold State.stopUnits
  refine .update (.foldl (fun _ _ h' => .estEnd h') (.foldl (fun _ _ h' => ?_) (.spoil (.update (.foldl
    (fun _ _ h' => .headFail h') h)))))
  split
  · exact .ite (.tideFail h') h'
  · exact h'

theorem State.safe.resetRoom {r : Nat} (h : s.safe) : (s.resetRoom r).safe := .setRoom (.answerHandover (.setOwnerWord h))
theorem State.safe.zeroLists {p : Nat} (h : s.safe) : (s.zeroLists p).safe := .foldl (fun _ _ h' => .setHead (.setListRec h')) h

theorem State.safe.resetPartition {p : Nat} (h : s.safe) : (s.resetPartition p).safe := by
  unfold State.resetPartition
  extract_lets t tasks u dropped v w x
  have ht : t.safe := .stopUnits h
  clear_value t
  have hu : u.safe := .foldl (fun _ _ h' => .abortTask h') (.update ht)
  clear_value u
  have hv : v.safe := .foldl (fun _ _ h' => .bump (.rewriteCompletion (.foldl (fun _ _ h'' => .returnRoom h'') h'))) hu
  clear_value v
  have hw : w.safe := .update hv
  exact .wr (.breakCounters (.foldl (fun _ _ h' => .resetRoom h') (.zeroLists hw)))

theorem servePartitionReset_safe : Serve.safe servePartitionReset :=
  fun _ _ _ _ h => .ite (.refuse h) (.ite (.mk (.endPartitionReset (.settle (.resetPartition h)))) (.mk (.endPartitionReset
    (.settle (.resetPartition h)))))

theorem servePartitionPreempt_safe : Serve.safe servePartitionPreempt :=
  fun _ _ _ _ h => .ite (.refuse h) (.mk (.foldl (fun _ _ h' => .stopIfDone (.setListState h')) (.wr h)))

theorem execPreemptComplete_safe {part : Nat} (h : s.safe) : SafeRes (execPreemptComplete part s) :=
  .ite (.next (.settle (.wr (.breakCounters (.foldl (fun _ _ h' => .discardSpec h') (.update h)))))) (.next h)

/-! ### The host link (chapter 04) -/

theorem State.safe.track {line : Nat} (h : s.safe) : (s.track line).safe := by
  unfold State.track
  refine .ite h (.update (.ite ?_ h))
  split
  · exact .update (.fst (.sendSnoop (.bump h)))
  · exact h

theorem State.safe.retrySnoops (h : s.safe) : s.retrySnoops.safe :=
  .settle (.retryOps (.foldl (fun _ _ h' => .ite (.coveAccept h') (.update h')) (.update h)))

theorem State.safe.released {line : Nat} (h : s.safe) : (s.released line).safe := .retrySnoops (.update h)
theorem State.safe.cacheLine {line : Nat} {dirty : Bool} (h : s.safe) : (s.cacheLine line dirty).safe := .update h
theorem State.safe.linkReset (h : s.safe) : s.linkReset.safe := .retrySnoops (.update h)

theorem execLinkDown_safe {event : LinkEvent} (h : s.safe) : SafeRes (execLinkDown event s) := by
  unfold execLinkDown
  refine .ite (.next h) ?_
  split
  · exact .next (.bump (.setReg (.linkReset h)))
  · exact .next (.setReg (.linkReset h))
  · exact .next (.setReg (.linkReset h))

theorem mailboxReply_safe {opcode code : Nat} {payload : List Byte} (h : s.safe) : SafeRes (s.mailboxReply opcode code payload) :=
  .ite (.next (.vector (.emit h))) (.next h)

theorem execGetEventRecords_safe {log : Nat} (h : s.safe) : SafeRes (execGetEventRecords log s) := by
  unfold execGetEventRecords
  split <;> exact mailboxReply_safe h

theorem execClearEventRecords_safe {log : Nat} {handles : List Nat} (h : s.safe) :
    SafeRes (execClearEventRecords log handles s) := by
  unfold execClearEventRecords
  split
  · exact mailboxReply_safe h
  · exact .ite (.next h) (mailboxReply_safe (.update h))

theorem execGetFwInfo_safe (h : s.safe) : SafeRes (execGetFwInfo s) := by
  unfold execGetFwInfo
  split <;> exact mailboxReply_safe h

theorem State.safe.putTargets {s : State} {u : CliffUser} {l : List (Nat × Byte)} (h : s.safe) : (s.putTargets u l).safe := by
  have h0 : ({ s with mem := l.foldl (fun m (e : Nat × Byte) => tset 0 m e.1 e.2) s.mem } : State).safe :=
    h.of_tables ⟨wf_foldl_tset (fun e : Nat × Byte => e.1) (fun e => e.2) l h.1.1, h.1.2⟩ rfl rfl
  exact .passWrite (.foldl (fun _ _ h' => .ite (.heal h') h') h0)

theorem SafeFst.dpaRead {g : Agent} {host : Bool} {a n : Nat} (h : s.safe) : SafeFst (s.dpaRead g host a n) := by
  unfold State.dpaRead
  refine .ite ?_ (.ite (.mk h) ?_)
  · split <;> exact .mk h
  · split
    · exact .mk (.passRead h)
    · split <;> exact .mk (.noteStop h)

theorem SafeFst.dpaWrite {g : Agent} {host : Bool} {a : Nat} {data : List (Option Byte)} (h : s.safe) :
    SafeFst (s.dpaWrite g host a data) := by
  unfold State.dpaWrite
  split
  · exact .mk (.putTargets h)
  · split <;> exact .mk (.noteStop h)

theorem State.safe.windowDone {r : WindowReq} {refused : Bool} (h : s.safe) : (s.windowDone r refused).safe :=
  .emit (.when .bump (.update h))

theorem SafeFst.hostOp {o : Nat × Nat × Nat} (h : s.safe) : SafeFst (s.hostOp o) := by
  unfold State.hostOp
  refine .mk ?_
  split
  · exact .ctrAdd h
  · exact .ctrSubtract h
  · exact .ctrSet h

theorem SafeFst.serveWindow {r : WindowReq} (h : s.safe) : SafeFst (s.serveWindow r) := by
  unfold State.serveWindow
  extract_lets w held counted a o
  have hcounted : counted.1.safe := .fst (.foldl (fun _ _ h' => .mk (.fst (.hostOp (.fst h')))) (.mk h))
  have ho : o.1.safe := .fst (.ite (.dpaWrite h) (.dpaRead h))
  refine .ite (.mk h) (.ite (.ite (.mk (.foldl (fun _ _ h' => .askBack h') h)) (.mk (.windowDone (.settle hcounted)))) ?_)
  split
  · exact .mk ho
  · exact .ite (.mk (.windowDone ho)) (.ite (.mk (.windowDone ho)) (.mk (.windowDone (.foldl (fun _ _ h' => .track h') ho))))

theorem State.safe.serveWindows {rs : List WindowReq} : ∀ {s : State}, s.safe → (State.serveWindows rs s).safe := by
  induction rs with
  | nil => exact fun h => h
  | cons r rs ih => exact fun h => .ite (ih (.fst (.serveWindow h))) (.fst (.serveWindow h))

theorem State.safe.retryWindows (h : s.safe) : s.retryWindows.safe := .serveWindows h
theorem State.safe.setWindow {r : WindowReq} (h : s.safe) : (s.setWindow r).safe := .update h

theorem State.safe.sendWindow {r : WindowReq} (h : s.safe) : (s.sendWindow r).safe :=
  .foldl (fun _ _ h' => .unless .setWindow (.fst (.sendTransfer h'))) (.setWindow h)

theorem State.safe.sendWindows (h : s.safe) : s.sendWindows.safe := .foldl (fun _ _ h' => .ite h' (.sendWindow h')) h

theorem State.safe.forwardWindow {r : WindowReq} (h : s.safe) : (s.forwardWindow r).safe :=
  .ite (.windowDone h) (.sendWindows (.update h))

theorem State.safe.windowRequest {w : Window} {offset size : Nat} {write : Bool} {data : List (Option Byte)} (h : s.safe) :
    (s.windowRequest w offset size write data).safe :=
  .ite (.windowDone (.update h)) (.ite (.retryWindows (.update h)) (.forwardWindow (.update h)))

theorem execWindowTimeout_safe {id : Nat} (h : s.safe) : SafeRes (execWindowTimeout id s) := by
  unfold execWindowTimeout
  split
  · exact .next h
  · exact .next (.windowDone (.bump h))

theorem State.safe.windowAnswer {id : Nat} {code : BitVec 16} (h : s.safe) : (s.windowAnswer id code).safe := by
  unfold State.windowAnswer
  split
  · exact h
  · exact .ite (.setWindow h) (.unless .windowDone (.setWindow (.ite (.bump h) h)))

theorem SafeFst.windowData {id off : Nat} {bytes : List Byte} (h : s.safe) : SafeFst (s.windowData id off bytes) := by
  unfold State.windowData
  split
  · exact .mk h
  · exact .mk (.setWindow h)

theorem State.safe.mirrorDone {i : Nat} (h : s.safe) : (s.mirrorDone i).safe := by
  unfold State.mirrorDone
  split
  · exact h
  · exact .when .tryMirror (.when .vector (.setMirror h))

theorem serveMirrorTable_safe : Serve.safe serveMirrorTable :=
  fun _ _ _ _ h => .ite (.refuse h) (.mk (.foldl (fun _ _ h' => .setMirror (.wr h')) h))

/-! ### The stage sequencers (chapter 14) -/

theorem State.safe.setStageRec {p w : Nat} (h : s.safe) : (s.setStageRec p w).safe := .wr h

theorem State.safe.harbourWrite {a : Nat} {bs : List Byte} (h : s.safe) : (s.harbourWrite a bs).safe :=
  .ite (.passWrite (.viewWrite (.foldl (fun _ _ h' => .askBack h') h))) h

theorem State.safe.openPhase {p k : Nat} (h : s.safe) : (s.openPhase p k).safe :=
  .settle (.failBrokenStages (.ctrOp (.setStageRec h)))

theorem State.safe.beginStep {p : Nat} (h : s.safe) : (s.beginStep p).safe := .openPhase (.setStage h)
theorem State.safe.takeDone {p k : Nat} (h : s.safe) : (s.takeDone p k).safe := .ctrOp h
theorem State.safe.goOn {p : Nat} (h : s.safe) : (s.goOn p).safe := .ite (.openPhase h) (.ite (.setStage h) (.beginStep h))

theorem State.safe.resumeStage {p : Nat} (h : s.safe) : (s.resumeStage p).safe :=
  .ite h (.ite (.setStageRec (.setStage h)) (.goOn (.setStageRec h)))

/-! ### Stowing (chapter 16) -/

theorem serveStowConfig_safe : Serve.safe serveStowConfig :=
  fun _ _ _ _ h => .ite (.refuse h) (.ite (.refuse h) (.ite (.refuse h) (.mk (.wr h))))

theorem serveStowReceive_safe : Serve.safe serveStowReceive :=
  fun _ _ _ _ h => .ite (.refuse h) (.mk (.foldl (fun _ _ h' => .wr h') h))

theorem SafeFst.candidates {w : Nat} {tried l : List Nat} : ∀ {s : State}, s.safe → SafeFst (s.candidates w tried l) := by
  induction l with
  | nil => exact fun h => .mk h
  | cons i l ih => exact fun h => .mk (ih (.ite (.used h) h))

theorem SafeFst.choosePartner {w : Nat} {tried : List Nat} (h : s.safe) : SafeFst (s.choosePartner w tried) := by
  unfold State.choosePartner
  dsimp only
  split <;> exact .mk (.fst (.candidates h))

theorem State.safe.toPartner {p : Nat} {i : StowImage} {off : Nat} {bs : List Byte} (h : s.safe) :
    (s.toPartner p i off bs).safe := by
  unfold State.toPartner
  split
  · exact h
  · exact .foldl (fun _ _ h' => .fst (.sendTransfer h')) h

theorem State.safe.toHostCopy {p : Nat} {i : StowImage} {off : Nat} {bs : List Byte} (h : s.safe) :
    (s.toHostCopy p i off bs).safe := .ite (.foldl (fun _ _ h' => .emit h') h) h

theorem State.safe.sendImage {p : Nat} {i : StowImage} {out : State → Nat → List Byte → State} (h : s.safe)
    (hout : ∀ t a b, t.safe → (out t a b).safe) : (s.sendImage p i out).safe := hout _ _ _ (hout _ _ _ (hout _ _ _ h))

theorem State.safe.setImage {i : StowImage} (h : s.safe) : (s.setImage i).safe := by
  unfold State.setImage
  split
  · exact h
  · exact .update h

theorem State.safe.startImage {p : Nat} {held : Bool} (h : s.safe) : (s.startImage p held).safe := by
  unfold State.startImage
  extract_lets t w st body size c u partner number noOther toHost i i' later x v stow y z
  have hu : u.safe := .fst (.choosePartner (.ite (.opBegin h) h))
  clear_value u
  have hv : v.safe := .setStage hu
  have hz : z.safe := .setImage (.update hv)
  exact .sendImage (.sendImage hz fun _ _ _ h' => .toPartner h') fun _ _ _ h' => .toHostCopy h'

theorem State.safe.openRun {ps : List Nat} (h : s.safe) : (s.openRun ps).safe := .update h

theorem State.safe.nameInRun {p : Nat} (h : s.safe) : (s.nameInRun p).safe := by
  unfold State.nameInRun
  split
  · exact .update h
  · exact h
  · exact .openRun h

theorem State.safe.requestStow {p target : Nat} (h : s.safe) : (s.requestStow p target).safe := by
  unfold State.requestStow
  split
  · exact .ite h (.setStage h)
  · exact .nameInRun (.setStage h)

theorem State.safe.takeStows (h : s.safe) : s.takeStows.safe := .foldl (fun _ _ h' => .ite (.startImage h') h') h

theorem State.safe.boundary {p : Nat} (h : s.safe) : (s.boundary p).safe :=
  .ite (.startImage (.setStageRec (.setStage h))) (.ite (.takeStows (.setStageRec (.update h))) (.goOn h))

theorem State.safe.tellPeer {q target : Nat} (h : s.safe) : (s.tellPeer q target).safe := .sendGdp (.emit (.used h))

theorem State.safe.autoRequest {p target : Nat} (h : s.safe) : (s.autoRequest p target).safe :=
  .foldl (fun _ _ h' => .tellPeer h') (.requestStow h)

theorem serveStowRequest_safe : Serve.safe serveStowRequest :=
  fun _ _ _ _ h => .mk (.takeStows (.foldl (fun _ _ h' => .ite (.requestStow h') h') h))

theorem serveStowStart_safe : Serve.safe serveStowStart :=
  fun _ _ _ _ h => .ite (.refuse h) (.ite (.refuse h) (.ite (.refuse h) (.acceptedStart (.takeStows (.foldl
    (fun _ _ h' => .setStage h') (.openRun h))))))

theorem State.safe.fillImage {i : StowImage} {code : BitVec 16} {partner host : Bool} (h : s.safe) :
    (s.fillImage i code partner host).safe := by
  unfold State.fillImage
  split
  · exact h
  · exact .opFill (.foldl (fun _ _ h' => .opFill h') h)

theorem State.safe.endStowRun (h : s.safe) : s.endStowRun.safe := by
  unfold State.endStowRun
  split
  · exact h
  · exact .ite h (.unless .openRun (.update (.ite (.opEnd h) (.ite (.opEnd h) (.opEnd h)))))

theorem State.safe.endImage {i : StowImage} {code : BitVec 16} {partner host : Bool} (h : s.safe) :
    (s.endImage i code partner host).safe :=
  .takeStows (.resumeStage (.endStowRun (.setImage (.when .setStage (.update (.bump (.when .bump (.when .bump (.wr (.record
    (.fillImage h)))))))))))

theorem State.safe.sendFinal {i : StowImage} (h : s.safe) : (s.sendFinal i).safe := .ite h (.toPartner (.setImage h))

theorem execStowImageDone_safe {part : Nat} {outcome : StowOutcome} (h : s.safe) : SafeRes (execStowImageDone part outcome s) := by
  unfold execStowImageDone
  split
  · exact .next h
  · refine .ite (.next h) (.ite ?_ (.next (.endImage (.when .sendFinal (.setImage (.ite (.toHostCopy h) h))))))
    dsimp only
    split
    · exact .next (.endImage (.when .sendFinal (.fst (.choosePartner (.setImage (.ite (.toHostCopy h) h))))))
    · exact .next (.sendImage (.setImage (.fst (.choosePartner (.setImage (.ite (.toHostCopy h) h)))))
        (fun _ _ _ h' => .toPartner h'))

theorem State.safe.stowAcked {p : Nat} (h : s.safe) : (s.stowAcked p).safe := by
  unfold State.stowAcked
  split
  · exact h
  · exact .ite (.sendFinal h) h

theorem State.safe.writeCheckPages {p step : Nat} {loss : F32} (h : s.safe) : (s.writeCheckPages p step loss).safe := by
  unfold State.writeCheckPages
  refine .update (.foldl (fun _ _ h' => ?_) h)
  dsimp only
  split
  · refine .foldl (fun _ _ h'' => .emit h'') ?_
    split
    · exact .foldl (fun _ _ h'' => .fst (.sendTransfer h'')) h'
    · exact h'
  · split
    · exact .foldl (fun _ _ h'' => .fst (.sendTransfer h'')) h'
    · exact h'

theorem State.safe.abortImage {p : Nat} (h : s.safe) : (s.abortImage p).safe := by
  unfold State.abortImage
  split
  · exact .ite (.endImage h) h
  · exact h

theorem servePartReset_safe : Serve.safe servePartReset :=
  fun _ _ _ _ h => .ite (.of_serve servePartitionReset_safe h) (.mk (.abortImage (.served
    (.of_serve servePartitionReset_safe h))))

/-! ### Restoring (chapter 16) -/

theorem State.safe.setRestore {r : RestoreRun} (h : s.safe) : (s.setRestore r).safe := .update h

theorem State.safe.askSlot {r : RestoreRun} {slot off n : Nat} (h : s.safe) : (s.askSlot r slot off n).safe :=
  .ite (.foldl (fun _ _ h' => .fst (.sendTransfer h')) h) (.setRestore (.foldl (fun _ _ h' => .emit h') h))

theorem State.safe.askHeaders {r : RestoreRun} (h : s.safe) : (s.askHeaders r).safe :=
  .unless (fun h' => .askSlot (.askSlot h')) (.setRestore h)

theorem State.safe.restoreOn (h : s.safe) : s.restoreOn.safe := by
  unfold State.restoreOn
  split
  · exact h
  · refine .ite h ?_
    split
    · exact .askSlot (.setRestore h)
    · exact .ite (.askHeaders h) h

theorem SafeFst.restoreBytes {key index count : Nat} {bytes : List Byte} (h : s.safe) :
    SafeFst (s.restoreBytes key index count bytes) := by
  unfold State.restoreBytes
  split
  · exact .mk h
  · exact .mk (.setRestore h)

theorem serveRestoreStart_safe : Serve.safe serveRestoreStart :=
  fun _ _ _ _ h => .ite (.refuse h) (.ite (.refuse h) (.ite (.refuse h) (.ite (.refuse h) (.acceptedStart (.askHeaders (.foldl
    (fun _ _ h' => .wr h') (.setReg (.opStart h))))))))

theorem execD2hCompletion_safe {line : Nat} {bytes : List Byte} (h : s.safe) : SafeRes (execD2hCompletion line bytes s) := by
  unfold execD2hCompletion
  split
  · exact .next h
  · split
    · exact .next h
    · exact .next (.restoreOn (.cacheLine (.setRestore h)))

theorem State.safe.undefine {a n : Nat} (h : s.safe) : (s.undefine a n).safe := .update (.viewWrite h)

theorem State.safe.restoreGroup {p : Nat} {micro : Bool} {x : Nat × Nat × List Byte} (h : s.safe) :
    (s.restoreGroup p micro x).safe := .harbourWrite (.update (.wr h))

theorem State.safe.restoreRegions {r : RestoreRun} {slot : Nat} {es : List (Nat × Nat)} :
    ∀ {off : Nat} {s : State}, s.safe → (State.restoreRegions r slot off es s).safe := by
  induction es with
  | nil => exact fun h => h
  | cons e es ih => exact fun h => ih (.viewWrite h)

theorem State.safe.restoreStage {r : RestoreRun} {header : List Byte} (h : s.safe) : (s.restoreStage r header).safe :=
  .wr (.wr (.wr (.wr (.setStageRec h))))

theorem State.safe.armReplay {r : RestoreRun} {header c : List Byte} (h : s.safe) : (s.armReplay r header c).safe :=
  .update (.wr (.foldl (fun _ _ h' => .ite h' (.wr h')) h))

theorem State.safe.endRestore {r : RestoreRun} {code : BitVec 16} {blocks : List (BitVec 32 × Bool)} {valid : Bool} (h : s.safe) :
    (s.endRestore r code blocks valid).safe :=
  .ite (.opEnd (.record (.update (.foldl (fun _ _ h' => .opFill h') (.opFill h))))) (.opEnd (.update (.foldl
    (fun _ _ h' => .opFill h') (.opFill h))))

theorem execRestoreDone_safe (h : s.safe) : SafeRes (execRestoreDone s) := by
  unfold execRestoreDone
  split
  · exact .next h
  · split
    · exact .next (.endRestore h)
    · extract_lets slot header parts micro t u
      have hu : u.safe := .foldl (fun _ _ h' => .ctrOp h') (.foldl (fun _ _ h' => .restoreGroup h') h)
      exact .ite (.next (.settle (.endRestore (.foldl (fun _ _ h' => .undefine h') hu))))
        (.next (.settle (.endRestore (.when .armReplay (.restoreStage (.restoreRegions hu))))))

theorem State.safe.transferDone {t : Transfer} {code : BitVec 16} (h : s.safe) : (s.transferDone t code).safe := by
  unfold State.transferDone
  split
  · exact .sendWindows (.windowAnswer h)
  · exact .ite (.setMirror h) (.mirrorDone h)
  · exact .ite (.update h) h
  · exact .ite h (.stowAcked h)
  · exact .restoreOn h
  · exact h

end Sys2Proof.Machine
end

section
/-!
PROOFS. `State.safe`, kept by every operation of the model's parts: clock islands and crossings; the receiving side of the
Causeway; landfall; self-tests; the health monitor and the sea state; steps and phases of training; the Strandline recorder; life
cycle, firmware and attestation; dictionary messages.
-/
namespace Sys2Proof.Machine

variable {s : State}

/-! ### Clock islands and crossings (chapter 02) -/

theorem State.safe.closeCrossings {n : Nat} (h : s.safe) : (s.closeCrossings n).safe :=
  .foldl_mem (fun _ x hx h' => .ite (.setCrossing (.foldl (fun _ _ h'' => .emit h'') h') (.dropAll (h.2.1 x hx))) h') h

theorem State.safe.fenceWaiting {u : Nat} (h : s.safe) : (s.fenceWaiting u).safe := .update (.foldl (fun _ _ h' => .endTask h') h)

theorem State.safe.fenceHeadland (h : s.safe) : s.fenceHeadland.safe :=
  .fenceWaiting (.update (.spoil (.spoil (.takeFinished (.foldl (fun _ _ h' => .headFail h') (.setFlags h))))))

theorem State.safe.fenceTideway {n : Nat} (h : s.safe) : (s.fenceTideway n).safe := .fenceWaiting (.fenceEngine h)
theorem State.safe.stopTranspose {w : Nat} (h : s.safe) : (s.stopTranspose w).safe := .ite (.emit (.update h)) h

theorem State.safe.fenceEstuaryTasks {which : EstTask → Bool} (h : s.safe) : (s.fenceEstuaryTasks which).safe :=
  .foldl (fun _ _ h' => .estEnd h') h

theorem State.safe.fenceHouse {k : Nat} (h : s.safe) : (s.fenceHouse k).safe := by
  unfold State.fenceHouse
  refine .when .fenceEstuaryTasks (.foldl (fun _ _ h' => ?_) (.fenceHeadland (.foldl (fun _ _ h' => .stopTranspose h') (.foldl
    (fun _ _ h' => .ite h' (.fenceRoom h')) h))))
  split
  · exact .ite (.tideFail h') h'
  · exact h'

theorem State.safe.fenceEstuary (h : s.safe) : s.fenceEstuary.safe := .fenceWaiting (.update (.fenceEstuaryTasks h))

theorem State.safe.fenceForwarding (h : s.safe) : s.fenceForwarding.safe := by
  unfold State.fenceForwarding
  extract_lets ports t u power v lost causeway w x
  have hu : u.safe := .wr (.foldl (fun _ _ h' => .setPortState (.clearPort h')) h)
  clear_value u
  have hv : v.safe := .update hu
  clear_value v
  have hw : w.safe := .update hv
  exact .foldl (fun _ _ h' => .answer h') (.foldl (fun _ _ h' => .foldl (fun _ _ h'' => .transferDone h'') h') hw)

theorem State.safe.fenceDependents {n : Nat} (h : s.safe) : (s.fenceDependents n).safe :=
  .ite (.fenceHeadland h) (.ite (.fenceTideway h) (.ite (.fenceHouse h) (.ite (.ite h (.fenceCliff h)) (.ite (.fenceEstuary h)
    (.ite (.fenceForwarding h) (.ite h (.failPort h)))))))

theorem State.safe.fenceIsland {n : Nat} (h : s.safe) : (s.fenceIsland n).safe :=
  .settle (.announceFence (.fenceDependents (.closeCrossings (.clearFlags (.setFlags h)))))

theorem execIslandLockLoss_safe {island : Nat} (h : s.safe) : SafeRes (execIslandLockLoss island s) :=
  .ite (.next h) (.ite (.next (.clearFlags h)) (.ite (.next (.when .stepTwo (.record (.moduleReset h)))) (.next
    (.fenceIsland h))))

theorem execCrossingEntry_safe {src dst : Nat} {entry : CrossEntry} (h : s.safe) : SafeRes (execCrossingEntry src dst entry s) := by
  unfold execCrossingEntry
  refine .ite (.next (.emit h)) ?_
  split
  · exact .next h
  · next hp => exact .next (.setCrossing h ((h.2.1.conserves _ _).push hp))

theorem State.safe.joinPort {e : CrossEntry} (h : s.safe) : (s.joinPort e).safe := by
  unfold State.joinPort
  split
  · exact h
  · exact .setFabricPort h

theorem execCrossingCredit_safe {src dst : Nat} (h : s.safe) : SafeRes (execCrossingCredit src dst s) := by
  unfold execCrossingCredit
  dsimp only
  split
  · exact .next h
  · next he => exact .next (.joinPort (.setCrossing h ((h.2.1.conserves _ _).drop (List.mem_of_find?_eq_some he))))

/-- A transfer that holds its output's credit leaves its port. -/
theorem State.safe.leavePort {f p : Nat} {e : CrossEntry} (h : s.safe) (hm : s.mayLeave e = true) : (s.leavePort f p e).safe := by
  unfold State.leavePort
  dsimp only
  unfold State.mayLeave at hm
  split
  · exact .emit h
  · next ho =>
    rw [ho] at hm
    have hp : entryPool (leaving e f p) = classCode e.cls + 1 := by simp [entryPool, leaving]
    exact .setCrossing (.emit h) ((h.2.1.conserves _ _).push (by rw [hp]; have := of_decide_eq_true hm; omega))

theorem execTideSlot_safe {fabric port : Nat} (h : s.safe) : SafeRes (execTideSlot fabric port s) := by
  unfold execTideSlot
  refine .ite (.next h) ?_
  dsimp only
  split
  · exact .next (.ite (.sendTransferOf (.setFabricPort h)) (.bump (.setFabricPort h)))
  · next e k took he =>
    have hm : s.mayLeave e = true := (Option.filter_eq_some_iff.mp he).2
    refine .next (State.safe.leavePort (.ite (.bump (.setFabricPort h)) (.setFabricPort h)) ?_)
    split <;> exact hm

theorem State.safe.applyResult {code : BitVec 16} {fabrics : Nat} (h : s.safe) : (s.applyResult code fabrics).safe := .setReg h

theorem serveTideApply_safe : Serve.safe serveTideApply :=
  fun _ _ _ _ h => .ite (.mk (.applyResult h)) (.ite (.mk (.applyResult h)) (.mk (.applyResult (.resumeTransfers (.foldl
    (fun _ _ h' => .setReg h') h)))))

/-! ### The receiving side of the Causeway (chapter 12) -/

theorem State.safe.linkResend {p : Nat} {seq : BitVec 12} (h : s.safe) : (s.linkResend p seq).safe :=
  .ite h (.ite (.portFails h) (.foldl (fun _ _ h' => .emit (.setCport h')) (.setCport (.bump h))))

theorem State.safe.linkAck {p : Nat} {k : Packet} (h : s.safe) : (s.linkAck p k).safe := .when .linkResend (.ite (.setCport h) h)
theorem State.safe.linkCredit {p : Nat} {k : Packet} (h : s.safe) : (s.linkCredit p k).safe := .setCport h
theorem State.safe.freeBuffer {p : Nat} {k : Packet} (h : s.safe) : (s.freeBuffer p k).safe := .setCport h

theorem State.safe.transit {k : Packet} (h : s.safe) : (s.transit k).safe := by
  unfold State.transit
  dsimp only
  split
  · exact .bump h
  · exact .ite (.enqueue (.bump h)) (.bump h)

theorem State.safe.setIncoming {src : Nat} {e : Incoming} (h : s.safe) : (s.setIncoming src e).safe := .update h

theorem SafeFst.applySignal {src : Nat} {k : Packet} (h : s.safe) : SafeFst (s.applySignal src k) := by
  unfold State.applySignal
  split
  · exact .mk (.ctrOp h)
  · exact .mk (.ite (.ctrOp h) h)

theorem State.safe.finishIncoming {src : Nat} {e : Incoming} (h : s.safe) : (s.finishIncoming src e).safe := by
  unfold State.finishIncoming
  refine .sendAck (.setIncoming (.fst ?_))
  split
  · exact .mk h
  · exact .ite (.applySignal h) (.mk h)

theorem State.safe.advanceFrom {src n : Nat} : ∀ {s : State}, s.safe → (State.advanceFrom src n s).safe := by
  induction n with
  | zero => exact fun h => h
  | succ n ih =>
    intro s h
    unfold State.advanceFrom
    dsimp only
    split
    · exact h
    · exact .ite h (.ite (.askBack h) (ih (.update (.ite h (.finishIncoming h)))))

theorem State.safe.retrySignals (h : s.safe) : s.retrySignals.safe := .foldl (fun _ _ h' => .advanceFrom h') h

theorem State.safe.notePacket {src : Nat} {e : Incoming} {k : Packet} {code : BitVec 16} (h : s.safe) :
    (s.notePacket src e k code).safe := .settle (.advanceFrom (.ite (.finishIncoming h) (.setIncoming h)))

theorem SafeFst.answerRead {src : Nat} {k : Packet} (h : s.safe) : SafeFst (s.answerRead src k) := by
  unfold State.answerRead
  dsimp only
  split
  · exact .mk (.fst (.dpaRead h))
  · refine .ite (.mk (.sendAck (.fst (.dpaRead h)))) ?_
    split
    · exact .mk (.when (.foldl (fun _ _ h' => .track h')) (.fst (.dpaRead h)))
    · exact .mk (.enqueueTowards (.when (.foldl (fun _ _ h' => .track h')) (.fst (.dpaRead h))))

theorem State.safe.noteRead {src : Nat} {e : Incoming} {k : Packet} {code : BitVec 16} (h : s.safe) :
    (s.noteRead src e k code).safe := .advanceFrom (.setIncoming h)

theorem SafeFst.onSnoop {src : Nat} {k : Packet} (h : s.safe) : SafeFst (s.onSnoop src k) :=
  .ite (.ite (.mk (.emit h)) (.mk h)) (.mk (.retrySignals (.released h)))

theorem SafeFst.onMirror {k : Packet} (h : s.safe) : SafeFst (s.onMirror k) := .ite (.mk (.emit h)) (.mk h)

theorem SafeFst.onEstuary {src : Nat} {e : Incoming} {k : Packet} {fails : Nat} (h : s.safe) :
    SafeFst (s.onEstuary src e k fails) := by
  unfold State.onEstuary
  refine .ite (.mk (.advanceFrom (.finishIncoming h))) (.ite (.mk (.setIncoming h)) ?_)
  split
  · exact .mk (.sendAck (.update (.when .setReduction (.bump h))))
  · exact .ite (.mk (.advanceFrom (.finishIncoming (.fenceIsland (.ite (.bump h) h))))) (.ite (.mk (.setIncoming (.ite
      (.bump h) h))) (.mk (.advanceFrom (.finishIncoming (.onMessages (.ite (.bump h) h))))))

theorem State.safe.onGdp {src : Nat} {e : Incoming} {k : Packet} (h : s.safe) : (s.onGdp src e k).safe :=
  .ite h (.ite (.advanceFrom (.update (.finishIncoming h))) (.setIncoming h))

theorem SafeFst.deliver {k : Packet} {fails : Nat} (h : s.safe) : SafeFst (s.deliver k fails) := by
  unfold State.deliver
  refine .ite (.ite (.mk (.fst (.answerRead h))) (.mk (.ite (.sendAck h) h))) (.ite (.mk h) (.ite (.mk (.advanceFrom
    (.finishIncoming h))) (.ite (.mk (.onGdp h)) (.ite (.ite (.onEstuary h) (.mk h)) (.ite (.mk h) (.ite (.mk h) ?_))))))
  split
  · refine .ite (.mk (.notePacket h)) ?_
    dsimp only
    split
    · exact .mk (.fst (.dpaWrite h))
    · exact .mk (.notePacket (.fst (.dpaWrite h)))
  · dsimp only
    split
    · exact .mk (.fst (.answerRead h))
    · exact .mk (.noteRead (.fst (.answerRead h)))
  · exact .mk (.notePacket h)
  · exact .mk (.notePacket (.fst (.onSnoop h)))
  · exact .mk (.notePacket (.fst (.onMirror h)))
  · exact .mk h

theorem State.safe.sendAgain {d : Nat} {t : Transfer} (h : s.safe) : (s.sendAgain d t).safe :=
  .ite (.resend h) (.transferDone (.endTransfer h))

theorem State.safe.onAck {k : Packet} (h : s.safe) : (s.onAck k).safe := by
  unfold State.onAck
  dsimp only
  split
  · exact h
  · exact .ite (.sendAgain h) (.settle (.transferDone (.endTransfer h)))

theorem State.safe.onReadResponse {k : Packet} (h : s.safe) : (s.onReadResponse k).safe := by
  unfold State.onReadResponse
  dsimp only
  split
  · exact h
  · split
    · exact .when (fun h' => .transferDone (.endTransfer h')) (.fst (.windowData h))
    · exact .when (fun h' => .transferDone (.endTransfer h')) (.fst (.restoreBytes h))
    · exact h

theorem State.safe.onLinkState {k : Packet} (h : s.safe) : (s.onLinkState k).safe :=
  .ite h (.ite (.spreadLinks (.update h)) (.partnerVacant (.partnerFailed (.rerouted (.spreadLinks (.update (.wr h)))))))

theorem SafeFst.takePacket {k : Packet} {fails : Nat} (h : s.safe) : SafeFst (s.takePacket k fails) := by
  unfold State.takePacket
  split
  · exact .mk (.onLinkState h)
  · exact .mk h
  · exact .ite (.mk (.transit h)) (.ite (.mk (.onAck h)) (.ite (.mk (.onReadResponse h)) (.deliver h)))

theorem State.safe.takeOrHold {p : Nat} {k : Packet} {fails : Nat} (h : s.safe) : (s.takeOrHold p k fails).safe :=
  .ite (.freeBuffer (.fst (.takePacket h))) (.update (.fst (.takePacket h)))

theorem State.safe.retryHeld (h : s.safe) : s.retryHeld.safe := .foldl (fun _ _ h' => .takeOrHold h') (.update h)

theorem State.safe.receivePacket {p : Nat} {k : Packet} {fails : Nat} (h : s.safe) : (s.receivePacket p k fails).safe :=
  .ite h (.ite (.setCport (.unless .bump (.bump h))) (.unless (fun h' => .ite (.setCport h') (.retryHeld (.takeOrHold
    (.linkCredit (.setCport h'))))) (.linkAck h)))

theorem State.safe.receiveType {p : Nat} {k : Packet} {t : Nat} (h : s.safe) : (s.receiveType p k t).safe :=
  .ite (.receivePacket h) h

theorem State.safe.receiveKind {p : Nat} {k : Packet} {kind fails : Nat} (h : s.safe) : (s.receiveKind p k kind fails).safe :=
  .ite (.receivePacket h) h

theorem execLinkRetryTimeout_safe {port : Nat} (h : s.safe) : SafeRes (execLinkRetryTimeout port s) := by
  unfold execLinkRetryTimeout
  split
  · exact .next h
  · exact .ite (.next (.linkResend h)) (.next h)

theorem State.safe.transmit {p : Nat} {k : Packet} (h : s.safe) : (s.transmit p k).safe := .emit (.setCport h)

theorem execPortTransmit_safe {port : Nat} (h : s.safe) : SafeRes (execPortTransmit port s) := by
  unfold execPortTransmit
  refine .ite (.next h) ?_
  split
  · split
    · exact .next (.transmit (.setCport h))
    · exact .next h
  · exact .ite (.next (.transmit h)) (.next h)

theorem execE2eResendTimeout_safe {dest : Nat} {transfer : BitVec 16} (h : s.safe) :
    SafeRes (execE2eResendTimeout dest transfer s) := by
  unfold execE2eResendTimeout
  split
  · exact .next h
  · exact .next (.settle (.sendAgain h))

/-! ### Landfall (chapter 15) -/

theorem serveLandfallStart_safe : Serve.safe serveLandfallStart :=
  fun _ _ _ _ h => .ite (.refuse h) (.ite (.refuse h) (.acceptedStart (.update h)))

theorem State.safe.resetForStart (h : s.safe) : s.resetForStart.safe := .ite (.when .stepTwo (.moduleReset h)) h

theorem State.safe.startLandfall {o : Origin} {mode : Nat} (h : s.safe) : (startLandfall o mode s).safe :=
  .resetForStart (.receiveOwn h serveLandfallStart_safe)

theorem State.safe.setPhase {ph : Nat} (h : s.safe) : (s.setPhase ph).safe := .setOp h
theorem State.safe.phaseEnd {ph : Nat} (h : s.safe) : (s.phaseEnd ph).safe := .record (.wr h)
theorem State.safe.phaseBegin {ph : Nat} (h : s.safe) : (s.phaseBegin ph).safe := .update h
theorem State.safe.fillSummary {code : BitVec 16} (h : s.safe) : (s.fillSummary code).safe := .setReg (.opFill h)

theorem State.safe.failLandfall {code : BitVec 16} (h : s.safe) : (s.failLandfall code).safe := by
  unfold State.failLandfall
  extract_lets ph t u
  have hu : u.safe := .opEnd (.record (.fillSummary (.wr h)))
  clear_value u
  exact .update hu

theorem execLandfallL0Done_safe {notZeroed : BitVec 20} (h : s.safe) : SafeRes (execLandfallL0Done notZeroed s) := by
  unfold execLandfallL0Done
  extract_lets failed left t u security v
  have ht : t.safe := .intro (wf_filter _ h.1.1) h.1.2 h.2.1 h.2.2
  clear_value t
  have hu : u.safe := .retireAll (.foldl (fun _ _ h' => .fenceCliff h') ht)
  clear_value u
  have hv : v.safe := .update hu
  exact .ite (.next (.ite (.failLandfall (.phaseEnd hv)) (.phaseBegin (.phaseEnd hv)))) (.next h)

theorem State.safe.quietFence {n : Nat} (h : s.safe) : (s.quietFence n).safe :=
  .ite (.setPortState (.closeCrossings (.clearFlags (.setFlags h)))) (.when .wr (.fenceDependents (.closeCrossings
    (.clearFlags (.setFlags h)))))

theorem State.safe.keepProgress (h : s.safe) : s.keepProgress.safe := .setOp h

theorem State.safe.startTraining (h : s.safe) : s.startTraining.safe :=
  .phaseBegin (.foldl (fun _ _ h' => .ite h' (.setPortState h')) (.foldl (fun _ _ h' => .ite h' (.setPortState h')) h))

theorem State.safe.mapColumns {failed : List Nat} (h : s.safe) : (s.mapColumns failed).safe :=
  .setReg (.setReg (.foldl (fun _ _ h' => .wr h') (.foldl (fun _ _ h' => .wr h') (.foldl (fun _ _ h' => .wr h') h))))

theorem execLandfallL1Done_safe {unlocked : BitVec 116} (h : s.safe) : SafeRes (execLandfallL1Done unlocked s) :=
  .ite (.next (.ite (.failLandfall (.update (.when .mapColumns (.foldl (fun _ _ h' => .quietFence h') (.setReg h)))))
    (.startTraining (.phaseEnd (.update (.when .mapColumns (.foldl (fun _ _ h' => .quietFence h') (.setReg h)))))))) (.next h)

theorem State.safe.fillTest {slot : Nat} {r : List Byte} (h : s.safe) : (s.fillTest slot r).safe := .when .update (.opFill h)
theorem State.safe.startTests (h : s.safe) : s.startTests.safe := .foldl (fun _ _ h' => .ite (.fillTest h') h') (.phaseBegin h)

theorem State.safe.joinPhases (h : s.safe) : s.joinPhases.safe :=
  .ite (.ite (.failLandfall (.setPhase h)) (.startTests h)) (.setPhase h)

theorem State.safe.endStrata (h : s.safe) : s.endStrata.safe := .phaseEnd (.foldl (fun _ _ h' => .opFill h') h)

theorem State.safe.stratumResult {cliff stratum bad : Nat} {ok : Bool} {record : Vector (BitVec 16) 6} (h : s.safe) :
    (s.stratumResult cliff stratum bad ok record).safe := .setCliff (.opFill (.ite (.ite h (.announceFence (.fenceCliff h))) h))

theorem execStratumTrainingDone_safe {cliff stratum : Nat} {ok cold : Bool} {record : Vector (BitVec 16) 6} (h : s.safe) :
    SafeRes (execStratumTrainingDone cliff stratum ok cold record s) := by
  unfold execStratumTrainingDone
  extract_lets bad t u
  have ht : t.safe := .stratumResult h
  clear_value t
  have hu : u.safe := .update ht
  exact .ite (.next (.ite (.joinPhases (.endStrata hu)) hu)) (.next h)

theorem State.safe.laneRecord {p lane : Nat} {code : BitVec 16} (h : s.safe) : (s.laneRecord p lane code).safe :=
  .used (.opFill h)

theorem State.safe.portTrained {p l : Nat} {serial : BitVec 256} {position port lanes : Nat} (h : s.safe) :
    (s.portTrained p l serial position port lanes).safe :=
  .foldl (fun _ _ h' => .laneFails (.laneFails h')) (.storeLanes (.setCport (.wr h)))

theorem State.safe.endPorts (h : s.safe) : s.endPorts.safe := .phaseEnd (.foldl (fun _ _ h' => .opFill h') h)

theorem State.safe.portOutcome {port : Nat} {o : PortOutcome} (h : s.safe) : (s.portOutcome port o).safe := by
  unfold State.portOutcome
  split
  · exact .ite h (.portTrained h)
  · exact .setPortState h
  · exact .setPortState h

theorem State.safe.portRetrained {port : Nat} {o : PortOutcome} (h : s.safe) : (s.portRetrained port o).safe := by
  unfold State.portRetrained
  split
  · exact .sendLinkMap (.announceLinks (.portTrained h))
  · exact .setPortState h
  · exact .portFails h

theorem execPortTrainingDone_safe {port : Nat} {outcome : PortOutcome} (h : s.safe) :
    SafeRes (execPortTrainingDone port outcome s) :=
  .ite (.next (.when (fun h'' => .joinPhases (.endPorts h'')) (.update (.foldl (fun _ _ h' => .laneRecord h')
    (.portOutcome h))))) (.ite (.next (.portRetrained h)) (.next h))

theorem State.safe.fillColumns (h : s.safe) : s.fillColumns.safe := .foldl (fun _ _ h' => .fillTest h') (.mapColumns h)
theorem State.safe.startTopology (h : s.safe) : s.startTopology.safe := .when .failLandfall (.phaseBegin (.phaseEnd h))
theorem State.safe.endTests (h : s.safe) : s.endTests.safe := .ite (.ite (.failLandfall h) (.startTopology h)) h

theorem execL4TestDone_safe {unit : TestUnit} {failing : Option (Nat × Nat × Nat)} (h : s.safe) :
    SafeRes (execL4TestDone unit failing s) := by
  unfold execL4TestDone
  refine .ite (.next h) ?_
  dsimp only
  split
  · exact .ite (.next (.endTests (.when .fillColumns (.ite (.update h) (.update h))))) (.next h)
  · exact .ite (.next (.endTests (.when .update (.fillTest (.ite (.fenceRoom h) h))))) (.next h)
  · exact .ite (.next (.endTests (.when .update (.fillTest (.ite (.fenceEngine h) h))))) (.next h)
  · exact .next h
  · exact .next h

theorem State.safe.mapPorts {vacant : Nat → Bool} (h : s.safe) : (s.mapPorts vacant).safe :=
  .foldl (fun _ _ h' => .unless .wr (.wr h')) (.foldl (fun _ _ h' => .wr h') h)

theorem State.safe.expectNeighbour {p : Nat} (h : s.safe) : (s.expectNeighbour p).safe := .ite h (.setCport (.wr h))

theorem State.safe.endTopology {all : Bool} (h : s.safe) : (s.endTopology all).safe :=
  .phaseBegin (.phaseEnd (.foldl (fun _ _ h' => .opFill h') (.foldl (fun _ _ h' => .update (.when .expectNeighbour (.opFill
    (.ite h' (.used h'))))) (.mapPorts h))))

theorem State.safe.writeTraining (h : s.safe) : s.writeTraining.safe :=
  .foldl (fun _ _ h' => .wr h') (.foldl (fun _ _ h' => .wr h') h)

theorem State.safe.declareReady {code : BitVec 16} (h : s.safe) : (s.declareReady code).safe :=
  .settle (.resumeTransfers (.sendOwnLinks (.foldl (fun _ _ h' => .ite (.requestSpare h') h') (.opEnd (.update
    (.setReg h))))))

theorem execLandfallL6Done_safe (h : s.safe) : SafeRes (execLandfallL6Done s) :=
  .ite (.ite (.next (.failLandfall h)) (.next (.declareReady (.record (.fillSummary (.phaseEnd (.update
    (.writeTraining h)))))))) (.next h)

/-! ### Self-tests (chapter 15) -/

theorem State.safe.startTest {t : SelfTest} {slot : Nat} (h : s.safe) : (s.startTest t slot).safe :=
  .ite (.setCliff h) (.ite (.unless (fun h' => .setReg (.wr h')) (.setRoom h)) h)

theorem State.safe.startSelfTests (h : s.safe) : s.startSelfTests.safe := by
  unfold State.startSelfTests
  split
  · exact h
  · exact .ite h (.when .opBegin (.update (.foldl (fun _ _ h' => .startTest h') h)))

theorem State.safe.endSelfTest (h : s.safe) : s.endSelfTest.safe := by
  unfold State.endSelfTest
  split
  · exact h
  · exact .ite (.opEnd (.update h)) h

theorem serveSelfTestStart_safe : Serve.safe serveSelfTestStart :=
  fun _ _ _ _ h => .ite (.refuse h) (.ite (.refuse h) (.ite (.refuse h) (.acceptedStart (.endSelfTest (.startSelfTests
    (.update (.foldl (fun _ _ h' => .opFill h') (.opStart h))))))))

theorem State.safe.startSelfTest {o : Origin} {kind first count : Nat} (h : s.safe) : (startSelfTest o kind first count s).safe :=
  .receiveOwn h serveSelfTestStart_safe

theorem State.safe.columnFailsIdle {physical check : Nat} (h : s.safe) : (s.columnFailsIdle physical check).safe := by
  unfold State.columnFailsIdle
  refine .ite h (.ite (.noteColumn (.setReg (.bump (.wr h)))) ?_)
  split
  · exact .noteColumn (.bump (.wr h))
  · exact .ite (.loseColumn (.noteColumn (.bump (.wr h)))) (.remapColumn (.noteColumn (.bump (.wr h))))

theorem State.safe.testFails {t : SelfTest} {slot f : Nat} (h : s.safe) : (s.testFails t slot f).safe := by
  unfold State.testFails
  dsimp only
  split
  · exact .columnFailsIdle h
  · exact .ite h (.announceFence (.fenceEngine h))
  · exact .cliffFails h
  · exact .laneFails h
  · exact .roomFails h

theorem State.safe.testLeaves {t : SelfTest} {slot : Nat} (h : s.safe) : (s.testLeaves t slot).safe :=
  .ite (.setCliff h) (.ite (.blurRoom (.setRoom h)) h)

theorem execSelfTestUnitDone_safe {slot : Nat} {failing : Option (Nat × Nat × Nat)} {record : List Byte} (h : s.safe) :
    SafeRes (execSelfTestUnitDone slot failing record s) := by
  unfold execSelfTestUnitDone
  split
  · exact .next h
  · refine .ite (.next (.settle (.endSelfTest ?_))) (.next h)
    split
    · exact .testFails (.update (.opFill (.testLeaves h)))
    · exact .update (.opFill (.testLeaves h))

/-! ### The health monitor and the sea state (chapter 16) -/

theorem State.safe.seaChanged {old new : Nat} {scores : List Byte} (h : s.safe) : (s.seaChanged old new scores).safe :=
  .foldl (fun _ _ h' => .ite (.when .autoRequest (.ite (.autoRequest h') h')) h') (.when .vector (.update (.record h)))

theorem execSeaStateUpdate_safe {rippleMv : Nat} (h : s.safe) : SafeRes (execSeaStateUpdate rippleMv s) :=
  .ite (.next h) (.next (.unless (fun h'' => .takeStows (.seaChanged h'')) (.setReg (.setReg (.foldl (fun _ _ h' => .wr h')
    (.foldl (fun _ _ h' => .wr h') (.update (.when .setFlags (.setReg h)))))))))

/-! ### Steps and phases of training (chapter 14) -/

theorem serveStageTable_safe : Serve.safe serveStageTable :=
  fun _ _ _ _ h => .ite (.refuse h) (.ite (.refuse h) (.mk (.setStageRec h)))

theorem State.safe.startStage {p : Nat} (h : s.safe) : (s.startStage p).safe :=
  .beginStep (.setStageRec (.setStage (.update (.harbourWrite (.foldl (fun _ _ h' => .ctrOp h') h)))))

theorem State.safe.stopStage {p : Nat} (h : s.safe) : (s.stopStage p).safe := .ite (.setStageRec h) (.ite (.setStage h) h)

theorem serveStageControl_safe : Serve.safe serveStageControl := by
  intro _ _ _ s h
  unfold serveStageControl
  dsimp only
  split
  · exact .ite (.refuse h) (.ite (.refuse h) (.mk (.startStage h)))
  · exact .mk (.stopStage h)
  · exact .refuse h

theorem SafeFst.cleanAfter {w : Nat} (h : s.safe) : SafeFst (s.cleanAfter w) := .ite (.mk (.used h)) (.mk h)

theorem State.safe.settleScale {p : Nat} {overflow : Bool} (h : s.safe) : (s.settleScale p overflow).safe :=
  .ite (.record (.bump (.setStageRec (.harbourWrite h)))) (.setStageRec (.fst (.cleanAfter (.harbourWrite h))))

theorem State.safe.afterScale {p : Nat} {overflow : Bool} (h : s.safe) : (s.afterScale p overflow).safe :=
  .unless .openPhase (.setStage (.settleScale h))

theorem execStageAgreementDone_safe {part : Nat} (h : s.safe) : SafeRes (execStageAgreementDone part s) := by
  unfold execStageAgreementDone
  refine .ite ?_ (.next h)
  dsimp only
  split
  · exact .next (.settle (.takeStows (.failStage (.takeDone h))))
  · exact .next (.settle (.afterScale (.takeDone h)))

theorem State.safe.clearCarry {g : Nat} (h : s.safe) : (s.clearCarry g).safe :=
  .foldl (fun _ _ h' => .ite (.harbourWrite h') h') h

theorem State.safe.promoteCursor {p step : Nat} (h : s.safe) : (s.promoteCursor p step).safe := .ite (.wr (.wr h)) h

theorem State.safe.replayCheck {p step : Nat} {loss : F32} (h : s.safe) : (s.replayCheck p step loss).safe :=
  .ite (.record (.wr h)) h

theorem State.safe.repeatStow {p : Nat} (h : s.safe) : (s.repeatStow p).safe := .when .autoRequest (.setStage h)

theorem execStageUpdateDone_safe {part : Nat} (h : s.safe) : SafeRes (execStageUpdateDone part s) :=
  .ite (.next (.settle (.boundary (.repeatStow (.replayCheck (.writeCheckPages (.promoteCursor (.harbourWrite (.bump
    (.setStageRec (.wr (.takeDone h)))))))))))) (.next h)

/-! ### The Strandline recorder (chapter 17) -/

theorem State.safe.addEvent {number trigger : Nat} {code : BitVec 16} (h : s.safe) : (s.addEvent number trigger code).safe := by
  unfold State.addEvent
  split
  · exact h
  · exact .ite (.update h) (.when .vector (.update h))

theorem State.safe.makeEntry {o : Occurrence} (h : s.safe) : (s.makeEntry o).safe := .addEvent (.bump (.updateStrand h))
theorem State.safe.tellOverrun (h : s.safe) : s.tellOverrun.safe := .ite h (.record (.updateStrand h))

theorem execStrandlineEntry_safe (h : s.safe) : SafeRes (execStrandlineEntry s) := by
  unfold execStrandlineEntry
  split
  · exact .next h
  · next o rest he =>
    have hq : rest.length ≤ 256 := by have := h.2.2; rw [he, List.length_cons] at this; omega
    exact .next (.makeEntry (.tellOverrun ⟨h.1, h.2.1, hq⟩))

theorem execStrandlineFlashWrite_safe (h : s.safe) : SafeRes (execStrandlineFlashWrite s) := by
  unfold execStrandlineFlashWrite
  split
  · exact .next (.updateStrand h)
  · dsimp only
    split
    · exact .next (.answer (.updateStrand h))
    · exact .next (.updateStrand h)

theorem State.safe.useCursor {c : StrandCursor} (h : s.safe) : (s.useCursor c).safe := .updateStrand h

theorem State.safe.touchCursor {src : Source} (h : s.safe) : (s.touchCursor src).safe := by
  unfold State.touchCursor
  split
  · exact .useCursor h
  · exact h

theorem serveCursor_safe : Serve.safe serveCursor := fun _ _ _ _ h => .mk (.useCursor h)
theorem serveWindow_safe : Serve.safe serveWindow := fun _ _ _ _ h => .mk (.touchCursor h)
theorem serveSoftwareEvent_safe : Serve.safe serveSoftwareEvent := fun _ _ _ _ h => .mk (.record h)

theorem serveClear_safe : Serve.safe serveClear :=
  fun _ _ _ _ h => .ite (.mk h) (.mk (.makeEntry (.setReg (.updateStrand (.ite (.used (.used h)) h)))))

theorem serveWatchList_safe : Serve.safe serveWatchList :=
  fun _ _ _ _ h => .ite (.refuse h) (.mk (.foldl (fun _ _ h' => .wr h') h))

/-! ### Life cycle, firmware and attestation (chapter 18) -/

theorem State.safe.changeLife {to_ : Nat} (h : s.safe) : (s.changeLife to_).safe := by
  have hreturn : ({ s with pd := resetStore keptOnReturn s.pd, warmRecord := none } : State).safe :=
    .intro h.1.1 (wf_resetStore _ _ wf_defaultStore) h.2.1 h.2.2
  exact .setReg (.ite (.update (.ite hreturn h)) (.ite hreturn h))

theorem serveLifecycle_safe {under : Bool} : Serve.safe (serveLifecycle under) :=
  fun _ _ _ _ h => .ite (.refuse h) (.ite (.refuse h) (.mk (.changeLife h)))

theorem State.safe.afterTransition {t : State} (h : t.safe) : (s.afterTransition t).safe :=
  .ite h (.ite (.record h) (.ite (.stepTwo (.moduleReset (.record h))) (.moduleReset (.record h))))

theorem State.safe.requestLife {o : Origin} {auth : Auth} {to_ : Nat} (h : s.safe) : (requestLife o auth to_ s).safe :=
  .afterTransition (.receiveOwn h serveLifecycle_safe)

theorem State.safe.judged {given : Option Bool} (h : s.safe) : (s.judged given).safe := .ite h (.used h)

theorem serveReturnKey_safe {given : Option Bool} : Serve.safe (serveReturnKey given) :=
  fun _ _ _ _ h => .mk (.judged (.update h))

theorem State.safe.setFw {st check : Nat} {code : BitVec 16} {staged programmed : Nat} (h : s.safe) :
    (s.setFw st check code staged programmed).safe := .setReg h

theorem serveFwStage_safe : Serve.safe serveFwStage :=
  fun _ _ _ _ h => .ite (.refuse h) (.ite (.refuse h) (.mk (.setFw (.update h))))

theorem State.safe.setBank {i : Nat} {b : Bank} (h : s.safe) : (s.setBank i b).safe := .ite (.update h) (.update h)

theorem serveFwCommit_safe {keyMatches verifies : Option Bool} : Serve.safe (serveFwCommit keyMatches verifies) :=
  fun _ _ _ _ h => .ite (.refuse h) (.ite (.refuse h) (.ite (.mk (.setFw (.setBank (.update (.judged (.judged h)))))) (.refuse
    (.setFw (.update (.judged (.judged h)))))))

theorem State.safe.measureLocked (h : s.safe) : s.measureLocked.safe := .extend h
theorem serveMinVersion_safe : Serve.safe serveMinVersion := fun _ _ _ _ h => .ite (.refuse h) (.mk (.measureLocked (.setReg h)))
theorem serveExtend_safe : Serve.safe serveExtend := fun _ _ _ _ h => .mk (.extend h)

theorem serveRetiredClear_safe : Serve.safe serveRetiredClear :=
  fun _ _ _ _ h => .ite (.refuse h) (.ite (.refuse h) (.mk (.zeroUnits h)))

theorem State.safe.spdmReply {code : Nat} {payload : List Byte} (h : s.safe) : (s.spdmReply code payload).safe := .ite (.emit h) h
theorem State.safe.spdmError {e : Nat} (h : s.safe) : (s.spdmError e).safe := .spdmReply h

theorem State.safe.spdmSigned {code : Nat} {payload : List Byte} (h : s.safe) : (s.spdmSigned code payload).safe :=
  .used (.used (.spdmReply h))

theorem execGetDigests_safe (h : s.safe) : SafeRes (execGetDigests s) := by
  unfold execGetDigests
  split
  · exact .next (.spdmError h)
  · exact .next (.spdmReply h)

theorem execGetCertificate_safe {slot offset length : Nat} (h : s.safe) : SafeRes (execGetCertificate slot offset length s) := by
  unfold execGetCertificate
  split
  · exact .next (.spdmError h)
  · exact .ite (.next (.spdmError h)) (.next (.spdmReply h))

theorem execChallenge_safe {slot : Nat} {nonce : BitVec 256} (h : s.safe) : SafeRes (execChallenge slot nonce s) := by
  unfold execChallenge
  split
  · exact .next (.spdmError h)
  · exact .ite (.next (.spdmError h)) (.next (.spdmSigned h))

theorem execGetMeasurements_safe {signed : Bool} {block : Nat} (h : s.safe) : SafeRes (execGetMeasurements signed block s) := by
  unfold execGetMeasurements
  split
  · exact .next (.spdmError h)
  · exact .ite (.next (.spdmError h)) (.next (.ite (.spdmSigned h) (.spdmReply h)))

theorem State.safe.tap {instr : BitVec 8} {bits value : Nat} (h : s.safe) : (s.tap instr bits value).safe :=
  .ite (.emit (.update h)) h

/-! ### Dictionary messages (chapter 03) -/

theorem State.safe.clearRead {key : Nat} (h : s.safe) : (s.clearRead key).safe := .setReg (.ite (.update h) h)
theorem State.safe.statusRead {r : Nat} (h : s.safe) : (s.statusRead r).safe := .ite (.setOp h) h

theorem State.safe.afterRead {role : Role} {e : EntryInfo} {q : Req} {off n : Nat} (h : s.safe) :
    (s.afterRead role e q off n).safe := by
  unfold State.afterRead
  dsimp only
  split
  · exact .when .statusRead (.when .touchCursor (.when .used (.ite (.clearRead h) h)))
  · exact .when .touchCursor (.when .used (.ite (.clearRead h) h))

theorem serveRead_safe : Serve.safe serveRead := fun _ _ _ _ h => .ite (.refuse h) (.mk (.afterRead h))

theorem State.safe.clearBits {key unit : Nat} {bs : List Byte} :
    ∀ {s : State} {off : Nat}, s.safe → (s.clearBits key unit off bs).safe := by
  induction bs with
  | nil => exact fun h => h
  | cons b bs ih => exact fun h => ih (.wr h)

theorem serveStore_safe : Serve.safe serveStore :=
  fun _ _ _ _ h => .ite (.mk (.clearBits h)) (.ite (.mk (.wrBytes h)) (.ite (.refuse h) (.mk (.setReg h))))

theorem serveMeasured_safe : Serve.safe serveMeasured :=
  fun _ _ _ _ h => .ite (.of_serve serveStore_safe h) (.mk (.measureLocked (.served (.of_serve serveStore_safe h))))

theorem serveDataCursor_safe : Serve.safe serveDataCursor := fun _ _ _ _ h => .ite (.of_serve serveStore_safe h) (.refuse h)

theorem State.safe.dropRun {r : Nat} (h : s.safe) : (s.dropRun r).safe := by
  unfold State.dropRun
  split
  · exact .update h
  · exact .update (.foldl (fun _ _ h' => .setStage h') h)
  · exact .update h
  · exact h

theorem serveCancel_safe {r : Nat} : Serve.safe (serveCancel r) :=
  fun _ _ _ _ h => .ite (.mk (.dropRun (.recordAborted (.opEnd h)))) (.refuse h)

theorem serveStart_safe {r : Nat} : Serve.safe (serveStart r) := by
  unfold serveStart
  split
  · exact serveLandfallStart_safe
  · exact serveSelfTestStart_safe
  · exact serveStowStart_safe
  · exact serveRestoreStart_safe
  · exact serveRepair_safe
  · exact serveBulkCopy_safe
  · exact serveRebuildStart_safe

theorem serveUnits_safe {key : Nat} : Serve.safe (serveUnits key) :=
  .ite servePowerDown_safe (.ite serveTideApply_safe (.ite serveMirrorTable_safe (.ite serveRoomOwner_safe (.ite serveUnpin_safe
   (.ite serveGenCheck_safe (.ite serveMpLoad_safe (.ite serveMpUnload_safe (.ite serveSfnCheck_safe serveStore_safe))))))))

theorem serveWork_safe {key : Nat} : Serve.safe (serveWork key) :=
  .ite (serveInit_safe fun _ h => .settle h) (.ite serveTaskLists_safe (.ite servePartReset_safe (.ite servePartitionPreempt_safe
    (.ite serveSpareConnect_safe (.ite serveGroup_safe (.ite serveStageTable_safe (.ite serveStageControl_safe
    (.ite serveStowConfig_safe (.ite serveStowReceive_safe (.ite serveStowRequest_safe (.ite serveDataCursor_safe
    serveStore_safe)))))))))))

theorem serveSecurity_safe {under : Bool} {key : Nat} : Serve.safe (serveSecurity under key) :=
  .ite serveLifecycle_safe (.ite serveWatchList_safe (.ite serveCursor_safe (.ite serveSoftwareEvent_safe (.ite serveClear_safe
    (.ite serveMeasured_safe (.ite serveReturnKey_safe (.ite serveExtend_safe (.ite serveFwStage_safe (.ite serveFwCommit_safe
    (.ite serveMinVersion_safe (.ite serveRetiredClear_safe serveStore_safe)))))))))))

theorem serveWrite_safe {under : Bool} : Serve.safe (serveWrite under) := by
  intro _ _ _ s h
  unfold serveWrite
  dsimp only
  split
  · exact .ite (.of_serve serveStart_safe h) (.of_serve serveCancel_safe h)
  · exact .ite (.ite (.of_serve serveSecurity_safe h) (.of_serve serveUnits_safe h)) (.ite (.of_serve serveWork_safe h)
      (.of_serve serveSecurity_safe h))

theorem serveEntry_safe {under : Bool} : Serve.safe (serveEntry under) :=
  fun _ _ _ _ h => .ite (.of_serve serveRead_safe h) (.of_serve serveWrite_safe h)

theorem State.safe.afterRequest {t : State} (h : t.safe) : (s.afterRequest t).safe :=
  .afterTransition (.ite (.resetForStart h) h)

theorem State.safe.message {path : GdpPath} {m : GdpMsg} {verifies : Bool} (h : s.safe) : (s.message path m verifies).safe :=
  .afterRequest (.receiveMsg h serveEntry_safe)

theorem State.safe.arrived {verifies : Bool} {e : Nat × Nat × List Byte} (h : s.safe) : (s.arrived verifies e).safe :=
  .ite (.relay h) (.message h)

theorem State.safe.gdpPacket {p : Nat} {k : Packet} {verifies : Bool} (h : s.safe) : (s.gdpPacket p k verifies).safe :=
  .foldl (fun _ _ h' => .arrived h') (.update (.receiveType h))

theorem State.safe.onPath {path : GdpPath} {m : GdpMsg} {verifies : Bool} (h : s.safe) : (s.onPath path m verifies).safe := by
  unfold State.onPath
  split
  · exact .gdpPacket h
  · exact .message h

theorem execGdpResponse_safe {arrival : GdpArrival} (h : s.safe) : SafeRes (execGdpResponse arrival s) := by
  unfold execGdpResponse
  split
  · exact .next (.gdpPacket h)
  · exact .next (.relay h)

theorem execGdpForwardTimeout_safe {target : Nat} {seq : BitVec 16} (h : s.safe) :
    SafeRes (execGdpForwardTimeout target seq s) := by
  unfold execGdpForwardTimeout
  split
  · exact .next h
  · exact .next (.answer h)

theorem execPersistentWriteDone_safe {path : GdpPath} {seq : BitVec 16} (h : s.safe) :
    SafeRes (execPersistentWriteDone path seq s) := by
  unfold execPersistentWriteDone
  split
  · exact .next h
  · exact .ite (.next (.answer h)) (.next h)

end Sys2Proof.Machine
end

section
/-!
PROOFS. `State.safe`, kept by every operation of the model's parts: every command, and a step.
-/
namespace Sys2Proof.Machine

variable {s : State}

/-! ### Every command, and a step -/

/-- Every command leaves a safe state safe. -/
theorem exec_safe {i : Instr} (h : s.safe) : SafeRes (exec i s) := by
  cases i with
  | powerUp => exact .next (.when .stepTwo (.update (.measureInput h)))
  | harbourBootDone => exact execHarbourBootDone_safe h
  | supplyWarning => exact .ite (.next (.unless .raiseSupplyWarning (.when .setFlags (.measureInput h)))) (.next h)
  | supplyWarningClear => exact .ite (.next (.clearFlags (.measureInput h))) (.next h)
  | undervoltageReset => exact .ite (.next (.measureInput .powerCycle)) (.next h)
  | powerDown => exact .next (.receiveOwn h servePowerDown_safe)
  | quiesceComplete => exact .ite (.next (.update (.unlockIslands (.setReg (.startFlush h))))) (.next h)
  | moduleReset => exact execModuleReset_safe h
  | resetNRelease => exact .next (.when .stepTwo (.update h))
  | strapCheck => exact .ite (.next (.record (.setFlags (.update h)))) (.next (.update h))
  | thermalSample => exact execThermalSample_safe h
  | trippedResetRelease => exact .ite (.next (.when .stepTwo (.setReg .powerCycle))) (.next h)
  | islandLockLoss => exact execIslandLockLoss_safe h
  | crossingEntry => exact execCrossingEntry_safe h
  | crossingCredit => exact execCrossingCredit_safe h
  | tideSlot => exact execTideSlot_safe h
  | tideApply => exact .next (.receiveOwn h serveTideApply_safe)
  | gdpRead => exact .next (.onPath h)
  | dictionaryWrite => exact .next (.onPath h)
  | describe => exact .next (.onPath h)
  | next => exact .next (.onPath h)
  | signedWrite => exact .next (.onPath h)
  | gdpResponse => exact execGdpResponse_safe h
  | gdpForwardTimeout => exact execGdpForwardTimeout_safe h
  | persistentWriteDone => exact execPersistentWriteDone_safe h
  | duplicateCacheExpiry => exact .next (.update h)
  | longOpStatusRead => exact .next (.receiveOwn h serveRead_safe)
  | cancel => exact .next (.receiveOwn h serveCancel_safe)
  | linkTrained => exact .ite (.next (.retryMirrors (.when .record (.setReg (.setReg (.setReg (.setReg h))))))) (.next h)
  | linkDown => exact execLinkDown_safe h
  | functionLevelReset => exact .next (.update h)
  | getEventRecords => exact execGetEventRecords_safe h
  | clearEventRecords => exact execClearEventRecords_safe h
  | getEventInterruptPolicy => exact mailboxReply_safe h
  | setEventInterruptPolicy => exact .ite (mailboxReply_safe h) (.ite (.next h) (mailboxReply_safe (.update h)))
  | getFwInfo => exact execGetFwInfo_safe h
  | getTimestamp => exact mailboxReply_safe h
  | setTimestamp => exact .ite (.next h) (mailboxReply_safe (.update h))
  | getSupportedLogs => exact mailboxReply_safe h
  | getLog => exact mailboxReply_safe h
  | hostWindowRead => exact .ite (.next (.windowRequest h)) (.next h)
  | hostWindowWrite => exact .ite (.next (.windowRequest h)) (.next h)
  | windowTimeout => exact execWindowTimeout_safe h
  | h2dSnoop => exact .ite (.next h) (.next (.emit (.update h)))
  | bisnpResponse => exact .ite (.next h) (.ite (.next (.released h)) (.next (.fst (.sendTransfer h))))
  | mirrorWriteDone => exact .ite (.next (.mirrorDone h)) (.next h)
  | statusPageRefresh => exact .next (.update h)
  | roomRequest => exact .next (.fst (.enterRoom h))
  | roomCycle => exact execRoomCycle_safe h
  | roomOwner => exact .next (.receiveOwn h serveRoomOwner_safe)
  | handoverMarkerReturn => exact .ite (.next (.settle (.markerReturn h))) (.next h)
  | tileTranspose => exact .next (.ite (.startTranspose h) (.transposeInvalid h))
  | squareTranspose => exact .ite (.next (.startTranspose h)) (.next (.transposeInvalid h))
  | transposeDone => exact execTransposeDone_safe h
  | roomWipeDone => exact .ite (.next (.settle (.endPartitionReset (.wiped h)))) (.next h)
  | coveRequest => exact .next (.coveRequest h)
  | coveSchedule => exact execCoveSchedule_safe h
  | stratumAccessDone => exact execStratumAccessDone_safe h
  | bankRefresh => exact .next (.setCliff h)
  | softReplacementDone => exact execSoftReplacementDone_safe h
  | stratumFailure => exact .ite (.next (.setCliff h)) (.next h)
  | stratumRecalDone => exact .ite (.next (.unless .cliffFails (.setCliff h))) (.next h)
  | unpinTensor => exact .next (.receiveOwn h serveUnpin_safe)
  | unpinDone => exact execUnpinDone_safe h
  | chartWalkDone => exact execChartWalkDone_safe h
  | repairRowPermanent => exact .next (.receiveOwn h serveRepair_safe)
  | repairColumnGroup => exact .next (.receiveOwn h serveRepair_safe)
  | repairRetirePages => exact .next (.receiveOwn h serveRepair_safe)
  | repairDone => exact execRepairDone_safe h
  | bulkCopyStart => exact .next (.receiveOwn h serveBulkCopy_safe)
  | bulkCopyDone => exact execBulkCopyDone_safe h
  | chartRebuildStart => exact .next (.receiveOwn h serveRebuildStart_safe)
  | chartRebuildBegin => exact execChartRebuildBegin_safe h
  | chartRebuildDone => exact execChartRebuildDone_safe h
  | headlandCycle => exact execHeadlandCycle_safe h
  | columnFailure => exact execColumnFailure_safe h
  | columnRemap => exact .ite (.next h) (.next (.foldl (fun _ _ h' => .remapColumn h') (.update h)))
  | tidewayBeat => exact execTidewayBeat_safe h
  | engineCheckFailure => exact .ite (.next (.fenceIsland h)) (.next h)
  | mpLoad => exact .next (.receiveOwn h serveMpLoad_safe)
  | mpUnload => exact .next (.receiveOwn h serveMpUnload_safe)
  | sfnCheck => exact .next (.receiveOwn h serveSfnCheck_safe)
  | genCheck => exact .next (.receiveOwn h serveGenCheck_safe)
  | taskListWrite => exact .next (.receiveOwn h serveTaskLists_safe)
  | taskListStart => exact .next (.receiveOwn h serveTaskLists_safe)
  | taskListStop => exact .next (.receiveOwn h serveTaskLists_safe)
  | headLoad => exact execHeadLoad_safe h
  | taskRelease => exact .ite (.next (.settle (.releaseNext (.settle h)))) (.next h)
  | taskComplete => exact execTaskComplete_safe h
  | counterAdd => exact .ite (.next (.settle (.ctrOp h))) (.next h)
  | counterSubtract => exact .ite (.next (.settle (.ctrOp h))) (.next h)
  | counterSet => exact .ite (.next (.settle (.ctrOp h))) (.next h)
  | arrive => exact .ite (.next (.settle (.ctrOp h))) (.next h)
  | init => exact .ite (.next (.settle (.ctrOp h))) (.next h)
  | partitionReset => exact .next (.receiveOwn h servePartReset_safe)
  | partitionPreempt => exact .next (.receiveOwn h servePartitionPreempt_safe)
  | preemptComplete => exact execPreemptComplete_safe h
  | write => exact .next (.receiveType h)
  | read => exact .next (.receiveType h)
  | readResponse => exact .next (.receiveType h)
  | signal => exact .next (.receiveType h)
  | snoop => exact .next (.receiveType h)
  | mirror => exact .next (.receiveType h)
  | ackE2e => exact .next (.receiveType h)
  | linkState => exact .next (.receiveType h)
  | null => exact .next (.receiveType h)
  | linkRetryTimeout => exact execLinkRetryTimeout_safe h
  | portTransmit => exact execPortTransmit_safe h
  | e2eResendTimeout => exact execE2eResendTimeout_safe h
  | laneFailure => exact .ite (.next (.laneFails (.ite (.emit h) h))) (.next h)
  | portSignalLoss => exact .ite (.next (.portDown h)) (.next h)
  | portSignalReturn => exact .ite (.next (.setPortState h)) (.next h)
  | spareConnect => exact .next (.receiveOwn h serveSpareConnect_safe)
  | sparePortTrained => exact execSparePortTrained_safe h
  | spareWaitExpiry => exact .ite (.next (.vacate (.wr h))) (.next h)
  | groupTable => exact .next (.receiveOwn h serveGroup_safe)
  | estuarySendBegin => exact execEstuarySendBegin_safe h
  | partialSum => exact .next (.receiveKind h)
  | result => exact .next (.receiveKind h)
  | notice => exact .next (.receiveKind h)
  | raise => exact .next (.receiveKind h)
  | collectorDeadline => exact execCollectorDeadline_safe h
  | ownerDeadline => exact execOwnerDeadline_safe h
  | resultWaitExpiry => exact execResultWaitExpiry_safe h
  | stageStart => exact .next (.receiveOwn h serveStageControl_safe)
  | stageStop => exact .next (.receiveOwn h serveStageControl_safe)
  | stagePhaseDone => exact .ite (.next (.settle (.boundary (.takeDone h)))) (.next h)
  | stageEstuaryDone => exact .ite (.ite (.next (.afterScale h)) (.next (.openPhase (.harbourWrite (.setStage h))))) (.next h)
  | stageAgreementDone => exact execStageAgreementDone_safe h
  | carryClear => exact .ite (.next (.settle (.openPhase (.setStage (.foldl (fun _ _ h' => .clearCarry h') h))))) (.next h)
  | stageUpdateDone => exact execStageUpdateDone_safe h
  | landfallStart => exact .next (.startLandfall h)
  | landfallStartCold => exact .next (.startLandfall h)
  | landfallStartWarm => exact .next (.startLandfall h)
  | conversionTimeout => exact .ite (.next (.update (.clearFlags (.failLandfall h)))) (.next h)
  | landfallL0Done => exact execLandfallL0Done_safe h
  | landfallL1Done => exact execLandfallL1Done_safe h
  | stratumTrainingDone => exact execStratumTrainingDone_safe h
  | portTrainingDone => exact execPortTrainingDone_safe h
  | l4TestDone => exact execL4TestDone_safe h
  | l5WaitExpiry => exact .ite (.next (.endTopology h)) (.next h)
  | topologyAgreement => exact .ite (.next (.endTopology h)) (.next h)
  | landfallL6Done => exact execLandfallL6Done_safe h
  | selfTestColumns => exact .next (.startSelfTest h)
  | selfTestEngines => exact .next (.startSelfTest h)
  | selfTestRooms => exact .next (.startSelfTest h)
  | stratumRecalibration => exact .next (.startSelfTest h)
  | roomScrub => exact .next (.startSelfTest h)
  | causewayEyeCheck => exact .next (.startSelfTest h)
  | selfTestBegin => exact .next (.startSelfTests h)
  | selfTestUnitDone => exact execSelfTestUnitDone_safe h
  | seaStateUpdate => exact execSeaStateUpdate_safe h
  | stowRequest => exact .next (.receiveOwn h serveStowRequest_safe)
  | stowStart => exact .next (.receiveOwn h serveStowStart_safe)
  | stowImageDone => exact execStowImageDone_safe h
  | restoreStart => exact .next (.receiveOwn h serveRestoreStart_safe)
  | restoreDone => exact execRestoreDone_safe h
  | strandlineEntry => exact execStrandlineEntry_safe h
  | strandlineFlashWrite => exact execStrandlineFlashWrite_safe h
  | cursor => exact .next (.receiveOwn h serveCursor_safe)
  | window => exact .next (.receiveOwn h serveWindow_safe)
  | softwareEvent => exact .next (.receiveOwn h serveSoftwareEvent_safe)
  | clear => exact .next (.receiveOwn h serveClear_safe)
  | watchList => exact .next (.receiveOwn h serveWatchList_safe)
  | lifecycleToProvisioned => exact .next (.requestLife h)
  | lifecycleToMission => exact .next (.requestLife h)
  | lifecycleToReturn => exact .next (.requestLife h)
  | lifecycleToScrapped => exact .next (.requestLife h)
  | returnKeyStage => exact .next (.receiveOwn h serveReturnKey_safe)
  | fwStage => exact .next (.receiveOwn h serveFwStage_safe)
  | fwCommit => exact .next (.receiveOwn h serveFwCommit_safe)
  | fwProgramDone => exact .ite (.next (.setFw (.setBank h))) (.next h)
  | minSecurityVersion => exact .next (.receiveOwn h serveMinVersion_safe)
  | measurementExtend => exact .next (.receiveOwn h serveExtend_safe)
  | retiredListClear => exact .next (.receiveOwn h serveRetiredClear_safe)
  | getVersion => exact .next (.spdmReply (.update h))
  | getCapabilities => exact .next (.spdmReply h)
  | negotiateAlgorithms => exact .next (.spdmReply (.update h))
  | getDigests => exact execGetDigests_safe h
  | getCertificate => exact execGetCertificate_safe h
  | challenge => exact execChallenge_safe h
  | getMeasurements => exact execGetMeasurements_safe h
  | idcode => exact .next (.tap h)
  | debugAccess => exact .ite (.next (.message (.update h))) (.next h)
  | islandHalt => exact .ite (.next (.used (.tap (.update h)))) (.next h)
  | bypass => exact .next (.tap h)
  | inputOvervoltage => exact .ite (.next (.setFlags (.measureInput h))) (.next h)
  | handoverResponseLimit => exact .next (.answerHandover h)
  | d2hCompletion => exact execD2hCompletion_safe h

theorem State.safe.tick (h : s.safe) : s.tick.safe :=
  .takeStows (.retryMirrors (.settle (.retrySignals (.retryHeld (.retryWindows (.update h))))))

theorem step_safe (h : s.safe) : SafeRes (step s) := by
  unfold step
  split
  · exact .next (.tick h)
  · exact exec_safe (.update h)

end Sys2Proof.Machine

open Sys2Proof Sys2Proof.Machine

/-- Settles O5: at reset memory is empty, the store holds the defaults, no crossing was used and nothing waits for the recorder. -/
theorem safeAtReset : Obligations.SafeAtReset := by
  unfold Obligations.SafeAtReset State.reset
  exact .intro rfl wf_defaultStore (fun _ h => (List.not_mem_nil h).elim) (Nat.zero_le _)

/-- Settles O6: every command, and a microsecond of Harbour time, leaves a safe state safe. -/
theorem everyStepKeepsSafe : Obligations.EveryStepKeepsSafe := by
  unfold Obligations.EveryStepKeepsSafe
  exact fun _ t h ht => step_safe h t ht
end

section
/-!
PROOFS. Crossings (spec/02 R47, R49, R52): what an entry written and an entry removed leave.
-/
namespace Sys2Proof.Machine

/-! ### Reading crossings and ports -/

theorem State.crossing_setCrossing_of_key_ne (s : State) {a b c d : Nat} (x : Crossing) (h : 128 * c + d ≠ 128 * a + b) :
    (s.setCrossing a b x).crossing c d = s.crossing c d := tget_tset_ne _ _ _ h

theorem State.joinPort_crossings (s : State) (e : CrossEntry) : (s.joinPort e).crossings = s.crossings := by
  unfold State.joinPort
  split <;> rfl

theorem State.joinPort_crossing (s : State) (e : CrossEntry) (a b : Nat) : (s.joinPort e).crossing a b = s.crossing a b := by
  unfold State.crossing
  rw [s.joinPort_crossings]

/-- An entry that joins its class queue changes ports only. -/
theorem State.joinPort_frame (s : State) (e : CrossEntry) : { s.joinPort e with ports := s.ports } = s := by
  unfold State.joinPort
  split <;> rfl

theorem State.joinPort_ports_of_none (s : State) {e : CrossEntry} (h : e.port = none) : (s.joinPort e).ports = s.ports := by
  unfold State.joinPort
  rw [h]

theorem State.joinPort_queues (s : State) {e : CrossEntry} {f p : Nat} (h : e.port = some (f, p)) :
    ((s.joinPort e).fabricPort f p).queues
      = (s.fabricPort f p).queues.set (classCode e.cls) ((s.fabricPort f p).waiting (classCode e.cls) ++ [e]) := by
  unfold State.joinPort
  rw [h]
  exact congrArg Port.queues (s.fabricPort_setFabricPort_same f p _)

/-! ### CROSSING_ENTRY and CROSSING_CREDIT -/

section
variable {s : State} {a b : Nat}

theorem exec_crossingEntry_of_open (x : CrossEntry) (ha : s.islandFenced a = false) (hb : s.islandFenced b = false) :
    exec (.crossingEntry a b x) s = .next (if (s.crossing a b).pool (entryPool { x with left := none }) = 0 then s
      else s.setCrossing a b ((s.crossing a b).push { x with left := none })) := by
  change execCrossingEntry a b x s = _
  unfold execCrossingEntry
  simp only [ha, hb, Bool.or_self, Bool.false_eq_true, ↓reduceIte]
  split <;> rfl

theorem exec_crossingEntry_of_closed (x : CrossEntry) (h : s.islandFenced a = true ∨ s.islandFenced b = true) :
    exec (.crossingEntry a b x) s = .next (s.emit (.crossingStatus a b x.tag St.fenced)) := by
  change execCrossingEntry a b x s = _
  exact if_pos ((Bool.or_eq_true _ _).mpr h)

theorem exec_crossingCredit_of_some {e : CrossEntry} (h : (s.crossing a b).fifo.find? s.takes = some e) :
    exec (.crossingCredit a b) s = .next ((s.setCrossing a b ((s.crossing a b).drop e)).joinPort e) := by
  change execCrossingCredit a b s = _
  unfold execCrossingCredit
  simp only [h]

theorem exec_crossingCredit_of_none (h : (s.crossing a b).fifo.find? s.takes = none) :
    exec (.crossingCredit a b) s = .next s := by
  change execCrossingCredit a b s = _
  unfold execCrossingCredit
  simp only [h]

end

end Sys2Proof.Machine

open Sys2Proof Sys2Proof.Machine

/-- Settles O13: an entry written takes the credit that an entry removed gives back, each at one crossing. -/
theorem crossingsKeepOrderAndCredits : Obligations.CrossingsKeepOrderAndCredits := by
  unfold Obligations.CrossingsKeepOrderAndCredits
  refine ⟨fun _ _ => ⟨rfl, Crossing.conserves_default.2⟩, fun s a b x ha hb hl => ?_,
    fun _ _ _ x h => exec_crossingEntry_of_closed x h, fun s a b e he hl => ?_, fun _ _ _ h => exec_crossingCredit_of_none h, fun s _ _ _ _ x h => s.crossing_setCrossing_of_key_ne x h⟩
  · exact ⟨_, exec_crossingEntry_of_open x ha hb, rfl, Crossing.pool_push hl⟩
  · refine ⟨_, exec_crossingCredit_of_some he, ?_, fun k => ?_, fun c d h => ?_, ?_, ?_⟩
    · rw [State.joinPort_crossing, State.crossing_setCrossing_same]
      rfl
    · rw [State.joinPort_crossing, State.crossing_setCrossing_same]
      exact Crossing.pool_drop hl k
    · rw [State.joinPort_crossing]
      exact s.crossing_setCrossing_of_key_ne _ h
    · exact congrArg (fun u : State => { u with crossings := s.crossings }) (State.joinPort_frame _ e)
    · split
      · next h => exact State.joinPort_ports_of_none _ h
      · next h => exact State.joinPort_queues _ h
end

section
/-!
PROOFS. Slots of a READY module (spec/02 R52, R55, R62, log 175): the entry a slot moves, what its move leaves, and a slot that stays
idle or carries an engine's own transfer.
-/
namespace Sys2Proof.Machine

/-! ### An engine's own transfer changes no port of a fabric -/

theorem State.roomAnswer_ports (s : State) (r : Nat) (q : RoomReq) (c : BitVec 16) (bs : List Byte) :
    (s.roomAnswer r q c bs).ports = s.ports := by
  unfold State.roomAnswer
  split <;> rfl

theorem State.setReg_ports (s : State) (k v : Nat) : (s.setReg k v).ports = s.ports := rfl

theorem State.record_ports (s : State) (g : Nat) (c : BitVec 16) (uk un : Nat) (d : List Byte) :
    (s.record g c uk un d).ports = s.ports := (congrArg State.ports (s.record_frame g c uk un d) :)

theorem State.noteNotOwner_ports (s : State) (r requester : Nat) (p : Option Owner) (w : Bool) :
    (s.noteNotOwner r requester p w).ports = s.ports := by
  unfold State.noteNotOwner
  extract_lets unit bytes t
  have ht : t.ports = s.ports := (State.setReg_ports _ _ _).trans (State.setReg_ports _ _ _)
  clear_value t
  split
  · exact ht
  · rw [State.record_ports]
    exact ht

theorem State.refuseAll_ports (s : State) (r : Nat) (qs : List RoomReq) : (s.refuseAll r qs).ports = s.ports := by
  induction qs generalizing s with
  | nil => rfl
  | cons q qs ih =>
    unfold State.refuseAll
    rw [ih, State.roomAnswer_ports]
    split
    · rfl
    · exact s.noteNotOwner_ports _ _ _ _

theorem State.enterRoom_ports (s : State) (r : Nat) (q : RoomReq) : (s.enterRoom r q).1.ports = s.ports := by
  unfold State.enterRoom
  dsimp only
  split
  · rfl
  · split
    · exact s.roomAnswer_ports _ _ _ _
    · split
      · exact s.refuseAll_ports _ _
      · split
        · split <;> rfl
        · split <;> split <;> rfl

theorem State.sendTransferOf_ports (s : State) (u : Nat) : (s.sendTransferOf u).ports = s.ports := by
  unfold State.sendTransferOf
  generalize (s.unitPort u).asked.take 16 = lines
  dsimp only
  change (List.foldl _ s lines).ports = s.ports
  induction lines generalizing s with
  | nil => rfl
  | cons l lines ih =>
    rw [List.foldl_cons, ih]
    split
    · rfl
    · split
      · exact State.enterRoom_ports _ _ _
      · rfl

/-! ### A transfer that leaves its port -/

section
variable {s : State} {f p : Nat} {e : CrossEntry}

theorem State.leavePort_ports : (s.leavePort f p e).ports = s.ports := by
  unfold State.leavePort
  dsimp only
  split <;> rfl

theorem State.leavePort_pd : (s.leavePort f p e).pd = s.pd := by
  unfold State.leavePort
  dsimp only
  split <;> rfl

theorem State.leavePort_out : (s.leavePort f p e).out = s.out ++ [.slotTransfer f p e.cls e.tag] := by
  unfold State.leavePort
  dsimp only
  split <;> rfl

theorem State.leavePort_frame : { s.leavePort f p e with out := s.out, crossings := s.crossings } = s := by
  unfold State.leavePort
  dsimp only
  split <;> rfl

theorem State.leavePort_crossings_of_none (h : e.out = none) : (s.leavePort f p e).crossings = s.crossings := by
  unfold State.leavePort
  rw [h]
  rfl

theorem State.leavePort_of_some {a b : Nat} (h : e.out = some (a, b)) : s.leavePort f p e =
    (s.emit (.slotTransfer f p e.cls e.tag)).setCrossing a b ((s.crossing a b).push (leaving e f p)) := by
  unfold State.leavePort
  rw [h]
  rfl

end

/-! ### The slot of a port -/

/-- The table that a port's slot goes by: at slot 0 the one in use (R59). -/
def State.slotTable (s : State) (f p : Nat) : List Byte :=
  if (s.fabricPort f p).slot = 0 then s.activeTable f else (s.fabricPort f p).table.getD (s.activeTable f)

/-- The class of a port's slot. -/
def State.slotClass (s : State) (f p : Nat) : Nat := ((s.slotTable f p).getD (s.fabricPort f p).slot 0).toNat % 8

/-- A port whose slot has passed. -/
def State.slotPast (s : State) (f p : Nat) : Port :=
  { s.fabricPort f p with slot := ((s.fabricPort f p).slot + 1) % 256, table := some (s.slotTable f p) }

/-- What the slot of a READY module's port moves: the entry, its class, and whether maintenance took a host slot. -/
def State.slotMove (s : State) (f p : Nat) : Option (CrossEntry × Nat × Bool) :=
  (slotChoice true (s.slotClass f p) (s.fabricPort f p).queues).filter fun m => s.mayLeave m.1

/-- A TS slot of the House crossbar's port of an engine that has a transfer of its own (log 175). -/
def State.slotIsOwn (s : State) (f p : Nat) : Prop :=
  f = 1 ∧ s.slotClass f p = 1 ∧ p < 64 ∧ (s.unitPort (p + 1)).waits = true

/-- The port after an entry has left its class queue. -/
def State.slotTaken (s : State) (f p : Nat) (e : CrossEntry) (k : Nat) : State :=
  s.setFabricPort f p { s.slotPast f p with queues := (s.fabricPort f p).queues.set k (((s.fabricPort f p).waiting k).erase e) }

section
variable {s : State} {f p : Nat} {e : CrossEntry}

/-- The entry of the slot's own class whose turn it is. -/
theorem State.slotMove_of_turn
    (h : firstWaiting (s.slotClass f p) ((s.fabricPort f p).waiting (s.slotClass f p)) = some e) (hm : s.mayLeave e = true) :
    s.slotMove f p = some (e, s.slotClass f p, false) := by
  unfold Port.waiting at h
  simp only [State.slotMove, slotChoice, Bool.not_true, Bool.false_eq_true, ↓reduceIte, h, Option.filter_some, hm]

/-- A waiting maintenance request takes a host slot. -/
theorem State.slotMove_of_maintenance (hc : s.slotClass f p = 4) (h4 : firstWaiting 4 ((s.fabricPort f p).waiting 4) = none)
    (h5 : firstWaiting 5 ((s.fabricPort f p).waiting 5) = some e) (hm : s.mayLeave e = true) :
    s.slotMove f p = some (e, 5, true) := by
  unfold Port.waiting at h4 h5
  simp only [State.slotMove, slotChoice, Bool.not_true, Bool.false_eq_true, ↓reduceIte, hc, h4, h5, Option.map_some,
    Option.filter_some, hm]

theorem State.slotMove_of_stays
    (h : ∀ e, firstWaiting (s.slotClass f p) ((s.fabricPort f p).waiting (s.slotClass f p)) = some e → s.mayLeave e = false)
    (h5 : ∀ e, s.slotClass f p = 4 → firstWaiting 4 ((s.fabricPort f p).waiting 4) = none →
      firstWaiting 5 ((s.fabricPort f p).waiting 5) = some e → s.mayLeave e = false) :
    s.slotMove f p = none := by
  unfold Port.waiting at h h5
  unfold State.slotMove slotChoice
  dsimp only
  rw [if_neg (by decide)]
  split
  · next x hx => simp [h x hx]
  · next hx =>
    split
    · next hc =>
      rw [hc] at hx
      cases hy : firstWaiting 5 ((s.fabricPort f p).queues.getD 5 []) with
      | none => rfl
      | some y => simp [h5 y hc hx hy]
    · rfl

variable (h1 : 1 ≤ f) (h4 : f ≤ 4) (hr : s.isReady = true)
include h1 h4 hr

theorem exec_tideSlot_of_none (h : s.slotMove f p = none) :
    exec (.tideSlot f p) s = .next (if s.isReady && f == 1 && s.slotClass f p == 1 && decide (p < 64) && (s.unitPort (p + 1)).waits
      then (s.setFabricPort f p (s.slotPast f p)).sendTransferOf (p + 1)
      else (s.setFabricPort f p (s.slotPast f p)).bump (Pd.idleSlots + f - 1)) := by
  change execTideSlot f p s = _
  unfold State.slotMove State.slotClass State.slotTable at h
  rw [← hr] at h
  unfold execTideSlot
  rw [if_neg (by omega)]
  simp only [h]
  rfl

theorem exec_tideSlot_of_some {k : Nat} {took : Bool} (h : s.slotMove f p = some (e, k, took)) :
    exec (.tideSlot f p) s = .next ((if took then (s.slotTaken f p e k).bump (Pd.hostToMaint + f - 1)
      else s.slotTaken f p e k).leavePort f p e) := by
  change execTideSlot f p s = _
  unfold State.slotMove State.slotClass State.slotTable at h
  rw [← hr] at h
  unfold execTideSlot
  rw [if_neg (by omega)]
  simp only [h]
  rfl

end

/-- A count advanced changes the dictionary's store only. -/
theorem State.bump_eq (s : State) (k n : Nat) : ∃ d, s.bump k n = { s with pd := d } := ⟨_, rfl⟩

/-! ### What a slot leaves -/

section
variable {s t : State} {f p : Nat}

theorem State.leavePort_fabricPort (t : State) (e : CrossEntry) : (t.leavePort f p e).fabricPort f p = t.fabricPort f p := by
  unfold State.fabricPort
  rw [State.leavePort_ports]

/-- A transfer that leaves its port: its class queue is as the port has it, the transfer is told, and it stands last in the crossing
that it writes. -/
theorem State.leavePort_moves (e : CrossEntry) {queues : List (List CrossEntry)} (hq : (t.fabricPort f p).queues = queues)
    (ho : t.out = s.out) (hc : t.crossings = s.crossings) :
    ((t.leavePort f p e).fabricPort f p).queues = queues
      ∧ (t.leavePort f p e).out = s.out ++ [.slotTransfer f p e.cls e.tag]
      ∧ (match e.out with
        | none => (t.leavePort f p e).crossings = s.crossings
        | some (a, b) => (t.leavePort f p e).crossing a b = (s.crossing a b).push (leaving e f p)
            ∧ ∀ i j, 128 * i + j ≠ 128 * a + b → (t.leavePort f p e).crossing i j = s.crossing i j) := by
  have hcrossing : ∀ i j, t.crossing i j = s.crossing i j := fun i j => by rw [State.crossing, hc]; rfl
  refine ⟨by rw [t.leavePort_fabricPort, hq], by rw [State.leavePort_out, ho], ?_⟩
  split
  · next h => rw [State.leavePort_crossings_of_none h, hc]
  · next a b h =>
    rw [State.leavePort_of_some h, ← hcrossing a b]
    exact ⟨State.crossing_setCrossing_same _ a b _,
      fun i j hij => (State.crossing_setCrossing_of_key_ne _ _ hij).trans (hcrossing i j)⟩

/-- The state in which the transfer of a slot leaves its port. -/
def State.slotTaking (s : State) (f p : Nat) (e : CrossEntry) (k : Nat) (took : Bool) : State :=
  if took then (s.slotTaken f p e k).bump (Pd.hostToMaint + f - 1) else s.slotTaken f p e k

theorem State.slotTaking_fabricPort (s : State) (e : CrossEntry) (k : Nat) (took : Bool) :
    (s.slotTaking f p e k took).fabricPort f p =
      { s.slotPast f p with queues := (s.fabricPort f p).queues.set k (((s.fabricPort f p).waiting k).erase e) } := by
  have htaken := s.fabricPort_setFabricPort_same f p
    { s.slotPast f p with queues := (s.fabricPort f p).queues.set k (((s.fabricPort f p).waiting k).erase e) }
  cases took
  · exact htaken
  · obtain ⟨d, hd⟩ := (s.slotTaken f p e k).bump_eq (Pd.hostToMaint + f - 1) 1
    rw [State.slotTaking, if_pos rfl, hd]
    exact htaken

theorem State.slotTaking_frame (s : State) (e : CrossEntry) (k : Nat) (took : Bool) :
    { s.slotTaking f p e k took with ports := s.ports, pd := s.pd } = s := by
  cases took
  · rfl
  · obtain ⟨d, hd⟩ := (s.slotTaken f p e k).bump_eq (Pd.hostToMaint + f - 1) 1
    rw [State.slotTaking, if_pos rfl, hd]
    rfl

theorem State.slotTaking_moves (s : State) (e : CrossEntry) (k : Nat) (took : Bool) :
    (((s.slotTaking f p e k took).leavePort f p e).fabricPort f p).queues
        = (s.fabricPort f p).queues.set k (((s.fabricPort f p).waiting k).erase e)
      ∧ ((s.slotTaking f p e k took).leavePort f p e).out = s.out ++ [.slotTransfer f p e.cls e.tag]
      ∧ (match e.out with
        | none => ((s.slotTaking f p e k took).leavePort f p e).crossings = s.crossings
        | some (a, b) => ((s.slotTaking f p e k took).leavePort f p e).crossing a b = (s.crossing a b).push (leaving e f p)
            ∧ ∀ i j, 128 * i + j ≠ 128 * a + b →
              ((s.slotTaking f p e k took).leavePort f p e).crossing i j = s.crossing i j) := by
  have hframe := s.slotTaking_frame (f := f) (p := p) e k took
  exact State.leavePort_moves e (by rw [State.slotTaking_fabricPort]) (congrArg State.out hframe :)
    (congrArg State.crossings hframe :)

end

/-! ### A slot that moves nothing -/

section
variable {s : State} {f p : Nat} (h1 : 1 ≤ f) (h4 : f ≤ 4) (hr : s.isReady = true) (h : s.slotMove f p = none)
include h1 h4 hr h

theorem exec_tideSlot_of_own (ho : s.slotIsOwn f p) :
    exec (.tideSlot f p) s = .next ((s.setFabricPort f p (s.slotPast f p)).sendTransferOf (p + 1)) := by
  obtain ⟨rfl, hc, hp, hw⟩ := ho
  rw [exec_tideSlot_of_none h1 h4 hr h, if_pos (by simp [hr, hc, hp, hw])]

theorem exec_tideSlot_of_idle (ho : ¬ s.slotIsOwn f p) :
    exec (.tideSlot f p) s = .next ((s.setFabricPort f p (s.slotPast f p)).bump (Pd.idleSlots + f - 1)) := by
  rw [exec_tideSlot_of_none h1 h4 hr h, if_neg]
  intro hc
  simp only [Bool.and_eq_true, beq_iff_eq, decide_eq_true_eq] at hc
  obtain ⟨⟨⟨⟨-, hf⟩, hc⟩, hp⟩, hw⟩ := hc
  exact ho ⟨hf, hc, hp, hw⟩

end

/-- A slot's transfer changes ports, the count of what maintenance took, what is told and the crossing it writes. -/
theorem State.slotTaking_leavePort_frame (s : State) {f p : Nat} (e : CrossEntry) (k : Nat) (took : Bool) :
    { (s.slotTaking f p e k took).leavePort f p e with
      ports := s.ports, pd := s.pd, out := s.out, crossings := s.crossings } = s :=
  calc { (s.slotTaking f p e k took).leavePort f p e with ports := s.ports, pd := s.pd, out := s.out, crossings := s.crossings }
      = { s.slotTaking f p e k took with ports := s.ports, pd := s.pd, out := s.out, crossings := s.crossings } :=
        congrArg (fun u : State => { u with ports := s.ports, pd := s.pd, out := s.out, crossings := s.crossings })
          (State.leavePort_frame (s := s.slotTaking f p e k took) (f := f) (p := p) (e := e))
    _ = s := congrArg (fun u : State => { u with out := s.out, crossings := s.crossings }) (s.slotTaking_frame e k took)

end Sys2Proof.Machine

open Sys2Proof Sys2Proof.Machine

/-- Settles O14: by what the slot moves, which is the entry of its own class, a maintenance request, or nothing. -/
theorem slotServesItsClass : Obligations.SlotServesItsClass := by
  unfold Obligations.SlotServesItsClass
  intro s f p h1 h4 hr x table c turn own moves
  have hpast : (s.setFabricPort f p (s.slotPast f p)).fabricPort f p = s.slotPast f p := s.fabricPort_setFabricPort_same f p _
  cases h : s.slotMove f p with
  | none =>
    have hturn : ∀ e, turn c = some e → s.mayLeave e = true → False := fun e he hm =>
      nomatch h.symm.trans (State.slotMove_of_turn he hm)
    have hmaint : ∀ e, c = 4 → turn 4 = none → turn 5 = some e → s.mayLeave e = true → False := fun e hc he4 he5 hm =>
      nomatch h.symm.trans (State.slotMove_of_maintenance hc he4 he5 hm)
    by_cases ho : own
    · have hport : ((s.setFabricPort f p (s.slotPast f p)).sendTransferOf (p + 1)).fabricPort f p = s.slotPast f p := by
        rw [State.fabricPort, State.sendTransferOf_ports]
        exact hpast
      refine ⟨_, exec_tideSlot_of_own h1 h4 hr h ho, by rw [hport]; rfl, fun e he hm => (hturn e he hm).elim,
        fun e hc he4 he5 hm => (hmaint e hc he4 he5 hm).elim, fun _ _ => ⟨by rw [hport]; rfl, absurd ho, fun _ => rfl⟩, absurd ho⟩
    · have hexec := exec_tideSlot_of_idle h1 h4 hr h ho
      have hreg := (s.setFabricPort f p (s.slotPast f p)).bump_reg (Pd.idleSlots + f - 1) 1
      have hstore := (s.setFabricPort f p (s.slotPast f p)).bump_store (Pd.idleSlots + f - 1) 1
      obtain ⟨d, hd⟩ := (s.setFabricPort f p (s.slotPast f p)).bump_eq (Pd.idleSlots + f - 1) 1
      rw [hd] at hexec hreg hstore
      exact ⟨_, hexec, congrArg Port.slot hpast, fun e he hm => (hturn e he hm).elim,
        fun e hc he4 he5 hm => (hmaint e hc he4 he5 hm).elim,
        fun _ _ => ⟨(congrArg Port.queues hpast :), fun _ => ⟨rfl, rfl, hreg, hstore⟩, fun ho' => absurd ho' ho⟩, fun _ => rfl⟩
  | some m =>
    obtain ⟨e, k, took⟩ := m
    have hpd := State.leavePort_pd (s := s.slotTaking f p e k took) (f := f) (p := p) (e := e)
    refine ⟨(s.slotTaking f p e k took).leavePort f p e, exec_tideSlot_of_some h1 h4 hr h, ?_, fun e' he hm => ?_,
      fun e' hc he4 he5 hm => ?_, fun hs hs5 => ?_, fun _ => s.slotTaking_leavePort_frame e k took⟩
    · rw [State.leavePort_fabricPort, State.slotTaking_fabricPort]
      rfl
    · cases h.symm.trans (State.slotMove_of_turn he hm)
      exact ⟨s.slotTaking_moves e c false, hpd⟩
    · cases h.symm.trans (State.slotMove_of_maintenance hc he4 he5 hm)
      refine ⟨s.slotTaking_moves e 5 true, ?_, ?_⟩
      · exact (State.rd_of_pd hpd _ _).trans (State.bump_reg _ _ _)
      · exact (State.bump_store (s.slotTaken f p e 5) _ _).trans (storeFrame.of_pd hpd)
    · exact nomatch h.symm.trans (State.slotMove_of_stays hs hs5)
end

section
/-!
PROOFS. TIDE_APPLY (spec/02 R58, R59, log 36): what each of its three answers leaves.
-/
namespace Sys2Proof.Machine

/-! ### The fabrics named, and the tables applied -/

/-- The fabrics that a value of TIDE_APPLY names. -/
def tideFabrics (set : Nat) : List Nat := [1, 2, 3, 4].filter fun f => set.testBit (f - 1)

theorem mem_tideFabrics {set f : Nat} : f ∈ tideFabrics (set % 16) ↔ 1 ≤ f ∧ f ≤ 4 ∧ set.testBit (f - 1) = true := by
  have hbit : (set % 2 ^ 4).testBit (f - 1) = (decide (f - 1 < 4) && set.testBit (f - 1)) := Nat.testBit_mod_two_pow _ _ _
  have hmem : f ∈ [1, 2, 3, 4] ↔ 1 ≤ f ∧ f ≤ 4 := by
    simp only [List.mem_cons, List.not_mem_nil, or_false]
    omega
  rw [tideFabrics, List.mem_filter, hmem, show set % 16 = set % 2 ^ 4 from rfl, hbit, Bool.and_eq_true, decide_eq_true_eq, and_assoc]
  exact ⟨fun ⟨h1, h4, _, hb⟩ => ⟨h1, h4, hb⟩, fun ⟨h1, h4, hb⟩ => ⟨h1, h4, by omega, hb⟩⟩

/-- The staged tables of fabrics put into use. -/
def State.applyTables (s : State) (fs : List Nat) : State :=
  fs.foldl (fun s f => s.setReg (Pd.tideActive + f - 1) (s.reg (Pd.tideStaged + f - 1))) s

theorem State.applyTables_frame (s : State) (fs : List Nat) : { s.applyTables fs with pd := s.pd } = s := by
  induction fs generalizing s with
  | nil => rfl
  | cons f fs ih =>
    exact congrArg (fun u : State => { u with pd := s.pd }) (ih (s.setReg (Pd.tideActive + f - 1) (s.reg (Pd.tideStaged + f - 1))))

/-- Putting tables into use changes the active tables of those fabrics only. -/
theorem State.applyTables_reg_of_not_active (s : State) {fs : List Nat} {k : Nat} (h : ∀ f ∈ fs, k ≠ Pd.tideActive + f - 1) :
    (s.applyTables fs).reg k = s.reg k := by
  induction fs generalizing s with
  | nil => rfl
  | cons f fs ih =>
    exact (ih _ fun g hg => h g (.tail _ hg)).trans (State.reg_setReg_ne _ (h f (.head _)))

theorem State.applyTables_active (s : State) {fs : List Nat} (hfs : ∀ f ∈ fs, 1 ≤ f ∧ f ≤ 4) {f : Nat} (hf : 1 ≤ f) (hf4 : f ≤ 4) :
    (s.applyTables fs).reg (Pd.tideActive + f - 1)
      = if f ∈ fs then s.reg (Pd.tideStaged + f - 1) else s.reg (Pd.tideActive + f - 1) := by
  induction fs generalizing s with
  | nil => rfl
  | cons g fs ih =>
    obtain ⟨hg, hg4⟩ := hfs g (.head _)
    have hstep := ih (s.setReg (Pd.tideActive + g - 1) (s.reg (Pd.tideStaged + g - 1))) fun x hx => hfs x (.tail _ hx)
    have hne : Pd.tideStaged + f - 1 ≠ Pd.tideActive + g - 1 := by
      simp only [Pd.tideStaged, Pd.tideActive]
      omega
    rw [State.reg_setReg_ne _ hne] at hstep
    refine hstep.trans ?_
    by_cases hfg : f = g
    · subst hfg
      rw [State.reg_setReg_same]
      simp
    · rw [State.reg_setReg_ne _ (by omega)]
      simp [hfg]

theorem State.resumeTransfers_causewayOnly (s : State) : causewayOnly s s.resumeTransfers :=
  causewayOnly.foldl (f := fun (s : State) (e : Nat × List Transfer) => s.sendWaiting e.1)
    (fun s e => s.sendWaiting_causewayOnly e.1) _ s

/-- Tables put into use, and the transfers that waited for them sent: of `s`, the store and the Causeway differ. -/
theorem State.tablesApplied_frame {s u : State} (hu : { u with pd := s.pd, causeway := s.causeway } = s) (fs : List Nat) :
    { (u.applyTables fs).resumeTransfers with pd := s.pd, causeway := s.causeway } = s :=
  calc { (u.applyTables fs).resumeTransfers with pd := s.pd, causeway := s.causeway }
      = { u.applyTables fs with pd := s.pd, causeway := s.causeway } :=
        congrArg (fun t : State => { t with pd := s.pd, causeway := s.causeway }) (u.applyTables fs).resumeTransfers_causewayOnly
    _ = { u with pd := s.pd, causeway := s.causeway } :=
        congrArg (fun t : State => { t with pd := s.pd, causeway := s.causeway }) (u.applyTables_frame fs)
    _ = s := hu

theorem State.resumeTransfers_reg (s : State) (k : Nat) : s.resumeTransfers.reg k = s.reg k :=
  State.rd_of_pd (congrArg State.pd s.resumeTransfers_causewayOnly :) k 0

/-! ### The three answers -/

section
variable {s : State} {role : Role} {e : EntryInfo} {q : Req}

theorem serveTideApply_of_busy (h : ∃ f ∈ tideFabrics (q.value % 16), s.quiescent f = false) :
    serveTideApply role e q s = { state := s.applyResult St.notQuiescent 0, status := St.notQuiescent } := by
  refine if_pos (List.any_eq_true.mpr ?_)
  obtain ⟨f, hf, hq⟩ := h
  exact ⟨f, hf, by rw [hq]; rfl⟩

theorem serveTideApply_of_invalid (hq : ∀ f ∈ tideFabrics (q.value % 16), s.quiescent f = true)
    (h : ∃ f ∈ tideFabrics (q.value % 16), tableValid f (s.stagedTable f) = false) :
    serveTideApply role e q s = { state := s.applyResult St.tableInvalid 0, status := St.tableInvalid } := by
  refine (if_neg ?_).trans (if_pos (List.any_eq_true.mpr ?_))
  · rw [List.any_eq_true]
    rintro ⟨f, hf, hb⟩
    rw [hq f hf] at hb
    exact Bool.false_ne_true hb
  · obtain ⟨f, hf, hv⟩ := h
    exact ⟨f, hf, by rw [hv]; rfl⟩

theorem serveTideApply_of_valid (hq : ∀ f ∈ tideFabrics (q.value % 16), s.quiescent f = true)
    (hv : ∀ f ∈ tideFabrics (q.value % 16), tableValid f (s.stagedTable f) = true) :
    serveTideApply role e q s =
      { state := (s.applyTables (tideFabrics (q.value % 16))).resumeTransfers.applyResult St.ok (q.value % 16) } := by
  refine (if_neg ?_).trans (if_neg ?_)
  · rw [List.any_eq_true]
    rintro ⟨f, hf, hb⟩
    rw [hq f hf] at hb
    exact Bool.false_ne_true hb
  · rw [List.any_eq_true]
    rintro ⟨f, hf, hb⟩
    rw [hv f hf] at hb
    exact Bool.false_ne_true hb

/-! ### The request counted -/

theorem State.quiescent_countRequest (s : State) (p : GdpPath) (f : Nat) : (s.countRequest p).quiescent f = s.quiescent f := by
  have hready : (s.countRequest p).isReady = s.isReady := by
    unfold State.isReady
    rw [s.countRequest_reg p (by decide)]
  unfold State.quiescent
  rw [hready, s.countRequest_eq p]
  rfl

theorem State.countRequest_tables (s : State) (p : GdpPath) {f : Nat} (hf : 1 ≤ f) (hf4 : f ≤ 4) :
    (s.countRequest p).reg (Pd.tideActive + f - 1) = s.reg (Pd.tideActive + f - 1)
      ∧ (s.countRequest p).reg (Pd.tideStaged + f - 1) = s.reg (Pd.tideStaged + f - 1) := by
  have hactive : Pd.tideActive + f - 1 ∉ requestCounters := by interval_cases f <;> decide
  have hstaged : Pd.tideStaged + f - 1 ∉ requestCounters := by interval_cases f <;> decide
  exact ⟨s.countRequest_reg p hactive, s.countRequest_reg p hstaged⟩

theorem State.stagedTable_countRequest (s : State) (p : GdpPath) {f : Nat} (hf : 1 ≤ f) (hf4 : f ≤ 4) :
    (s.countRequest p).stagedTable f = s.stagedTable f := by
  unfold State.stagedTable
  rw [(s.countRequest_tables p hf hf4).2]

/-! ### An answer -/

/-- A command's own write names its entry. -/
theorem ownWrite_key (o : Origin) {key : Nat} (offset : Nat) (data : List Byte) (h : key < 2 ^ 24) :
    (ownWrite o key offset data).key = key := by
  change (BitVec.ofNat 16 (key / 256)).toNat * 256 + (BitVec.ofNat 8 key).toNat = key
  rw [BitVec.toNat_ofNat, BitVec.toNat_ofNat]
  omega

theorem tideApply_not_persistent (h : entryInfo Pd.tideApply = some e) : e.persistent = false := by
  have hrow : (entryInfo Pd.tideApply).map (·.persistent) = some false := by decide +kernel
  rw [h] at hrow
  exact Option.some.inj hrow

theorem exec_tideApply_of_admitted {o : Origin} {set : BitVec 8} (h : admitted s (ownWrite o Pd.tideApply 0 [set]) role e = true)
    {u : State} {c : BitVec 16}
    (hserve : serveTideApply role e (ownWrite o Pd.tideApply 0 [set]) (s.countRequest (ownWrite o Pd.tideApply 0 [set]).path)
      = { state := u, status := c }) :
    exec (.tideApply o set) s = .next (u.respond (ownWrite o Pd.tideApply 0 [set]) c []) := by
  have hentry := entryInfo_of_admitted h
  rw [ownWrite_key o 0 [set] (by decide)] at hentry
  have hopcode : (ownWrite o Pd.tideApply 0 [set]).hdr.opcode = 2 := rfl
  have hexec : exec (.tideApply o set) s = .next (s.receiveOwn serveTideApply (ownWrite o Pd.tideApply 0 [set])) := rfl
  rw [hexec, State.receiveOwn_admitted _ h (by rw [hopcode]; decide) (by rw [hopcode]; decide), hserve,
    State.conclude_respond rfl (.inl (tideApply_not_persistent hentry))]

/-- The result stored and answered, where the state before it differs from `s` in its store and its Causeway only. -/
theorem tideApply_answered {v : State} (hv : { v with pd := s.pd, causeway := s.causeway } = s)
    (hstraps : v.reg Pd.straps = s.reg Pd.straps) (c : BitVec 16) (n : Nat) :
    ((v.applyResult c n).respond q c []).out = s.out ++ reply s q c []
      ∧ ((v.applyResult c n).respond q c []).reg Pd.tideApplyResult = c.toNat * 65536 + n
      ∧ (∀ f, 1 ≤ f → f ≤ 4 → ((v.applyResult c n).respond q c []).reg (Pd.tideActive + f - 1) = v.reg (Pd.tideActive + f - 1))
      ∧ { (v.applyResult c n).respond q c [] with pd := s.pd, out := s.out, gdp := s.gdp, causeway := s.causeway } = s := by
  have hstore := (v.applyResult c n).respond_store q c []
  have hframe := (v.applyResult c n).respond_frame q c []
  have hout : v.out = s.out := (congrArg State.out hv :)
  refine ⟨?_, ?_, fun f hf hf4 => ?_, ?_⟩
  · have hposition : (v.applyResult c n).reg Pd.straps = s.reg Pd.straps := (State.reg_setReg_ne v (by decide)).trans hstraps
    rw [State.respond_out, reply_congr hposition]
    exact congrArg (· ++ reply s q c []) hout
  · exact (hstore.reg (by decide)).trans (v.reg_setReg_same _ _)
  · have hkept : Pd.tideActive + f - 1 ∉ [Pd.refused, Pd.lastRefusal] := by interval_cases f <;> decide
    have hne : Pd.tideActive + f - 1 ≠ Pd.tideApplyResult := by interval_cases f <;> decide
    exact (hstore.reg hkept).trans (State.reg_setReg_ne v hne)
  · calc { (v.applyResult c n).respond q c [] with pd := s.pd, out := s.out, gdp := s.gdp, causeway := s.causeway }
        = { v.applyResult c n with pd := s.pd, out := s.out, gdp := s.gdp, causeway := s.causeway } :=
          congrArg (fun u : State => { u with pd := s.pd, out := s.out, gdp := s.gdp, causeway := s.causeway }) hframe
      _ = s := congrArg (fun u : State => { u with out := s.out, gdp := s.gdp }) hv

end

/-- The fabrics that a TIDE_APPLY command names. -/
theorem mem_tideFabrics_command (o : Origin) (set : BitVec 8) {f : Nat} :
    f ∈ tideFabrics ((ownWrite o Pd.tideApply 0 [set]).value % 16) ↔ 1 ≤ f ∧ f ≤ 4 ∧ set.toNat.testBit (f - 1) = true := by
  have hvalue : (ownWrite o Pd.tideApply 0 [set]).value = set.toNat := rfl
  rw [hvalue, mem_tideFabrics]

theorem tideApplyIsAllOrNothing : Claims.TideApplyIsAllOrNothing := by
  intro s o set role e q named hadm
  have hmem : ∀ {f}, f ∈ tideFabrics (q.value % 16) ↔ named f := mem_tideFabrics_command o set
  have hquiet : ∀ f, (s.countRequest q.path).quiescent f = s.quiescent f := s.quiescent_countRequest q.path
  have hcounted : { s.countRequest q.path with pd := s.pd, causeway := s.causeway } = s :=
    congrArg (fun u : State => { u with causeway := s.causeway }) (s.countRequest_frame q.path)
  have hstraps := s.countRequest_reg q.path (k := Pd.straps) (by decide)
  by_cases hbusy : ∃ f, named f ∧ s.quiescent f = false
  · obtain ⟨f, hf, hb⟩ := hbusy
    have hserve := serveTideApply_of_busy (role := role) (e := e) ⟨f, hmem.mpr hf, (hquiet f).trans hb⟩
    obtain ⟨hout, hresult, hactive, hframe⟩ := tideApply_answered (q := q) hcounted hstraps St.notQuiescent 0
    refine ⟨_, exec_tideApply_of_admitted hadm hserve, fun h => ?_, fun _ => ⟨hout, hresult, fun g hg hg4 => ?_⟩, fun h => ?_, hframe⟩
    · rw [(h f hf).1] at hb
      exact absurd hb (by decide)
    · rw [hactive g hg hg4, (s.countRequest_tables q.path hg hg4).1]
    · rw [h f hf] at hb
      exact absurd hb (by decide)
  have hq : ∀ f, named f → s.quiescent f = true := fun f hf => Bool.of_not_eq_false fun hb => hbusy ⟨f, hf, hb⟩
  have hq' : ∀ f ∈ tideFabrics (q.value % 16), (s.countRequest q.path).quiescent f = true :=
    fun f hf => (hquiet f).trans (hq f (hmem.mp hf))
  have htable : ∀ f, named f → (s.countRequest q.path).stagedTable f = s.stagedTable f :=
    fun f ⟨hf, hf4, _⟩ => s.stagedTable_countRequest q.path hf hf4
  by_cases hbad : ∃ f, named f ∧ tableValid f (s.stagedTable f) = false
  · obtain ⟨f, hf, hb⟩ := hbad
    have hserve := serveTideApply_of_invalid (role := role) (e := e) hq' ⟨f, hmem.mpr hf, (htable f hf).symm ▸ hb⟩
    obtain ⟨hout, hresult, hactive, hframe⟩ := tideApply_answered (q := q) hcounted hstraps St.tableInvalid 0
    refine ⟨_, exec_tideApply_of_admitted hadm hserve, fun h => ?_, fun h => absurd h hbusy,
      fun _ _ => ⟨hout, hresult, fun g hg hg4 => ?_⟩, hframe⟩
    · rw [(h f hf).2] at hb
      exact absurd hb (by decide)
    · rw [hactive g hg hg4, (s.countRequest_tables q.path hg hg4).1]
  · have hv : ∀ f ∈ tideFabrics (q.value % 16), tableValid f ((s.countRequest q.path).stagedTable f) = true := fun f hf => by
      rw [htable f (hmem.mp hf)]
      exact Bool.of_not_eq_false fun hb => hbad ⟨f, hmem.mp hf, hb⟩
    have hserve := serveTideApply_of_valid (role := role) (e := e) hq' hv
    have hfs : ∀ f ∈ tideFabrics (q.value % 16), 1 ≤ f ∧ f ≤ 4 := fun f hf => ⟨(hmem.mp hf).1, (hmem.mp hf).2.1⟩
    have hstraps' := (State.resumeTransfers_reg _ _).trans (((s.countRequest q.path).applyTables_reg_of_not_active
      (fs := tideFabrics (q.value % 16)) (k := Pd.straps) fun f hf => by
        have := hfs f hf
        simp only [Pd.straps, Pd.tideActive]
        omega).trans hstraps)
    obtain ⟨hout, hresult, hactive, hframe⟩ :=
      tideApply_answered (q := q) (State.tablesApplied_frame hcounted (tideFabrics (q.value % 16))) hstraps' St.ok (q.value % 16)
    have hnow : ∀ f, 1 ≤ f → f ≤ 4 → ((((s.countRequest q.path).applyTables (tideFabrics (q.value % 16))).resumeTransfers.applyResult
        St.ok (q.value % 16)).respond q St.ok []).reg (Pd.tideActive + f - 1)
          = if named f then s.reg (Pd.tideStaged + f - 1) else s.reg (Pd.tideActive + f - 1) := fun f hf hf4 => by
      obtain ⟨ha, hs⟩ := s.countRequest_tables q.path hf hf4
      rw [hactive f hf hf4, State.resumeTransfers_reg, State.applyTables_active _ hfs hf hf4, ha, hs]
      exact if_congr hmem rfl rfl
    refine ⟨_, exec_tideApply_of_admitted hadm hserve, fun _ => ⟨hout, fun f hf hf4 => ⟨fun h => ?_, fun h => ?_⟩, ?_⟩,
      fun h => absurd h hbusy, fun _ h => absurd h hbad, hframe⟩
    · rw [hnow f hf hf4, if_pos h]
    · rw [hnow f hf hf4, if_neg h]
    · exact hresult.trans (Nat.zero_add _)

end Sys2Proof.Machine

end

section
/-!
PROOFS. An island that loses lock (spec/02 R47, R48, spec/09 R262, log 120, log 121, log 161): its fence, its crossings closed, and the
Harbour's own loss.
-/
namespace Sys2Proof.Machine

/-! ### A fence shown -/

theorem State.islandFenced_of_fence (s : State) (n : Nat) :
    ((s.setFlags Pd.islandFenced (2 ^ n)).clearFlags Pd.islandLocked 128 (2 ^ n)).islandFenced n = true := by
  unfold State.islandFenced
  rw [(State.clearFlags_store _ Pd.islandLocked 128 (2 ^ n)).reg (by decide), State.setFlags_reg, Nat.testBit_or,
    Nat.testBit_two_pow_self, Bool.or_true]

/-- A bit cleared in a flag register of `w` bits is clear. -/
theorem State.testBit_clearFlags_self (s : State) (k : Nat) {w n : Nat} (h : n < w) :
    ((s.clearFlags k w (2 ^ n)).reg k).testBit n = false := by
  rw [State.clearFlags_reg, Nat.testBit_and, Nat.testBit_xor, Nat.testBit_two_pow_sub_one,
    Nat.mod_eq_of_lt (Nat.pow_lt_pow_right (by decide) h), Nat.testBit_two_pow_self, decide_eq_true h, Bool.xor_self, Bool.and_false]

/-! ### ISLAND_LOCK_LOSS by its branches -/

section
variable {s : State} {n : Nat} (hr : s.isReady = true) (hn : n < 116)
include hr hn

theorem exec_islandLockLoss_of_fenced (hf : s.islandFenced n = true) :
    exec (.islandLockLoss n) s = .next (s.clearFlags Pd.islandLocked 128 (2 ^ n)) := by
  change execIslandLockLoss n s = _
  unfold execIslandLockLoss
  rw [if_neg (by simp [hr, hn]), if_pos hf]

theorem exec_islandLockLoss_of_open (hn1 : 1 ≤ n) (hf : s.islandFenced n = false) :
    exec (.islandLockLoss n) s = .next (s.fenceIsland n) := by
  change execIslandLockLoss n s = _
  unfold execIslandLockLoss
  rw [if_neg (by simp [hr, hn]), if_neg (by simp [hf]), if_neg (by omega)]

theorem exec_engineCheckFailure_of_open (hn2 : 2 ≤ n) (hn65 : n ≤ 65) (hf : s.islandFenced n = false) :
    exec (.engineCheckFailure (n - 2)) s = .next (s.fenceIsland n) := by
  change execEngineCheckFailure (n - 2) s = _
  unfold execEngineCheckFailure
  rw [show n - 2 + 2 = n by omega, if_pos (by simp [hr, hf]; omega)]

end

/-- The Harbour's loss of lock is a module reset, with an occurrence; step 2 begins where the pins allow it. -/
theorem exec_islandLockLoss_zero {s : State} (hr : s.isReady = true) (hf : s.islandFenced 0 = false) :
    exec (.islandLockLoss 0) s = .next (if ((s.moduleReset false).record 0x01 St.fenced 6 0 []).mayBoot
      then ((s.moduleReset false).record 0x01 St.fenced 6 0 []).stepTwo else (s.moduleReset false).record 0x01 St.fenced 6 0 []) := by
  change execIslandLockLoss 0 s = _
  unfold execIslandLockLoss
  rw [if_neg (by simp [hr]), if_neg (by simp [hf]), if_pos rfl]

/-! ### Crossings closed (R47) -/

theorem Crossing.foldl_drop_fifo (x : Crossing) : (x.fifo.foldl Crossing.drop x).fifo = [] := by
  have key : ∀ (l : List CrossEntry) (x : Crossing), x.fifo = l → (l.foldl Crossing.drop x).fifo = [] := by
    intro l
    induction l with
    | nil => exact fun _ h => h
    | cons e l ih => exact fun x h => ih _ (by simp [Crossing.drop, h])
  exact key _ x rfl

/-- One crossing of island `n` closed: its entries go back to their senders. -/
def State.closeCrossing (n : Nat) (s : State) (e : Nat × Crossing) : State :=
  if e.1 / 128 = n ∨ e.1 % 128 = n then
    (e.2.fifo.foldl (fun s x => s.emit (.crossingStatus (e.1 / 128) (e.1 % 128) x.tag St.fenced)) s).setCrossing (e.1 / 128)
      (e.1 % 128) (e.2.fifo.foldl Crossing.drop e.2)
  else s

theorem State.closeCrossings_eq (s : State) (n : Nat) : s.closeCrossings n = s.crossings.foldl (State.closeCrossing n) s := rfl

theorem State.foldl_emit_frame {α : Type} (g : α → Output) (l : List α) (s : State) :
    { l.foldl (fun s x => s.emit (g x)) s with out := s.out } = s := by
  induction l generalizing s with
  | nil => rfl
  | cons x l ih => exact congrArg (fun u : State => { u with out := s.out }) (ih (s.emit (g x)))

theorem State.closeCrossing_frame (n : Nat) (s : State) (e : Nat × Crossing) :
    { State.closeCrossing n s e with crossings := s.crossings, out := s.out } = s := by
  unfold State.closeCrossing
  split
  · exact congrArg (fun u : State => { u with crossings := s.crossings }) (State.foldl_emit_frame _ e.2.fifo s)
  · rfl

theorem State.foldl_closeCrossing_frame (n : Nat) (l : Tab Crossing) (s : State) :
    { l.foldl (State.closeCrossing n) s with crossings := s.crossings, out := s.out } = s := by
  induction l generalizing s with
  | nil => rfl
  | cons e l ih =>
    calc { (e :: l).foldl (State.closeCrossing n) s with crossings := s.crossings, out := s.out }
        = { State.closeCrossing n s e with crossings := s.crossings, out := s.out } :=
          congrArg (fun u : State => { u with crossings := s.crossings, out := s.out }) (ih (State.closeCrossing n s e))
      _ = s := s.closeCrossing_frame n e

/-- A crossing after one was closed, by its key. -/
theorem State.closeCrossing_tget (n : Nat) (s : State) (e : Nat × Crossing) (k : Nat) :
    tget {} (State.closeCrossing n s e).crossings k =
      if k = e.1 ∧ (e.1 / 128 = n ∨ e.1 % 128 = n) then e.2.fifo.foldl Crossing.drop e.2 else tget {} s.crossings k := by
  unfold State.closeCrossing
  by_cases hn : e.1 / 128 = n ∨ e.1 % 128 = n
  · have hemit : (e.2.fifo.foldl (fun s x => s.emit (.crossingStatus (e.1 / 128) (e.1 % 128) x.tag St.fenced)) s).crossings
        = s.crossings := (congrArg State.crossings (State.foldl_emit_frame _ e.2.fifo s) :)
    rw [if_pos hn, State.setCrossing, Nat.div_add_mod, hemit, tget_tset]
    simp [hn]
  · rw [if_neg hn]
    simp [hn]

theorem State.foldl_closeCrossing_tget_of_not_named (n : Nat) {l : Tab Crossing} {k : Nat} (h : ∀ e ∈ l, e.1 ≠ k) (s : State) :
    tget {} (l.foldl (State.closeCrossing n) s).crossings k = tget {} s.crossings k := by
  induction l generalizing s with
  | nil => rfl
  | cons e l ih =>
    rw [List.foldl_cons, ih (fun x hx => h x (.tail _ hx)), State.closeCrossing_tget, if_neg]
    rintro ⟨hk, -⟩
    exact h e (.head _) hk.symm

theorem State.foldl_closeCrossing_tget_of_mem (n : Nat) {l : Tab Crossing} (hl : l.Pairwise fun a b => a.1 < b.1) {e : Nat × Crossing}
    (he : e ∈ l) (s : State) :
    tget {} (l.foldl (State.closeCrossing n) s).crossings e.1 =
      if e.1 / 128 = n ∨ e.1 % 128 = n then e.2.fifo.foldl Crossing.drop e.2 else tget {} s.crossings e.1 := by
  induction l generalizing s with
  | nil => exact absurd he (by simp)
  | cons x l ih =>
    obtain ⟨hx, hrest⟩ := List.pairwise_cons.mp hl
    rw [List.foldl_cons]
    rcases List.mem_cons.mp he with rfl | he
    · rw [State.foldl_closeCrossing_tget_of_not_named n (fun y hy => (hx y hy).ne'), State.closeCrossing_tget]
      simp
    · rw [ih hrest he, State.closeCrossing_tget, if_neg (c := e.1 = x.1 ∧ _) fun h => absurd h.1 (hx e he).ne']

/-- Of entries of distinct keys, a key reads as its own entry has it. -/
theorem tget_of_mem {α : Type} (d : α) {t : Tab α} (ht : t.Pairwise fun a b => a.1 < b.1) {e : Nat × α} (he : e ∈ t) :
    tget d t e.1 = e.2 := by
  induction t with
  | nil => exact absurd he (by simp)
  | cons x t ih =>
    obtain ⟨hx, hrest⟩ := List.pairwise_cons.mp ht
    rcases List.mem_cons.mp he with rfl | he
    · simp [tget]
    · simp [tget, (hx e he).ne, ih hrest he]

theorem tget_of_not_named {α : Type} (d : α) {t : Tab α} {k : Nat} (h : ∀ e ∈ t, e.1 ≠ k) : tget d t k = d := by
  induction t with
  | nil => rfl
  | cons x t ih => simp [tget, h x (.head _), ih fun e he => h e (.tail _ he)]

theorem State.crossing_closeCrossings {s : State} (n : Nat) (hw : Tab.wf {} s.crossings = true) {a b : Nat} (hb : b < 128) :
    (s.closeCrossings n).crossing a b
      = if a = n ∨ b = n then (s.crossing a b).fifo.foldl Crossing.drop (s.crossing a b) else s.crossing a b := by
  have hkeys := ((wf_iff {} s.crossings).mp hw).1
  have hdiv : (128 * a + b) / 128 = a := by omega
  have hmod : (128 * a + b) % 128 = b := by omega
  rw [State.closeCrossings_eq, State.crossing, State.crossing]
  by_cases h : ∃ e ∈ s.crossings, e.1 = 128 * a + b
  · obtain ⟨e, he, hk⟩ := h
    rw [← hk, State.foldl_closeCrossing_tget_of_mem n hkeys he, tget_of_mem {} hkeys he, hk, hdiv, hmod]
  · have hnone : ∀ e ∈ s.crossings, e.1 ≠ 128 * a + b := fun e he hk => h ⟨e, he, hk⟩
    rw [State.foldl_closeCrossing_tget_of_not_named n hnone, tget_of_not_named {} hnone]
    exact (ite_self _).symm

/-! ### The Harbour's own loss: a module reset (log 120) -/

theorem State.record_length_le (s : State) (g : Nat) (c : BitVec 16) (uk un : Nat) (d : List Byte) :
    (s.record g c uk un d).strand.queue.length ≤ s.strand.queue.length + 1 := by
  unfold State.record
  split
  · simp
  · exact Nat.le_succ _

theorem State.foldl_length_le {α : Type} {f : State → α → State}
    (hf : ∀ s a, (f s a).strand.queue.length ≤ s.strand.queue.length + 1) (l : List α) (s : State) :
    (l.foldl f s).strand.queue.length ≤ s.strand.queue.length + l.length := by
  induction l generalizing s with
  | nil => exact le_rfl
  | cons a l ih =>
    have hrest := ih (f s a)
    have hone := hf s a
    rw [List.foldl_cons, List.length_cons]
    omega

theorem State.opEnd_strand (s : State) (r st : Nat) (c : BitVec 16) : (s.opEnd r st c).strand = s.strand := rfl

/-- Ending the runs of the long operations notes at most one occurrence for each. -/
theorem State.abortRuns_length_le (s : State) (byStart : Bool) :
    (s.abortRuns byStart).strand.queue.length ≤ s.strand.queue.length + 7 := by
  have habort : ∀ (s : State) (r : Nat), (s.recordAborted r).strand.queue.length ≤ s.strand.queue.length + 1 :=
    fun s r => s.record_length_le _ _ _ _ _
  have hfirst : (if (s.opActive 1 && !byStart) = true then (s.recordAborted 1).opEnd 1 5 St.aborted else s).strand.queue.length
      ≤ s.strand.queue.length + 1 := by
    split
    · rw [State.opEnd_strand]
      exact habort s 1
    · exact Nat.le_succ _
  unfold State.abortRuns
  extract_lets t
  have ht : t.strand.queue.length ≤ s.strand.queue.length + 1 := hfirst
  clear_value t
  refine (State.foldl_length_le (fun s r => ?_) [2, 3, 4, 5, 6, 7] t).trans (Nat.add_le_add_right ht 6)
  split
  · exact habort s r
  · exact Nat.le_succ _

theorem State.moduleReset_queue {s : State} (h : s.gdp.inflight = []) :
    (s.moduleReset false).strand.queue = (s.abortRuns false).strand.queue := by
  unfold State.moduleReset
  rw [State.undoFlash_eq_self h]
  generalize s.abortRuns false = n
  rfl

/-- A module reset takes the islands' fences below 95 away (R48). -/
theorem State.moduleReset_islandFenced_zero {s : State} (h : s.gdp.inflight = []) : (s.moduleReset false).islandFenced 0 = false := by
  obtain ⟨t, ht, -⟩ := State.moduleReset_spec h
  rw [ht, State.islandFenced, State.reg_setReg_same, testBit_sub_mod_two_pow]
  rfl

/-- A module that was reset is not READY. -/
theorem State.moduleReset_isReady {s : State} (h : s.gdp.inflight = []) : (s.moduleReset false).isReady = false := by
  obtain ⟨t, ht, hpd, -⟩ := State.moduleReset_spec h
  have hdefault : State.reset.rd Pd.ready 0 = 0 := by decide +kernel
  have hready : (s.moduleReset false).reg Pd.ready = 0 := by
    rw [ht, State.reg_setReg_ne _ (by decide), State.reg_setReg_ne _ (by decide), State.reg, State.rd, hpd,
      tget_resetStore_lost (by decide) _ (by decide +kernel), hdefault]
  rw [State.isReady, hready]
  rfl

/-- Of the pins, the Causeway and Harbour time, a module reset leaves what it found. -/
theorem State.moduleReset_fields {s : State} (h : s.gdp.inflight = []) :
    (s.moduleReset false).power.step = 1 ∧ (s.moduleReset false).power.inputMv = s.power.inputMv
      ∧ (s.moduleReset false).power.pwrgood = s.power.pwrgood ∧ (s.moduleReset false).power.resetN = s.power.resetN
      ∧ (s.moduleReset false).causeway = s.causeway ∧ (s.moduleReset false).time = s.time := by
  obtain ⟨t, ht, -, -, hpower, hcauseway, -, -, -, -, -, -, htime, -⟩ := State.moduleReset_spec h
  have hp : (s.moduleReset false).power = t.power := by rw [ht]; rfl
  have hc : (s.moduleReset false).causeway = t.causeway := by rw [ht]; rfl
  have hm : (s.moduleReset false).time = t.time := by rw [ht]; rfl
  rw [hp, hc, hm, hpower, hcauseway, htime]
  exact ⟨rfl, rfl, rfl, rfl, rfl, rfl⟩

theorem State.stepTwo_strand (s : State) : s.stepTwo.strand = s.strand := rfl

theorem State.stepTwo_causeway (s : State) : s.stepTwo.causeway = s.causeway := rfl

theorem harbourLossIsModuleReset {s : State} (hr : s.isReady = true) (hf : s.islandFenced 0 = false) (hflash : s.gdp.inflight = [])
    (hq : s.strand.queue.length + 8 < 256) :
    ∃ t, exec (.islandLockLoss 0) s = .next t ∧ t.islandFenced 0 = false ∧ t.isReady = false ∧ t.causeway = s.causeway
      ∧ t.power.step = (if 38000 ≤ s.power.inputMv ∧ s.power.pwrgood = true ∧ s.power.resetN = true then 2 else 1)
      ∧ t.strand.queue.getLast? = some (occurrence s 0x01 St.fenced 6 0 []) := by
  have hexec := exec_islandLockLoss_zero hr hf
  have hfenced := State.moduleReset_islandFenced_zero hflash
  have hready := State.moduleReset_isReady hflash
  obtain ⟨hstep, hmv, hgood, hreset, hcauseway, htime⟩ := State.moduleReset_fields hflash
  have hroom : (s.moduleReset false).strand.queue.length < 256 := by
    have := s.abortRuns_length_le false
    rw [State.moduleReset_queue hflash]
    omega
  generalize s.moduleReset false = u at *
  have hlast : (u.record 0x01 St.fenced 6 0 []).strand.queue.getLast? = some (occurrence s 0x01 St.fenced 6 0 []) := by
    rw [u.record_queue _ _ _ _ _ hroom, occurrence, occurrence, htime]
    exact List.getLast?_concat
  have hstore := u.record_store 0x01 St.fenced 6 0 []
  have hframe := u.record_frame 0x01 St.fenced 6 0 []
  have hpower : (u.record 0x01 St.fenced 6 0 []).power = u.power := (congrArg State.power hframe :)
  have hcw : (u.record 0x01 St.fenced 6 0 []).causeway = s.causeway := (congrArg State.causeway hframe :).trans hcauseway
  generalize u.record 0x01 St.fenced 6 0 [] = r at *
  have hfenced' : r.islandFenced 0 = false := by rw [State.islandFenced, hstore.reg (by decide)]; exact hfenced
  have hready' : r.isReady = false := by rw [State.isReady, hstore.reg (by decide)]; exact hready
  have hboot := r.mayBoot_iff
  rw [hpower, hmv, hgood, hreset] at hboot
  refine ⟨_, hexec, ?_⟩
  by_cases hb : r.mayBoot = true
  · rw [if_pos hb, if_pos (hboot.mp hb), State.islandFenced, State.isReady, r.stepTwo_store.reg (by decide),
      r.stepTwo_store.reg (by decide), State.stepTwo_power, State.stepTwo_strand, State.stepTwo_causeway]
    exact ⟨hfenced', hready', hcw, rfl, hlast⟩
  · rw [if_neg hb, if_neg (mt hboot.mpr hb), hpower]
    exact ⟨hfenced', hready', hcw, hstep, hlast⟩

theorem lockLossFencesTheIsland : Claims.LockLossFencesTheIsland := by
  refine ⟨fun s n hr hn1 hn hf => ?_, fun s n hw => ⟨fun a b hb => s.crossing_closeCrossings n hw hb, fun a b hb hab => ?_, ?_⟩,
    fun s hr hf hflash hq => harbourLossIsModuleReset hr hf hflash hq, fun s n hr hn hf => exec_islandLockLoss_of_fenced hr hn hf⟩
  · intro u v
    refine ⟨s.islandFenced_of_fence n, State.testBit_clearFlags_self _ _ (by omega), exec_islandLockLoss_of_open hr hn hn1 hf,
      fun hn2 hn65 => ?_⟩
    rw [exec_engineCheckFailure_of_open hr hn hn2 hn65 hf, exec_islandLockLoss_of_open hr hn hn1 hf]
  · rw [State.crossing_closeCrossings n hw hb, if_pos hab]
    exact Crossing.foldl_drop_fifo _
  · exact State.foldl_closeCrossing_frame n s.crossings s

end Sys2Proof.Machine

open Sys2Proof Sys2Proof.Machine

/-- Settles O15: TIDE_APPLY by its three answers, a lock loss by its branches, by the crossings it closes one after the other, and, the
Harbour's, by what a module reset leaves. -/
theorem tablesApplyAndIslandsAreFenced : Obligations.TablesApplyAndIslandsAreFenced := by
  unfold Obligations.TablesApplyAndIslandsAreFenced
  exact ⟨tideApplyIsAllOrNothing, lockLossFencesTheIsland⟩
end

section
/-!
PROOFS. Dictionary reads and refusals (spec/03 R66 to R71, R79): what a message that the Harbour takes up comes to, what a scalar entry
answers when it is read, and the statements `ReadAnswersStoredValue`, `LockedWriteChangesNothing` and `NoAccessIsDenied`.
-/
namespace Sys2Proof.Machine

/-! ### What a message that is taken up comes to -/

section
variable {s : State} {path : GdpPath} {m : GdpMsg} {role : Role} {e : EntryInfo}

/-- A well-framed message that is no SIGNED_WRITE: counted, served here, and what follows its response follows. -/
theorem State.onPath_of_taken (hb : badMessage m = false) (h5 : m.opcode ≠ 5) (ht : taken s (msgToReq m path false) role = true) :
    s.onPath path m false = s.afterRequest
      ((s.countRequest path).serveLocal (serveEntry s.security.returnOk) role (msgToReq m path false)) := by
  rw [State.onPath_of_pathOpen (path := path) (pathOpen_of_taken ht), State.message,
    State.receiveMsg_eq_receiveOwn s _ path false hb h5, State.receiveOwn_taken _ ht]
  rfl

/-- An unsigned request that a check of its entry stops is answered with that check's status. -/
theorem State.serveLocal_of_check {serve : Serve} {q : Req} {c : BitVec 16} (h3 : q.hdr.opcode ≠ 3) (h4 : q.hdr.opcode ≠ 4)
    (hr : s.power.romOnly = false) (he : entryInfo q.key = some e) (ha : q.auth = .unsigned)
    (hc : s.entryChecks role false e q = some c) : s.serveLocal serve role q = s.respond q c [] := by
  unfold State.serveLocal
  simp only [he, if_neg h3, if_neg h4, hr, ha, hc, Bool.false_and, Bool.false_eq_true, ↓reduceIte]

/-- A READ or a WRITE that a check of its entry stops: counted and answered with that check's status, and nothing follows. -/
theorem State.onPath_of_check {c : BitVec 16} (hop : m.opcode = 1 ∨ m.opcode = 2) (hb : badMessage m = false)
    (ht : taken s (msgToReq m path false) role = true) (hr : s.power.romOnly = false)
    (he : entryInfo (msgToReq m path false).key = some e) (hc : s.entryChecks role false e (msgToReq m path false) = some c) :
    s.onPath path m false = (s.countRequest (msgToReq m path false).path).respond (msgToReq m path false) c [] := by
  have hne : m.opcode ≠ 3 ∧ m.opcode ≠ 4 ∧ m.opcode ≠ 5 := by rcases hop with h | h <;> simp [h]
  obtain ⟨h3, h4, h5⟩ := hne
  have hr' : (s.countRequest path).power.romOnly = false := by rw [s.countRequest_eq path]; exact hr
  have hc' : (s.countRequest path).entryChecks role false e (msgToReq m path false) = some c := by rw [s.countRequest_checks, hc]
  rw [State.onPath_of_taken hb h5 ht, State.serveLocal_of_check h3 h4 hr' he (if_neg h5) hc']
  exact State.afterRequest_of_answered ((s.countRequest_answered path).trans (State.respond_answered _ _ _ _))
    (s.respond_countRequest_store path _ _ _) (by decide)

end

theorem exec_gdpRead (s : State) (path : GdpPath) (m : GdpMsg) : exec (.gdpRead path m) s = .next (s.onPath path m false) := rfl

theorem exec_dictionaryWrite (s : State) (path : GdpPath) (m : GdpMsg) :
    exec (.dictionaryWrite path m) s = .next (s.onPath path m false) := rfl

theorem State.respond_inflight (s : State) (r : Req) (c : BitVec 16) (b : List Byte) :
    (s.respond r c b).gdp.inflight = s.gdp.inflight := by
  unfold State.respond
  split
  · rw [State.send_inflight]; rfl
  · rw [State.send_inflight]

/-- A refusal after the count of requests is sent, and changes nothing but the counts and LAST_REFUSAL. -/
theorem State.respond_countRequest_spec (s : State) (q : Req) (c : BitVec 16) (b : List Byte) :
    ((s.countRequest q.path).respond q c b).out = s.out ++ reply s q c b
      ∧ storeFrame (Pd.refused :: Pd.lastRefusal :: requestCounters) s ((s.countRequest q.path).respond q c b)
      ∧ ((s.countRequest q.path).respond q c b).gdp.inflight = s.gdp.inflight
      ∧ answered q.path s ((s.countRequest q.path).respond q c b) := by
  refine ⟨?_, s.respond_countRequest_store _ _ _ _, ?_, (s.countRequest_answered _).trans (State.respond_answered _ _ _ _)⟩
  · rw [State.respond_out, s.countRequest_out, s.reply_countRequest]
  · rw [State.respond_inflight, s.countRequest_gdp]

/-! ### Checks 5 and 6 -/

/-- Check 6 forbids a write by Table 03-2: PROVISION outside BLANK, MISSION from MISSION on, SECURITY without a signature. -/
theorem lockedOut_iff (lock lc : Nat) (signed : Bool) :
    lockedOut lock lc signed = true ↔ (lock = 1 ∧ lc ≠ 0) ∨ (lock = 2 ∧ 2 ≤ lc) ∨ (lock = 3 ∧ signed = false) := by
  match lock with
  | 0 => simp [lockedOut]
  | 1 => simp [lockedOut]
  | 2 => simp [lockedOut]
  | 3 => simp [lockedOut]
  | n + 4 => simp [lockedOut]

/-- LOCKED comes from check 6, reached where check 5 let the request through, and from no other check. -/
theorem State.entryChecks_eq_locked_iff (s : State) (role : Role) (signed : Bool) (e : EntryInfo) (q : Req) :
    s.entryChecks role signed e q = some St.locked ↔
      accessDenied (e.access role) q.isRead = false ∧ s.policyDenies q = false
        ∧ q.isRead = false ∧ lockedOut e.lock (s.reg Pd.lifeCycle) signed = true := by
  unfold State.entryChecks
  dsimp only
  generalize typeMismatch _ _ _ _ = mismatch
  generalize s.badOffset _ _ _ _ = badOffset
  split
  · next h5 =>
    refine ⟨fun h => absurd h (by decide), ?_⟩
    rintro ⟨hdenied, hpolicy, -⟩
    simp [hdenied, hpolicy] at h5
  · next h5 =>
    rw [Bool.or_eq_true, not_or, Bool.not_eq_true, Bool.not_eq_true] at h5
    obtain ⟨hdenied, hpolicy⟩ := h5
    split
    · next h6 =>
      rw [Bool.and_eq_true, Bool.not_eq_true'] at h6
      exact ⟨fun _ => ⟨hdenied, hpolicy, h6⟩, fun _ => rfl⟩
    · next h6 =>
      refine ⟨fun h => ?_, fun ⟨_, _, hread, hlocked⟩ => absurd (by simp [hread, hlocked]) h6⟩
      split at h
      · exact absurd h (by decide)
      · split at h
        · exact absurd h (by decide)
        · cases h

/-- A role whose access code is 0 is stopped by check 5. -/
theorem State.entryChecks_of_noAccess {role : Role} {e : EntryInfo} (s : State) (signed : Bool) (q : Req) (h : e.access role = 0) :
    s.entryChecks role signed e q = some St.accessDenied := by
  simp [State.entryChecks, accessDenied, h]

/-! ### An admitted READ -/

/-- An admitted READ is counted and its entry does its work; what follows its response follows. -/
theorem State.onPath_of_admitted_read {s : State} {path : GdpPath} {m : GdpMsg} {role : Role} {e : EntryInfo} (h1 : m.opcode = 1)
    (hb : badMessage m = false) (ha : admitted s (msgToReq m path false) role e = true) :
    s.onPath path m false = s.afterRequest ((s.countRequest path).conclude e (msgToReq m path false)
      (serveRead role e (msgToReq m path false) (s.countRequest path))) := by
  have hop : (msgToReq m path false).hdr.opcode = 1 := h1
  have hserve : serveEntry s.security.returnOk role e (msgToReq m path false) = serveRead role e (msgToReq m path false) := by
    funext t; simp [serveEntry, Req.isRead, hop]
  rw [State.onPath_of_pathOpen (path := path) (pathOpen_of_taken (taken_of_admitted ha)), State.message,
    State.receiveMsg_eq_receiveOwn s _ path false hb (by simp [h1]), State.receiveOwn_admitted _ ha (by simp [hop]) (by simp [hop]), hserve]
  rfl

/-- A READ is answered at once, whether its entry is persistent or not. -/
theorem State.conclude_read (s : State) (e : EntryInfo) {q : Req} {x : Served} (hq : q.isRead = true) (hw : x.wait = none) :
    s.conclude e q x = x.state.respond q x.status x.payload := by
  simp [State.conclude, hw, hq]

/-! ### What a stored scalar reads as -/

/-- Whether a unit is formed when it is read depends on its entry alone. -/
theorem State.formedOne_isNone (s t : State) (src : Source) (u k : Nat) :
    (s.formedOne src u k).isNone = (t.formedOne src u k).isNone := by
  unfold State.formedOne
  split <;> simp only [Option.isNone_some, Option.isNone_none]

theorem State.formedSub_isNone (s t : State) (u k : Nat) : (s.formedSub k u).isNone = (t.formedSub k u).isNone := by
  unfold State.formedSub
  split
  · rfl
  · split
    · rfl
    · split
      · rfl
      · split <;> rfl

theorem State.formedOne_cursor (s : State) (src : Source) (u : Nat) :
    (s.formedOne src u Pd.cursor).isNone = false ∧ (s.formedOne src u Pd.window).isNone = false := ⟨rfl, rfl⟩

theorem length_natLE (n v : Nat) : (natLE n v).length = n := by
  induction n generalizing v with
  | zero => rfl
  | succ n ih => simp [natLE, ih]

/-- A read that lies within one unit covers that unit alone. -/
theorem covered_within {n off len : Nat} (h1 : 1 ≤ len) (h : off + len ≤ n) : covered n off len = [0] := by
  have hend : (off + len - 1) / n = 0 := Nat.div_eq_of_lt (by omega)
  have hstart : off / n = 0 := Nat.div_eq_of_lt (by omega)
  simp [covered, hend, hstart]

/-- A scalar that nothing forms reads as the number stored. -/
theorem State.view_stored (s : State) (src : Source) {e : EntryInfo} {key : Nat} (hu : e.unit = e.size) (h0 : 0 < e.size)
    (hop : opRowOf key = none) (hk : unknownReading key = false) (h1 : s.formedOne src 0 key = none) (h2 : s.formedSub key 0 = none) :
    s.view src e key 0 e.size = natLE e.size (s.reg key) := by
  have hunit : s.viewUnit src e key 0 = natLE e.size (s.reg key) := by
    simp only [State.viewUnit, hk, hop, h1, h2, hu, State.reg, Bool.false_eq_true, ↓reduceIte]
  rw [State.view, hu, covered_within h0 (Nat.zero_add _).le, Nat.zero_mod, List.drop_zero, List.flatMap_singleton, hunit]
  exact List.take_of_length_le (length_natLE _ _).le

/-- Reading clears neither the straps nor LIFE_CYCLE for any role. -/
theorem noReadClear_straps_lifeCycle : ∀ k ∈ [Pd.straps, Pd.lifeCycle], (entryInfo k).all (fun e =>
    [Role.host, .management, .peer, .officer].all fun r => e.access r != 5) = true := by
  decide +kernel

/-! ### What reading leaves of a stored scalar -/

/-- The entries on which the answer to a read depends are not cleared by reading them (spec/00 Table 00-3). -/
theorem straps_lifeCycle_not_cleared {k : Nat} {e : EntryInfo} {role : Role} (he : entryInfo k = some e) (h5 : e.access role = 5) :
    Pd.straps ∉ k :: requestCounters ∧ Pd.lifeCycle ∉ k :: requestCounters := by
  have hne : ∀ j ∈ [Pd.straps, Pd.lifeCycle], j ≠ k := by
    rintro j hj rfl
    have h := noReadClear_straps_lifeCycle j hj
    simp only [he, Option.all_some, List.all_eq_true, bne_iff_ne] at h
    exact h role (by cases role <;> simp) h5
  simp only [List.mem_cons, not_or]
  exact ⟨⟨hne _ (by simp), by decide⟩, hne _ (by simp), by decide⟩

/-- The state in which a read of a stored scalar is counted and, where the role's code is RC, the scalar cleared, before the answer. -/
def State.scalarRead (s : State) (role : Role) (e : EntryInfo) (q : Req) : State :=
  if e.access role = 5 then s.keptValue q 0 else s.countRequest q.path

/-- Only the counts of requests and the entry read change, the entry to 0 where its code is RC; what the answer depends on stays. -/
theorem State.scalarRead_spec (s : State) (role : Role) {e : EntryInfo} {q : Req} (he : entryInfo q.key = some e)
    (hnc : q.key ∉ requestCounters) :
    (s.scalarRead role e q).out = s.out ∧ answered q.path s (s.scalarRead role e q)
      ∧ (s.scalarRead role e q).reg q.key = (if e.access role = 5 then 0 else s.reg q.key)
      ∧ storeFrame (q.key :: requestCounters) s (s.scalarRead role e q)
      ∧ (s.scalarRead role e q).reg Pd.straps = s.reg Pd.straps ∧ (s.scalarRead role e q).reg Pd.lifeCycle = s.reg Pd.lifeCycle := by
  unfold State.scalarRead
  split
  · next h5 =>
    have hstore := s.keptValue_store q 0
    obtain ⟨hstraps, hlife⟩ := straps_lifeCycle_not_cleared he h5
    exact ⟨s.keptValue_out q 0, s.keptValue_answered q 0, s.keptValue_reg q 0, hstore, hstore.reg hstraps, hstore.reg hlife⟩
  · have hstore := s.countRequest_store q.path
    exact ⟨s.countRequest_out _, s.countRequest_answered _, s.countRequest_reg _ hnc, hstore.mono fun _ h => List.mem_cons_of_mem _ h,
      hstore.reg (by decide), hstore.reg (by decide)⟩

section
variable {s : State} {role : Role} {e : EntryInfo} {q : Req}

/-- A plain reading: of a scalar entry that is stored, not formed, that no long operation holds and no monitor watches. -/
theorem serveRead_stored (h6 : e.type < 6) (hrec : e.records = false) (hu : e.unit = e.size) (h0 : 0 < e.size)
    (hop : opRowOf q.key = none) (hk : unknownReading q.key = false) (h1 : s.formedOne (pathSource q.path) 0 q.key = none)
    (h2 : s.formedSub q.key 0 = none) (hw : watchedCounter q.key = false) :
    serveRead role e q s = { state := if e.access role = 5 then s.setReg q.key 0 else s, payload := natLE e.size (s.reg q.key) } := by
  have hcur : ¬ (q.key = Pd.cursor ∨ q.key = Pd.window) := by
    rintro (h | h)
    · have := (s.formedOne_cursor (pathSource q.path) 0).1; simp [← h, h1] at this
    · have := (s.formedOne_cursor (pathSource q.path) 0).2; simp [← h, h1] at this
  have h7 : e.type ≠ 7 := by omega
  have hview := s.view_stored (pathSource q.path) hu h0 hop hk h1 h2
  unfold serveRead State.afterRead readLength State.clearRead
  simp only [hop, hk, hcur, h7, hrec, hw, hview, Bool.false_eq_true, ↓reduceIte]

end

end Sys2Proof.Machine

open Sys2Proof Sys2Proof.Machine

/-- Settles O16: an admitted read of a stored scalar is counted and answered with its value, which an RC entry then loses. -/
theorem readAnswersStoredValue : Obligations.ReadAnswersStoredValue := by
  unfold Obligations.ReadAnswersStoredValue
  intro s path m role e q h1 hb ha h6 hrec hu h0 hop hk hf1 hf2 hnc hw
  have hread : q.isRead = true := by simp [q, Req.isRead, msgToReq, h1]
  have hf1' : (s.countRequest path).formedOne (pathSource q.path) 0 q.key = none :=
    Option.isNone_iff_eq_none.mp ((State.formedOne_isNone _ s _ _ _).trans (Option.isNone_iff_eq_none.mpr hf1))
  have hf2' : (s.countRequest path).formedSub q.key 0 = none :=
    Option.isNone_iff_eq_none.mp ((State.formedSub_isNone _ s _ _).trans (Option.isNone_iff_eq_none.mpr hf2))
  obtain ⟨hout, hans, hreg, hstore, hstraps, hlife⟩ := s.scalarRead_spec role (entryInfo_of_admitted ha) hnc
  have hpath : s.onPath path m false
      = s.afterRequest ((s.scalarRead role e q).respond q St.ok (natLE e.size (s.reg q.key))) := by
    rw [State.onPath_of_admitted_read h1 hb ha, serveRead_stored h6 hrec hu h0 hop hk hf1' hf2' hw, s.countRequest_reg path hnc,
      State.conclude_read _ _ hread rfl]
    rfl
  have hpd := State.respond_ok_pd (s.scalarRead role e q) q (c := St.ok) (natLE e.size (s.reg q.key)) rfl
  have hans' := hans.trans (State.respond_answered _ q St.ok (natLE e.size (s.reg q.key)))
  refine ⟨_, ?_, ?_, (State.rd_of_pd hpd _ _).trans hreg, hstore.trans (storeFrame.of_pd hpd), hans'⟩
  · rw [exec_gdpRead, hpath, State.afterRequest_eq_self hans'.landfall ((State.rd_of_pd hpd _ _).trans hlife)]
  · rw [State.respond_out, hout, reply_congr hstraps]

/-- Settles O18: LOCKED comes from check 6 alone, and a request that a check stops is only counted and answered. -/
theorem lockedWriteChangesNothing : Obligations.LockedWriteChangesNothing := by
  unfold Obligations.LockedWriteChangesNothing
  intro s path m role e q h2 hb ht hr he hacc hpol forbids
  have hread : q.isRead = false := by simp [q, Req.isRead, msgToReq, h2]
  have hlocked : s.entryChecks role false e q = some St.locked ↔ forbids := by
    rw [s.entryChecks_eq_locked_iff, lockedOut_iff, hread]
    simp only [hacc, hpol, forbids, and_true, true_and]
  refine ⟨hlocked, fun h3 q' hq => ?_, fun hf => ?_⟩
  · obtain ⟨-, -, -, hout⟩ := (s.entryChecks_eq_locked_iff _ _ _ _).mp hq
    simp [lockedOut_iff, h3] at hout
  · obtain ⟨hout, hstore, hinflight, hans⟩ := s.respond_countRequest_spec q St.locked []
    exact ⟨_, by rw [exec_dictionaryWrite, State.onPath_of_check (.inr h2) hb ht hr he (hlocked.mpr hf)], hout, hstore, hinflight, hans⟩

/-- Settles O19: check 5 stops both requests. -/
theorem noAccessIsDenied : Obligations.NoAccessIsDenied := by
  unfold Obligations.NoAccessIsDenied
  intro s path m role e q hb ht hr he h0
  have hdenied := s.entryChecks_of_noAccess false q h0
  obtain ⟨hout, hstore, -, hans⟩ := s.respond_countRequest_spec q St.accessDenied []
  refine ⟨fun h1 => ⟨_, ?_, hout, hstore, hans⟩, fun h2 => ⟨_, ?_, hout, hstore, hans⟩⟩
  · rw [exec_gdpRead, State.onPath_of_check (.inl h1) hb ht hr he hdenied]
  · rw [exec_dictionaryWrite, State.onPath_of_check (.inr h2) hb ht hr he hdenied]
end

section
/-!
PROOFS. A signed write of READ_POLICY (spec/17 R448, spec/18 R462 to R464): a permitted value extends measurement register 4, which
Table 18-4 gives for every write of a persistent entry with a SECURITY or MISSION lock. The first claim of `SignedAndRepeatedRequests`
lets the challenge alone change among what security holds, so it fails.
-/
namespace Sys2Proof.Machine

/-! ### A signed request that passes its checks -/

/-- A request taken up is not forwarded, so the payload kept for forwarding does not matter. -/
theorem State.receive_taken {s : State} {q : Req} {role : Role} (serve : Serve) (payload : List Byte) (h : taken s q role = true) :
    s.receive serve q false payload = (s.countRequest q.path).serveLocal serve role q := by
  have hpos : (s.countRequest q.path).position = s.position := by
    rw [State.position, s.countRequest_reg q.path (by decide), State.position]
  have hhere : ¬ (q.hdr.target ≠ 0xFF ∧ q.hdr.target.toNat ≠ (s.countRequest q.path).position) := by
    simp only [taken, Bool.and_eq_true, Bool.or_eq_true, beq_iff_eq] at h
    rw [hpos]; tauto
  rw [← State.receiveOwn_taken serve h, State.receiveOwn]
  unfold State.receive
  simp only [hhere, ↓reduceIte]

section
variable {s : State} {q : Req} {role : Role} {e : EntryInfo} {nonce : BitVec 256} {verifies : Bool}

/-- Asking the security engine draws a free value as the next challenge. -/
theorem State.authenticate_fst (hk : q.key ≠ Pd.lifecycleRequest) : (s.authenticate q nonce verifies).1
    = { s with out := s.out ++ [.signatureCheck (signedBytes q.hdr q.data nonce)], fresh := s.fresh + 1
               security := { s.security with challenge := s.free % 2 ^ 256 } } := by
  unfold State.authenticate
  simp only [hk, ↓reduceIte, State.emit, State.free]

/-- A signed write is authentic where its signature verifies, its nonce is the challenge and there is a security officer key. -/
theorem State.authenticate_snd (hk : q.key ≠ Pd.lifecycleRequest) : (s.authenticate q nonce verifies).2
    = (verifies && nonce.toNat == s.security.challenge && s.reg Pd.soKey != 0) := by
  simp only [State.authenticate, beq_false_of_ne hk, Bool.false_and, Bool.false_or]
  rfl

theorem State.authenticate_checks (hk : q.key ≠ Pd.lifecycleRequest) (signed : Bool) :
    (s.authenticate q nonce verifies).1.entryChecks role signed e q = s.entryChecks role signed e q := by
  rw [State.authenticate_fst hk]; rfl

/-- An authentic signed request that the checks of its entry let through is served in the officer's role. -/
theorem State.serveLocal_of_authentic (serve : Serve) (h3 : q.hdr.opcode ≠ 3) (h4 : q.hdr.opcode ≠ 4) (hr : s.power.romOnly = false)
    (he : entryInfo q.key = some e) (ha : q.auth = .signed nonce verifies) (hok : (s.authenticate q nonce verifies).2 = true)
    (hc : (s.authenticate q nonce verifies).1.entryChecks .officer true e q = none) :
    s.serveLocal serve role q = (s.authenticate q nonce verifies).1.conclude e q (serve .officer e q (s.authenticate q nonce verifies).1) := by
  unfold State.serveLocal
  simp only [he, if_neg h3, if_neg h4, hr, ha, hok, hc, Bool.false_and, Bool.not_true, Bool.false_eq_true, ↓reduceIte]

end

theorem taken_of_admittedSigned {s : State} {q : Req} {role : Role} {e : EntryInfo} (h : admittedSigned s q role e = true) :
    taken s q role = true ∧ s.power.romOnly = false := by
  simp only [admittedSigned, Bool.and_eq_true, Bool.not_eq_eq_eq_not, Bool.not_true] at h
  obtain ⟨⟨⟨⟨⟨ht, hrom⟩, _⟩, _⟩, _⟩, _⟩ := h
  exact ⟨ht, hrom⟩

theorem entryInfo_of_admittedSigned {s : State} {q : Req} {role : Role} {e : EntryInfo} (h : admittedSigned s q role e = true) :
    entryInfo q.key = some e := by
  simp only [admittedSigned, Bool.and_eq_true, beq_iff_eq] at h
  obtain ⟨⟨⟨⟨_, he⟩, _⟩, _⟩, _⟩ := h
  exact he

/-- The state in which a signed request is counted and judged: its challenge is consumed, nothing is served yet. -/
def State.judgedRequest (s : State) (q : Req) (nonce : BitVec 256) : State := ((s.countRequest q.path).authenticate q nonce true).1

section
variable {s : State} {q : Req} {nonce : BitVec 256}

theorem State.judgedRequest_pd (hk : q.key ≠ Pd.lifecycleRequest) : (s.judgedRequest q nonce).pd = (s.countRequest q.path).pd := by
  rw [State.judgedRequest, State.authenticate_fst hk]

theorem State.judgedRequest_reg (hk : q.key ≠ Pd.lifecycleRequest) {k : Nat} (h : k ∉ requestCounters) :
    (s.judgedRequest q nonce).reg k = s.reg k :=
  (State.rd_of_pd (State.judgedRequest_pd hk) k 0).trans (s.countRequest_reg q.path h)

theorem State.judgedRequest_measure (hk : q.key ≠ Pd.lifecycleRequest) :
    (s.judgedRequest q nonce).security.measure = s.security.measure := by
  rw [State.judgedRequest, State.authenticate_fst hk, s.countRequest_eq]

theorem State.judgedRequest_landfall (hk : q.key ≠ Pd.lifecycleRequest) : (s.judgedRequest q nonce).landfall = s.landfall := by
  rw [State.judgedRequest, State.authenticate_fst hk, s.countRequest_eq]

/-- A SIGNED_WRITE that passes every check: counted, judged and served in the officer's role. -/
theorem State.onPath_of_admittedSigned {path : GdpPath} {m : GdpMsg} {role : Role} {e : EntryInfo} (h5 : m.opcode = 5)
    (hb : badMessage m = false) (hk : (msgToReq m path true).key ≠ Pd.lifecycleRequest)
    (ha : admittedSigned s (msgToReq m path true) role e = true) :
    ∃ nonce, s.onPath path m true = s.afterRequest ((s.judgedRequest (msgToReq m path true) nonce).conclude e (msgToReq m path true)
      (serveWrite s.security.returnOk .officer e (msgToReq m path true) (s.judgedRequest (msgToReq m path true) nonce))) := by
  have hop : (msgToReq m path true).hdr.opcode = 5 := h5
  obtain ⟨nonce, hauth⟩ : ∃ nonce, (msgToReq m path true).auth = .signed nonce true := ⟨_, if_pos h5⟩
  simp only [admittedSigned, hauth, Bool.and_eq_true, Bool.true_and, beq_iff_eq, bne_iff_ne, Bool.not_eq_eq_eq_not, Bool.not_true,
    Option.isNone_iff_eq_none] at ha
  obtain ⟨⟨⟨⟨⟨ht, hrom⟩, he⟩, hkey⟩, hnonce⟩, hchecks⟩ := ha
  have hrom' : (s.countRequest path).power.romOnly = false := by rw [s.countRequest_eq]; exact hrom
  have hok : ((s.countRequest path).authenticate (msgToReq m path true) nonce true).2 = true := by
    rw [State.authenticate_snd hk, s.countRequest_reg _ (by decide), s.countRequest_eq]; simp [hnonce, hkey]
  have hpass : ((s.countRequest path).authenticate (msgToReq m path true) nonce true).1.entryChecks .officer true e
      (msgToReq m path true) = none := by
    rw [State.authenticate_checks hk, s.countRequest_checks, hchecks]
  have hserve : serveEntry s.security.returnOk .officer e (msgToReq m path true)
      = serveWrite s.security.returnOk .officer e (msgToReq m path true) := by
    funext t; simp [serveEntry, Req.isRead, hop]
  have hlocal := State.serveLocal_of_authentic (role := role) (serveEntry s.security.returnOk) (by simp [hop]) (by simp [hop]) hrom' he hauth hok hpass
  refine ⟨nonce, ?_⟩
  rw [State.onPath_of_pathOpen (path := path) (pathOpen_of_taken ht), State.message, State.receiveMsg, hb, State.receive_taken _ _ ht]
  exact congrArg s.afterRequest (hserve ▸ hlocal)

end

/-! ### READ_POLICY and register 4 -/

theorem readPolicy_info {e : EntryInfo} (he : entryInfo Pd.readPolicy = some e) :
    e.type ≠ 7 ∧ e.access .officer ≠ 3 ∧ e.persistent = true := by
  have h : (entryInfo Pd.readPolicy).all (fun e => e.type != 7 && e.access .officer != 3 && e.persistent) = true := by decide +kernel
  simpa [he, and_assoc] using h

/-- A permitted value of READ_POLICY is kept, and the locked entries are measured. -/
theorem serveWrite_readPolicy (under : Bool) {e : EntryInfo} {q : Req} (hk : q.key = Pd.readPolicy) (he : entryInfo Pd.readPolicy = some e)
    (hv : valueOk q.key q.value = true) (s : State) :
    serveWrite under .officer e q s = { state := (s.setReg q.key (q.value &&& scalarMask q.key)).measureLocked } := by
  obtain ⟨h7, h3, -⟩ := readPolicy_info he
  have hserve : serveWrite under .officer e q s = serveMeasured .officer e q s := by
    unfold serveWrite
    rw [hk]
    rfl
  rw [hserve, serveMeasured, serveStore_scalar h7 h3, if_pos hv]
  rfl

/-- The locked entries after a write of READ_POLICY: the new value, and the others as they were. -/
theorem State.lockedEntryBytes_setReg_readPolicy (s : State) (v : Nat) : (s.setReg Pd.readPolicy v).lockedEntryBytes
    = natLE 1 v ++ natLE 1952 (s.reg Pd.soKey) ++ natLE 4 (s.reg Pd.minSecurityVersion) := by
  rw [State.lockedEntryBytes, State.reg_setReg_same, State.reg_setReg_ne _ (by decide), State.reg_setReg_ne _ (by decide)]

/-- Register 4 extended by the digest of `locked`: the value it takes where it held `r` (spec/18 Table 18-4). -/
def extendedRegister (r : Nat) (locked : List Byte) : Nat := shake256 (natLE 64 r ++ natLE 64 (shake256 locked))

/-- A signed write of a permitted value to READ_POLICY that passes every check extends register 4. -/
theorem exec_signedWrite_readPolicy {s : State} {path : GdpPath} {m : GdpMsg} {role : Role} {e : EntryInfo} (h5 : m.opcode = 5)
    (hb : badMessage m = false) (hk : (msgToReq m path true).key = Pd.readPolicy)
    (hv : valueOk (msgToReq m path true).key (msgToReq m path true).value = true)
    (ha : admittedSigned s (msgToReq m path true) role e = true) :
    ∃ t, exec (.signedWrite path m true) s = .next t
      ∧ t.security.measure = s.security.measure.set 4 (extendedRegister (s.security.measure.getD 4 0)
          (natLE 1 ((msgToReq m path true).value &&& scalarMask Pd.readPolicy) ++ natLE 1952 (s.reg Pd.soKey)
            ++ natLE 4 (s.reg Pd.minSecurityVersion))) := by
  have hne : (msgToReq m path true).key ≠ Pd.lifecycleRequest := by rw [hk]; decide
  have hread : (msgToReq m path true).isRead = false := by simp [Req.isRead, msgToReq, h5]
  have he : entryInfo Pd.readPolicy = some e := hk ▸ entryInfo_of_admittedSigned ha
  obtain ⟨nonce, hpath⟩ := State.onPath_of_admittedSigned h5 hb hne ha
  have hlife (v : Nat) : ((s.judgedRequest (msgToReq m path true) nonce).setReg (msgToReq m path true).key v).reg Pd.lifeCycle
      = s.reg Pd.lifeCycle := by
    rw [State.reg_setReg_ne _ (by rw [hk]; decide), State.judgedRequest_reg hne (by decide)]
  rw [serveWrite_readPolicy _ hk he hv, State.conclude_await_flash rfl (readPolicy_info he).2.2 hread rfl] at hpath
  refine ⟨_, congrArg Host.Outcome.next (hpath.trans (State.afterRequest_eq_self (State.judgedRequest_landfall hne) (hlife _))), ?_⟩
  rw [← State.judgedRequest_measure (s := s) (nonce := nonce) hne, ← State.judgedRequest_reg (s := s) (nonce := nonce) hne (k := Pd.soKey) (by decide),
    ← State.judgedRequest_reg (s := s) (nonce := nonce) hne (k := Pd.minSecurityVersion) (by decide), ← State.lockedEntryBytes_setReg_readPolicy, hk]
  rfl

/-! ### The counterexample -/

/-- A number whose 64 low bytes are those of 0. -/
def registerOverflow : Nat := 2 ^ 512

theorem natLE_registerOverflow : natLE 64 registerOverflow = natLE 64 0 := by decide +kernel

/-- A module that has a security officer key, runs its firmware, and whose challenge is 77; its measurement register 4 is `r`. -/
def challenged (r : Nat) : State :=
  { pd := [(pdKey Pd.soKey 0, 1)], power := { step := 3 }, security := { challenge := 77, measure := [0, 0, 0, 0, r, 0, 0, 0] } }

theorem challenged_measure (r : Nat) : (challenged r).security.measure = [0, 0, 0, 0, r, 0, 0, 0] := rfl

theorem challenged_soKey (r : Nat) : (challenged r).reg Pd.soKey = 1 := rfl

theorem challenged_minSecurityVersion (r : Nat) : (challenged r).reg Pd.minSecurityVersion = 0 := rfl

/-- READ_POLICY written 1 over the mailbox, with the nonce 77 and a signature. -/
def policyWrite : GdpMsg :=
  { version := 1, opcode := 5, seq := 1, target := 0xFF, source := 0xFF, flags := 0, sub := 1, index := 0x7008, status := 0
    offset := 0, length := 3342, payload := 1 :: natLE 32 77 ++ List.replicate 3309 0 }

theorem policyWrite_wellFramed : policyWrite.opcode = 5 ∧ badMessage policyWrite = false ∧ (msgToReq policyWrite .mailbox true).key = Pd.readPolicy
    ∧ (msgToReq policyWrite .mailbox true).value = 1 := by decide +kernel

/-- Every check is passed: the key is there, the nonce is the challenge, the signature verifies and 1 is permitted. -/
theorem policyWrite_admitted : ∀ r ∈ [0, registerOverflow], (entryInfo Pd.readPolicy).any (fun e =>
    admittedSigned (challenged r) (msgToReq policyWrite .mailbox true) .host e) = true := by decide +kernel

end Sys2Proof.Machine

open Sys2Proof Sys2Proof.Machine

/-- Refutes O21: a signed write of READ_POLICY extends register 4. The registers 0 and 2^512 have the same 64 bytes to be hashed, so the
write leaves the same value in both, and one of the two modules at least has changed more than its challenge. (By the same lemma a register
of 64 bytes stays as it was only where SHAKE256 has a fixed point; two registers spare the proof the hash.) -/
theorem not_signedAndRepeatedRequests : ¬ Obligations.SignedAndRepeatedRequests := by
  unfold Obligations.SignedAndRepeatedRequests
  rintro ⟨hsigned, -⟩
  obtain ⟨h5, hb, hk, hvalue⟩ := policyWrite_wellFramed
  have hv : valueOk (msgToReq policyWrite .mailbox true).key (msgToReq policyWrite .mailbox true).value = true := by
    rw [hk, hvalue]; decide
  have hkept : ∀ r ∈ [0, registerOverflow],
      r = extendedRegister r (natLE 1 (1 &&& scalarMask Pd.readPolicy) ++ natLE 1952 1 ++ natLE 4 0) := by
    intro r hr
    have hadm := policyWrite_admitted r hr
    cases he : entryInfo Pd.readPolicy with
    | none => simp [he] at hadm
    | some e =>
      rw [he, Option.any_some] at hadm
      obtain ⟨ht, hrom⟩ := taken_of_admittedSigned hadm
      obtain ⟨-, hserved⟩ := hsigned (challenged r) .mailbox policyWrite true .host e h5 hb ht hrom (hk ▸ he) (by rw [hk]; decide)
      obtain ⟨t, hexec, ⟨-, hsecurity, -⟩, -⟩ := hserved hadm (by rw [hk]; exact List.mem_cons_self)
      obtain ⟨u, hexec', hmeasure⟩ := exec_signedWrite_readPolicy h5 hb hk hv hadm
      obtain rfl : t = u := by simpa [hexec] using hexec'
      rw [hsecurity, hvalue, challenged_soKey, challenged_minSecurityVersion, challenged_measure] at hmeasure
      generalize natLE 1 (1 &&& scalarMask Pd.readPolicy) ++ natLE 1952 1 ++ natLE 4 0 = locked at hmeasure ⊢
      simpa using hmeasure
  have hsame := hkept registerOverflow (by simp)
  rw [extendedRegister, natLE_registerOverflow] at hsame
  exact absurd (hsame.trans (hkept 0 (by simp)).symm) (by decide +kernel)
end

section
/-!
PROOFS. Forwarded requests and long operations (spec/03 R75, R76, R82 to R86): a response sent on, a limit reached, what a read of a
status word answers and what a cancelled run leaves, and the statement `ForwardingAndLongOperations` assembled from them.
-/
namespace Sys2Proof.Machine

/-! ### Responses of another module -/

/-- What is sent with any message: the message, and on the mailbox the output of command 0xC400 with vector 4. -/
theorem State.sendMsg_sends (s : State) (p : GdpPath) (m : GdpMsg) : (s.sendMsg p m).out
    = s.out ++ (.gdpReply p m :: if p = .mailbox then [.mailbox 0xC400 cxlSuccess (msgBytes m), .msix 4] else []) := by
  unfold State.sendMsg
  cases p with
  | causeway o q f =>
    dsimp only
    rw [(State.sendGdp_causewayOnly (s.emit (.gdpReply (.causeway o q f) m)) o _ _).eq]
    simp [State.emit]
  | _ => simp [State.emit, State.vector]

theorem State.send_answered (s : State) (r : Req) (m : GdpMsg) : answered r.path s (s.send r m) := by
  refine ⟨?_, s.send_kept r m⟩
  obtain ⟨o, c, g, h⟩ := s.send_touches r m
  rw [h]

theorem exec_gdpResponse_whole (s : State) (m : GdpMsg) : exec (.gdpResponse (.whole m)) s = .next (s.relay m) := rfl

theorem exec_gdpForwardTimeout_of_waiting {s : State} {target : Nat} {seq : BitVec 16} {p : Pending}
    (h : s.forwardedTo target seq none = some p) :
    exec (.gdpForwardTimeout target seq) s = .next ((s.unawait p).respond p.req St.timeout []) := by
  change execGdpForwardTimeout target seq s = _
  simp only [execGdpForwardTimeout, h, State.answer]

theorem forwardedRequestIsAnswered : Claims.ForwardedRequestIsAnswered := by
  refine ⟨fun s m => ?_, fun s target seq p hp => ?_⟩
  · intro asked
    refine ⟨fun hnone => ?_, fun p hsome => ?_⟩
    · rw [exec_gdpResponse_whole, State.relay, show s.forwardedTo _ _ _ = none from hnone]
    · intro back
      refine ⟨(s.unawait p).send p.req back, ?_, ?_, ?_, ?_, (s.unawait_answered _ p).trans (State.send_answered _ _ _)⟩
      · rw [exec_gdpResponse_whole, State.relay, show s.forwardedTo _ _ _ = some p from hsome]
      · rw [State.send_eq, State.sendMsg_sends]; rfl
      · rw [State.send_inflight]; rfl
      · rw [State.send_eq]; rfl
  · refine ⟨_, exec_gdpForwardTimeout_of_waiting hp, State.respond_out _ _ _ _, ?_,
      storeFrame.trans (storeFrame.of_pd rfl) (State.respond_store (s.unawait p) _ _ _),
      (s.unawait_answered _ p).trans (State.respond_answered _ _ _ _)⟩
    rw [State.respond_inflight]; rfl

/-! ### Checks 7 and 8 -/

/-- An admitted READ has a length and an offset that its entry allows. -/
theorem State.readBounds_of_admitted {s : State} {q : Req} {role : Role} {e : EntryInfo} (h : admitted s q role e = true)
    (hread : q.isRead = true) : typeMismatch e true q.offset q.hdr.length.toNat = false
      ∧ s.badOffset e q.key q.offset (max 1 q.hdr.length.toNat) = false := by
  simp only [admitted, Bool.and_eq_true, Option.isNone_iff_eq_none] at h
  obtain ⟨-, hchecks⟩ := h
  simp only [State.entryChecks, hread, ↓reduceIte] at hchecks
  split at hchecks
  · cases hchecks
  · split at hchecks
    · cases hchecks
    · split at hchecks
      · cases hchecks
      · next hmismatch =>
        split at hchecks
        · cases hchecks
        · next hbad => exact ⟨Bool.eq_false_iff.mpr hmismatch, Bool.eq_false_iff.mpr hbad⟩

/-! ### The entries of a long operation's group (spec/03 Tables 03-7, 03-8) -/

/-- Entries 1 to 6 of the seven groups. -/
theorem opEntry_named : ∀ r ∈ [1, 2, 3, 4, 5, 6, 7], ∀ sub ∈ [1, 2, 3, 4, 5, 6],
    opRowOf (opBase r + sub) = some r ∧ unknownReading (opBase r + sub) = false
      ∧ opBase r + sub ≠ Pd.cursor ∧ opBase r + sub ≠ Pd.window ∧ opBase r + sub < 2 ^ 24 := by decide +kernel

/-- STATUS is a scalar of 8 bytes and RUN_STATUS a BLOB of 16; no role clears them by reading. -/
theorem statusEntry_info : ∀ r ∈ [1, 2, 3, 4, 5, 6, 7], ∀ run : Bool, (entryInfo (opBase r + 2 + bit01 run)).all (fun e =>
    !e.records && e.type == (if run then 7 else 8) && e.size == (if run then 16 else 8) && e.unit == e.size
      && [Role.host, .management, .peer, .officer].all fun x => e.access x != 5) = true := by
  decide +kernel

/-- CANCEL is not persistent. -/
theorem cancelEntry_info : ∀ r ∈ [1, 2, 3, 4, 5, 6, 7], (entryInfo (opBase r + 4)).all (fun e => !e.persistent) = true := by
  decide +kernel

theorem mem_opRows {r : Nat} (h1 : 1 ≤ r) (h7 : r ≤ 7) : r ∈ [1, 2, 3, 4, 5, 6, 7] := by
  interval_cases r <;> decide

/-- A request of a command names the entry the command names. -/
theorem key_ownReq (o : Origin) (opcode : Nat) {key : Nat} (offset length : Nat) (data : List Byte) (auth : Auth) (h : key < 2 ^ 24) :
    (ownReq o opcode key offset length data auth).key = key := by
  simp only [Req.key, msgKey, ownReq, BitVec.toNat_ofNat]
  omega

/-! ### Reading a status word -/

theorem State.statusRead_op (s : State) (r : Nat) :
    (s.statusRead r).op r = { s.op r with unread := (s.op r).unread && !decide (3 ≤ (s.op r).state) } := by
  unfold State.statusRead
  split
  · next h => rw [State.op_setOp_same]; simp [h]
  · next h => simp [h]

theorem State.statusRead_op_ne (s : State) {r i : Nat} (h : i ≠ r) : (s.statusRead r).op i = s.op i := by
  unfold State.statusRead
  split
  · exact s.op_setOp_ne _ h
  · rfl

theorem State.statusRead_frame (s : State) (r : Nat) : { s.statusRead r with ops := s.ops } = s := by
  unfold State.statusRead
  split <;> rfl

/-- The bytes of STATUS, or of RUN_STATUS. -/
def State.statusBytes (s : State) (r : Nat) (run : Bool) : List Byte :=
  natLE 8 (s.opStatus r) ++ if run then natLE 4 (s.op r).run ++ natLE 4 0 else []

theorem State.length_statusBytes (s : State) (r : Nat) (run : Bool) : (s.statusBytes r run).length = if run then 16 else 8 := by
  cases run <;> simp [State.statusBytes, length_natLE]

theorem padTo_of_length {n : Nat} {l : List Byte} (h : l.length = n) : padTo n l = l := by
  rw [padTo, ← h, List.take_left]

section
variable {s : State} {role : Role} {e : EntryInfo} {q : Req} {r : Nat} {run : Bool}

/-- The properties of STATUS (`run` false) and RUN_STATUS in the catalogue. -/
theorem statusEntry_of_named (hr : r ∈ [1, 2, 3, 4, 5, 6, 7]) (he : entryInfo (opBase r + 2 + bit01 run) = some e) :
    e.records = false ∧ e.type = (if run then 7 else 8) ∧ e.size = (if run then 16 else 8) ∧ e.unit = e.size ∧ ∀ x, e.access x ≠ 5 := by
  have h := statusEntry_info r hr run
  simp only [he, Option.all_some, Bool.and_eq_true, Bool.not_eq_eq_eq_not, Bool.not_true, beq_iff_eq, List.all_eq_true, bne_iff_ne] at h
  obtain ⟨⟨⟨⟨hrec, htype⟩, hsize⟩, hunit⟩, hacc⟩ := h
  exact ⟨hrec, htype, hsize, hunit, fun x => hacc x (by cases x <;> simp)⟩

theorem opEntry_status (hr : r ∈ [1, 2, 3, 4, 5, 6, 7]) (run : Bool) :
    opRowOf (opBase r + 2 + bit01 run) = some r ∧ unknownReading (opBase r + 2 + bit01 run) = false
      ∧ opBase r + 2 + bit01 run ≠ Pd.cursor ∧ opBase r + 2 + bit01 run ≠ Pd.window ∧ opBase r + 2 + bit01 run < 2 ^ 24 := by
  cases run
  · exact opEntry_named r hr 2 (by simp)
  · exact opEntry_named r hr 3 (by simp)

/-- The bytes a read of a status word asks for: all that follow the offset where it names no length. -/
def statusLength (run : Bool) (off len : Nat) : Nat := if len = 0 then (if run then 16 else 8) - off else len

/-- Where type and offset are as they should be, a read of a status word lies within it. -/
theorem statusLength_within (hrec : e.records = false) (htype : e.type = if run then 7 else 8) (hsize : e.size = if run then 16 else 8)
    {off len : Nat} (hmismatch : typeMismatch e true off len = false) {k : Nat} (hbad : s.badOffset e k off (max 1 len) = false) :
    readLength e off len = statusLength run off len ∧ (if e.type = 7 then off else 0) = off ∧ 1 ≤ statusLength run off len
      ∧ off + statusLength run off len ≤ if run then 16 else 8 := by
  unfold statusLength
  cases run with
  | true =>
    simp only [State.badOffset, hrec, htype, hsize, Bool.false_eq_true, ↓reduceIte, beq_self_eq_true, Bool.true_and, Bool.or_eq_false_iff,
      decide_eq_false_iff_not] at hbad
    simp only [readLength, hrec, htype, hsize, Bool.false_eq_true, ↓reduceIte, true_and]
    split <;> omega
  | false =>
    simp only [typeMismatch, hrec, htype, hsize, Bool.false_eq_true, ↓reduceIte, Bool.or_eq_false_iff, decide_eq_false_iff_not,
      Nat.reduceEqDiff] at hmismatch
    simp only [readLength, hrec, htype, hsize, Bool.false_eq_true, ↓reduceIte, Nat.reduceEqDiff]
    split <;> omega

theorem State.view_status (hr : r ∈ [1, 2, 3, 4, 5, 6, 7]) (src : Source) (hunit : e.unit = if run then 16 else 8) {off n : Nat}
    (h1 : 1 ≤ n) (hn : off + n ≤ if run then 16 else 8) :
    s.view src e (opBase r + 2 + bit01 run) off n = ((s.statusBytes r run).drop off).take n := by
  obtain ⟨hop, hk, -⟩ := opEntry_status hr run
  have hsub : opBase r + 2 + bit01 run - opBase r = 2 + bit01 run := by omega
  have hbytes : s.opView r (2 + bit01 run) 0 = s.statusBytes r run := by
    cases run
    · simp [State.opView, State.statusBytes, bit01]
    · simp [State.opView, State.statusBytes, bit01, List.append_assoc]
  have hview : s.viewUnit src e (opBase r + 2 + bit01 run) 0 = s.statusBytes r run := by
    simp only [State.viewUnit, hk, hop, hsub, hbytes, hunit, Bool.false_eq_true, ↓reduceIte]
    exact padTo_of_length (s.length_statusBytes r run)
  have hoff : off % (if run then 16 else 8) = off := Nat.mod_eq_of_lt (by omega)
  rw [State.view, hunit, covered_within h1 hn, List.flatMap_singleton, hview, hoff]

/-- A read covers the whole status word where it is of STATUS, or takes the first 8 bytes of RUN_STATUS. -/
theorem coversStatus_iff (r : Nat) (run : Bool) (off n : Nat) :
    coversStatus r (opBase r + 2 + bit01 run) off n = true ↔ (run = false ∨ (off = 0 ∧ 8 ≤ n)) := by
  cases run <;> simp [coversStatus, bit01]

/-- A status word is read: its bytes, and, where the read covers it, an ended run counts as read. -/
theorem serveRead_status (hr : r ∈ [1, 2, 3, 4, 5, 6, 7]) (hkey : q.key = opBase r + 2 + bit01 run) (he : entryInfo q.key = some e)
    (hmismatch : typeMismatch e true q.offset q.hdr.length.toNat = false)
    (hbad : s.badOffset e q.key q.offset (max 1 q.hdr.length.toNat) = false) :
    serveRead role e q s =
      { state := if run = false ∨ (q.offset = 0 ∧ 8 ≤ statusLength run q.offset q.hdr.length.toNat) then s.statusRead r else s
        payload := ((s.statusBytes r run).drop q.offset).take (statusLength run q.offset q.hdr.length.toNat) } := by
  rw [hkey] at he
  obtain ⟨hrec, htype, hsize, hunit, hacc⟩ := statusEntry_of_named hr he
  obtain ⟨hlen, hoff, h1, hn⟩ := statusLength_within hrec htype hsize hmismatch hbad
  obtain ⟨hop, hk, hcur, hwin, -⟩ := opEntry_status hr run
  have hresult : (opBase r + 2 + bit01 run == opBase r + 5) = false := by cases run <;> simp [bit01]
  have hview := s.view_status (run := run) hr (pathSource q.path) (hunit.trans hsize) h1 hn
  simp only [serveRead, State.afterRead, hkey, hop, hrec, hresult, hlen, hoff, hk, hcur, hwin, hacc, hview, coversStatus_iff, or_self,
    Bool.false_and, Bool.false_eq_true, ↓reduceIte]

end

/-! ### LONG_OP_STATUS_READ -/

theorem exec_longOpStatusRead (s : State) (o : Origin) (r : Nat) (run : Bool) (off len : Nat) :
    exec (.longOpStatusRead o r run off len) s
      = .next (s.receiveOwn serveRead (ownReq o 1 (opBase r + 2 + bit01 run) off len [] .unsigned)) := rfl

/-- The long operations after a response are those before it. -/
theorem State.respond_ops (s : State) (q : Req) (c : BitVec 16) (b : List Byte) : (s.respond q c b).ops = s.ops :=
  (congrArg State.ops (s.respond_frame q c b) :)

theorem State.respond_op (s : State) (q : Req) (c : BitVec 16) (b : List Byte) (r : Nat) : (s.respond q c b).op r = s.op r := by
  rw [State.op, State.respond_ops, State.op]

/-- The state in which a read of a status word is counted and, where it covers the word, an ended run counts as read. -/
def State.statusWordRead (s : State) (p : GdpPath) (r : Nat) (covers : Prop) [Decidable covers] : State :=
  if covers then (s.countRequest p).statusRead r else s.countRequest p

section
variable (s : State) (p : GdpPath) (r : Nat) (covers : Prop) [Decidable covers]

theorem State.countRequest_op (i : Nat) : (s.countRequest p).op i = s.op i := by rw [s.countRequest_eq p]; rfl

theorem State.statusWordRead_op : (s.statusWordRead p r covers).op r
    = { s.op r with unread := (s.op r).unread && !decide (covers ∧ 3 ≤ (s.op r).state) } := by
  unfold State.statusWordRead
  split
  · next h => simp [State.statusRead_op, s.countRequest_op, h]
  · next h => simp [s.countRequest_op, h]

theorem State.statusWordRead_op_ne {i : Nat} (h : i ≠ r) : (s.statusWordRead p r covers).op i = s.op i := by
  unfold State.statusWordRead
  split
  · rw [State.statusRead_op_ne _ h, s.countRequest_op]
  · exact s.countRequest_op p i

theorem State.statusWordRead_frame :
    s.statusWordRead p r covers = { s with pd := (s.countRequest p).pd, ops := (s.statusWordRead p r covers).ops } := by
  unfold State.statusWordRead State.statusRead
  rw [s.countRequest_eq p]
  split
  · split <;> rfl
  · rfl

end

/-- A read of STATUS or RUN_STATUS that is admitted: counted, answered with the bytes asked for, its word marked as read. -/
theorem exec_longOpStatusRead_of_admitted {s : State} {o : Origin} {r off len : Nat} {run : Bool} {role : Role} {e : EntryInfo}
    (hr : r ∈ [1, 2, 3, 4, 5, 6, 7]) (hoff : off < 2 ^ 32) (hlen : len < 2 ^ 16) :
    let q := ownReq o 1 (opBase r + 2 + bit01 run) off len [] .unsigned
    admitted s q role e = true → exec (.longOpStatusRead o r run off len) s
      = .next ((s.statusWordRead q.path r (run = false ∨ (off = 0 ∧ 8 ≤ statusLength run off len))).respond q St.ok
          (((s.statusBytes r run).drop off).take (statusLength run off len))) := by
  intro q ha
  have hkey : q.key = opBase r + 2 + bit01 run := key_ownReq o 1 off len [] .unsigned (opEntry_status hr run).2.2.2.2
  have hop : q.hdr.opcode = 1 := rfl
  have hread : q.isRead = true := rfl
  have hqoff : q.offset = off := Nat.mod_eq_of_lt hoff
  have hqlen : q.hdr.length.toNat = len := Nat.mod_eq_of_lt hlen
  obtain ⟨hmismatch, hbad⟩ := State.readBounds_of_admitted ha hread
  have hbad' : (s.countRequest q.path).badOffset e q.key q.offset (max 1 q.hdr.length.toNat) = false := by
    rw [s.countRequest_eq]; exact hbad
  have hbytes : (s.countRequest q.path).statusBytes r run = s.statusBytes r run := by rw [s.countRequest_eq]; rfl
  rw [exec_longOpStatusRead, State.receiveOwn_admitted serveRead ha (by simp [hop]) (by simp [hop]),
    serveRead_status hr hkey (entryInfo_of_admitted ha) hmismatch hbad', hqoff, hqlen, hbytes, State.conclude_read _ _ hread rfl]
  rfl

/-- What LONG_OP_STATUS_READ answers and leaves. -/
theorem longOpStatusRead_answers {s : State} {o : Origin} {r off len : Nat} {run : Bool} {role : Role} {e : EntryInfo}
    (hr : r ∈ [1, 2, 3, 4, 5, 6, 7]) (hoff : off < 2 ^ 32) (hlen : len < 2 ^ 16) :
    let q := ownReq o 1 (opBase r + 2 + bit01 run) off len [] .unsigned
    admitted s q role e = true →
    ∃ t, exec (.longOpStatusRead o r run off len) s = .next t
      ∧ t.out = s.out ++ reply s q St.ok (((s.statusBytes r run).drop off).take (statusLength run off len))
      ∧ t.op r = { s.op r with
          unread := (s.op r).unread && !decide ((run = false ∨ (off = 0 ∧ 8 ≤ statusLength run off len)) ∧ 3 ≤ (s.op r).state) }
      ∧ (∀ i, i ≠ r → t.op i = s.op i) ∧ storeFrame requestCounters s t
      ∧ { t with pd := s.pd, out := s.out, gdp := s.gdp, ops := s.ops, causeway := s.causeway } = s ∧ causewayKept q.path s t := by
  intro q ha
  have hframe := s.statusWordRead_frame q.path r (run = false ∨ (off = 0 ∧ 8 ≤ statusLength run off len))
  have hop := s.statusWordRead_op q.path r (run = false ∨ (off = 0 ∧ 8 ≤ statusLength run off len))
  have hne := fun i => s.statusWordRead_op_ne q.path r (run = false ∨ (off = 0 ∧ 8 ≤ statusLength run off len)) (i := i)
  refine ⟨_, exec_longOpStatusRead_of_admitted hr hoff hlen ha, ?_⟩
  generalize s.statusWordRead q.path r (run = false ∨ (off = 0 ∧ 8 ≤ statusLength run off len)) = u at hframe hop hne ⊢
  have hpd : u.pd = (s.countRequest q.path).pd := by rw [hframe]
  have hstore : storeFrame requestCounters s u := (s.countRequest_store q.path).trans (storeFrame.of_pd hpd)
  generalize ((s.statusBytes r run).drop off).take (statusLength run off len) = b
  refine ⟨?_, (u.respond_op _ _ _ r).trans hop, fun i hi => (u.respond_op _ _ _ i).trans (hne i hi),
    hstore.trans (storeFrame.of_pd (u.respond_ok_pd q b rfl)), ?_, fun hp => (u.respond_kept q _ _ hp).trans (by rw [hframe])⟩
  · rw [State.respond_out, reply_congr (hstore.reg (by decide)), hframe]
  · obtain ⟨o, w, g, d, h⟩ := u.respond_touches q St.ok b
    rw [h, hframe]

/-! ### CANCEL -/

theorem exec_cancel (s : State) (o : Origin) (r : Nat) (run : BitVec 32) :
    exec (.cancel o r run) s = .next (s.receiveOwn (serveCancel r) (ownWrite o (opBase r + 4) 0 (natLE 4 run.toNat))) := rfl

theorem leNat_natLE {n v : Nat} (h : v < 256 ^ n) : leNat (natLE n v) = v := by
  induction n generalizing v with
  | zero => rw [natLE, leNat]; omega
  | succ n ih =>
    have hv : v / 256 < 256 ^ n := by rw [Nat.pow_succ] at h; omega
    rw [natLE, leNat, ih hv, BitVec.toNat_ofNat]
    omega

/-- Steps that touch the stage sequencers alone, one after the other, touch nothing else. -/
theorem State.foldl_stages_frame {α : Type} {g : State → α → State} (hg : ∀ s e, { g s e with stages := s.stages } = s) (l : List α)
    (s : State) : { l.foldl g s with stages := s.stages } = s := by
  induction l generalizing s with
  | nil => rfl
  | cons e l ih => exact (congrArg (fun u : State => { u with stages := s.stages }) (ih (g s e))).trans (hg s e)

/-- Dropping a cancelled run touches what the run keeps for its end, and nothing else. -/
theorem State.dropRun_frame (s : State) (r : Nat) :
    { s.dropRun r with selfTest := s.selfTest, stages := s.stages, stow := s.stow, rebuild := s.rebuild } = s := by
  unfold State.dropRun
  split
  · rfl
  · exact congrArg (fun u : State => { u with selfTest := s.selfTest, stow := s.stow, rebuild := s.rebuild })
      (State.foldl_stages_frame (g := fun s e => s.setStage e.1 { s.stage e.1 with stowTarget := none }) (fun _ _ => rfl)
        (s.stow.run.elim [] (·.parts)) s)
  · rfl
  · rfl

/-- A DEFERRED run cancelled: ended ABORTED, the end noted, and nothing of the run waits any longer. -/
def State.cancelRun (s : State) (r : Nat) : State := ((s.opEnd r 5 St.aborted).recordAborted r).dropRun r

theorem State.cancelRun_op (s : State) (r i : Nat) : (s.cancelRun r).op i = (s.opEnd r 5 St.aborted).op i := by
  have hops : (s.cancelRun r).ops = ((s.opEnd r 5 St.aborted).recordAborted r).ops := (congrArg State.ops (State.dropRun_frame _ r) :)
  rw [State.op, hops]
  exact State.recordAborted_op _ r i

theorem State.cancelRun_out (s : State) (r : Nat) : (s.cancelRun r).out = s.out := by
  have hdrop : (s.cancelRun r).out = ((s.opEnd r 5 St.aborted).recordAborted r).out := (congrArg State.out (State.dropRun_frame _ r) :)
  rw [hdrop, (runsNoted.recordAborted _ r).1]; rfl

theorem State.cancelRun_store (s : State) (r : Nat) : storeFrame [Pd.overruns] s (s.cancelRun r) := by
  have hdrop : (s.cancelRun r).pd = ((s.opEnd r 5 St.aborted).recordAborted r).pd := (congrArg State.pd (State.dropRun_frame _ r) :)
  exact ((runsNoted.opEnd s r 5 St.aborted).trans (.recordAborted _ r)).2.1.trans (storeFrame.of_pd hdrop)

section
variable {s : State} {o : Origin} {r : Nat} {run : BitVec 32} {role : Role} {e : EntryInfo}

/-- An admitted CANCEL is counted and served, and answered at once. -/
theorem exec_cancel_of_admitted (hr : r ∈ [1, 2, 3, 4, 5, 6, 7]) :
    let q := ownWrite o (opBase r + 4) 0 (natLE 4 run.toNat)
    let u := s.countRequest q.path
    admitted s q role e = true → exec (.cancel o r run) s = .next
      (if (s.op r).state = 1 ∧ (s.op r).run = run.toNat then (u.cancelRun r).respond q St.ok [] else u.respond q St.busy []) := by
  intro q u ha
  have hop : q.hdr.opcode = 2 := rfl
  have hkey : q.key = opBase r + 4 := key_ownReq o 2 0 _ _ .unsigned (opEntry_named r hr 4 (by simp)).2.2.2.2
  have hvalue : q.value = run.toNat := leNat_natLE run.isLt
  have hpersistent : e.persistent = false := by
    have h := cancelEntry_info r hr
    rw [← hkey, entryInfo_of_admitted ha, Option.all_some, Bool.not_eq_eq_eq_not, Bool.not_true] at h
    exact h
  have hserve : serveCancel r role e q u
      = if (s.op r).state = 1 ∧ (s.op r).run = run.toNat then { state := u.cancelRun r } else refuse u St.busy := by
    rw [serveCancel, hvalue, s.countRequest_op]
    rfl
  rw [exec_cancel, State.receiveOwn_admitted _ ha (by simp [hop]) (by simp [hop]), hserve]
  split
  · rw [State.conclude_respond rfl (.inl hpersistent)]
  · rw [State.conclude_respond rfl (.inl hpersistent)]
    rfl

/-- CANCEL ends the DEFERRED run of its number ABORTED and is refused with BUSY otherwise; other rows stay as they are. -/
theorem cancel_endsDeferredRun (hr : r ∈ [1, 2, 3, 4, 5, 6, 7]) :
    let q := ownWrite o (opBase r + 4) 0 (natLE 4 run.toNat)
    admitted s q role e = true → ∃ t, exec (.cancel o r run) s = .next t
      ∧ ((s.op r).state = 1 ∧ (s.op r).run = run.toNat → t.out = s.out ++ reply s q St.ok []
          ∧ (t.op r).state = 5 ∧ (t.op r).code = St.aborted ∧ (t.op r).unread = true ∧ (t.op r).run = (s.op r).run)
      ∧ (¬ ((s.op r).state = 1 ∧ (s.op r).run = run.toNat) → t.out = s.out ++ reply s q St.busy [] ∧ t.ops = s.ops
          ∧ storeFrame (Pd.refused :: Pd.lastRefusal :: requestCounters) s t)
      ∧ (∀ i, i ≠ r → t.op i = s.op i) := by
  intro q ha
  refine ⟨_, exec_cancel_of_admitted hr ha, ?_⟩
  by_cases hrun : (s.op r).state = 1 ∧ (s.op r).run = run.toNat
  · rw [if_pos hrun]
    have hstraps : ((s.countRequest q.path).cancelRun r).reg Pd.straps = s.reg Pd.straps :=
      ((State.cancelRun_store _ r).reg (by decide)).trans (s.countRequest_reg q.path (by decide))
    have hnumber : ((s.countRequest q.path).op r).run = (s.op r).run := by rw [s.countRequest_op]
    refine ⟨fun _ => ?_, fun h => absurd hrun h, fun i hi => ?_⟩
    · rw [State.respond_out, State.cancelRun_out, s.countRequest_out, reply_congr hstraps, State.respond_op, State.cancelRun_op,
        State.opEnd_op]
      exact ⟨rfl, rfl, rfl, rfl, hnumber⟩
    · rw [State.respond_op, State.cancelRun_op, State.opEnd_ne _ _ _ hi, s.countRequest_op]
  · rw [if_neg hrun]
    obtain ⟨hout, hstore, -, hans⟩ := s.respond_countRequest_spec q St.busy []
    have hops : ((s.countRequest q.path).respond q St.busy []).ops = s.ops := (congrArg State.ops hans.1 :)
    exact ⟨fun h => absurd h hrun, fun _ => ⟨hout, hops, hstore⟩, fun i _ => by rw [State.op, hops, State.op]⟩

end

theorem longOperationsAreReadAndCancelled : Claims.LongOperationsAreReadAndCancelled := by
  refine ⟨fun s o r run off len role e h1 h7 hoff hlen => ?_, fun s o r run role e h1 h7 => cancel_endsDeferredRun (mem_opRows h1 h7)⟩
  intro q whole n covers ha
  have hn : n = statusLength run off len := by rw [statusLength, ← s.length_statusBytes r run]; rfl
  simp only [covers, hn]
  exact longOpStatusRead_answers (mem_opRows h1 h7) hoff hlen ha

end Sys2Proof.Machine

open Sys2Proof Sys2Proof.Machine

/-- Settles O22: a response and the forwarding limit answer the request that waits; a status word is read as the group's entry forms it,
and CANCEL has its two answers. -/
theorem forwardingAndLongOperations : Obligations.ForwardingAndLongOperations := by
  unfold Obligations.ForwardingAndLongOperations
  exact ⟨forwardedRequestIsAnswered, longOperationsAreReadAndCancelled⟩
end

section
/-!
PROOFS. The CXL mailbox (spec/04 R92 to R94, log 38): a payload is cut at the mailbox's 8,192 bytes, and no bound is set on the interrupt
policy that a state holds, so a state with a longer one does not give its policy as it stands. Every policy that
SET_EVENT_INTERRUPT_POLICY accepts has four bytes.
-/
namespace Sys2Proof.Machine

/-- A command of Table 04-3 on a link that is up is answered with as much of its payload as the mailbox holds, and vector 4 follows. -/
theorem State.mailboxReply_of_up {s : State} (h : s.reg Pd.linkState = 2) {opcode : Nat} (ho : opcode ∈ mailboxOpcodes) (code : Nat)
    (payload : List Byte) : s.mailboxReply opcode code payload
      = .next { s with out := s.out ++ [.mailbox opcode code (payload.take mailboxPayload), .msix 4] } := by
  unfold State.mailboxReply
  rw [if_pos h, if_pos (List.contains_iff_mem.mpr ho)]
  simp only [State.vector, State.emit, List.append_assoc, List.cons_append, List.nil_append]

/-- A module whose link is up and whose interrupt policy is one byte longer than the mailbox's payload. -/
def policyOverflow : State :=
  { pd := [(pdKey Pd.linkState 0, 2)], host := { policy := List.replicate (mailboxPayload + 1) 0 } }

theorem policyOverflow_up : policyOverflow.reg Pd.linkState = 2 := by decide

/-- GET_EVENT_INTERRUPT_POLICY gives 8,192 of its bytes. -/
theorem policyOverflow_answer : exec .getEventInterruptPolicy policyOverflow
    = .next { policyOverflow with
        out := [.mailbox 0x0102 0 ((policyOverflow.host.policy.map (BitVec.ofNat 8)).take mailboxPayload), .msix 4] } :=
  State.mailboxReply_of_up policyOverflow_up (by decide) 0 _

theorem policyOverflow_cut : (policyOverflow.host.policy.map (BitVec.ofNat 8)).take mailboxPayload
    ≠ policyOverflow.host.policy.map (BitVec.ofNat 8) := by
  intro h
  have hlen := congrArg List.length h
  simp only [policyOverflow, List.length_take, List.length_map, List.length_replicate] at hlen
  omega

end Sys2Proof.Machine

open Sys2Proof Sys2Proof.Machine

/-- Refutes O23: the state `policyOverflow` holds an interrupt policy of 8,193 bytes, and the mailbox answers the first 8,192 of them. -/
theorem not_hostLinkAndMailbox : ¬ Obligations.HostLinkAndMailbox := by
  unfold Obligations.HostLinkAndMailbox
  rintro ⟨-, hmailbox⟩
  obtain ⟨-, -, -, hpolicy, -⟩ := hmailbox policyOverflow policyOverflow_up
  have hstate := Host.Outcome.next.inj (policyOverflow_answer.symm.trans hpolicy)
  have hout : [Output.mailbox 0x0102 0 ((policyOverflow.host.policy.map (BitVec.ofNat 8)).take mailboxPayload), .msix 4]
      = [] ++ [.mailbox 0x0102 0 (policyOverflow.host.policy.map (BitVec.ofNat 8)), .msix 4] := congrArg State.out hstate
  rw [List.nil_append, List.cons.injEq, Output.mailbox.injEq] at hout
  exact policyOverflow_cut hout.1.2.2
end

section
/-!
PROOFS. Coherence, mirrors and the status page of a gate (spec/04 R101, R105, R106, R108): what each event of a link that is up leaves.
-/
namespace Sys2Proof.Machine

/-! ### Consecutive keys read after they are set -/

theorem tget_tsetMany_before {α : Type} [DecidableEq α] (d : α) (vs : List α) :
    ∀ (t : Tab α) {k j : Nat}, j < k → tget d (tsetMany d t k vs) j = tget d t j := by
  induction vs with
  | nil => exact fun _ _ _ _ => rfl
  | cons v vs ih =>
    intro t k j h
    exact (ih _ (Nat.lt_succ_of_lt h)).trans (tget_tset_ne d t v (Nat.ne_of_lt h))

theorem tget_tsetMany {α : Type} [DecidableEq α] (d : α) (vs : List α) :
    ∀ (t : Tab α) (k : Nat) {i : Nat}, i < vs.length → tget d (tsetMany d t k vs) (k + i) = vs.getD i d := by
  induction vs with
  | nil => exact fun _ _ _ h => absurd h (Nat.not_lt_zero _)
  | cons v vs ih =>
    intro t k i h
    cases i with
    | zero => exact (tget_tsetMany_before d vs _ (Nat.lt_succ_self k)).trans (tget_tset_same d t k v)
    | succ i =>
      rw [show k + (i + 1) = k + 1 + i by omega]
      exact ih _ (k + 1) (Nat.lt_of_succ_lt_succ h)

section
variable {s : State}

/-! ### Snoops (R101) -/

theorem exec_h2dSnoop_of_up (h : s.reg Pd.linkState = 2) (line : Nat) : exec (.h2dSnoop line) s
    = .next (({ s with host := { s.host with cacheLines := s.host.cacheLines.filter fun e => e.1 != line } } : State).emit
        (.snoopReply line (s.host.cacheLines.any fun e => e.1 == line)
          (((s.host.cacheLines.find? fun e => e.1 == line).map (·.2)).getD false))) := by
  refine (if_neg (not_not_intro h)).trans ?_
  rw [← List.isSome_find?]
  cases s.host.cacheLines.find? fun e => e.1 == line <;> rfl

/-- With nothing that waits for a line, giving one up is followed by the sequencers alone. -/
theorem State.retrySnoops_of_idle (hc : s.host.snoopWaits = []) (ho : s.host.ctrWaits = []) : s.retrySnoops = s.settle := by
  have hsnoop : ({ s with host := { s.host with snoopWaits := [] } } : State) = s := by rw [← hc]
  have hctr : ({ s with host := { s.host with ctrWaits := [] } } : State) = s := by rw [← ho]
  unfold State.retrySnoops
  rw [hc, hsnoop, List.foldl_nil]
  unfold State.retryOps
  rw [ho, hctr, List.foldl_nil]

theorem exec_bisnpResponse_own (h : s.reg Pd.linkState = 2) (line : Nat) :
    exec (.bisnpResponse s.position line) s = .next (s.released line) :=
  (if_neg (not_not_intro h)).trans (if_pos rfl)

theorem exec_bisnpResponse_other (h : s.reg Pd.linkState = 2) {p : Nat} (hp : p ≠ s.position) (line : Nat) :
    exec (.bisnpResponse p line) s = .next (s.sendTransfer p .snoop
      [{ s.newPacket 7 p [1] with address := BitVec.ofNat 44 (64 * line) }]).1 :=
  (if_neg (not_not_intro h)).trans (if_neg hp)

/-! ### Mirrors (R105, R106) -/

/-- A record whose line is written has none in flight, and its vector is sent where it is 8 or more. -/
def State.mirrorWritten (s : State) (i v : Nat) : State :=
  { s with host := (s.setMirror i { s.mirror i with inFlight := none }).host, out := s.out ++ if 8 ≤ v then [.msix v] else [] }

theorem State.mirror_mirrorWritten (i v : Nat) : (s.mirrorWritten i v).mirror i = { s.mirror i with inFlight := none } :=
  s.mirror_setMirror_same i _

theorem State.mirror_mirrorWritten_ne {i j : Nat} (v : Nat) (h : j ≠ i) : (s.mirrorWritten i v).mirror j = s.mirror j :=
  s.mirror_setMirror_ne _ h

theorem State.mirrorDone_of_inFlight {i v : Nat} (h : (s.mirror i).inFlight = some v) : s.mirrorDone i
    = if (s.mirror i).waiting then (s.mirrorWritten i v).tryMirror i else s.mirrorWritten i v := by
  have hwritten : (if 8 ≤ v then (s.setMirror i { s.mirror i with inFlight := none }).vector v
      else s.setMirror i { s.mirror i with inFlight := none }) = s.mirrorWritten i v := by
    unfold State.mirrorWritten
    split
    · rfl
    · rw [List.append_nil]; rfl
  unfold State.mirrorDone
  rw [h]
  dsimp only
  rw [hwritten, State.mirror_mirrorWritten]

theorem exec_mirrorWriteDone_of_inFlight (h : s.reg Pd.linkState = 2) {i v : Nat} (hi : i < 256)
    (hv : (s.mirror i).inFlight = some v) : exec (.mirrorWriteDone i) s
      = .next (if (s.mirror i).waiting then (s.mirrorWritten i v).tryMirror i else s.mirrorWritten i v) := by
  rw [← State.mirrorDone_of_inFlight hv]
  exact if_pos ⟨hi, beq_iff_eq.mpr h⟩

/-! ### The status page (R108) -/

/-- Another status page. -/
def State.setPage (s : State) (page : Tab Byte) : State := { s with host := { s.host with status := page } }

theorem State.setPage_frame (s : State) (page : Tab Byte) : { s.setPage page with host := s.host } = s := rfl

theorem State.setPage_host (s : State) (page : Tab Byte) : { (s.setPage page).host with status := s.host.status } = s.host := rfl

theorem exec_statusPageRefresh (s : State) : exec .statusPageRefresh s = .next (s.setPage (tsetMany 0 [] 0 s.statusPage)) := rfl

/-- A page's bytes read as they were laid down. -/
theorem State.tget_setPage {page : List Byte} {i : Nat} (h : i < page.length) :
    tget 0 (s.setPage (tsetMany 0 [] 0 page)).host.status i = page.getD i 0 := by
  have hpage := tget_tsetMany 0 page [] 0 h
  rwa [Nat.zero_add] at hpage

end

end Sys2Proof.Machine

open Sys2Proof Sys2Proof.Machine

/-- Settles O25: a snoop, a response to one, a mirror line written and a refresh of the page, each by what it leaves. -/
theorem coherenceMirrorsAndStatusPage : Obligations.CoherenceMirrorsAndStatusPage := by
  unfold Obligations.CoherenceMirrorsAndStatusPage
  refine ⟨fun s line h => ?_, fun s line h hc ho => ?_, fun s p line h hp => exec_bisnpResponse_other h hp line,
    fun s i v h hi hv => ?_, fun s => ?_⟩
  · refine ⟨_, exec_h2dSnoop_of_up h line, rfl, fun e => ?_, rfl, rfl⟩
    simp only [State.emit_host, List.mem_filter, bne_iff_ne]
  · rw [exec_bisnpResponse_own h]
    exact congrArg Host.Outcome.next (State.retrySnoops_of_idle hc ho)
  · exact ⟨s.mirrorWritten i v, State.mirror_mirrorWritten i v, rfl, fun j hj => State.mirror_mirrorWritten_ne v hj, rfl,
      exec_mirrorWriteDone_of_inFlight h hi hv⟩
  · exact ⟨_, exec_statusPageRefresh s, fun i hi => State.tget_setPage hi, s.setPage_frame _, s.setPage_host _⟩
end

section
/-!
PROOFS. Writes in the Coves (spec/06 R146, R149, R153, R160): they stay within what `covesRead` names, whose lines, queues and counters
are those of reads too.
-/
namespace Sys2Proof.Machine

variable {s : State} {c : Nat}

theorem covesRead.heal (s : State) {key : Nat} (hk : natCliff key < 20) : covesRead s (s.heal key) := by
  unfold State.heal
  dsimp only
  split
  · next w h => exact (covesRead.blocks s _ _).trans (covesRead.setCoveLine _ _ hk (coveSet_lt _) (State.findWay_lt h))
  · exact .blocks s _ _

theorem covesRead.writeThrough (s : State) (c b : Nat) : covesRead s (s.writeThrough c b) := .queueAccess s c _

theorem covesRead.overwriteFill (s : State) (b : Nat) {w : Nat} (hc : c < 20) (hw : w < 24) : covesRead s (s.overwriteFill c b w) :=
  (covesRead.setCliff s c _).trans (.setCoveLine _ _ hc (coveSet_lt b) hw)

/-- A block written by a line that its Cove holds. -/
theorem covesRead.writeHit (s : State) (q : CliffReq) (whole : Bool) (b : Nat) {w : Nat} (hc : c < 20) (hw : w < 24) :
    covesRead s (if q.hint = 1 then
        (if whole then (s.accessLine c (coveSet b) w q).setCoveLine c (coveSet b) w
            (setBits ((s.accessLine c (coveSet b) w q).coveLine c (coveSet b) w) 45 1 0)
          else s.accessLine c (coveSet b) w q).writeThrough c b
      else (s.accessLine c (coveSet b) w q).setCoveLine c (coveSet b) w
        ((s.accessLine c (coveSet b) w q).coveLine c (coveSet b) w ||| 2 ^ 45)) := by
  refine (covesRead.accessLine s q hc (coveSet_lt b) hw).trans ?_
  exact .ite ((covesRead.ite (.setCoveLine _ _ hc (coveSet_lt b) hw) (.refl _)).trans (.writeThrough _ c b))
    (.setCoveLine _ _ hc (coveSet_lt b) hw)

/-- A way allocated is one of the 24. -/
theorem State.allocate_lt {b w : Nat} {q : CliffReq} {filling : Bool} (h : (s.allocate c b q filling).2 = some w) : w < 24 := by
  unfold State.allocate at h
  dsimp only at h
  split at h
  · cases h
  · next v hv => cases h; exact State.victimWay_lt hv

/-- A block that lies in its Cliff, written. -/
theorem covesRead.writeBlock (s : State) (q : CliffReq) (whole : Bool) {b : Nat} (hc : c < 20) (hb : b < 0x20000000) :
    covesRead s (s.writeBlock c q whole b) := by
  have hkey : natCliff (c * 0x2000000000 + 256 * b) < 20 := by unfold natCliff; omega
  unfold State.writeBlock
  dsimp only
  refine covesRead.trans (.ite (p := whole = true) (.heal s hkey) (.refl s)) ?_
  generalize (if whole = true then s.heal (c * 0x2000000000 + 256 * b) else s) = t
  split
  · next w h =>
    have hw := State.findWay_lt h
    exact (covesRead.ite (.overwriteFill t b hc hw) (.refl t)).trans (.writeHit _ q whole b hc hw)
  · refine .ite (.writeThrough t c b) (.ite ?_ ?_)
    · exact .ite (.allocate t b q false hc) ((covesRead.allocate t b q false hc).trans (.writeThrough _ c b))
    · have hfill := fun x => ((covesRead.allocate t b q true hc).trans (.bump (k := Pd.coveMisses) _ 1 (by simp [coveKeys]))).trans
        (.queueAccess _ c x)
      split
      · next w h => exact (hfill _).trans (.setCoveLine _ _ hc (coveSet_lt b) (State.allocate_lt h))
      · exact (hfill _).trans (.writeThrough _ c b)

/-- Native blocks lie in the twenty Cliffs. -/
theorem natCliff_of_mem_blocksOf {ns : List Nat} {n : Nat} (h : n ∈ blocksOf ns) : natCliff n < 20 := by
  rw [blocksOf, List.mem_eraseDups, List.mem_map] at h
  obtain ⟨k, hk, rfl⟩ := h
  have hnative := of_decide_eq_true (List.mem_filter.mp hk).2
  unfold natCliff
  omega

theorem covesRead.passWrite (s : State) (q : CliffReq) (whole : Nat → Bool) {blocks : List Nat} (h : ∀ n ∈ blocks, natCliff n < 20) :
    covesRead s (s.passWrite q whole blocks) :=
  covesRead.foldl (fun s n hn => .writeBlock s q _ (h n hn) (by unfold natLocal; omega)) s

/-- Bytes written where they go: the bytes, and what their lines do in the Coves. -/
theorem covesRead.putTargets (s : State) (u : CliffUser) (l : List (Nat × Byte)) :
    covesRead { s with mem := l.foldl (fun m e => tset 0 m e.1 e.2) s.mem } (s.putTargets u l) := by
  refine covesRead.trans ?_ (.passWrite _ _ _ fun n hn => natCliff_of_mem_blocksOf hn)
  exact covesRead.foldl (fun t n hn => .ite (.heal t (natCliff_of_mem_blocksOf hn)) (.refl t)) _

/-- What reads and writes in the Coves leave as it is, of what a window request shows. -/
theorem covesRead.fields {s t : State} (h : covesRead s t) : t.out = s.out ∧ t.host = s.host ∧ t.mem = s.mem :=
  ⟨(congrArg State.out h.1 :), (congrArg State.host h.1 :), (congrArg State.mem h.1 :)⟩

end Sys2Proof.Machine
end

section
/-!
PROOFS. Host accesses by device physical address (spec/04 R95 to R102, Table 04-5): where a window's bytes lie, what the Harbour reads and
writes there, and the lines that a read leaves with the host.
-/
namespace Sys2Proof.Machine

variable {s : State}

/-! ### Places -/

/-- The host's own accesses ask for none of its lines, so the host link has no part in where they lead. -/
theorem State.dpaPlace_of_host (s : State) (h : HostLink) (g : Agent) (a : Nat) (write : Bool) :
    ({ s with host := h } : State).dpaPlace g true a write = s.dpaPlace g true a write := rfl

theorem State.dpaPlaces_of_host (s : State) (h : HostLink) (g : Agent) (a n : Nat) :
    ({ s with host := h } : State).dpaPlaces g true a n = s.dpaPlaces g true a n := by
  induction n generalizing a with
  | zero => rfl
  | succ n ih => simp only [State.dpaPlaces, ih, State.dpaPlace_of_host]

theorem State.dpaTargets_of_host (s : State) (h : HostLink) (g : Agent) (data : List (Option Byte)) (a : Nat) :
    ({ s with host := h } : State).dpaTargets g true a data = s.dpaTargets g true a data := by
  induction data generalizing a with
  | nil => rfl
  | cons x data ih => cases x <;> simp only [State.dpaTargets, ih, State.dpaPlace_of_host]

/-- Each place read is that of one of the addresses. -/
theorem State.dpaPlace_of_mem {g : Agent} {host : Bool} {n : Nat} :
    ∀ {a : Nat} {ks : List Nat}, s.dpaPlaces g host a n = .ok ks →
      ∀ k ∈ ks, ∃ i < n, s.dpaPlace g host (a + i) false = .ok k := by
  induction n with
  | zero => intro a ks h k hk; cases h; cases hk
  | succ n ih =>
    intro a ks h k hk
    unfold State.dpaPlaces at h
    split at h
    · cases h
    · cases h
    · next k0 ks0 h0 hs =>
      cases h
      rcases List.mem_cons.mp hk with rfl | hk
      · exact ⟨0, Nat.succ_pos n, h0⟩
      · obtain ⟨i, hi, hplace⟩ := ih hs k hk
        exact ⟨i + 1, Nat.succ_lt_succ hi, by rw [← hplace]; congr 1; omega⟩

/-- An access at a House room leads to its own address. -/
theorem State.housePlace_at {g : Agent} {a : Nat} {write : Bool} {p : Place} (h : s.housePlace g a write = .ok p) : p = .at a := by
  unfold State.housePlace at h
  split at h
  · cases h
  · dsimp only at h
    split at h
    · cases h
    · split at h
      · cases h
      · split at h <;> cases h
        rfl

theorem State.dpaPlace_house {g : Agent} {host write : Bool} {a k : Nat} (hlo : 0x0C0000000000 ≤ a) (hhi : a < 0x0C0018000000)
    (h : s.dpaPlace g host a write = .ok k) : k = a := by
  have hin : inHouse ((a : Int), (a : Int)) = true := by
    simp only [inHouse, Bool.and_eq_true, decide_eq_true_eq]
    omega
  rw [State.dpaPlace, if_pos hin] at h
  split at h
  · next n hn => cases h; cases State.housePlace_at hn; rfl
  · next hn => cases State.housePlace_at hn
  · cases h

/-- No place of the House window is native to a Cliff. -/
theorem blocksOf_house {g : Agent} {host : Bool} {off n : Nat} {ks : List Nat} (hn : off + n ≤ windowMapped .house)
    (h : s.dpaPlaces g host (windowBase .house + off) n = .ok ks) : blocksOf ks = [] := by
  have hnone : ks.filter isNative = [] := by
    rw [List.filter_eq_nil_iff]
    intro k hk
    obtain ⟨i, hi, hplace⟩ := State.dpaPlace_of_mem h k hk
    simp only [windowMapped] at hn
    simp only [windowBase] at hplace
    have hk' := State.dpaPlace_house (by omega) (by omega) hplace
    simp only [isNative, decide_eq_true_eq]
    omega
  rw [blocksOf, hnone]
  rfl

/-! ### What the Harbour reads and writes in a window -/

/-- The bytes that a read of a window gives (Table 04-5): of the Cliffs and the House those at the places of its addresses, the counters'
words, and the status page's. -/
def State.windowReads (s : State) (w : Window) (off n : Nat) (l : List Byte) : Prop :=
  ((w = .cliff ∨ w = .house) ∧ ∃ ks, s.dpaPlaces harbourAgent true (windowBase w + off) n = .ok ks ∧ l = ks.map s.byteAt)
    ∨ (w = .counter ∧ s.counterBytes off n = some l) ∨ (w = .status ∧ l = tgetMany 0 s.host.status off n)

/-- The addresses of the Cliff and the House window are those of no counter and not of the page. -/
theorem windowBase_memory {w : Window} {off n : Nat} (hw : w = .cliff ∨ w = .house) (hn : off + n ≤ windowMapped w) :
    ¬ (0x0C1000000000 ≤ windowBase w + off ∧ windowBase w + off + n ≤ 0x0C1000400000)
      ∧ ¬ (0x0C2000000000 ≤ windowBase w + off ∧ windowBase w + off + n ≤ 0x0C2000010000) := by
  rcases hw with rfl | rfl <;> simp only [windowBase, windowMapped, aliasBase, aliasBytes] at hn ⊢ <;> omega

theorem State.dpaRead_memory {w : Window} {off n : Nat} {ks : List Nat} (hw : w = .cliff ∨ w = .house) (hn : off + n ≤ windowMapped w)
    (h : s.dpaPlaces harbourAgent true (windowBase w + off) n = .ok ks) :
    s.dpaRead harbourAgent true (windowBase w + off) n
      = (s.passRead (plainReq harbourAgent.user false) (blocksOf ks), some (St.ok, ks.map s.byteAt)) := by
  obtain ⟨hcounter, hstatus⟩ := windowBase_memory hw hn
  rw [State.dpaRead, if_neg hcounter, if_neg hstatus, h]

/-- A read of a window gives its bytes, and beyond the Coves it changes nothing. -/
theorem State.dpaRead_window {w : Window} {off n : Nat} {l : List Byte} (hn : off + n ≤ windowMapped w)
    (h : s.windowReads w off n l) : ∃ v, s.dpaRead harbourAgent true (windowBase w + off) n = (v, some (St.ok, l))
      ∧ covesRead s v ∧ (w ≠ .cliff → v = s) := by
  rcases h with ⟨hw, ks, hks, rfl⟩ | ⟨rfl, hl⟩ | ⟨rfl, rfl⟩
  · refine ⟨_, State.dpaRead_memory hw hn hks, .passRead s _ fun _ => natCliff_of_mem_blocksOf, fun hcliff => ?_⟩
    obtain rfl := hw.resolve_left hcliff
    rw [blocksOf_house hn hks]
    rfl
  · refine ⟨s, ?_, .refl s, fun _ => rfl⟩
    simp only [windowMapped] at hn
    simp only [windowBase]
    rw [State.dpaRead, if_pos (by omega), Nat.add_sub_cancel_left, hl]
  · refine ⟨s, ?_, .refl s, fun _ => rfl⟩
    simp only [windowMapped] at hn
    simp only [windowBase]
    rw [State.dpaRead, if_neg (by omega), if_pos (by omega), Nat.add_sub_cancel_left]

/-! ### Lines that a read leaves with the host (R101) -/

theorem length_eraseDups_le {α : Type} [BEq α] : ∀ (k : Nat) (l : List α), l.length ≤ k → l.eraseDups.length ≤ k
  | _, [], _ => Nat.zero_le _
  | 0, _ :: _, h => absurd h (Nat.not_succ_le_zero _)
  | k + 1, a :: l, h => by
    rw [List.eraseDups_cons, List.length_cons]
    exact Nat.succ_le_succ (length_eraseDups_le k _ ((List.length_filter_le _ _).trans (Nat.le_of_succ_le_succ h)))

/-- A read of `n` bytes leaves at most `n` lines with the host. -/
theorem length_hostLines_le (a n : Nat) : (hostLines a n).length ≤ n := by
  unfold hostLines
  split
  · unfold linesOf
    split
    · exact Nat.zero_le n
    · rw [List.length_map, List.length_range]
      omega
  · split
    · refine length_eraseDups_le n _ ?_
      exact (List.length_filterMap_le _ _).trans (List.length_range (n := n)).le
    · exact Nat.zero_le n

/-- A line followed where the snoop filter has room: the filter alone changes, by one line at most. -/
theorem State.track_of_room {line : Nat} (h : s.host.filter.length < 262144) :
    ∃ f, s.track line = { s with host := { s.host with filter := f } } ∧ f.length ≤ s.host.filter.length + 1 := by
  unfold State.track
  split
  · exact ⟨s.host.filter, rfl, Nat.le_succ _⟩
  · rw [if_neg (Nat.not_le.mpr h)]
    exact ⟨_, rfl, by rw [List.length_append]; exact Nat.le_refl _⟩

theorem State.foldl_track_of_room (lines : List Nat) :
    ∀ {s : State}, s.host.filter.length + lines.length ≤ 262144 →
      ∃ f, lines.foldl (fun s l => s.track l) s = { s with host := { s.host with filter := f } } := by
  induction lines with
  | nil => exact fun _ => ⟨_, rfl⟩
  | cons line lines ih =>
    intro s h
    rw [List.length_cons] at h
    obtain ⟨f, hf, hlen⟩ := s.track_of_room (line := line) (by omega)
    rw [List.foldl_cons, hf]
    exact ih (s := { s with host := { s.host with filter := f } }) (by dsimp only; omega)

end Sys2Proof.Machine
end

section
/-!
PROOFS. Window requests of a gate (spec/04 R96 to R102, Tables 04-5, 04-6): one that arrives with none before it is refused, served here or
sent to its module, and one still open at its limit is refused.
-/
namespace Sys2Proof.Machine

/-! ### A request's completion (R100) -/

/-- The state in which a request is completed: it is no longer open. -/
def State.closeWindow (s : State) (r : WindowReq) : State :=
  { s with host := { s.host with windows := s.host.windows.filter fun x => x.id != r.id } }

/-- A request completed as refused is counted, and is no longer open. -/
theorem State.windowDone_refused_spec (s : State) (r : WindowReq) :
    (s.windowDone r true).out = s.out ++ [.windowDone r.id true []]
      ∧ (s.windowDone r true).host = { s.host with windows := s.host.windows.filter fun x => x.id != r.id }
      ∧ (s.windowDone r true).reg Pd.windowRefused = (s.reg Pd.windowRefused + 1) % 2 ^ 64
      ∧ storeFrame [Pd.windowRefused] s (s.windowDone r true)
      ∧ { s.windowDone r true with out := s.out, pd := s.pd, host := s.host } = s :=
  ⟨rfl, rfl, State.bump_reg _ _ 1, (s.closeWindow r).bump_store Pd.windowRefused 1, rfl⟩

/-! ### A request that arrives -/

section
variable {s : State} {w : Window} {off size : Nat} {write : Bool} {data : List (Option Byte)}

/-- A request for offset `off` of position p's slice of a window, as the gate notes it. -/
def State.windowReqAt (s : State) (w : Window) (p off size : Nat) (write : Bool) (data : List (Option Byte)) : WindowReq :=
  { id := s.host.nextWindow, window := w, target := p, offset := off, size := size, write := write, data := data,
    local_ := p == s.position }

/-- The next request's number is used, and the requests open are those of a list. -/
def State.openWindow (s : State) (l : List WindowReq) : State :=
  { s with host := { s.host with nextWindow := s.host.nextWindow + 1, windows := l } }

theorem State.windowRequest_eq (hw : s.host.windows = []) (ho : off < windowSlice w) (p : Nat) :
    s.windowRequest w (p * windowSlice w + off) size write data
      = if 16 * s.host.bays ≤ p ∨ windowMapped w < off + size ∨ (w = .status ∧ write) then
          (s.openWindow []).windowDone (s.windowReqAt w p off size write data) true
        else if p == s.position then (s.openWindow [s.windowReqAt w p off size write data]).retryWindows
        else (s.openWindow []).forwardWindow (s.windowReqAt w p off size write data) := by
  have hdiv : (p * windowSlice w + off) / windowSlice w = p := by
    rw [Nat.mul_comm, Nat.mul_add_div (by omega), Nat.div_eq_of_lt ho, Nat.add_zero]
  have hmod : (p * windowSlice w + off) % windowSlice w = off := Nat.mul_add_mod_of_lt ho
  simp only [State.windowRequest, hdiv, hmod, hw, List.nil_append]
  rfl

/-- Of one request for this position, serving it is all there is to serve. -/
theorem State.retryWindows_single {r : WindowReq} (h : s.host.windows = [r]) (hr : r.local_ = true) :
    s.retryWindows = (s.serveWindow r).1 := by
  unfold State.retryWindows
  rw [h, List.filter_cons_of_pos hr]
  exact ite_self _

/-- A request refused on arrival is counted, told to the host, and leaves only its number used. -/
theorem State.refuseWindow_spec (hw : s.host.windows = []) {r : WindowReq} (hr : r.id = s.host.nextWindow) :
    let t := (s.openWindow []).windowDone r true
    t.out = s.out ++ [.windowDone s.host.nextWindow true []] ∧ t.reg Pd.windowRefused = (s.reg Pd.windowRefused + 1) % 2 ^ 64
      ∧ storeFrame [Pd.windowRefused] s t ∧ { t with out := s.out, pd := s.pd, host := s.host } = s
      ∧ t.host = { s.host with nextWindow := s.host.nextWindow + 1 } := by
  intro t
  obtain ⟨hout, hhost, hreg, hstore, -⟩ := (s.openWindow []).windowDone_refused_spec r
  rw [hr] at hout
  refine ⟨hout, hreg, (storeFrame.of_pd rfl).trans hstore, rfl, hhost.trans ?_⟩
  unfold State.openWindow
  rw [List.filter_nil, ← hw]

variable (hup : s.reg Pd.linkState = 2) (hw : s.host.windows = []) (ho : off < windowSlice w)
include hup hw ho

theorem exec_hostWindowRead_refused {p : Nat} (h0 : 0 < size) (h : 16 * s.host.bays ≤ p ∨ windowMapped w < off + size) :
    exec (.hostWindowRead w (p * windowSlice w + off) size) s
      = .next ((s.openWindow []).windowDone (s.windowReqAt w p off size false (List.replicate size none)) true) := by
  refine (if_pos ⟨hup, h0⟩).trans (congrArg _ ((State.windowRequest_eq hw ho p).trans (if_pos ?_)))
  exact h.imp_right .inl

theorem exec_hostWindowWrite_refused {p : Nat} (h0 : 0 < data.length)
    (h : 16 * s.host.bays ≤ p ∨ windowMapped w < off + data.length ∨ w = .status) :
    exec (.hostWindowWrite w (p * windowSlice w + off) data) s
      = .next ((s.openWindow []).windowDone (s.windowReqAt w p off data.length true data) true) := by
  refine (if_pos ⟨hup, h0⟩).trans (congrArg _ ((State.windowRequest_eq hw ho p).trans (if_pos ?_)))
  exact h.imp_right (Or.imp_right fun h => ⟨h, rfl⟩)

omit hup in
/-- A request within reach and for this position is served at once. -/
theorem State.windowRequest_own (hp : s.position < 16 * s.host.bays) (hm : off + size ≤ windowMapped w)
    (hs : ¬ (w = .status ∧ write = true)) :
    s.windowRequest w (s.position * windowSlice w + off) size write data
      = ((s.openWindow [s.windowReqAt w s.position off size write data]).serveWindow
          (s.windowReqAt w s.position off size write data)).1 := by
  rw [State.windowRequest_eq hw ho, if_neg (not_or.mpr ⟨by omega, not_or.mpr ⟨by omega, hs⟩⟩), if_pos (beq_self_eq_true _)]
  exact State.retryWindows_single rfl (beq_self_eq_true _)

end

/-! ### A request served here -/

section
variable {s : State} {r : WindowReq} (hwork : s.working = true) (hmove : s.windowMoves r.window = true)
include hwork hmove

theorem State.serveWindow_read {v : State} {l : List Byte} (hr : r.write = false)
    (h : s.dpaRead harbourAgent true (windowBase r.window + r.offset) r.size = (v, some (St.ok, l))) : s.serveWindow r
      = (((hostLines (windowBase r.window + r.offset) r.size).foldl (fun s l => s.track l) v).windowDone
          { r with data := enableAll l } false, true) := by
  unfold State.serveWindow
  simp only [hwork, hmove, hr, h, Bool.not_true, Bool.or_self, Bool.false_eq_true, and_false, ↓reduceIte, ne_eq, not_true_eq_false]

theorem State.serveWindow_write {v : State} {l : List Byte} (hr : r.write = true) (hc : r.window ≠ .counter)
    (h : s.dpaWrite harbourAgent true (windowBase r.window + r.offset) r.data = (v, some (St.ok, l))) :
    s.serveWindow r = (v.windowDone r false, true) := by
  unfold State.serveWindow
  simp only [hwork, hmove, hr, hc, h, Bool.not_true, Bool.or_self, Bool.false_eq_true, false_and, ↓reduceIte, ne_eq, not_true_eq_false]

/-- A write of one whole counter word, of a line that the host does not hold, is its operation; the sequencers go on. -/
theorem State.serveWindow_counter {o : Nat × Nat × Nat} (hr : r.write = true) (hc : r.window = .counter)
    (hd : counterWrites r.offset r.data = ([o], false)) (hheld : s.ctrHeld o.2.1 = false) :
    s.serveWindow r = ((s.hostOp o).1.settle.windowDone r (s.hostOp o).2, true) := by
  rw [hc] at hmove
  unfold State.serveWindow
  simp only [hwork, hmove, hr, hc, hd, hheld, Bool.not_true, Bool.or_self, Bool.false_eq_true, and_self, ↓reduceIte, List.filter_cons,
    List.filter_nil, List.isEmpty_nil, List.foldl_cons, List.foldl_nil, Bool.false_or]

end

/-! ### Requests for this module (R96, R100, R101) -/

/-- The bytes read do not depend on the requests that are open. -/
theorem State.windowReads_openWindow (s : State) {w : Window} {off n : Nat} {l : List Byte} (rs : List WindowReq)
    (h : s.windowReads w off n l) : (s.openWindow rs).windowReads w off n l := by
  refine h.imp_left (And.imp_right fun ⟨ks, hks, hl⟩ => ⟨ks, ?_, hl⟩)
  rw [← hks]
  exact s.dpaPlaces_of_host _ harbourAgent _ n

section
variable {s : State} {w : Window} {off : Nat} (hup : s.reg Pd.linkState = 2) (hw : s.host.windows = []) (ho : off < windowSlice w)
  (hwork : s.working = true) (hmove : s.windowMoves w = true) (hp : s.position < 16 * s.host.bays)
include hup hw ho hwork hmove hp

theorem windowRead_own {size : Nat} {l : List Byte} (h0 : 0 < size) (hm : off + size ≤ windowMapped w)
    (hroom : s.host.filter.length + size ≤ 262144) (hl : s.windowReads w off size l) :
    ∃ t, exec (.hostWindowRead w (s.position * windowSlice w + off) size) s = .next t
      ∧ t.out = s.out ++ [.windowDone s.host.nextWindow false l] ∧ t.host.windows = [] ∧ t.host.nextWindow = s.host.nextWindow + 1
      ∧ t.mem = s.mem ∧ (w ≠ .cliff → { t with out := s.out, host := s.host } = s) := by
  let r := s.windowReqAt w s.position off size false (List.replicate size none)
  obtain ⟨v, hv, hcoves, hsame⟩ := State.dpaRead_window hm (s.windowReads_openWindow [r] hl)
  obtain ⟨hout, hhost, hmem⟩ := hcoves.fields
  obtain ⟨f, hf⟩ := State.foldl_track_of_room (hostLines (windowBase w + off) size) (s := v) (by
    rw [hhost]
    exact (Nat.add_le_add_left (length_hostLines_le _ size) _).trans hroom)
  have hexec : exec (.hostWindowRead w (s.position * windowSlice w + off) size) s
      = .next (({ v with host := { v.host with filter := f } } : State).windowDone { r with data := enableAll l } false) := by
    refine (if_pos ⟨hup, h0⟩).trans (congrArg _ ((State.windowRequest_own hw ho hp hm (by simp)).trans ?_))
    rw [State.serveWindow_read (s := s.openWindow [r]) (r := r) hwork hmove rfl hv]
    exact congrArg (fun u => State.windowDone u { r with data := enableAll l } false) hf
  have hbytes : (enableAll l).map (fun b => b.getD 0) = l := by
    rw [enableAll, List.map_map]
    exact List.map_id l
  refine ⟨_, hexec, ?_, ?_, congrArg HostLink.nextWindow hhost, hmem, fun hcliff => ?_⟩
  · show v.out ++ [.windowDone r.id false ((enableAll l).map fun b => b.getD 0)] = _
    rw [hbytes, hout]
    rfl
  · show (v.host.windows.filter fun x => x.id != r.id) = []
    rw [hhost, show (s.openWindow [r]).host.windows = [r] from rfl, List.filter_cons_of_neg (by simp), List.filter_nil]
  · rw [hsame hcliff]
    rfl

theorem windowWrite_own {data : List (Option Byte)} {l : List (Nat × Byte)} (h0 : 0 < data.length)
    (hm : off + data.length ≤ windowMapped w) (hmem : w = .cliff ∨ w = .house)
    (hl : s.dpaTargets harbourAgent true (windowBase w + off) data = .ok l) :
    ∃ t, exec (.hostWindowWrite w (s.position * windowSlice w + off) data) s = .next t
      ∧ t.out = s.out ++ [.windowDone s.host.nextWindow false []] ∧ t.mem = l.foldl (fun m e => tset 0 m e.1 e.2) s.mem
      ∧ (∀ a, (∀ e ∈ l, e.1 ≠ a) → t.byteAt a = s.byteAt a) := by
  let r := s.windowReqAt w s.position off data.length true data
  let v := (s.openWindow [r]).putTargets harbourAgent.user l
  have hv : (s.openWindow [r]).dpaWrite harbourAgent true (windowBase w + off) data = (v, some (St.ok, [])) := by
    have hl' : (s.openWindow [r]).dpaTargets harbourAgent true (windowBase w + off) data = .ok l :=
      (s.dpaTargets_of_host _ harbourAgent data _).trans hl
    rw [State.dpaWrite, hl']
  obtain ⟨hout, -, hbytes⟩ := (covesRead.putTargets (s.openWindow [r]) harbourAgent.user l).fields
  have hexec : exec (.hostWindowWrite w (s.position * windowSlice w + off) data) s = .next (v.windowDone r false) := by
    refine (if_pos ⟨hup, h0⟩).trans (congrArg _ ((State.windowRequest_own hw ho hp hm ?_).trans ?_))
    · rcases hmem with rfl | rfl <;> simp
    · rw [State.serveWindow_write (s := s.openWindow [r]) (r := r) hwork hmove rfl (by rcases hmem with rfl | rfl <;> exact nofun) hv]
  refine ⟨_, hexec, congrArg (fun o : List Output => o ++ [.windowDone r.id false []]) hout, hbytes, fun a ha => ?_⟩
  refine (congrArg (fun m : Tab Byte => tget 0 m a) hbytes).trans ?_
  exact tget_foldl_tset_of_not_named 0 ha s.mem

end

/-! ### Counter operations of the host (R102, Table 04-6) -/

/-- A write of one whole word in the sub-ranges of the operations names its counter, its operation and its operand. -/
theorem counterWrites_word {k : Nat} {bs : List Byte} (hb : bs.length = 8) (hk : 131072 ≤ k) :
    counterWrites (8 * k) (bs.map some) = ([(k / 131072, k % 131072, leNat bs % 2 ^ 32)], false) := by
  have hwords : (8 * k + (bs.map some).length + 7) / 8 - 8 * k / 8 = 1 := by
    rw [List.length_map, hb]
    omega
  have hfirst : 8 * k / 8 = k := Nat.mul_div_cancel_left k (by decide)
  have hbytes : ((List.range 8).map fun i =>
      if 8 * k ≤ 8 * k + i then ((bs.map some)[8 * k + i - 8 * k]?).join else none) = bs.map some := by
    refine List.ext_getElem (by simp [hb]) fun i hi hi' => ?_
    simp at hi hi' ⊢
    simp [hi']
  have hall : (bs.map some).all Option.isSome = true := by simp
  have hvalue : (bs.map some).map (fun b => b.getD 0) = bs := (List.map_map ..).trans (List.map_id bs)
  unfold counterWrites
  dsimp only
  rw [hwords, hfirst]
  simp only [List.range_one, List.map_cons, List.map_nil, Nat.add_zero, List.filter_cons, List.filter_nil, hbytes, hall, hvalue, hk,
    Bool.not_true, Bool.and_false, Bool.false_eq_true, decide_true, ↓reduceIte, List.isEmpty_nil, List.any_cons, List.any_nil,
    Nat.not_lt.mpr hk, decide_false, Bool.or_self]

theorem windowWrite_counter {s : State} {op c x off : Nat} (hup : s.reg Pd.linkState = 2) (hw : s.host.windows = [])
    (ho : off < windowSlice .counter) (hwork : s.working = true) (hmove : s.windowMoves .counter = true)
    (hp : s.position < 16 * s.host.bays) (h1 : 1 ≤ op) (h3 : op ≤ 3) (hc : c < 131072) (hx : x < 2 ^ 32)
    (hoff : off = 8 * (131072 * op + c)) (hheld : s.ctrHeld c = false) :
    let r := s.windowReqAt .counter s.position off 8 true ((natLE 8 x).map some)
    exec (.hostWindowWrite .counter (s.position * windowSlice .counter + off) ((natLE 8 x).map some)) s
      = .next (((s.openWindow [r]).hostOp (op, c, x)).1.settle.windowDone r ((s.openWindow [r]).hostOp (op, c, x)).2) := by
  intro r
  have hlen : ((natLE 8 x).map some).length = 8 := (List.length_map _).trans (length_natLE 8 x)
  have hm : off + 8 ≤ windowMapped .counter := by
    simp only [windowMapped]
    omega
  have hword : counterWrites off ((natLE 8 x).map some) = ([(op, c, x)], false) := by
    rw [hoff, counterWrites_word (length_natLE 8 x) (by omega), leNat_natLE (by omega), Nat.mod_eq_of_lt hx]
    congr 3
    · omega
    · congr 1
      omega
  refine (if_pos ⟨hup, by omega⟩).trans (congrArg _ ?_)
  rw [hlen, State.windowRequest_own hw ho hp hm nofun,
    State.serveWindow_counter (s := s.openWindow [r]) (r := r) hwork hmove rfl rfl hword hheld]

/-! ### Requests for another module (R98) -/

section
variable {s : State} {r : WindowReq}

/-- Of one request that waits, with nothing on its way to its target, sending it is all there is to send. -/
theorem State.sendWindows_single (h : s.host.windows = [r]) (hl : r.local_ = false) (hs : r.sent = false)
    (hu : s.windowUnderWay r.target = false) : s.sendWindows = s.sendWindow r := by
  unfold State.sendWindows
  rw [h, List.filter_cons_of_pos (by simp [hl, hs]), List.filter_nil, List.foldl_cons, List.foldl_nil, if_neg (by simp [hu])]

/-- A read is sent as one transfer of READ packets. -/
theorem State.sendWindow_read (hr : r.write = false) (hroute : (s.route r.target).isSome = true) :
    s.sendWindow r = (s.setWindow { r with sent := true }).queueTransfer r.target (.window r.id)
      (s.readPackets r.target (windowBase r.window + r.offset) r.size) := by
  have hsend : ∀ ks, (s.setWindow { r with sent := true }).sendTransfer r.target (.window r.id) ks
      = ((s.setWindow { r with sent := true }).queueTransfer r.target (.window r.id) ks, true) :=
    fun ks => if_neg (by rw [Option.isNone_iff_eq_none]; exact Option.isSome_iff_ne_none.mp hroute)
  have htransfers : s.windowTransfers r = [s.readPackets r.target (windowBase r.window + r.offset) r.size] := by
    rw [State.windowTransfers, hr]
    rfl
  unfold State.sendWindow
  rw [htransfers, List.foldl_cons, List.foldl_nil, hsend]
  rfl

/-- A read for another module waits, sent, and beyond it only the Causeway has changed. -/
theorem windowRead_forwarded {w : Window} {off size p : Nat} (hup : s.reg Pd.linkState = 2) (hw : s.host.windows = [])
    (ho : off < windowSlice w) (hp : p ≠ s.position) (hbay : p < 16 * s.host.bays) (h0 : 0 < size) (hm : off + size ≤ windowMapped w)
    (hroute : (s.route p).isSome = true) (hu : s.windowUnderWay p = false) :
    ∃ t r, exec (.hostWindowRead w (p * windowSlice w + off) size) s = .next t ∧ t.host.windows = [r] ∧ r.id = s.host.nextWindow
      ∧ r.target = p ∧ r.sent = true ∧ t.out = s.out ∧ { t with host := s.host, causeway := s.causeway } = s := by
  let r := s.windowReqAt w p off size false (List.replicate size none)
  have hlocal : r.local_ = false := beq_false_of_ne hp
  have hforward : (s.openWindow []).forwardWindow r = (s.openWindow [r]).sendWindow r := State.sendWindows_single rfl hlocal rfl hu
  have hexec : exec (.hostWindowRead w (p * windowSlice w + off) size) s = .next ((s.openWindow [r]).sendWindow r) := by
    refine (if_pos ⟨hup, h0⟩).trans (congrArg _ ((State.windowRequest_eq hw ho p).trans ?_))
    rw [if_neg (by simp; omega), if_neg (by simpa using hp)]
    exact hforward
  have hsent : ((s.openWindow [r]).setWindow { r with sent := true }).host.windows = [{ r with sent := true }] :=
    congrArg (fun x => [x]) (if_pos rfl)
  rw [State.sendWindow_read (s := s.openWindow [r]) (r := r) rfl hroute] at hexec
  have honly := ((s.openWindow [r]).setWindow { r with sent := true }).queueTransfer_causewayOnly r.target (.window r.id)
    ((s.openWindow [r]).readPackets r.target (windowBase r.window + r.offset) r.size)
  rw [honly.eq] at hexec
  exact ⟨_, { r with sent := true }, hexec, hsent, rfl, rfl, rfl, rfl, rfl⟩

end

/-! ### The statements -/

theorem windowRequestsOfTheGate : Claims.WindowRequestsOfTheGate := by
  intro s w off hup hw id at_
  refine ⟨fun hwork hmove hp ho => ⟨fun size l h0 hm hroom hl => ?_, fun data l h0 hm hmem hl => ?_,
      fun op c x hc h1 h3 hlt hx hoff hheld => ?_⟩,
    fun p size hp hbay ho h0 hm hroute hu => ?_, fun p size h0 ho h => ?_, fun p data h0 ho h => ?_⟩
  · exact windowRead_own hup hw ho hwork hmove hp h0 hm hroom hl
  · exact windowWrite_own hup hw ho hwork hmove hp h0 hm hmem hl
  · subst hc
    have hexec := windowWrite_counter hup hw ho hwork hmove hp h1 h3 hlt hx hoff hheld
    simp only [State.windowReqAt, beq_self_eq_true] at hexec
    exact hexec
  · exact windowRead_forwarded hup hw ho hp hbay h0 hm hroute hu
  · exact ⟨_, exec_hostWindowRead_refused hup hw ho h0 h, State.refuseWindow_spec hw rfl⟩
  · exact ⟨_, exec_hostWindowWrite_refused hup hw ho h0 h, State.refuseWindow_spec hw rfl⟩

theorem windowTimeoutRefuses : Claims.WindowTimeoutRefuses := by
  refine ⟨fun s id r h => ?_, fun s id h => ?_⟩
  · have hexec : exec (.windowTimeout id) s = .next ((s.bump Pd.windowTimeouts).windowDone r true) := by
      show execWindowTimeout id s = _
      rw [execWindowTimeout, h]
    have hid : r.id = id := beq_iff_eq.mp (List.find?_some (p := fun x : WindowReq => x.id == id) h)
    obtain ⟨hout, hhost, hreg, hstore, hrest⟩ := (s.bump Pd.windowTimeouts).windowDone_refused_spec r
    have hframe := (s.bump_store Pd.windowTimeouts 1).mono (keys' := [Pd.windowTimeouts, Pd.windowRefused]) (by simp)
    rw [hid] at hout hhost
    rw [(s.bump_store Pd.windowTimeouts 1).reg (by decide)] at hreg
    exact ⟨_, hexec, hout, hhost, (hstore.reg (by decide)).trans (s.bump_reg _ 1), hreg, hframe.trans (hstore.mono (by simp)),
      (congrArg (fun u : State => { u with pd := s.pd }) hrest :)⟩
  · show execWindowTimeout id s = _
    rw [execWindowTimeout, List.find?_eq_none.mpr fun x hx => by simpa using h x hx]

end Sys2Proof.Machine

open Sys2Proof Sys2Proof.Machine

/-- Settles O24: a request that arrives is refused, served here or sent to its module, and one still open at its limit is refused. -/
theorem hostWindows : Obligations.HostWindows := by
  unfold Obligations.HostWindows
  exact ⟨windowRequestsOfTheGate, windowTimeoutRefuses⟩
end

section
/-!
PROOFS. The House's shared rules: an ownership word written and read back, its fields (spec/05 Table 05-1), and what leaves all but the
store or device memory alone.
-/
namespace Sys2Proof.Machine

/-! ### Bits and fields of a word -/

/-- A bit cleared reads 0. -/
theorem testBit_setBits_zero (v n : Nat) : (setBits v n 1 0).testBit n = false := by
  have hpos : 0 < 2 ^ n := Nat.two_pow_pos n
  rw [setBits, Nat.shiftRight_eq_div_pow, Nat.shiftLeft_eq, Nat.zero_mod, Nat.zero_shiftLeft, Nat.add_zero, Nat.testBit_eq_decide_div_mod_eq,
    Nat.mul_comm, decide_eq_false_iff_not, Nat.sub_mul_div]
  omega

/-- A field below a bit does not see that bit set. -/
theorem bits_or_two_pow {lo n k : Nat} (h : lo + n ≤ k) (v : Nat) : bits (v ||| 2 ^ k) lo n = bits v lo n := by
  refine Nat.eq_of_testBit_eq fun i => ?_
  unfold bits
  rw [Nat.testBit_mod_two_pow, Nat.testBit_mod_two_pow, Nat.testBit_shiftRight, Nat.testBit_shiftRight, Nat.testBit_or, Nat.testBit_two_pow]
  by_cases hi : i < n
  · have hne : k ≠ lo + i := by omega
    simp [hne]
  · simp [hi]

theorem wordOwner_or_pending (w : Nat) : wordOwner (w ||| 2 ^ 63) = wordOwner w := by
  unfold wordOwner
  rw [bits_or_two_pow (by decide), bits_or_two_pow (by decide)]

theorem wordPartition_lt (w : Nat) : wordPartition w < 16 := Nat.mod_lt _ (by decide)

/-! ### A room's word written and read back -/

theorem State.inL0_congr {s t : State} (h : t.ops = s.ops) : t.inL0 = s.inL0 := by
  unfold State.inL0 State.op
  rw [h]

theorem storeFrame.ownerWord {keys : List Nat} {s t : State} (h : storeFrame keys s t) (hk : Pd.roomOwner ∉ keys) {i : Nat} (hi : i < 1536) :
    t.ownerWord i = s.ownerWord i := h _ _ hk (by omega)

theorem State.ownerWord_setOwnerWord_same (s : State) (r w : Nat) : (s.setOwnerWord r w).ownerWord r = w := s.rd_wr_same _ _ _

theorem State.ownerWord_setOwnerWord_ne (s : State) {r i : Nat} (w : Nat) (h : i ≠ r) :
    (s.setOwnerWord r w).ownerWord i = s.ownerWord i := by
  refine (s.rd_wr _ _ _ _ _).trans (if_neg ?_)
  unfold pdKey
  omega

theorem State.setOwnerWord_frame (s : State) (r w : Nat) : { s.setOwnerWord r w with pd := s.pd } = s := rfl

theorem State.room_setOwnerWord (s : State) (r w i : Nat) : (s.setOwnerWord r w).room i = s.room i := rfl

/-! ### What stays -/

theorem State.bump_frame (s : State) (k n : Nat) : { s.bump k n with pd := s.pd } = s := rfl

/-- What keeps all but device memory keeps it when it is done again and again. -/
theorem State.foldl_mem_frame {α : Type} {f : State → α → State} (hf : ∀ s x, { f s x with mem := s.mem } = s) (l : List α) (s : State) :
    { l.foldl f s with mem := s.mem } = s := by
  induction l generalizing s with
  | nil => rfl
  | cons x l ih =>
    calc { l.foldl f (f s x) with mem := s.mem }
        = { f s x with mem := s.mem } := congrArg (fun u : State => { u with mem := s.mem }) (ih (f s x))
      _ = s := hf s x

theorem State.putBytes_frame (bs : List (Option Byte)) (a : Nat) (s : State) : { s.putBytes a bs with mem := s.mem } = s := by
  induction bs generalizing a s with
  | nil => rfl
  | cons x bs ih =>
    cases x with
    | none => exact ih (a + 1) s
    | some x => exact congrArg (fun u : State => { u with mem := s.mem }) (ih (a + 1) { s with mem := tset 0 s.mem a x })

end Sys2Proof.Machine
end

section
/-!
PROOFS. Requests that wait for one thing and are answered together when it has come (spec/03 R67, R78, spec/05 R117): what is sent, which
requests still wait, and what else may change.
-/
namespace Sys2Proof.Machine

/-! ### One waiting request answered -/

theorem State.answer_out (s : State) (p : Pending) (c : BitVec 16) (b : List Byte) :
    (s.answer p c b).out = s.out ++ reply s p.req c b := State.respond_out (s.unawait p) p.req c b

theorem State.answer_inflight (s : State) (p : Pending) (c : BitVec 16) (b : List Byte) :
    (s.answer p c b).gdp.inflight = s.gdp.inflight.erase p := State.respond_inflight (s.unawait p) p.req c b

theorem State.answer_store (s : State) (p : Pending) (c : BitVec 16) (b : List Byte) :
    storeFrame [Pd.refused, Pd.lastRefusal] s (s.answer p c b) :=
  storeFrame.trans (storeFrame.of_pd rfl) (State.respond_store (s.unawait p) p.req c b)

theorem State.answer_answered (s : State) (p : Pending) (c : BitVec 16) (b : List Byte) : answered p.req.path s (s.answer p c b) :=
  (s.unawait_answered _ p).trans (State.respond_answered _ _ _ _)

/-! ### All of them -/

/-- The requests of a list answered in turn with one code. -/
def State.answerAll (s : State) (l : List Pending) (c : BitVec 16) : State := l.foldl (fun s p => s.answer p c) s

theorem State.answerHandover_eq (s : State) (r : Nat) (c : BitVec 16) :
    s.answerHandover r c = s.answerAll (s.gdp.inflight.filter fun p => decide (p.wait = .handover r)) c := rfl

theorem State.answerAll_store (l : List Pending) (c : BitVec 16) (s : State) :
    storeFrame [Pd.refused, Pd.lastRefusal] s (s.answerAll l c) := by
  induction l generalizing s with
  | nil => exact .refl _ s
  | cons p l ih => exact (s.answer_store p c []).trans (ih (s.answer p c))

theorem State.answerAll_out (l : List Pending) (c : BitVec 16) (s : State) :
    (s.answerAll l c).out = s.out ++ l.flatMap fun p => reply s p.req c [] := by
  induction l generalizing s with
  | nil => exact (List.append_nil _).symm
  | cons p l ih =>
    have hstraps : (s.answer p c).reg Pd.straps = s.reg Pd.straps := (s.answer_store p c []).reg (by decide)
    calc ((s.answer p c).answerAll l c).out
        = (s.answer p c).out ++ l.flatMap fun x => reply (s.answer p c) x.req c [] := ih _
      _ = s.out ++ (p :: l).flatMap fun x => reply s x.req c [] := by
        simp only [s.answer_out, reply_congr hstraps, List.flatMap_cons, List.append_assoc]

theorem State.answerAll_inflight (l : List Pending) (c : BitVec 16) (s : State) :
    (s.answerAll l c).gdp.inflight = s.gdp.inflight.diff l := by
  induction l generalizing s with
  | nil => rfl
  | cons p l ih => exact (ih (s.answer p c)).trans (by rw [s.answer_inflight, List.diff_cons])

/-- Answers touch the store, what is sent, the unanswered and the cache, the Causeway, and nothing else. -/
theorem State.answerAll_frame (l : List Pending) (c : BitVec 16) (s : State) :
    { s.answerAll l c with pd := s.pd, out := s.out, gdp := s.gdp, causeway := s.causeway } = s := by
  induction l generalizing s with
  | nil => rfl
  | cons p l ih =>
    calc { (s.answer p c).answerAll l c with pd := s.pd, out := s.out, gdp := s.gdp, causeway := s.causeway }
        = { s.answer p c with pd := s.pd, out := s.out, gdp := s.gdp, causeway := s.causeway } :=
          congrArg (fun u : State => { u with pd := s.pd, out := s.out, gdp := s.gdp, causeway := s.causeway }) (ih (s.answer p c))
      _ = s := (s.answer_answered p c []).1

/-- The Causeway is left alone where no answer goes there. -/
theorem State.answerAll_causeway {l : List Pending} (c : BitVec 16) (s : State) (h : ∀ p ∈ l, ∀ o k b, p.req.path ≠ .causeway o k b) :
    (s.answerAll l c).causeway = s.causeway := by
  induction l generalizing s with
  | nil => rfl
  | cons p l ih =>
    obtain ⟨-, hkept⟩ := s.answer_answered p c []
    exact (ih (s.answer p c) fun x hx => h x (List.mem_cons_of_mem _ hx)).trans (hkept (h p List.mem_cons_self))

theorem State.answerAll_mem (s : State) (l : List Pending) (c : BitVec 16) : (s.answerAll l c).mem = s.mem :=
  (congrArg State.mem (s.answerAll_frame l c) :)

theorem State.answerAll_rooms (s : State) (l : List Pending) (c : BitVec 16) : (s.answerAll l c).rooms = s.rooms :=
  (congrArg State.rooms (s.answerAll_frame l c) :)

/-- What is left of a list once every element of one kind has been taken out, however often it occurs. -/
theorem mem_diff_filter {α : Type} [BEq α] [LawfulBEq α] (l : List α) (f : α → Bool) (a : α) :
    a ∈ l.diff (l.filter f) ↔ a ∈ l ∧ f a = false := by
  rw [← List.count_pos_iff, List.count_diff]
  cases hf : f a with
  | true => rw [List.count_filter hf]; simp
  | false =>
    have hnone : (l.filter f).count a = 0 := List.count_eq_zero.mpr fun h => by simp [hf] at h
    rw [hnone]
    simp [List.count_pos_iff]

end Sys2Proof.Machine
end

section
/-!
PROOFS. Transposes of a wing, a room wiped, and sequencers with nothing to go on with (spec/05 R127 to R129, R132, spec/11 R309), and the
statement `RoomsTransposeAndWipe` assembled from them.
-/
namespace Sys2Proof.Machine

/-! ### Sequencers with nothing to go on with -/

theorem State.drainFenced_of_noHandover {s : State} (h : ∀ e ∈ s.rooms, e.2.newWord = none) : s.drainFenced = s := by
  have hnone : (s.rooms.filter fun e => e.2.newWord.isSome) = [] := List.filter_eq_nil_iff.mpr fun e he => by simp [h e he]
  rw [State.drainFenced, hnone, List.foldl_nil]

theorem State.dropLost_of_noSpec {s : State} (h : s.spec = []) : s.dropLost = s := by
  rw [State.dropLost, h]
  exact (congrArg (fun l => ({ s with spec := l } : State)) h).symm

theorem State.runEndings_of_noEnding {s : State} (h : s.endings = []) : s.runEndings = s := by
  rw [State.runEndings, h, List.foldl_nil]
  exact (congrArg (fun l => ({ s with endings := l } : State)) h).symm

theorem State.doomHeads_of_noHead {s : State} (h : s.heads = []) : s.doomHeads = s := by
  rw [State.doomHeads, h, List.foldl_nil]

theorem quietSequencersStay : Claims.QuietSequencersStay := by
  intro s hrooms hendings hspec hheads
  have hrounds : s.settle = s.settleOnce := by
    rw [State.settle, hendings, hspec, hheads]
    rfl
  rw [hrounds, State.settleOnce, State.drainFenced_of_noHandover hrooms, State.dropLost_of_noSpec hspec,
    State.runEndings_of_noEnding hendings, hspec, List.map_nil, List.foldl_nil, List.foldl_nil, State.doomHeads_of_noHead hheads]

/-! ### A room wiped -/

/-- The end of a partition's reset: PARTITION_STATE and the answers. -/
theorem State.endPartitionReset_store (s : State) {p : Nat} (hp : p < 16777216) :
    storeFrame [Pd.partitionState, Pd.refused, Pd.lastRefusal] s (s.endPartitionReset p) := by
  unfold State.endPartitionReset
  split
  · have hnormal : storeFrame [Pd.partitionState, Pd.refused, Pd.lastRefusal] s (s.wr Pd.partitionState p 0) :=
      (storeFrame.refl _ s).wr 0 (by simp) hp
    exact hnormal.trans ((State.answerAll_store _ St.ok _).mono (by simp))
  · exact .refl _ s

theorem State.endPartitionReset_frame (s : State) (p : Nat) :
    { s.endPartitionReset p with pd := s.pd, out := s.out, gdp := s.gdp, causeway := s.causeway } = s := by
  unfold State.endPartitionReset
  split
  · exact congrArg (fun u : State => { u with pd := s.pd }) (State.answerAll_frame _ St.ok (s.wr Pd.partitionState p 0))
  · rfl

theorem exec_roomWipeDone_of_wiping {s : State} {r : Nat} (h : s.roomWiping r = true) : exec (.roomWipeDone r) s
    = .next ((s.wiped r).endPartitionReset (wordPartition (s.ownerWord r))).settle := by
  show execRoomWipeDone r s = _
  rw [execRoomWipeDone, if_pos h]

theorem State.wiped_ops (s : State) (r : Nat) : (s.wiped r).ops = s.ops := by
  rw [State.wiped, State.setOwnerWord, State.wr_ops, State.zeroRoom]

theorem State.wiped_mem (s : State) (r : Nat) : (s.wiped r).mem = (s.zeroRoom r).mem := by
  rw [State.wiped, State.setOwnerWord, State.wr_mem]

theorem wipedRoomReadsZero : Claims.WipedRoomReadsZero := by
  intro s r hr hwiping
  have hstore := (s.wiped r).endPartitionReset_store (p := wordPartition (s.ownerWord r)) (Nat.lt_of_lt_of_le (wordPartition_lt _) (by decide))
  have hframe := (s.wiped r).endPartitionReset_frame (wordPartition (s.ownerWord r))
  have hexec := exec_roomWipeDone_of_wiping hwiping
  generalize (s.wiped r).endPartitionReset (wordPartition (s.ownerWord r)) = u at hstore hframe hexec
  have hmem : u.mem = (s.zeroRoom r).mem := (congrArg State.mem hframe).trans (s.wiped_mem r)
  have hops : u.ops = s.ops := (congrArg State.ops hframe).trans (s.wiped_ops r)
  have hword : u.ownerWord r = setBits (s.ownerWord r) 60 1 0 :=
    (hstore.ownerWord (by decide) hr).trans ((s.zeroRoom r).ownerWord_setOwnerWord_same r _)
  refine ⟨u, hexec, fun i hi => ?_, ?_, fun a ha => ?_, fun i hne hi => ?_⟩
  · rw [State.byteAt_of_mem hmem, State.byteAt_zeroRoom, if_pos]
    unfold roomAddr
    omega
  · rw [State.roomWiping, hword, testBit_setBits_zero, Bool.false_or, State.inL0_congr hops]
  · rw [State.byteAt_of_mem hmem, State.byteAt_zeroRoom, if_neg]
    unfold roomAddr at ha ⊢
    omega
  · exact (hstore.ownerWord (by decide) hi).trans ((s.zeroRoom r).ownerWord_setOwnerWord_ne _ hne)

/-! ### A transpose begun or refused -/

/-- The transpose of a wing set. -/
def State.setTranspose (s : State) (w : Nat) (v : Option Transpose) : State := { s with transposes := tset none s.transposes w v }

theorem State.setTranspose_same (s : State) (w : Nat) (v : Option Transpose) : tget none (s.setTranspose w v).transposes w = v :=
  tget_tset_same none s.transposes w v

theorem State.setTranspose_ne (s : State) {w i : Nat} (v : Option Transpose) (h : i ≠ w) :
    tget none (s.setTranspose w v).transposes i = tget none s.transposes i := tget_tset_ne none s.transposes v h

theorem State.setTranspose_emit_mem (s : State) (w : Nat) (v : Option Transpose) (o : Output) :
    ((s.setTranspose w v).emit o).mem = s.mem := rfl

theorem State.startTranspose_of_free {s : State} {who : Owner} {w : Nat} (hown : s.wingRefusal w who = none)
    (hidle : tget none s.transposes w = none) (off e q n : Nat) : s.startTranspose who w off e q n
      = s.setTranspose w (some { offset := off, elem := e, q := q, cycles := n }) := by
  simp [State.startTranspose, State.setTranspose, hown, hidle]

theorem exec_tileTranspose (who : Owner) (w off e : Nat) (s : State) : exec (.tileTranspose who w off e) s
    = .next (if w < 48 ∧ stripOk off e then s.startTranspose who w off e 0 64 else s.transposeInvalid w) := rfl

theorem exec_squareTranspose (who : Owner) (w off e q : Nat) (s : State) : exec (.squareTranspose who w off e q) s
    = if w < 48 ∧ stripOk off e ∧ 1 ≤ q ∧ q * e ≤ 128 ∧ off + 4096 * q ≤ 262144 then
        .next (s.startTranspose who w off e q (64 * q * q))
      else .next (s.transposeInvalid w) := rfl

/-! ### Many places written -/

section
variable {α : Type}

variable (at_ : α → Nat) (bytes : α → List Byte)

/-- Lists of bytes written one after another, each at its place. -/
def State.putEach (s : State) (l : List α) : State := l.foldl (fun t x => t.putBytes (at_ x) (enableAll (bytes x))) s

variable {at_ bytes}

theorem length_enableAll (bs : List Byte) : (enableAll bs).length = bs.length := List.length_map _

theorem State.byteAt_putEach_of_outside {l : List α} {a : Nat} (h : ∀ x ∈ l, a < at_ x ∨ at_ x + (bytes x).length ≤ a) (s : State) :
    (s.putEach at_ bytes l).byteAt a = s.byteAt a := by
  induction l generalizing s with
  | nil => rfl
  | cons x l ih =>
    have hx : (s.putBytes (at_ x) (enableAll (bytes x))).byteAt a = s.byteAt a :=
      State.byteAt_putBytes_ne _ s _ _ (by rw [length_enableAll]; exact h x List.mem_cons_self)
    exact (ih (fun y hy => h y (List.mem_cons_of_mem _ hy)) _).trans hx

/-- Where no other place of the list covers a byte, it reads as the last write of its own place left it. -/
theorem State.byteAt_putEach_of_mem {l : List α} {x : α} {i : Nat} (hx : x ∈ l) (hi : i < (bytes x).length)
    (h : ∀ y ∈ l, y ≠ x → at_ x + i < at_ y ∨ at_ y + (bytes y).length ≤ at_ x + i) (s : State) :
    (s.putEach at_ bytes l).byteAt (at_ x + i) = (bytes x)[i] := by
  induction l generalizing s with
  | nil => simp at hx
  | cons y l ih =>
    by_cases hl : x ∈ l
    · exact ih hl (fun z hz => h z (List.mem_cons_of_mem _ hz)) _
    · obtain rfl : x = y := (List.mem_cons.mp hx).resolve_right hl
      have hrest : ∀ z ∈ l, at_ x + i < at_ z ∨ at_ z + (bytes z).length ≤ at_ x + i :=
        fun z hz => h z (List.mem_cons_of_mem _ hz) fun hzx => hl (hzx ▸ hz)
      refine (State.byteAt_putEach_of_outside hrest _).trans ?_
      rw [State.byteAt_putBytes _ s _ _ (by rwa [length_enableAll])]
      simp [enableAll]

end

/-! ### The elements of a strip (spec/05 R127) -/

/-- A strip's elements: 32 rows of 128 / e tiles of 32 columns. -/
def stripElements (e : Nat) : List (Nat × Nat) := List.range 32 ×ˢ List.range (32 * (128 / e))

theorem mem_stripElements {e : Nat} {x : Nat × Nat} : x ∈ stripElements e ↔ x.1 < 32 ∧ x.2 < 32 * (128 / e) := by
  rw [stripElements, List.mem_product, List.mem_range, List.mem_range]

/-- Where a tile transpose takes element (i, 32t + j) to: (j, 32t + i). -/
def tileMirror (x : Nat × Nat) : Nat × Nat := (x.2 % 32, 32 * (x.2 / 32) + x.1)

theorem tileMirror_mem {e : Nat} {x : Nat × Nat} (h : x ∈ stripElements e) : tileMirror x ∈ stripElements e := by
  rw [mem_stripElements] at h ⊢
  simp only [tileMirror]
  omega

theorem tileMirror_injective {x y : Nat × Nat} (hx : x.1 < 32) (hy : y.1 < 32) (h : tileMirror x = tileMirror y) : x = y := by
  simp only [tileMirror, Prod.mk.injEq] at h
  exact Prod.ext (by omega) (by omega)

/-- The place of an element. -/
def stripAddr (w off e : Nat) (x : Nat × Nat) : Nat := diagonalAddr w off e x.1 x.2

/-- An element lies within one line of its room. -/
theorem lineOffset_lt {e c b : Nat} (he : (e = 1 ∨ e = 2) ∨ e = 4) (hc : c < 32 * (128 / e)) (hb : b < e) : e * (c / 32) + b < 128 := by
  obtain (rfl | rfl) | rfl := he <;> omega

/-- No two elements of a strip share a byte. -/
theorem stripAddr_injective {w off e : Nat} (hok : stripOk off e = true) {x y : Nat × Nat} (hx : x ∈ stripElements e)
    (hy : y ∈ stripElements e) {b b' : Nat} (hb : b < e) (hb' : b' < e) (h : stripAddr w off e x + b = stripAddr w off e y + b') : x = y := by
  rw [mem_stripElements] at hx hy
  obtain ⟨i, c⟩ := x
  obtain ⟨i', c'⟩ := y
  simp only [stripOk, Bool.and_eq_true, Bool.or_eq_true, beq_iff_eq, decide_eq_true_eq] at hok
  simp only [stripAddr, diagonalAddr, roomAddr] at h hx hy
  obtain ⟨⟨-, hoff⟩, he⟩ := hok
  have hcol : e * (c / 32) + b < 128 := lineOffset_lt he hx.2 hb
  have hcol' : e * (c' / 32) + b' < 128 := lineOffset_lt he hy.2 hb'
  have hline : (i + c % 32) % 32 = (i' + c' % 32) % 32 ∧ i = i' ∧ e * (c / 32) + b = e * (c' / 32) + b' := by
    have hroom : (i + c % 32) % 32 < 32 := Nat.mod_lt _ (by decide)
    have hroom' : (i' + c' % 32) % 32 < 32 := Nat.mod_lt _ (by decide)
    generalize (i + c % 32) % 32 = k at *
    generalize (i' + c' % 32) % 32 = k' at *
    generalize e * (c / 32) = x at *
    generalize e * (c' / 32) = x' at *
    omega
  obtain ⟨hroom, rfl, hbyte⟩ := hline
  have ht : c / 32 = c' / 32 := by
    obtain (rfl | rfl) | rfl := he <;> omega
  exact Prod.ext rfl (by simp only; omega)

theorem State.tileTransposed_eq (s : State) (w off e : Nat) : s.tileTransposed w off e
    = s.putEach (fun x => stripAddr w off e (tileMirror x)) (fun x => s.bytesAt (stripAddr w off e x) e) (stripElements e) := by
  simp only [State.putEach, stripElements, SProd.sprod, List.product, List.foldl_flatMap, List.foldl_map]
  rfl

theorem State.length_bytesAt (s : State) (a n : Nat) : (s.bytesAt a n).length = n := by simp [State.bytesAt, tgetMany]

theorem State.getElem_bytesAt (s : State) {a n i : Nat} (h : i < (s.bytesAt a n).length) : (s.bytesAt a n)[i] = s.byteAt (a + i) := by
  simp [State.bytesAt, tgetMany, State.byteAt]

theorem State.tileTransposed_moves {w off e : Nat} (hok : stripOk off e = true) {x : Nat × Nat} (hx : x ∈ stripElements e) {b : Nat}
    (hb : b < e) (s : State) :
    (s.tileTransposed w off e).byteAt (stripAddr w off e (tileMirror x) + b) = s.byteAt (stripAddr w off e x + b) := by
  rw [s.tileTransposed_eq, State.byteAt_putEach_of_mem (at_ := fun x => stripAddr w off e (tileMirror x)) hx
    (by rwa [s.length_bytesAt]) fun y hy hne => ?_, s.getElem_bytesAt]
  rw [s.length_bytesAt]
  by_contra hover
  have hsame : tileMirror x = tileMirror y := stripAddr_injective hok (tileMirror_mem hx) (tileMirror_mem hy) hb
    (b' := stripAddr w off e (tileMirror x) + b - stripAddr w off e (tileMirror y)) (w := w) (by omega) (by omega)
  exact hne (tileMirror_injective (mem_stripElements.mp hx).1 (mem_stripElements.mp hy).1 hsame).symm

theorem State.tileTransposed_keeps {w off e a : Nat} (h : ∀ x ∈ stripElements e, ∀ b, b < e → a ≠ stripAddr w off e x + b) (s : State) :
    (s.tileTransposed w off e).byteAt a = s.byteAt a := by
  rw [s.tileTransposed_eq]
  refine State.byteAt_putEach_of_outside (fun x hx => ?_) s
  by_contra hover
  rw [s.length_bytesAt] at hover
  exact h (tileMirror x) (tileMirror_mem hx) (a - stripAddr w off e (tileMirror x)) (by omega) (by omega)

/-! ### The end of a transpose -/

/-- A transpose carried out, by its kind. -/
def State.transposed (s : State) (w : Nat) (x : Transpose) : State :=
  if x.q = 0 then s.tileTransposed w x.offset x.elem else s.squareTransposed w x.offset x.elem x.q

theorem State.transposed_frame (s : State) (w : Nat) (x : Transpose) : { s.transposed w x with mem := s.mem } = s := by
  unfold State.transposed
  split
  all_goals exact State.foldl_mem_frame (fun t _ => State.foldl_mem_frame (fun u _ => State.putBytes_frame _ _ u) _ t) _ s

theorem exec_transposeDone_of_correct {s : State} {done : TransposeEnd} {x : Transpose} (hx : tget none s.transposes done.wing = some x)
    (h : ∀ y ∈ done.errors, y.2 ≠ .uncorrectable) : exec (.transposeDone done) s
      = let t := (s.bump Pd.eccCorrected (done.errors.filter fun y => y.2 == .corrected).length).transposed done.wing x
        .next ((t.setTranspose done.wing none).emit (.transposeReply done.wing St.ok)) := by
  have hbad : (done.errors.filter fun y => y.2 == .uncorrectable && decide (y.1 < 32)) = [] :=
    List.filter_eq_nil_iff.mpr fun y hy => by simp [h y hy]
  show execTransposeDone done s = _
  simp only [execTransposeDone, hx, hbad, List.isEmpty_nil, Bool.not_true, Bool.false_eq_true, ↓reduceIte]
  rfl

theorem transposeMovesElements : Claims.TransposeMovesElements := by
  refine ⟨fun s who w off e hw hok hown hidle => ?_, fun s who w off e q hw hok hq hqe hfit hown hidle => ?_,
    fun s who w off e q hbad => ?_, fun s done x hx h => ?_⟩
  · rw [exec_tileTranspose, if_pos ⟨hw, hok⟩, State.startTranspose_of_free hown hidle]
    exact ⟨_, rfl, rfl, s.setTranspose_same _ _, fun i hi => s.setTranspose_ne _ hi⟩
  · rw [exec_squareTranspose, if_pos ⟨hw, hok, hq, hqe, hfit⟩, State.startTranspose_of_free hown hidle]
    exact ⟨_, rfl, rfl, s.setTranspose_same _ _⟩
  · rw [exec_tileTranspose, exec_squareTranspose, if_neg (by simp [hbad]), if_neg (by simp [hbad])]
    exact ⟨rfl, rfl⟩
  · have hexec := exec_transposeDone_of_correct hx h
    generalize (done.errors.filter fun y => y.2 == .corrected).length = n at hexec ⊢
    have hcount := s.bump_reg Pd.eccCorrected n
    have hstore := s.bump_store Pd.eccCorrected n
    obtain ⟨d, hd⟩ := s.bump_eq Pd.eccCorrected n
    rw [hd] at hexec hcount hstore
    have hframe := State.transposed_frame { s with pd := d } done.wing x
    have hpd : (State.transposed { s with pd := d } done.wing x).pd = d := (congrArg State.pd hframe :)
    refine ⟨_, hexec, ?_, (State.setTranspose_same _ done.wing none :), (State.rd_of_pd hpd _ _).trans hcount,
      hstore.trans (.of_pd hpd), ?_, fun hq hok => ⟨fun i c hi hc b hb => ?_, fun a ha => ?_⟩⟩
    · exact congrArg (fun u : State => u.out ++ [.transposeReply done.wing St.ok]) hframe
    · exact congrArg (fun u : State => { u with pd := s.pd, out := s.out, transposes := s.transposes }) hframe
    · rw [State.byteAt_of_mem (State.setTranspose_emit_mem _ _ _ _), State.transposed, if_pos hq]
      exact State.tileTransposed_moves hok (x := (i, c)) (mem_stripElements.mpr ⟨hi, hc⟩) hb { s with pd := d }
    · rw [State.byteAt_of_mem (State.setTranspose_emit_mem _ _ _ _), State.transposed, if_pos hq]
      exact State.tileTransposed_keeps (fun y hy b hb => ha y.1 y.2 (mem_stripElements.mp hy).1 (mem_stripElements.mp hy).2 b hb)
        { s with pd := d }

end Sys2Proof.Machine

open Sys2Proof Sys2Proof.Machine

/-- Settles O28: a strip's elements share no byte, so a tile transpose puts each where its mirror image stood. -/
theorem roomsTransposeAndWipe : Obligations.RoomsTransposeAndWipe := by
  unfold Obligations.RoomsTransposeAndWipe
  exact ⟨transposeMovesElements, wipedRoomReadsZero, quietSequencersStay⟩
end

section
/-!
PROOFS. Requests at a room (spec/05 R111 to R113, R117 to R121, R126): where one goes on its arrival, what a room cycle serves and what
the access does to bytes, queues and counters, and the statement `RoomsServeRequests` assembled from them.
-/
namespace Sys2Proof.Machine

/-! ### A refusal noted (spec/05 R120) -/

section
variable (s : State) (r requester : Nat) (principal : Option Owner) (write : Bool)

/-- A refusal counted and copied: the store alone changes. -/
theorem State.refusalCounted_eq (l : Nat) : ∃ d, (s.bump Pd.notOwnerCount).setReg Pd.lastNotOwner l = { s with pd := d }
    ∧ State.reg { s with pd := d } Pd.notOwnerCount = (s.reg Pd.notOwnerCount + 1) % 2 ^ 64 := by
  obtain ⟨d, hd⟩ := s.bump_eq Pd.notOwnerCount 1
  have hcount := s.bump_reg Pd.notOwnerCount 1
  rw [hd] at hcount ⊢
  exact ⟨_, rfl, (State.reg_setReg_ne { s with pd := d } (by decide)).trans hcount⟩

/-- The first refusal since the last handover is recorded as well. -/
theorem State.noteNotOwner_eq : ∃ d l, State.reg { s with pd := d } Pd.notOwnerCount = (s.reg Pd.notOwnerCount + 1) % 2 ^ 64
    ∧ s.noteNotOwner r requester principal write = if (s.room r).refusalSeen then { s with pd := d }
      else (State.setRoom { s with pd := d } r { s.room r with refusalSeen := true }).record 0x02 St.notOwner 3 r l := by
  unfold State.noteNotOwner
  extract_lets _ l u
  obtain ⟨d, hd, hcount⟩ := s.refusalCounted_eq (leNat l)
  have hu : u = { s with pd := d } := hd
  have hroom : State.room { s with pd := d } r = s.room r := rfl
  clear_value l
  refine ⟨d, l, hcount, ?_⟩
  change (if (u.room r).refusalSeen then u
    else (u.setRoom r { u.room r with refusalSeen := true }).record 0x02 St.notOwner 3 r l) = _
  rw [hu, hroom]

theorem State.noteNotOwner_frame :
    { s.noteNotOwner r requester principal write with pd := s.pd, rooms := s.rooms, strand := s.strand } = s := by
  obtain ⟨d, l, -, h⟩ := s.noteNotOwner_eq r requester principal write
  rw [h]
  split
  · rfl
  · exact congrArg (fun t : State => { t with pd := s.pd, rooms := s.rooms }) (State.record_frame _ 0x02 St.notOwner 3 r l)

theorem State.noteNotOwner_count :
    (s.noteNotOwner r requester principal write).reg Pd.notOwnerCount = (s.reg Pd.notOwnerCount + 1) % 2 ^ 64 := by
  obtain ⟨d, l, hcount, h⟩ := s.noteNotOwner_eq r requester principal write
  rw [h]
  split
  · exact hcount
  · exact ((State.record_store _ 0x02 St.notOwner 3 r l).reg (by decide)).trans hcount

theorem State.record_rooms (g : Nat) (c : BitVec 16) (k n : Nat) (d : List Byte) : (s.record g c k n d).rooms = s.rooms :=
  (congrArg State.rooms (s.record_frame g c k n d) :)

/-- The room remembers that it has refused; its queues stay. -/
theorem State.noteNotOwner_room (i : Nat) : ∃ b, (s.noteNotOwner r requester principal write).room i = { s.room i with refusalSeen := b } := by
  obtain ⟨d, l, -, h⟩ := s.noteNotOwner_eq r requester principal write
  rw [h]
  split
  · exact ⟨(s.room i).refusalSeen, rfl⟩
  · rw [State.room, State.record_rooms, ← State.room]
    by_cases hi : i = r
    · exact ⟨true, by rw [hi, State.room_setRoom_same]⟩
    · exact ⟨(s.room i).refusalSeen, State.room_setRoom_ne _ _ hi⟩

end

/-! ### Where an arriving request goes -/

theorem State.roomAnswer_of_outside {q : RoomReq} (h : q.own = false) (s : State) (r : Nat) (c : BitVec 16) (d : List Byte) :
    s.roomAnswer r q c d = s.emit (.roomReply r q.tag c d) := by simp [State.roomAnswer, h]

/-- The queue of a room that a request belongs to: the second port's, the owner's or the DMA class's. -/
def Room.queueOf (x : Room) (portB : Bool) (q : RoomReq) : List RoomReq :=
  if portB then x.portBQ else if q.cls = .owner then x.ownerQ else x.dmaQ

/-- The room with a request at the end of its queue. -/
def Room.join (x : Room) (portB : Bool) (q : RoomReq) : Room :=
  if portB then { x with portBQ := x.portBQ ++ [q] }
  else if q.cls = .owner then { x with ownerQ := x.ownerQ ++ [q] } else { x with dmaQ := x.dmaQ ++ [q] }

theorem Room.queueOf_join (x : Room) (portB : Bool) (q : RoomReq) : (x.join portB q).queueOf portB q = x.queueOf portB q ++ [q] := by
  unfold Room.queueOf Room.join
  split
  · rfl
  · split <;> rfl

section
variable {s : State} {r : Nat} {q : RoomReq}

theorem State.enterRoom_of_fenced (hp : s.unpowered = false) (hf : s.roomFenced r = true) :
    (s.enterRoom r q).1 = s.roomAnswer r q St.fenced [] := by simp [State.enterRoom, hp, hf]

theorem State.enterRoom_of_afterMarker (hp : s.unpowered = false) (hf : s.roomFenced r = false) (hm : s.afterMarker r q = true)
    (ho : q.own = false) : (s.enterRoom r q).1 = (s.noteNotOwner r q.requester q.principal q.write).roomAnswer r q St.notOwner [] := by
  simp [State.enterRoom, hp, hf, hm, State.refuseAll, ho]

theorem State.enterRoom_of_open (hp : s.unpowered = false) (hf : s.roomFenced r = false) (hm : s.afterMarker r q = false) :
    (s.enterRoom r q).1 = if ((s.room r).queueOf (s.usesPortB r q) q).length < 16 then s.setRoom r ((s.room r).join (s.usesPortB r q) q)
      else s := by
  unfold State.enterRoom Room.queueOf Room.join
  cases s.usesPortB r q with
  | true => simp [hp, hf, hm, apply_ite Prod.fst]
  | false =>
    cases hc : q.cls with
    | owner => simp [hp, hf, hm, apply_ite Prod.fst]
    | dma => simp [hp, hf, hm, apply_ite Prod.fst]

/-- A request behind its unit's marker is refused and noted; no queue changes. -/
theorem State.enterRoom_refused_spec (hp : s.unpowered = false) (hf : s.roomFenced r = false) (hm : s.afterMarker r q = true)
    (ho : q.own = false) : (s.enterRoom r q).1.out = s.out ++ [.roomReply r q.tag St.notOwner []]
      ∧ (s.enterRoom r q).1.reg Pd.notOwnerCount = (s.reg Pd.notOwnerCount + 1) % 2 ^ 64 ∧ (s.enterRoom r q).1.mem = s.mem
      ∧ ∀ i, ((s.enterRoom r q).1.room i).ownerQ = (s.room i).ownerQ ∧ ((s.enterRoom r q).1.room i).dmaQ = (s.room i).dmaQ
        ∧ ((s.enterRoom r q).1.room i).portBQ = (s.room i).portBQ := by
  rw [State.enterRoom_of_afterMarker hp hf hm ho, State.roomAnswer_of_outside ho]
  have hframe := s.noteNotOwner_frame r q.requester q.principal q.write
  have hcount := s.noteNotOwner_count r q.requester q.principal q.write
  have hroom := s.noteNotOwner_room r q.requester q.principal q.write
  generalize s.noteNotOwner r q.requester q.principal q.write = t at hframe hcount hroom
  refine ⟨congrArg (fun u : State => u.out ++ [.roomReply r q.tag St.notOwner []]) hframe, hcount, (congrArg State.mem hframe :),
    fun i => ?_⟩
  obtain ⟨b, hb⟩ := hroom i
  have hemit : (t.emit (.roomReply r q.tag St.notOwner [])).room i = t.room i := rfl
  rw [hemit, hb]
  exact ⟨rfl, rfl, rfl⟩

/-- Any other request joins the end of its queue while that has room, and nothing else changes. -/
theorem State.enterRoom_open_spec (hp : s.unpowered = false) (hf : s.roomFenced r = false) (hm : s.afterMarker r q = false) :
    { (s.enterRoom r q).1 with rooms := s.rooms } = s ∧ (∀ i, i ≠ r → (s.enterRoom r q).1.room i = s.room i)
    ∧ ((s.enterRoom r q).1.room r).queueOf (s.usesPortB r q) q = if ((s.room r).queueOf (s.usesPortB r q) q).length < 16
        then (s.room r).queueOf (s.usesPortB r q) q ++ [q] else (s.room r).queueOf (s.usesPortB r q) q := by
  rw [State.enterRoom_of_open hp hf hm]
  split
  · exact ⟨rfl, fun i hi => s.room_setRoom_ne _ hi, by rw [State.room_setRoom_same, Room.queueOf_join]⟩
  · exact ⟨rfl, fun _ _ => rfl, rfl⟩

theorem exec_roomRequest (s : State) (r : Nat) (q : RoomReq) : exec (.roomRequest r q) s = .next (s.enterRoom r { q with own := false }).1 :=
  rfl

end

theorem roomRequestJoinsItsQueue : Claims.RoomRequestJoinsItsQueue := by
  intro s r req hp q
  have ho : q.own = false := rfl
  refine ⟨fun hf => ?_, fun hf hm => ⟨_, exec_roomRequest s r req, State.enterRoom_refused_spec hp hf hm ho⟩,
    fun hf hm => ⟨_, exec_roomRequest s r req, State.enterRoom_open_spec hp hf hm⟩⟩
  rw [exec_roomRequest, State.enterRoom_of_fenced hp hf, State.roomAnswer_of_outside ho]
  rfl

/-! ### An access (spec/05 R111, R112, R126) -/

/-- The bytes of one line written, where the request writes. -/
def State.lineWritten (s : State) (r : Nat) (q : RoomReq) : State :=
  if q.write then s.putBytes (roomAddr r q.offset) (q.data.take (firstHalf q)) else s

/-- The bytes of one line read, where the request reads. -/
def State.lineRead (s : State) (r : Nat) (q : RoomReq) : List Byte := if q.write then [] else s.bytesAt (roomAddr r q.offset) (firstHalf q)

/-- What is left of a request that crosses a line once its lower half has been carried out. -/
def upperHalf (q : RoomReq) (read : List Byte) : RoomReq :=
  { q with offset := q.offset + firstHalf q, len := q.len - firstHalf q, data := q.data.drop (firstHalf q), lower := q.lower ++ read }

section
variable {s : State} {r : Nat} {q : RoomReq}

theorem State.roomAccess_of_whole (h : firstHalf q = q.len) (ho : q.own = false) (k : State → RoomReq → State) :
    s.roomAccess r q k = (s.lineWritten r q).emit (.roomReply r q.tag St.ok (q.lower ++ s.lineRead r q)) := by
  have hwhole : ¬ firstHalf q < q.len := by omega
  unfold State.roomAccess
  rw [if_neg hwhole, State.roomAnswer_of_outside ho]
  rfl

theorem State.roomAccess_of_split (h : firstHalf q < q.len) (k : State → RoomReq → State) :
    s.roomAccess r q k = k (s.lineWritten r q) (upperHalf q (s.lineRead r q)) := by
  unfold State.roomAccess
  rw [if_pos h]
  rfl

theorem State.lineWritten_frame (s : State) (r : Nat) (q : RoomReq) : { s.lineWritten r q with mem := s.mem } = s := by
  unfold State.lineWritten
  split
  · exact State.putBytes_frame _ _ s
  · rfl

theorem State.lineWritten_of_read (h : q.write = false) : s.lineWritten r q = s := by simp [State.lineWritten, h]

theorem firstHalf_le (q : RoomReq) : firstHalf q ≤ q.len := Nat.min_le_left _ _

theorem length_data_of_write (hw : q.wellFormed = true) (h : q.write = true) : q.data.length = q.len := by
  simp only [RoomReq.wellFormed, h, ↓reduceIte, Bool.and_eq_true, beq_iff_eq] at hw
  exact hw.2

theorem State.byteAt_lineWritten (hw : q.wellFormed = true) (h : q.write = true) {i : Nat} (hi : i < firstHalf q) :
    (s.lineWritten r q).byteAt (roomAddr r q.offset + i) = (q.data[i]?.join).getD (s.byteAt (roomAddr r q.offset + i)) := by
  have hlen := length_data_of_write hw h
  have hle := firstHalf_le q
  have hdata : i < q.data.length := by omega
  rw [State.lineWritten, if_pos h, State.byteAt_putBytes _ s _ _ (by rw [List.length_take]; omega), List.getElem_take,
    List.getElem?_eq_getElem hdata, Option.join_some]

theorem State.byteAt_lineWritten_ne {b : Nat} (hb : b < roomAddr r q.offset ∨ roomAddr r q.offset + firstHalf q ≤ b) :
    (s.lineWritten r q).byteAt b = s.byteAt b := by
  unfold State.lineWritten
  split
  · exact State.byteAt_putBytes_ne _ s _ _ (by rw [List.length_take]; omega)
  · rfl

/-! ### Port A serves the owner's oldest request -/

/-- The state in which port A has taken the oldest request from the owner queue. -/
def State.ownerTaken (s : State) (r : Nat) (q : RoomReq) (rest : List RoomReq) : State :=
  s.setRoom r { s.room r with ownerQ := rest, lastServed := q.requester }

/-- Whole, the request is answered; crossing a line, it stays first in its queue with its upper half. -/
theorem State.portACycle_of_owner {rest : List RoomReq} (h : (s.room r).ownerQ = q :: rest) (hp : q.principal ≠ none) (ho : q.own = false) :
    let u := (s.ownerTaken r q rest).lineWritten r q
    let read := (s.ownerTaken r q rest).lineRead r q
    (firstHalf q = q.len → s.portACycle r q = u.emit (.roomReply r q.tag St.ok (q.lower ++ read)))
    ∧ (firstHalf q < q.len → s.portACycle r q = u.setRoom r { u.room r with ownerQ := upperHalf q read :: (u.room r).ownerQ }) := by
  have hprincipal : q.principal.isNone = false := Option.isNone_eq_false_iff.mpr (Option.isSome_iff_ne_none.mpr hp)
  have hcycle : s.portACycle r q = (s.ownerTaken r q rest).roomAccess r q fun u q' =>
      u.setRoom r { u.room r with ownerQ := q' :: (u.room r).ownerQ } := by
    simp [State.portACycle, State.ownerTaken, h, hprincipal]
  rw [hcycle]
  exact ⟨fun hn => State.roomAccess_of_whole hn ho _, fun hn => State.roomAccess_of_split hn _⟩

theorem State.ownerTaken_mem (s : State) (r : Nat) (q : RoomReq) (rest : List RoomReq) : (s.ownerTaken r q rest).mem = s.mem := rfl

theorem State.lineRead_ownerTaken (s : State) (r : Nat) (q : RoomReq) (rest : List RoomReq) :
    (s.ownerTaken r q rest).lineRead r q = s.lineRead r q := rfl

/-- The cycle's effect on bytes, replies and queues, and that it has no other. -/
theorem State.portACycle_owner_spec {rest : List RoomReq} (h : (s.room r).ownerQ = q :: rest) (hp : q.principal ≠ none) (ho : q.own = false)
    {t : State} (ht : s.portACycle r q = t) : t.mem = ((s.ownerTaken r q rest).lineWritten r q).mem
    ∧ (firstHalf q = q.len → t.out = s.out ++ [.roomReply r q.tag St.ok (q.lower ++ s.lineRead r q)] ∧ (t.room r).ownerQ = rest)
    ∧ (firstHalf q < q.len → t.out = s.out ∧ (t.room r).ownerQ = upperHalf q (s.lineRead r q) :: rest)
    ∧ (t.room r).dmaQ = (s.room r).dmaQ ∧ t.pd = s.pd ∧ { t with mem := s.mem, out := s.out, rooms := s.rooms } = s := by
  obtain ⟨hwhole, hsplit⟩ := State.portACycle_of_owner h hp ho
  have hframe := (s.ownerTaken r q rest).lineWritten_frame r q
  rw [s.lineRead_ownerTaken] at hwhole hsplit
  generalize (s.ownerTaken r q rest).lineWritten r q = u at hwhole hsplit hframe ⊢
  have hroom : u.room r = { s.room r with ownerQ := rest, lastServed := q.requester } :=
    (congrArg (fun v : State => v.room r) hframe).trans (s.room_setRoom_same r _)
  have hout : u.out = s.out := (congrArg State.out hframe :)
  have hpd : u.pd = s.pd := (congrArg State.pd hframe :)
  have hrest : { u with mem := s.mem, out := s.out, rooms := s.rooms } = s :=
    congrArg (fun v : State => { v with out := s.out, rooms := s.rooms }) hframe
  rcases Nat.lt_or_eq_of_le (firstHalf_le q) with hn | hn
  · rw [← ht, hsplit hn, State.room_setRoom_same, hroom]
    exact ⟨rfl, fun hl => absurd hl (Nat.ne_of_lt hn), fun _ => ⟨hout, rfl⟩, rfl, hpd, hrest⟩
  · have hemit (o : Output) : (u.emit o).room r = u.room r := rfl
    rw [← ht, hwhole hn, hemit, hroom]
    exact ⟨rfl, fun _ => ⟨congrArg (fun l : List Output => l ++ [.roomReply r q.tag St.ok (q.lower ++ s.lineRead r q)]) hout, rfl⟩,
      fun hl => absurd hn (Nat.ne_of_lt hl), rfl, hpd, hrest⟩

/-! ### What a room cycle serves (spec/05 R121) -/

/-- A word of the access that is not past correcting: one corrected is counted, and the access is carried out. -/
theorem State.checked_of_correct {ecc : Ecc} (h : ecc ≠ .uncorrectable) (s : State) (r : Nat) (access : State → State) : ∃ v : State,
    s.checked r ecc access = access v ∧ { v with pd := s.pd } = s ∧ storeFrame [Pd.eccCorrected] s v
      ∧ (ecc = .corrected → v.reg Pd.eccCorrected = (s.reg Pd.eccCorrected + 1) % 2 ^ 64) := by
  cases ecc with
  | clean => exact ⟨s, rfl, rfl, .refl _ s, fun h => by cases h⟩
  | corrected => exact ⟨s.bump Pd.eccCorrected, rfl, s.bump_frame _ 1, s.bump_store _ 1, fun _ => s.bump_reg _ 1⟩
  | uncorrectable => exact absurd rfl h

end

/-! ### A cycle in service mode whose waiting requests are all permitted (spec/05 R121) -/

section
variable {s : State} {r : Nat} {q : RoomReq} {rest : List RoomReq} (ecc : RoomEcc) (hpower : s.unpowered = false)
  (hfenced : s.roomFenced r = false) (hwiping : s.roomWiping r = false) (hhalted : s.halted (66 + r / 192) = false)
  (hidle : tget none s.transposes (r / 32) = none) (hservice : s.sharedMode r = false) (hq : (s.room r).ownerQ = q :: rest)
  (hportB : (s.room r).portBQ = []) (hserve : ∀ x ∈ (s.room r).ownerQ ++ (s.room r).dmaQ, s.roomVerdict r false x = .serve)
include hpower hfenced hwiping hhalted hidle hservice hq hportB hserve

/-- Nothing is refused, the second port is idle, and the owner's oldest request is served while the DMA class waits. -/
theorem exec_roomCycle_of_owner : exec (.roomCycle r ecc) s
    = .next (((s.setRoom r (s.room r)).bump Pd.dmaWaitCycles (s.room r).dmaQ.length).checked r ecc.a fun t => t.portACycle r q) := by
  have hall (l : List RoomReq) (hl : ∀ x ∈ l, s.roomVerdict r false x = .serve) :
      (l.filter fun x => decide (s.roomVerdict r false x = .refuse)) = []
        ∧ (l.filter fun x => !decide (s.roomVerdict r false x = .refuse)) = l
        ∧ (l.filter fun x => decide (s.roomVerdict r false x = .serve)) = l :=
    ⟨List.filter_eq_nil_iff.mpr fun x hx => by simp [hl x hx], List.filter_eq_self.mpr fun x hx => by simp [hl x hx],
      List.filter_eq_self.mpr fun x hx => by simp [hl x hx]⟩
  obtain ⟨hbad, hkept, hserved⟩ := hall _ fun x hx => hserve x (List.mem_append_left _ hx)
  obtain ⟨hbad', hkept', hserved'⟩ := hall _ fun x hx => hserve x (List.mem_append_right _ hx)
  have hroom : { s.room r with portBQ := [] } = s.room r := by rw [← hportB]
  have hportBIdle (e : Ecc) : (s.setRoom r (s.room r)).portBCycle r e = s.setRoom r (s.room r) := by
    simp [State.portBCycle, hportB, pickService]
  have hopen : (s.setRoom r (s.room r)).roomFenced r = false := hfenced
  change execRoomCycle r ecc s = _
  simp only [execRoomCycle, hpower, hfenced, hwiping, hhalted, hidle, hservice, hbad, hkept, hserved, hbad', hkept', hserved', hportB,
    List.filter_nil, List.append_nil, State.refuseAll, hroom, hportBIdle, Bool.or_self, Bool.false_eq_true, ↓reduceIte, Option.isSome_none]
  rw [hq]
  simp [pickService, hopen, Option.filter]

/-- The state in which port A serves the request: the wait and a corrected word are counted, and nothing else has changed. -/
theorem exec_roomCycle_counted (hecc : ecc.a ≠ .uncorrectable) : ∃ v : State, exec (.roomCycle r ecc) s = .next (v.portACycle r q)
    ∧ { v with pd := s.pd, rooms := s.rooms } = s ∧ v.room r = s.room r ∧ storeFrame [Pd.dmaWaitCycles, Pd.eccCorrected] s v
    ∧ v.reg Pd.dmaWaitCycles = (s.reg Pd.dmaWaitCycles + (s.room r).dmaQ.length) % 2 ^ 64
    ∧ (ecc.a = .corrected → v.reg Pd.eccCorrected = (s.reg Pd.eccCorrected + 1) % 2 ^ 64) := by
  have hexec := exec_roomCycle_of_owner ecc hpower hfenced hwiping hhalted hidle hservice hq hportB hserve
  have hset : { s.setRoom r (s.room r) with rooms := s.rooms } = s := rfl
  have hsetRoom : (s.setRoom r (s.room r)).room r = s.room r := s.room_setRoom_same r _
  have hsetStore : storeFrame [] s (s.setRoom r (s.room r)) := .of_pd rfl
  generalize s.setRoom r (s.room r) = s₁ at hexec hset hsetRoom hsetStore
  have hwait := s₁.bump_reg Pd.dmaWaitCycles (s.room r).dmaQ.length
  have hwaitStore := s₁.bump_store Pd.dmaWaitCycles (s.room r).dmaQ.length
  have hwaitFrame := s₁.bump_frame Pd.dmaWaitCycles (s.room r).dmaQ.length
  generalize s₁.bump Pd.dmaWaitCycles (s.room r).dmaQ.length = s₂ at hexec hwait hwaitStore hwaitFrame
  obtain ⟨v, hchecked, hframe, hstore, hcorrected⟩ := State.checked_of_correct hecc s₂ r fun t => t.portACycle r q
  rw [hsetStore.reg (by simp)] at hwait
  rw [hwaitStore.reg (by decide), hsetStore.reg (by simp)] at hcorrected
  refine ⟨v, hexec.trans (congrArg _ hchecked), ?_, ?_, ?_, (hstore.reg (by decide)).trans hwait, hcorrected⟩
  · calc { v with pd := s.pd, rooms := s.rooms }
        = { s₂ with pd := s.pd, rooms := s.rooms } := congrArg (fun u : State => { u with pd := s.pd, rooms := s.rooms }) hframe
      _ = { s₁ with pd := s.pd, rooms := s.rooms } := congrArg (fun u : State => { u with pd := s.pd, rooms := s.rooms }) hwaitFrame
      _ = s := congrArg (fun u : State => { u with pd := s.pd }) hset
  · calc v.room r = s₂.room r := (congrArg (fun u : State => u.room r) hframe :)
      _ = s₁.room r := (congrArg (fun u : State => u.room r) hwaitFrame :)
      _ = s.room r := hsetRoom
  · exact (hsetStore.mono (by simp)).trans ((hwaitStore.mono (by simp)).trans (hstore.mono (by simp)))

end

theorem roomCycleServesOwnersFirst : Claims.RoomCycleServesOwnersFirst := by
  intro s r q rest ecc hpower hfenced hwiping hhalted hidle hservice hq hportB hserve hp hw ho hecc n a
  obtain ⟨v, hexec, hframe, hroom, hstore, hwait, hcorrected⟩ :=
    exec_roomCycle_counted ecc hpower hfenced hwiping hhalted hidle hservice hq hportB hserve hecc
  rw [← hroom] at hq
  obtain ⟨hmem, hwhole, hsplit, hdma, hpd, hrest⟩ := State.portACycle_owner_spec hq hp ho rfl
  generalize v.portACycle r q = t at hexec hmem hwhole hsplit hdma hpd hrest
  have hvmem : v.mem = s.mem := (congrArg State.mem hframe :)
  have hvout : v.out = s.out := (congrArg State.out hframe :)
  have htaken : (v.ownerTaken r q rest).mem = s.mem := (v.ownerTaken_mem r q rest).trans hvmem
  have hread : v.lineRead r q = if q.write then [] else s.bytesAt a n := by
    unfold State.lineRead State.bytesAt
    rw [hvmem]
  rw [hvout, hread] at hwhole
  rw [hvout] at hsplit
  refine ⟨t, hexec, fun hwrite => ⟨fun i hi => ?_, fun b hb => ?_⟩, fun hwrite => ?_, hwhole, fun hn => ?_, hdma.trans (congrArg _ hroom),
    (State.rd_of_pd hpd _ _).trans hwait, fun hc => (State.rd_of_pd hpd _ _).trans (hcorrected hc), hstore.trans (.of_pd hpd), ?_⟩
  · rw [State.byteAt_of_mem hmem, State.byteAt_lineWritten hw hwrite hi, State.byteAt_of_mem htaken]
  · rw [State.byteAt_of_mem hmem, State.byteAt_lineWritten_ne hb, State.byteAt_of_mem htaken]
  · rw [hmem, State.lineWritten_of_read hwrite, htaken]
  · obtain ⟨hout, hqueue⟩ := hsplit hn
    exact ⟨hout, _, hqueue, rfl, rfl, rfl⟩
  · exact (congrArg (fun u : State => { u with mem := s.mem, out := s.out, rooms := s.rooms, pd := s.pd }) hrest).trans
      (congrArg (fun u : State => { u with mem := s.mem, out := s.out }) hframe)

end Sys2Proof.Machine

open Sys2Proof Sys2Proof.Machine

/-- Settles O26: a request that arrives is refused or joins its queue, and a cycle in service mode takes the owner's oldest first. -/
theorem roomsServeRequests : Obligations.RoomsServeRequests := by
  unfold Obligations.RoomsServeRequests
  exact ⟨roomRequestJoinsItsQueue, roomCycleServesOwnersFirst⟩
end

section
/-!
PROOFS. A room that changes its owner (spec/05 R115 to R118): the fields of an ownership word, a handover begun, ended and answered, and
the statement `RoomsChangeOwner` assembled from them.
-/
namespace Sys2Proof.Machine

/-! ### Ownership words (spec/05 Table 05-1) -/

/-- The checks of R116 look at the room's word, at which units are fenced and at whether L0 runs. -/
theorem State.handoverCheck_congr {s t : State} {r : Nat} (hword : t.ownerWord r = s.ownerWord r)
    (hunit : ∀ u, t.unitFenced u = s.unitFenced u) (hL0 : t.inL0 = s.inL0) (w : Nat) : t.handoverCheck r w = s.handoverCheck r w := by
  have hfenced : t.roomFenced r = s.roomFenced r := congrArg (fun x : Nat => x.testBit 62) hword
  have hpending : t.roomPending r = s.roomPending r := congrArg (fun x : Nat => x.testBit 63) hword
  have hwiping : t.roomWiping r = s.roomWiping r := congrArg₂ (fun (x : Nat) (b : Bool) => x.testBit 60 || b) hword hL0
  have hshadow : t.roomShadow r = s.roomShadow r := congrArg (fun x : Nat => x.testBit 61) hword
  simp only [State.handoverCheck, hfenced, hunit, hpending, hwiping, hshadow]

theorem State.sameOwnership_congr {s t : State} {r : Nat} (hword : t.ownerWord r = s.ownerWord r) (w : Nat) :
    t.sameOwnership r w = s.sameOwnership r w := by
  rw [State.sameOwnership, State.sameOwnership, hword]

section
variable (s : State) (p : GdpPath)

theorem State.ownerWord_countRequest {r : Nat} (h : r < 1536) : (s.countRequest p).ownerWord r = s.ownerWord r :=
  (s.countRequest_store p).ownerWord (by decide) h

theorem State.unitFenced_countRequest (u : Owner) : (s.countRequest p).unitFenced u = s.unitFenced u := by
  cases u with
  | harbour => rfl
  | engine n => exact congrArg (fun x : Nat => x.testBit n) (s.countRequest_reg p (k := Pd.enginesFenced) (by decide))
  | feeder => exact congrArg (fun x : Nat => x.testBit 1) (s.countRequest_reg p (k := Pd.islandFenced) (by decide))
  | estuary => exact congrArg (fun x : Nat => x.testBit 94) (s.countRequest_reg p (k := Pd.islandFenced) (by decide))

theorem State.inL0_countRequest : (s.countRequest p).inL0 = s.inL0 := State.inL0_congr (by rw [s.countRequest_eq p])

end

/-! ### A handover begun (spec/05 R117) -/

/-- The room of a handover that waits for its outgoing owner. -/
def Room.handing (x : Room) (w : Nat) (by_ : HandoverBy) : Room :=
  { x with newWord := some (BitVec.ofNat 64 w), marker := true, readerMarker := false, by_ := by_ }

theorem State.beginHandover_of_working {s : State} {r : Nat} (ho : s.unitFenced (s.roomOwnerOf r) = false) (hr : s.roomReaderOf r = none)
    (w : Nat) (by_ : HandoverBy) : s.beginHandover r w by_
      = ((s.setOwnerWord r (s.ownerWord r ||| 2 ^ 63)).setRoom r ((s.room r).handing w by_)).emit (.drainMarker r (s.roomOwnerOf r) false) := by
  simp only [State.beginHandover, ho, hr, Bool.not_false, Bool.not_true, Bool.false_and, Bool.false_eq_true, ↓reduceIte,
    State.room_setOwnerWord, Room.handing]

/-- PENDING is set, the marker goes out, the room notes its new word; nothing else of the ownership changes. -/
theorem State.beginHandover_spec {s : State} {r : Nat} (ho : s.unitFenced (s.roomOwnerOf r) = false) (hr : s.roomReaderOf r = none)
    (hroom : r < 1536) (w : Nat) (by_ : HandoverBy) : (s.beginHandover r w by_).ownerWord r = s.ownerWord r ||| 2 ^ 63
      ∧ (∀ i, i ≠ r → (s.beginHandover r w by_).ownerWord i = s.ownerWord i)
      ∧ (s.beginHandover r w by_).out = s.out ++ [.drainMarker r (s.roomOwnerOf r) false]
      ∧ ((s.beginHandover r w by_).room r).newWord = some (BitVec.ofNat 64 w) ∧ (s.beginHandover r w by_).gdp = s.gdp
      ∧ storeFrame [Pd.roomOwner] s (s.beginHandover r w by_) := by
  rw [State.beginHandover_of_working ho hr]
  have hsame := s.ownerWord_setOwnerWord_same r (s.ownerWord r ||| 2 ^ 63)
  have hne := fun i (hi : i ≠ r) => s.ownerWord_setOwnerWord_ne (s.ownerWord r ||| 2 ^ 63) hi
  have hstore : storeFrame [Pd.roomOwner] s (s.setOwnerWord r (s.ownerWord r ||| 2 ^ 63)) :=
    (storeFrame.refl _ s).wr _ (by simp) (by omega)
  have hout : (s.setOwnerWord r (s.ownerWord r ||| 2 ^ 63)).out = s.out := s.wr_out _ _ _
  have hgdp : (s.setOwnerWord r (s.ownerWord r ||| 2 ^ 63)).gdp = s.gdp := s.wr_gdp _ _ _
  generalize s.setOwnerWord r (s.ownerWord r ||| 2 ^ 63) = v at *
  exact ⟨hsame, hne, congrArg (· ++ [Output.drainMarker r (s.roomOwnerOf r) false]) hout,
    congrArg Room.newWord (v.room_setRoom_same r ((s.room r).handing w by_)), hgdp, hstore.trans (.of_pd rfl)⟩

/-! ### ROOM_OWNER -/

theorem roomOwner_not_persistent {e : EntryInfo} (h : entryInfo Pd.roomOwner = some e) : e.persistent = false := by
  have hrow : (entryInfo Pd.roomOwner).map (·.persistent) = some false := by decide +kernel
  rw [h] at hrow
  exact Option.some.inj hrow

/-- The request that ROOM_OWNER makes: 8 bytes at the room's word. -/
def roomOwnerReq (o : Origin) (r : Nat) (word : BitVec 64) : Req := ownWrite o Pd.roomOwner (8 * r) (natLE 8 word.toNat)

section
variable {s : State} {o : Origin} {r : Nat} {word : BitVec 64} {role : Role} {e : EntryInfo}

theorem roomOwnerReq_fields (hr : r < 1536) : (roomOwnerReq o r word).offset = 8 * r ∧ (roomOwnerReq o r word).data.length = 8
    ∧ (roomOwnerReq o r word).value = word.toNat := by
  refine ⟨Nat.mod_eq_of_lt (by omega), length_natLE 8 _, leNat_natLE ?_⟩
  exact word.isLt

theorem serveRoomOwner_of_same (hr : r < 1536) (hcheck : s.handoverCheck r (wordFields word.toNat) = none)
    (hsame : s.sameOwnership r (wordFields word.toNat) = true) : serveRoomOwner role e (roomOwnerReq o r word) s = { state := s } := by
  obtain ⟨hoff, hlen, hvalue⟩ := roomOwnerReq_fields (o := o) (word := word) hr
  simp [serveRoomOwner, hoff, hlen, hvalue, hcheck, hsame]

theorem serveRoomOwner_of_begin (hr : r < 1536) (hcheck : s.handoverCheck r (wordFields word.toNat) = none)
    (hother : s.sameOwnership r (wordFields word.toNat) = false)
    (hpending : (s.beginHandover r (wordFields word.toNat) .dictionary).roomPending r = true) :
    serveRoomOwner role e (roomOwnerReq o r word) s
      = { state := s.beginHandover r (wordFields word.toNat) .dictionary, wait := some (.handover r) } := by
  obtain ⟨hoff, hlen, hvalue⟩ := roomOwnerReq_fields (o := o) (word := word) hr
  simp [serveRoomOwner, hoff, hlen, hvalue, hcheck, hother, hpending]

theorem exec_roomOwner_of_admitted (h : admitted s (roomOwnerReq o r word) role e = true) : exec (.roomOwner o r word) s
    = .next ((s.countRequest (roomOwnerReq o r word).path).conclude e (roomOwnerReq o r word)
        (serveRoomOwner role e (roomOwnerReq o r word) (s.countRequest (roomOwnerReq o r word).path))) := by
  have hopcode : (roomOwnerReq o r word).hdr.opcode = 2 := rfl
  have h3 : (roomOwnerReq o r word).hdr.opcode ≠ 3 := by rw [hopcode]; decide
  have h4 : (roomOwnerReq o r word).hdr.opcode ≠ 4 := by rw [hopcode]; decide
  exact congrArg Host.Outcome.next (State.receiveOwn_admitted serveRoomOwner h h3 h4)

theorem entryInfo_of_roomOwner (h : admitted s (roomOwnerReq o r word) role e = true) : entryInfo Pd.roomOwner = some e := by
  rw [← ownWrite_key o (8 * r) (natLE 8 word.toNat) (key := Pd.roomOwner) (by decide)]
  exact entryInfo_of_admitted h

/-- Counting a request changes nothing that a handover's checks look at. -/
theorem State.handoverCheck_countRequest (s : State) (p : GdpPath) (hr : r < 1536) (w : Nat) :
    (s.countRequest p).handoverCheck r w = s.handoverCheck r w ∧ (s.countRequest p).sameOwnership r w = s.sameOwnership r w :=
  ⟨State.handoverCheck_congr (s.ownerWord_countRequest p hr) (s.unitFenced_countRequest p) (s.inL0_countRequest p) w,
    State.sameOwnership_congr (s.ownerWord_countRequest p hr) w⟩

/-- A word that names what stands there already is answered at once. -/
theorem roomOwner_unchanged (hr : r < 1536) (h : admitted s (roomOwnerReq o r word) role e = true)
    (hcheck : s.handoverCheck r (wordFields word.toNat) = none) (hsame : s.sameOwnership r (wordFields word.toNat) = true) :
    ∃ t, exec (.roomOwner o r word) s = .next t ∧ t.out = s.out ++ reply s (roomOwnerReq o r word) St.ok []
      ∧ storeFrame requestCounters s t ∧ answered (roomOwnerReq o r word).path s t := by
  have hexec := exec_roomOwner_of_admitted h
  obtain ⟨hcheck', hsame'⟩ := s.handoverCheck_countRequest (roomOwnerReq o r word).path hr (wordFields word.toNat)
  rw [serveRoomOwner_of_same hr (hcheck'.trans hcheck) (hsame'.trans hsame),
    State.conclude_respond rfl (.inl (roomOwner_not_persistent (entryInfo_of_roomOwner h)))] at hexec
  refine ⟨_, hexec, ?_, ?_, (s.countRequest_answered _).trans (State.respond_answered _ _ _ _)⟩
  · rw [State.respond_out, State.reply_countRequest, State.countRequest_out]
  · exact (s.countRequest_store _).trans (.of_pd (State.respond_ok_pd _ _ _ rfl))

/-- An entry that waits leaves the request among the unanswered. -/
theorem State.conclude_await (s : State) (e : EntryInfo) (q : Req) {x : Served} {w : Wait} (h : x.wait = some w) :
    ∃ b, s.conclude e q x = x.state.await q w b := by
  unfold State.conclude
  rw [h]
  exact ⟨_, rfl⟩

/-- A word that names others of a room whose owner works begins a handover, and the write waits for its end. -/
theorem roomOwner_begins (hr : r < 1536) (h : admitted s (roomOwnerReq o r word) role e = true)
    (hcheck : s.handoverCheck r (wordFields word.toNat) = none) (hother : s.sameOwnership r (wordFields word.toNat) = false)
    (howner : s.unitFenced (s.roomOwnerOf r) = false) (hreader : s.roomReaderOf r = none) :
    ∃ t, exec (.roomOwner o r word) s = .next t ∧ t.roomPending r = true ∧ t.roomOwnerOf r = s.roomOwnerOf r
      ∧ t.out = s.out ++ [.drainMarker r (s.roomOwnerOf r) false]
      ∧ (t.room r).newWord = some (BitVec.ofNat 64 (wordFields word.toNat))
      ∧ (∃ b, t.gdp.inflight = s.gdp.inflight ++ [{ req := roomOwnerReq o r word, wait := .handover r, before := b }])
      ∧ storeFrame (Pd.roomOwner :: requestCounters) s t ∧ ∀ i, i ≠ r → i < 1536 → t.ownerWord i = s.ownerWord i := by
  have hexec := exec_roomOwner_of_admitted h
  have hstore := s.countRequest_store (roomOwnerReq o r word).path
  obtain ⟨hcheck', hother'⟩ := s.handoverCheck_countRequest (roomOwnerReq o r word).path hr (wordFields word.toNat)
  have hword := s.ownerWord_countRequest (roomOwnerReq o r word).path hr
  have hout := s.countRequest_out (roomOwnerReq o r word).path
  have hgdp := s.countRequest_gdp (roomOwnerReq o r word).path
  have hunit := s.unitFenced_countRequest (roomOwnerReq o r word).path
  generalize s.countRequest (roomOwnerReq o r word).path = v at *
  have hownerOf : v.roomOwnerOf r = s.roomOwnerOf r := by rw [State.roomOwnerOf, hword, State.roomOwnerOf]
  obtain ⟨hset, hne, hmarker, hnew, hwaiting, hbegun⟩ := State.beginHandover_spec (s := v) (r := r) (by rw [hunit, hownerOf, howner])
    (by rw [State.roomReaderOf, hword]; exact hreader) hr (wordFields word.toNat) .dictionary
  rw [hword] at hset
  rw [hownerOf, hout] at hmarker
  rw [hgdp] at hwaiting
  have hpending : (v.beginHandover r (wordFields word.toNat) .dictionary).roomPending r = true := by
    rw [State.roomPending, hset, Nat.testBit_or, Nat.testBit_two_pow_self, Bool.or_true]
  have howns : (v.beginHandover r (wordFields word.toNat) .dictionary).roomOwnerOf r = s.roomOwnerOf r := by
    rw [State.roomOwnerOf, hset, wordOwner_or_pending, State.roomOwnerOf]
  rw [serveRoomOwner_of_begin hr (hcheck'.trans hcheck) (hother'.trans hother) hpending] at hexec
  obtain ⟨b, hwait⟩ := v.conclude_await e (roomOwnerReq o r word)
    (x := { state := v.beginHandover r (wordFields word.toNat) .dictionary, wait := some (.handover r) }) rfl
  rw [hwait] at hexec
  dsimp only at hexec
  generalize v.beginHandover r (wordFields word.toNat) .dictionary = t at *
  have hinflight : (t.await (roomOwnerReq o r word) (.handover r) b).gdp.inflight
      = s.gdp.inflight ++ [{ req := roomOwnerReq o r word, wait := .handover r, before := b }] := by rw [← hwaiting]; rfl
  refine ⟨_, hexec, hpending, howns, hmarker, hnew, ⟨b, hinflight⟩, ?_, fun i hi hi' => ?_⟩
  · exact (hstore.mono fun k hk => List.mem_cons_of_mem _ hk).trans (hbegun.mono (by simp))
  · exact (hne i hi).trans (hstore.ownerWord (by decide) hi')

end

/-! ### A handover ended (spec/05 R117) -/

/-- The room's word at the end of a handover: its new owner, reader and partition, the next GENERATION, SHADOW as the new word has it. -/
def State.handedWord (s : State) (r w : Nat) : Nat :=
  wordFields w + (bits (s.ownerWord r) 32 8 + 1) % 256 * 2 ^ 32 + bits w 61 1 * 2 ^ 61

/-- The room has no new word and no marker out, and its next refusal is a first. -/
def State.handoverClosed (s : State) (r : Nat) : State :=
  s.setRoom r { s.room r with newWord := none, marker := false, readerMarker := false, refusalSeen := false }

/-- The room's word written, the handover counted, the room's part of it over. -/
def State.handed (s : State) (r x : Nat) : State := ((s.setOwnerWord r x).bump Pd.handovers).handoverClosed r

theorem State.completeHandover_eq (s : State) (r w : Nat) : s.completeHandover r w = s.handed r (s.handedWord r w) := by
  simp only [State.completeHandover, State.handed, State.handedWord, State.handoverClosed]

theorem State.handed_spec (s : State) {r : Nat} (hr : r < 1536) (x : Nat) : (s.handed r x).ownerWord r = x
    ∧ (s.handed r x).reg Pd.handovers = (s.reg Pd.handovers + 1) % 2 ^ 64 ∧ ((s.handed r x).room r).newWord = none
    ∧ storeFrame [Pd.roomOwner, Pd.handovers] s (s.handed r x) ∧ { s.handed r x with pd := s.pd, rooms := s.rooms } = s := by
  unfold State.handed
  have hword := s.ownerWord_setOwnerWord_same r x
  have hwordStore : storeFrame [Pd.roomOwner] s (s.setOwnerWord r x) := (storeFrame.refl _ s).wr x (by simp) (by omega)
  have hwordFrame := s.setOwnerWord_frame r x
  generalize s.setOwnerWord r x = v at *
  have hcount := v.bump_reg Pd.handovers 1
  have hcountStore := v.bump_store Pd.handovers 1
  have hcountFrame := v.bump_frame Pd.handovers 1
  generalize v.bump Pd.handovers = u at *
  rw [hwordStore.reg (by decide)] at hcount
  refine ⟨(hcountStore.ownerWord (by decide) hr).trans hword, hcount, congrArg Room.newWord (u.room_setRoom_same r _),
    ((hwordStore.mono (by simp)).trans (hcountStore.mono (by simp))).trans (.of_pd rfl), ?_⟩
  exact (congrArg (fun y : State => { y with pd := s.pd, rooms := s.rooms }) hcountFrame).trans
    (congrArg (fun y : State => { y with rooms := s.rooms }) hwordFrame)

/-- The room whose outgoing owner has returned its marker. -/
def State.ownerDrained (s : State) (r : Nat) : State := s.setRoom r { s.room r with marker := false }

theorem State.markerReturn_of_last {s : State} {r : Nat} {w : BitVec 64} (hw : (s.room r).newWord = some w)
    (hreader : (s.room r).readerMarker = false) :
    s.markerReturn r false = ((s.ownerDrained r).completeHandover r w.toNat).answerHandover r St.ok := by
  simp [State.markerReturn, State.ownerDrained, hw, hreader]

theorem exec_handoverMarkerReturn_of_ready {s : State} {r : Nat} {reader : Bool} (hpending : s.roomPending r = true)
    (hready : s.markerReady r reader = true) :
    exec (.handoverMarkerReturn r reader) s = .next (s.markerReturn r reader).settle := by
  show execHandoverMarkerReturn r reader s = _
  rw [execHandoverMarkerReturn, hpending, hready, Bool.and_self, if_pos rfl]

theorem handoverMarkerReturn_ends {s : State} {r : Nat} {w : BitVec 64} (hr : r < 1536) (hpending : s.roomPending r = true)
    (hw : (s.room r).newWord = some w) (hreader : (s.room r).readerMarker = false) (hready : s.markerReady r false = true) :
    ∃ u : State, exec (.handoverMarkerReturn r false) s = .next u.settle ∧ u.ownerWord r = s.handedWord r w.toNat
      ∧ u.reg Pd.handovers = (s.reg Pd.handovers + 1) % 2 ^ 64 ∧ (u.room r).newWord = none
      ∧ u.out = s.out ++ (s.gdp.inflight.filter fun p => decide (p.wait = .handover r)).flatMap (fun p => reply s p.req St.ok [])
      ∧ u.mem = s.mem := by
  have hexec := exec_handoverMarkerReturn_of_ready hpending hready
  rw [State.markerReturn_of_last hw hreader, State.completeHandover_eq, State.answerHandover_eq] at hexec
  obtain ⟨hword, hcount, hnew, hstore, hframe⟩ := (s.ownerDrained r).handed_spec hr ((s.ownerDrained r).handedWord r w.toNat)
  generalize (s.ownerDrained r).handed r ((s.ownerDrained r).handedWord r w.toNat) = v at *
  have hgdp : v.gdp = s.gdp := (congrArg State.gdp hframe :)
  have hout : v.out = s.out := (congrArg State.out hframe :)
  have hmem : v.mem = s.mem := (congrArg State.mem hframe :)
  have hstraps : v.reg Pd.straps = s.reg Pd.straps := hstore.reg (by decide)
  rw [hgdp] at hexec
  have hanswered := State.answerAll_store (s.gdp.inflight.filter fun p => decide (p.wait = .handover r)) St.ok v
  refine ⟨_, hexec, (hanswered.ownerWord (by decide) hr).trans hword, (hanswered.reg (by decide)).trans hcount, ?_, ?_, ?_⟩
  · rw [State.room, State.answerAll_rooms]
    exact hnew
  · simp only [State.answerAll_out, hout, reply_congr hstraps]
  · rw [State.answerAll_mem, hmem]

theorem handoverDrainsThenChangesOwner : Claims.HandoverDrainsThenChangesOwner :=
  ⟨fun _ _ _ _ _ _ hr => fun hadmitted hcheck =>
      ⟨roomOwner_unchanged hr hadmitted hcheck, roomOwner_begins hr hadmitted hcheck⟩,
    fun _ _ _ hr hpending hw hreader hready => handoverMarkerReturn_ends hr hpending hw hreader hready⟩

/-! ### A handover that drains for long -/

theorem exec_handoverResponseLimit (s : State) (r : Nat) : exec (.handoverResponseLimit r) s = .next (s.answerHandover r St.busy) := rfl

theorem slowHandoverIsAnsweredBusy : Claims.SlowHandoverIsAnsweredBusy := by
  intro s r
  rw [exec_handoverResponseLimit, State.answerHandover_eq]
  refine ⟨_, rfl, State.answerAll_out _ _ s, fun p => ?_, State.answerAll_store _ _ s, State.answerAll_frame _ _ s, fun hpaths => ?_⟩
  · rw [State.answerAll_inflight, mem_diff_filter, decide_eq_false_iff_not]
  · refine State.answerAll_causeway _ s fun p hp => ?_
    obtain ⟨hmem, hwait⟩ := List.mem_filter.mp hp
    exact hpaths p hmem (of_decide_eq_true hwait)

end Sys2Proof.Machine

open Sys2Proof Sys2Proof.Machine

/-- Settles O27: a handover waits for its marker, ends with the new word, and its write is answered then, or BUSY at its limit. -/
theorem roomsChangeOwner : Obligations.RoomsChangeOwner := by
  unfold Obligations.RoomsChangeOwner
  exact ⟨handoverDrainsThenChangesOwner, slowHandoverIsAnsweredBusy⟩
end

section
/-!
PROOFS. Reads in a Cove, outcome by outcome (spec/06 R146 to R151, R153), and what they leave of the dictionary's store word by word: the
lines of their own Cliff and the Coves' counters may change, no other word does.
-/
namespace Sys2Proof.Machine

variable {s t u : State} {c : Nat}

/-! ### The words of a Cove -/

/-- The key of a line's word. -/
def lineKey (c set w : Nat) : Nat := pdKey Pd.coveLineState (lineIndex c set w)

/-- The key of a line of Cliff `c`, or of one of some counters. -/
def coveWord (c : Nat) (counters : List Nat) (k : Nat) : Prop :=
  (∃ set w, set < 4096 ∧ w < 24 ∧ k = lineKey c set w) ∨ ∃ e ∈ counters, k = pdKey e 0

/-- Every other word of the store is in `t` what it is in `s`. -/
def coveFrame (c : Nat) (counters : List Nat) (s t : State) : Prop := ∀ k, ¬ coveWord c counters k → tget 0 t.pd k = tget 0 s.pd k

section
variable {ks : List Nat}

theorem coveFrame.of_pd (h : t.pd = s.pd) : coveFrame c ks s t := fun k _ => by rw [h]

theorem coveFrame.refl (s : State) : coveFrame c ks s s := .of_pd rfl

theorem coveFrame.setCliff (s : State) (d : Nat) (v : Cliff) : coveFrame c ks s (s.setCliff d v) := .of_pd rfl

theorem coveFrame.trans (h : coveFrame c ks s t) (h' : coveFrame c ks t u) : coveFrame c ks s u :=
  fun k hk => (h' k hk).trans (h k hk)

theorem coveFrame.ite {p : Prop} [Decidable p] (h : coveFrame c ks s t) (h' : coveFrame c ks s u) :
    coveFrame c ks s (if p then t else u) := by
  split <;> assumption

theorem coveFrame.foldl {α : Type} {f : State → α → State} {l : List α} (hf : ∀ s a, a ∈ l → coveFrame c ks s (f s a)) (s : State) :
    coveFrame c ks s (l.foldl f s) := by
  induction l generalizing s with
  | nil => exact .refl s
  | cons a l ih => exact (hf s a List.mem_cons_self).trans (ih (fun s b hb => hf s b (List.mem_cons_of_mem _ hb)) (f s a))

theorem coveFrame.bump (s : State) {k : Nat} (n : Nat) (hk : k ∈ ks) : coveFrame c ks s (s.bump k n) :=
  fun _ hj => tget_tset_ne 0 s.pd _ fun h => hj (.inr ⟨k, hk, h⟩)

/-- A register below the lines' words, and no counter named, stays. -/
theorem coveFrame.reg (h : coveFrame c ks s t) {k : Nat} (hk : k ∉ ks) (hlow : k < Pd.coveLineState) : t.reg k = s.reg k := by
  refine h _ ?_
  rintro (⟨set, w, -, -, hline⟩ | ⟨e, he, hcounter⟩)
  · unfold lineKey pdKey at hline; omega
  · obtain rfl : k = e := by unfold pdKey at hcounter; omega
    exact hk he

section
variable {set w : Nat}

theorem coveFrame.setCoveLine (s : State) (v : Nat) (hs : set < 4096) (hw : w < 24) : coveFrame c ks s (s.setCoveLine c set w v) :=
  fun _ hj => tget_tset_ne 0 s.pd v fun h => hj (.inl ⟨set, w, hs, hw, h⟩)

theorem coveFrame.mapLines (s : State) (w : Nat) (f : Nat → Nat) (hs : set < 4096) : coveFrame c ks s (s.mapLines c set w f) :=
  .foldl (fun s _ hi => .ite (.setCoveLine s _ hs (List.mem_range.mp hi)) (.refl s)) s

theorem coveFrame.accessLine (s : State) (q : CliffReq) (hs : set < 4096) (hw : w < 24) : coveFrame c ks s (s.accessLine c set w q) :=
  (coveFrame.setCoveLine s _ hs hw).trans ((coveFrame.mapLines _ _ _ hs).trans (.setCoveLine _ _ hs hw))

theorem coveFrame.insertLine (s : State) (v : Nat) (hs : set < 4096) (hw : w < 24) : coveFrame c ks s (s.insertLine c set w v) :=
  (coveFrame.mapLines s _ _ hs).trans (.setCoveLine _ _ hs hw)

theorem coveFrame.dropLine (s : State) (hs : set < 4096) (hw : w < 24) : coveFrame c ks s (s.dropLine c set w) := by
  unfold State.dropLine
  dsimp only
  exact (coveFrame.ite (.mapLines s _ _ hs) (.refl s)).trans (.setCoveLine _ _ hs hw)

theorem coveFrame.poison (s : State) {key : Nat} (hk : natCliff key = c) : coveFrame c ks s (s.poison key) := by
  unfold State.poison
  subst hk
  dsimp only
  split
  · next w h =>
    exact (coveFrame.of_pd (s := s) rfl).trans (.setCoveLine _ _ (coveSet_lt _) (State.findWay_lt h))
  · exact .of_pd rfl

/-- The block that a line's tag and set name lies in the line's own Cliff. -/
theorem natCliff_lineBlock (c v set : Nat) :
    natCliff (c * 0x2000000000 + 256 * (lineTag v * 4096 + ((set ^^^ lineTag v % 4096) % 4096))) = c := by
  have htag : lineTag v < 131072 := Nat.mod_lt _ (by decide)
  have hlow := Nat.mod_lt (set ^^^ lineTag v % 4096) (show 0 < 4096 by decide)
  unfold natCliff
  omega

theorem coveFrame.evict (s : State) (hs : set < 4096) (hw : w < 24) : coveFrame c ks s (s.evict c set w) := by
  unfold State.evict
  dsimp only
  refine coveFrame.trans ?_ (.dropLine _ hs hw)
  refine coveFrame.trans ?_ (.ite (.poison _ (natCliff_lineBlock c _ set)) (.refl _))
  exact .ite (.setCliff s c _) (.refl s)

end

theorem coveFrame.allocate (s : State) (b : Nat) (q : CliffReq) (filling : Bool) (hpin : Pd.pinDenied ∈ ks) (hno : Pd.noAllocate ∈ ks) :
    coveFrame c ks s (s.allocate c b q filling).1 := by
  unfold State.allocate
  dsimp only
  split
  · exact .ite (.refl s) (.bump s 1 hno)
  · next w h =>
    have hw := State.victimWay_lt h
    exact ((coveFrame.evict s (coveSet_lt b) hw).trans (.ite (.bump _ 1 hpin) (.refl _))).trans (.insertLine _ _ (coveSet_lt b) hw)

end

/-! ### The outcomes of a block read whose line shows no error of its code -/

/-- A block read as uncorrectable: the requests that wait for it fail, and the error is counted. -/
def State.badRead (s : State) (c : Nat) (ws : List CliffReq) : State :=
  (ws.foldl (fun s w => s.worsen c w St.uncorrectable) s).bump Pd.uncorrectableErrors

section
variable {b w : Nat} {q : CliffReq} {ws : List CliffReq}

theorem State.readBlock_of_filling (hw : s.findWay c b = some w) (hf : lineFilling (s.coveLine c (coveSet b) w) = true) :
    s.readBlock c q ws .clean b = s.joinFetch c b ws := by
  simp only [State.readBlock, hw, hf, ↓reduceIte]

theorem State.readBlock_of_hit (hw : s.findWay c b = some w) (hf : lineFilling (s.coveLine c (coveSet b) w) = false) :
    s.readBlock c q ws .clean b = if linePoison (s.coveLine c (coveSet b) w) = true then
      ((s.bump Pd.coveHits).accessLine c (coveSet b) w q).badRead c ws else (s.bump Pd.coveHits).accessLine c (coveSet b) w q := by
  simp only [State.readBlock, hw, hf, Bool.false_eq_true, reduceCtorEq, ↓reduceIte]
  rfl

theorem State.readBlock_of_writingBack (hn : s.findWay c b = none) (hb : s.writingBack c b = true) :
    s.readBlock c q ws .clean b = if (s.bump Pd.coveHits).blockBad (c * 0x2000000000 + 256 * b) = true then
      (s.bump Pd.coveHits).badRead c ws else s.bump Pd.coveHits := by
  simp only [State.readBlock, hn, hb, ↓reduceIte]
  rfl

theorem State.readBlock_of_fetching (hn : s.findWay c b = none) (hb : s.writingBack c b = false) (hf : s.fetching c b = true) :
    s.readBlock c q ws .clean b = s.joinFetch c b ws := by
  simp only [State.readBlock, hn, hb, hf, Bool.false_eq_true, ↓reduceIte]

theorem State.readBlock_of_miss (hn : s.findWay c b = none) (hb : s.writingBack c b = false) (hf : s.fetching c b = false) :
    s.readBlock c q ws .clean b = ((s.allocate c b q true).1.bump Pd.coveMisses).queueAccess c
      { block := b, write := false, way := (s.allocate c b q true).2, waiters := ws, since := s.time } := by
  simp only [State.readBlock, hn, hb, hf, Bool.false_eq_true, ↓reduceIte]

/-! ### What a block read leaves -/

theorem covesRead.badRead (s : State) (c : Nat) (ws : List CliffReq) : covesRead s (s.badRead c ws) :=
  (covesRead.foldl (fun s _ _ => .setCliff s c _) s).trans (.bump (k := Pd.uncorrectableErrors) _ 1 (by decide))

theorem coveFrame.badRead (s : State) (ws : List CliffReq) : coveFrame c coveKeys s (s.badRead c ws) := 
  (coveFrame.foldl (fun s _ _ => .setCliff s c _) s).trans (.bump (k := Pd.uncorrectableErrors) _ 1 (by decide))

/-- A block read, whoever waits for it: the lines, queues and counters of the Coves. -/
theorem covesRead.readBlock_waited (s : State) (q : CliffReq) (ws : List CliffReq) (b : Nat) (hc : c < 20) :
    covesRead s (s.readBlock c q ws .clean b) := by
  have hhit : covesRead s (s.bump Pd.coveHits) := .bump s 1 (by decide)
  cases hfind : s.findWay c b with
  | some w =>
    cases hfilling : lineFilling (s.coveLine c (coveSet b) w) with
    | true => rw [State.readBlock_of_filling hfind hfilling]; exact .joinFetch s c b ws
    | false =>
      rw [State.readBlock_of_hit hfind hfilling]
      exact (hhit.trans (.accessLine _ q hc (coveSet_lt b) (State.findWay_lt hfind))).trans (.ite (.badRead _ c ws) (.refl _))
  | none =>
    cases hback : s.writingBack c b with
    | true => rw [State.readBlock_of_writingBack hfind hback]; exact hhit.trans (.ite (.badRead _ c ws) (.refl _))
    | false =>
      cases hfetch : s.fetching c b with
      | true => rw [State.readBlock_of_fetching hfind hback hfetch]; exact .joinFetch s c b ws
      | false =>
        rw [State.readBlock_of_miss hfind hback hfetch]
        exact ((covesRead.allocate s b q true hc).trans (.bump _ 1 (by decide))).trans (.queueAccess _ c _)

/-- Of the store, a block read changes the lines of its Cliff and the Coves' counters. -/
theorem coveFrame.readBlock (s : State) (q : CliffReq) (ws : List CliffReq) (b : Nat) :
    coveFrame c coveKeys s (s.readBlock c q ws .clean b) := by
  have hhit : coveFrame c coveKeys s (s.bump Pd.coveHits) := .bump s 1 (by decide)
  have hjoin : coveFrame c coveKeys s (s.joinFetch c b ws) := (coveFrame.setCliff s c _).trans (.bump _ 1 (by decide))
  cases hfind : s.findWay c b with
  | some w =>
    cases hfilling : lineFilling (s.coveLine c (coveSet b) w) with
    | true => rw [State.readBlock_of_filling hfind hfilling]; exact hjoin
    | false =>
      rw [State.readBlock_of_hit hfind hfilling]
      exact (hhit.trans (.accessLine _ q (coveSet_lt b) (State.findWay_lt hfind))).trans (.ite (.badRead _ ws) (.refl _))
  | none =>
    cases hback : s.writingBack c b with
    | true => rw [State.readBlock_of_writingBack hfind hback]; exact hhit.trans (.ite (.badRead _ ws) (.refl _))
    | false =>
      cases hfetch : s.fetching c b with
      | true => rw [State.readBlock_of_fetching hfind hback hfetch]; exact hjoin
      | false =>
        rw [State.readBlock_of_miss hfind hback hfetch]
        exact ((coveFrame.allocate s b q true (by decide) (by decide)).trans (.bump _ 1 (by decide))).trans
          (.setCliff _ c _)

end

end Sys2Proof.Machine
end

section
/-!
PROOFS. Requests at a Cove (spec/06 R143, R147 to R152): where the blocks of a request that passes its checks lie, what the Cove does with a
write and with a read, and the statement `CoveServesRequests` assembled from them.
-/
namespace Sys2Proof.Machine

variable {s : State}

/-! ### Where the blocks of a request lie -/

/-- A native address of a backed Cliff byte. -/
def backedByte (n : Nat) : Prop := natCliff n < 20 ∧ natLocal n < cliffBytes

theorem backed_of_cliffNative {a n : Nat} (h : cliffNative a = some n) : backedByte n := by
  refine ⟨cliffNative_cliff h, ?_⟩
  unfold cliffNative at h
  split at h
  · split at h
    · next hlocal =>
      rw [← Option.some.inj h]
      exact hlocal
    · cases h
  · split at h
    · split at h
      · next hx =>
        rw [← Option.some.inj h]
        have hlow : 256 * ((a - aliasBase) / 256 / 20) + (a - aliasBase) % 256 < cliffBytes := by
          unfold aliasBytes at hx; unfold cliffBytes; omega
        have hcliff : cliffBytes < 0x2000000000 := by decide
        unfold aliasToNative natLocal
        dsimp only
        rw [Nat.add_assoc, Nat.mul_add_mod', Nat.mod_eq_of_lt (by omega)]
        exact hlow
      · cases h
    · cases h

theorem State.physCheck_backed {a n : Nat} (h : s.physCheck a = .ok n) : backedByte n := by
  unfold State.physCheck at h
  split at h
  · cases h
  · next m hm =>
    split at h
    · cases h
    · split at h
      · cases h
      · cases h; exact backed_of_cliffNative hm

theorem State.chartCheck_backed {u : CliffUser} {p a n : Nat} {write : Bool} (h : s.chartCheck u p a write = .ok n) : backedByte n := by
  unfold State.chartCheck at h
  split at h
  · cases h
  · generalize (if write = true then _ else _ : Bool) = allowed at h
    cases allowed
    · cases h
    · exact State.physCheck_backed h

theorem State.runAheadCheck_backed {u : CliffUser} {p a n : Nat} (h : s.runAheadCheck u p a = .ok n) : backedByte n := by
  unfold State.runAheadCheck at h
  split at h
  · cases h
  · split at h
    · cases h
    · split at h
      · next hc => cases h; exact State.chartCheck_backed hc
      · cases h

theorem State.blockCheck_backed {q : CliffReq} {a n : Nat} (h : s.blockCheck q a = .ok n) : backedByte n := by
  unfold State.blockCheck at h
  split at h
  · exact State.physCheck_backed h
  · split at h
    · exact State.runAheadCheck_backed h
    · exact State.chartCheck_backed h

/-- Checks made in turn, of which a failing one decides and none changes the outcome: where they pass, each has passed. -/
theorem foldl_access_ok {α : Type} {f : Access → α → Access} {P : α → Prop} {l : List α} {m n : Nat}
    (hfail : ∀ c x, f (.fail c) x = .fail c) (hok : ∀ x k, f (.ok m) x = .ok k → k = m ∧ P x) (h : l.foldl f (.ok m) = .ok n) :
    n = m ∧ ∀ x ∈ l, P x := by
  induction l with
  | nil => cases h; exact ⟨rfl, by simp⟩
  | cons x l ih =>
    rw [List.foldl_cons] at h
    cases hx : f (.ok m) x with
    | ok k =>
      obtain ⟨rfl, hP⟩ := hok x k hx
      rw [hx] at h
      obtain ⟨rfl, hl⟩ := ih h
      exact ⟨rfl, List.forall_mem_cons.mpr ⟨hP, hl⟩⟩
    | fail c =>
      have hstuck : l.foldl f (.fail c) = .fail c := List.foldl_fixed' (fun y => hfail c y) l
      rw [hx, hstuck] at h
      cases h

/-- Where a request leads, its blocks lie one after another in one Cliff. -/
theorem State.reqCheck_blocks {q : CliffReq} {n : Nat} (h : s.reqCheck q = .ok n) :
    backedByte n ∧ ∀ i < q.blocks, backedByte (n + 256 * i) := by
  unfold State.reqCheck at h
  split at h
  · cases h
  · next m hm =>
    have hfirst : backedByte m := State.blockCheck_backed hm
    have hfold : n = m ∧ ∀ i ∈ (List.range q.blocks).drop 1, backedByte (m + 256 * i) := by
      refine foldl_access_ok (fun _ _ => rfl) (fun i k hk => ?_) h
      dsimp only at hk
      split at hk
      · cases hk
      · next p hp =>
        split at hk
        · next heq => cases hk; exact ⟨rfl, heq ▸ State.blockCheck_backed hp⟩
        · cases hk
    obtain ⟨rfl, hrest⟩ := hfold
    refine ⟨hfirst, fun i hi => ?_⟩
    cases i with
    | zero => exact hfirst
    | succ i => exact hrest (i + 1) (List.mem_drop_iff_getElem.mpr ⟨i, by simpa using hi, by simp [Nat.add_comm]⟩)

/-- Backed blocks one after another have local addresses one after another: none is past the end of the Cliff. -/
theorem natLocal_add_of_backed {n k : Nat} (h : ∀ i < k, backedByte (n + 256 * i)) {i : Nat} (hi : i < k) :
    natLocal (n + 256 * i) = natLocal n + 256 * i := by
  induction i with
  | zero => rfl
  | succ i ih =>
    have hprev := ih (by omega)
    obtain ⟨-, hlocal⟩ := h i (by omega)
    unfold natLocal cliffBytes at *
    omega

theorem block_lt_of_mem_reqBlocks {n k b : Nat} (h : ∀ i < k, backedByte (n + 256 * i)) (hb : b ∈ reqBlocks n k) : b < 0x20000000 := by
  obtain ⟨i, hi, rfl⟩ := List.mem_map.mp hb
  have hi := List.mem_range.mp hi
  have hlocal := natLocal_add_of_backed h hi
  obtain ⟨-, hend⟩ := h i hi
  unfold cliffBytes at hend
  omega

/-! ### A request taken by its Cove -/

theorem exec_coveRequest {q : CliffReq} (h : q.own = false) (ecc : Ecc) (s : State) : exec (.coveRequest q ecc) s = .next (s.coveRequest q ecc) := by
  change Host.Outcome.next (s.coveRequest { q with own := false } ecc) = _
  rw [← h]

theorem State.coveRequest_of_taken {q : CliffReq} {n : Nat} (hpower : s.unpowered = false) (hcheck : s.reqCheck q = .ok n)
    (hpool : s.poolFull q.user = false) (hquota : s.overQuota q n = false) (hlines : s.trackedLines n q.blocks = [])
    (hbehind : s.behind q n = false) (ecc : Ecc) : s.coveRequest q ecc = s.coveAccept q ecc n := by
  simp [State.coveRequest, State.issue, hpower, hcheck, hpool, hquota, hlines, hbehind]

theorem State.cliffAnswer_of_outside {q : CliffReq} (h : q.own = false) (s : State) (code : BitVec 16) (data : List Byte) :
    s.cliffAnswer q code data = s.emit (.cliffReply q.user q.tag code data) := by
  simp [State.cliffAnswer, h]

theorem State.countAccess_frame (s : State) (code : BitVec 16) : { s.countAccess code with pd := s.pd } = s := by
  unfold State.countAccess
  split
  · rfl
  · split
    · rfl
    · split <;> rfl

/-! ### A write -/

/-- The state in which a write's bytes are visible and its lines written. -/
def State.writeTaken (s : State) (q : CliffReq) (n : Nat) : State :=
  (reqBlocks n q.blocks).zipIdx.foldl
    (fun s e => s.writeBlock (natCliff n) q (((q.data.drop (256 * e.2)).take 256).all Option.isSome) e.1) (s.putBytes n q.data)

theorem State.coveAccept_write {q : CliffReq} (h : q.write = true) (ecc : Ecc) (n : Nat) :
    s.coveAccept q ecc n = (s.writeTaken q n).cliffAnswer q St.ok [] := by
  simp only [State.coveAccept, h, ↓reduceIte]
  rfl

theorem covesRead.writeTaken (s : State) {q : CliffReq} {n : Nat} (hn : natCliff n < 20) (hblocks : ∀ i < q.blocks, backedByte (n + 256 * i)) :
    covesRead (s.putBytes n q.data) (s.writeTaken q n) :=
  covesRead.foldl (fun t _ he => .writeBlock t q _ hn (block_lt_of_mem_reqBlocks hblocks (List.fst_mem_of_mem_zipIdx he))) _

/-- A write changes its enabled bytes at once and is answered OK. -/
theorem coveRequest_writes {q : CliffReq} {n : Nat} (ecc : Ecc) (hpower : s.unpowered = false) (hown : q.own = false)
    (hcheck : s.reqCheck q = .ok n) (hwrite : q.write = true) (hdata : q.data.length = 256 * q.blocks) (hpool : s.poolFull q.user = false)
    (hquota : s.overQuota q n = false) (hlines : s.trackedLines n q.blocks = []) (hbehind : s.behind q n = false) :
    ∃ t, exec (.coveRequest q ecc) s = .next t ∧ t.out = s.out ++ [.cliffReply q.user q.tag St.ok []]
      ∧ (∀ i, i < 256 * q.blocks → t.byteAt (n + i) = ((q.data[i]?).join).getD (s.byteAt (n + i)))
      ∧ ∀ a, a < n ∨ n + 256 * q.blocks ≤ a → t.byteAt a = s.byteAt a := by
  have hexec := exec_coveRequest hown ecc s
  rw [State.coveRequest_of_taken hpower hcheck hpool hquota hlines hbehind, State.coveAccept_write hwrite,
    State.cliffAnswer_of_outside hown] at hexec
  obtain ⟨⟨hcliff, -⟩, hblocks⟩ := State.reqCheck_blocks hcheck
  obtain ⟨hout, -, hmem⟩ := (covesRead.writeTaken s hcliff hblocks).fields
  have hput : (s.putBytes n q.data).out = s.out := (congrArg State.out (s.putBytes_frame q.data n) :)
  refine ⟨_, hexec, ?_, fun i hi => ?_, fun a ha => ?_⟩
  · exact congrArg (· ++ [Output.cliffReply q.user q.tag St.ok []]) (hout.trans hput)
  · have hi' : i < q.data.length := by omega
    refine (State.byteAt_of_mem hmem _).trans ((State.byteAt_putBytes q.data s n i hi').trans ?_)
    simp [List.getElem?_eq_getElem hi']
  · exact (State.byteAt_of_mem hmem a).trans (State.byteAt_putBytes_ne q.data s n a (by omega))

/-! ### A read -/

/-- The read of one block at native address `n` as its Cove holds it: with the bytes it read there. -/
def State.readTaken (s : State) (q : CliffReq) (n : Nat) : CliffReq := { q with addr := n, data := enableAll (s.bytesAt n 256) }

/-- A Cliff's slots with one more request in them. -/
def State.holdSlot (s : State) (c : Nat) (r : CliffReq) : State :=
  s.setCliff c { s.cliff c with slots := (s.cliff c).slots ++ [(r, St.ok)] }

theorem State.coveAccept_read {q : CliffReq} (h : q.write = false) (hone : q.blocks = 1) (ecc : Ecc) (n : Nat) :
    s.coveAccept q ecc n = (((s.holdSlot (natCliff n) (s.readTaken q n)).readBlock (natCliff n) (s.readTaken q n) [s.readTaken q n] ecc
      (natLocal n / 256))).finishReq (natCliff n) (s.readTaken q n) := by
  simp only [State.coveAccept, h, hone, Bool.false_eq_true, ↓reduceIte, reqBlocks, List.range_one, List.map_cons, List.map_nil, Nat.add_zero,
    Nat.mul_one, List.foldl_cons, List.foldl_nil, State.holdSlot, State.readTaken]

theorem State.reqWaits_congr {s t : State} {c : Nat} (hq : (t.cliff c).queues = (s.cliff c).queues)
    (hs : (t.cliff c).inService = (s.cliff c).inService) (r : CliffReq) : t.reqWaits c r = s.reqWaits c r := by
  simp only [State.reqWaits, hq, hs]

theorem State.cliff_congr {s t : State} (h : t.cliffs = s.cliffs) (c : Nat) : t.cliff c = s.cliff c := by unfold State.cliff; rw [h]

/-- A request still waited for stays. -/
theorem State.finishReq_of_waiting {c : Nat} {r : CliffReq} (h : s.reqWaits c r = true) : s.finishReq c r = s := by
  simp [State.finishReq, h]

/-- A read from outside that nothing holds up any more is answered, with its bytes where it is OK, and its slot freed. -/
theorem State.finishReq_of_done {c : Nat} {r : CliffReq} {e : CliffReq × BitVec 16} (hown : r.own = false) (h : s.reqWaits c r = false)
    (he : ((s.cliff c).slots.find? fun e => e.1 == r) = some e) :
    s.finishReq c r = (s.setCliff c { s.cliff c with slots := (s.cliff c).slots.filter fun e => !(e.1 == r) }).emit
      (.cliffReply r.user r.tag e.2 (if e.2 = St.ok then r.data.map fun b => b.getD 0 else [])) := by
  simp only [State.finishReq, h, Bool.false_eq_true, ↓reduceIte, he, State.cliffReply]
  exact State.cliffAnswer_of_outside hown _ _ _

theorem State.finishReq_mem (s : State) (c : Nat) (r : CliffReq) : (s.finishReq c r).mem = s.mem := by
  unfold State.finishReq State.cliffReply State.cliffAnswer
  dsimp only
  split
  · rfl
  · split
    · rfl
    · split
      · split <;> rfl
      · rfl

theorem enableAll_getD (bs : List Byte) : ((enableAll bs).map fun b => b.getD 0) = bs := by
  unfold enableAll
  rw [List.map_map]
  exact List.map_id _

theorem State.mapLines_frame (s : State) (c set w : Nat) (f : Nat → Nat) : { s.mapLines c set w f with pd := s.pd } = s := by
  unfold State.mapLines
  generalize List.range 24 = l
  induction l generalizing s with
  | nil => rfl
  | cons i l ih =>
    rw [List.foldl_cons]
    refine (congrArg (fun u : State => { u with pd := s.pd }) (ih _)).trans ?_
    dsimp only
    split <;> rfl

/-- A line accessed: the store alone changes. -/
theorem State.accessLine_frame (s : State) (c set w : Nat) (q : CliffReq) : { s.accessLine c set w q with pd := s.pd } = s := by
  have hset : ∀ (u : State) v, { u.setCoveLine c set w v with pd := s.pd } = { u with pd := s.pd } := fun _ _ => rfl
  have hlines : ∀ (u : State) f, { u.mapLines c set w f with pd := s.pd } = { u with pd := s.pd } := fun u f =>
    congrArg (fun x : State => { x with pd := s.pd }) (u.mapLines_frame c set w f)
  simp only [State.accessLine, State.touchAge, hset, hlines]

theorem State.queueAccess_reg (s : State) (c : Nat) (x : LineAcc) (k : Nat) : (s.queueAccess c x).reg k = s.reg k := rfl

theorem State.mem_queueAccess (s : State) (c : Nat) (x : LineAcc) :
    x ∈ tget [] ((s.queueAccess c x).cliff c).queues (blockStratum x.block) := by
  simp only [State.queueAccess, State.cliff_setCliff_same, tget_tset_same]
  exact List.mem_append_right _ List.mem_cons_self

/-- A hit is counted, and the read answered with the block's bytes at once. -/
theorem read_hits {c b w : Nat} {r : CliffReq} (hown : r.own = false) (hnew : ∀ x ∈ (s.cliff c).slots, x.1 ≠ r)
    (hwaits : s.reqWaits c r = false) (hw : s.findWay c b = some w) (hfilling : lineFilling (s.coveLine c (coveSet b) w) = false)
    (hpoison : linePoison (s.coveLine c (coveSet b) w) = false) :
    let t := ((s.holdSlot c r).readBlock c r [r] .clean b).finishReq c r
    t.out = s.out ++ [.cliffReply r.user r.tag St.ok (r.data.map fun b => b.getD 0)]
      ∧ t.reg Pd.coveHits = (s.reg Pd.coveHits + 1) % 2 ^ 64 ∧ t.badBlocks = s.badBlocks := by
  have hread : (s.holdSlot c r).readBlock c r [r] .clean b = ((s.holdSlot c r).bump Pd.coveHits).accessLine c (coveSet b) w r := by
    rw [State.readBlock_of_hit (s := s.holdSlot c r) hw hfilling]
    exact if_neg (ne_true_of_eq_false hpoison)
  have hcount : ((s.holdSlot c r).readBlock c r [r] .clean b).reg Pd.coveHits = (s.reg Pd.coveHits + 1) % 2 ^ 64 := by
    rw [hread, (coveFrame.accessLine (c := c) (ks := []) _ r (coveSet_lt b) (State.findWay_lt hw)).reg (by simp) (by decide), State.bump_reg]
    rfl
  have hframe := ((s.holdSlot c r).bump Pd.coveHits).accessLine_frame c (coveSet b) w r
  rw [← hread] at hframe
  generalize (s.holdSlot c r).readBlock c r [r] .clean b = u at *
  have hcliff : u.cliff c = { s.cliff c with slots := (s.cliff c).slots ++ [(r, St.ok)] } :=
    (State.cliff_congr (congrArg State.cliffs hframe :) c).trans (s.cliff_setCliff_same c _)
  have hidle : u.reqWaits c r = false := (State.reqWaits_congr (by rw [hcliff]) (by rw [hcliff]) r).trans hwaits
  have hslot : ((u.cliff c).slots.find? fun e => e.1 == r) = some (r, St.ok) := by
    rw [hcliff, List.find?_append, List.find?_eq_none.mpr fun x hx => by simpa using hnew x hx]
    simp
  intro t
  have ht : t = _ := State.finishReq_of_done hown hidle hslot
  rw [ht]
  exact ⟨congrArg (· ++ _) (congrArg State.out hframe :), hcount, (congrArg State.badBlocks hframe :)⟩

/-- A miss is counted, asks the block's stratum for the block, and waits. -/
theorem read_misses {c b : Nat} {r : CliffReq} (hc : c < 20) (hn : s.findWay c b = none) (hback : s.writingBack c b = false)
    (hfetch : s.fetching c b = false) :
    let t := ((s.holdSlot c r).readBlock c r [r] .clean b).finishReq c r
    t.out = s.out ∧ t.reg Pd.coveMisses = (s.reg Pd.coveMisses + 1) % 2 ^ 64
      ∧ ∃ x ∈ tget [] (t.cliff c).queues (blockStratum b), x.block = b ∧ x.write = false ∧ x.waiters = [r] := by
  have hcliff : (s.holdSlot c r).cliff c = { s.cliff c with slots := (s.cliff c).slots ++ [(r, St.ok)] } := s.cliff_setCliff_same c _
  have hback' : (s.holdSlot c r).writingBack c b = false := by unfold State.writingBack at hback ⊢; rw [hcliff]; exact hback
  have hfetch' : (s.holdSlot c r).fetching c b = false := by unfold State.fetching at hfetch ⊢; rw [hcliff]; exact hfetch
  have hread := State.readBlock_of_miss (s := s.holdSlot c r) (q := r) (ws := [r]) hn hback' hfetch'
  obtain ⟨hout, -, -⟩ := (covesRead.readBlock_waited (s.holdSlot c r) r [r] b hc).fields
  have hmisses : ((s.holdSlot c r).allocate c b r true).1.reg Pd.coveMisses = s.reg Pd.coveMisses :=
    (coveFrame.allocate (c := c) (ks := [Pd.pinDenied, Pd.noAllocate]) _ b r true (by decide) (by decide)).reg (by decide) (by decide)
  have hcount : ((s.holdSlot c r).readBlock c r [r] .clean b).reg Pd.coveMisses = (s.reg Pd.coveMisses + 1) % 2 ^ 64 := by
    rw [hread, State.queueAccess_reg, State.bump_reg, hmisses]
  have hqueued : ∃ x ∈ tget [] (((s.holdSlot c r).readBlock c r [r] .clean b).cliff c).queues (blockStratum b),
      x.block = b ∧ x.write = false ∧ x.waiters = [r] := by
    rw [hread]
    exact ⟨_, State.mem_queueAccess _ c _, rfl, rfl, rfl⟩
  generalize (s.holdSlot c r).readBlock c r [r] .clean b = u at *
  have hwaits : u.reqWaits c r = true := by
    obtain ⟨x, hx, -, -, hr⟩ := hqueued
    rw [State.reqWaits, Bool.or_eq_true]
    refine .inl (List.any_eq_true.mpr ?_)
    rcases tget_mem_or [] (u.cliff c).queues (blockStratum b) with hnone | hmem
    · rw [hnone] at hx; cases hx
    · exact ⟨_, hmem, List.any_eq_true.mpr ⟨x, hx, by simp [hr]⟩⟩
  intro t
  have ht : t = u := State.finishReq_of_waiting hwaits
  rw [ht]
  exact ⟨hout, hcount, hqueued⟩

theorem coveServesRequests : Claims.CoveServesRequests := by
  refine ⟨fun s q ecc n hpower hown hcheck hwrite hdata hpool hquota hlines hbehind =>
    coveRequest_writes ecc hpower hown hcheck hwrite hdata hpool hquota hlines hbehind, ?_, ?_⟩
  · intro s q n hpower hown hcheck hread hone hpool hquota hlines hbehind c b r hnew hwaits
    obtain ⟨⟨hcliff, -⟩, -⟩ := State.reqCheck_blocks hcheck
    have hexec := exec_coveRequest hown .clean s
    rw [State.coveRequest_of_taken hpower hcheck hpool hquota (hone ▸ hlines) hbehind, State.coveAccept_read hread hone] at hexec
    obtain ⟨-, -, hmem⟩ := (covesRead.readBlock_waited (s.holdSlot c r) r [r] b hcliff).fields
    refine ⟨_, hexec, (State.finishReq_mem _ c r).trans hmem, fun w hw hfilling hpoison => ?_, fun hn hback hfetch => ?_⟩
    · rw [← enableAll_getD (s.bytesAt n 256)]
      exact read_hits (r := r) hown hnew hwaits hw hfilling hpoison
    · exact read_misses hcliff hn hback hfetch
  · intro s q ecc code hpower hown hcheck
    have hexec := exec_coveRequest hown ecc s
    rw [State.coveRequest, hpower, hcheck] at hexec
    have hframe := s.countAccess_frame code
    refine ⟨_, hexec, ?_⟩
    simp only [Bool.false_eq_true, ↓reduceIte, State.cliffAnswer_of_outside hown, State.emit]
    exact ⟨congrArg (· ++ _) (congrArg State.out hframe :), (congrArg State.mem hframe :), (congrArg State.cliffs hframe :)⟩

end Sys2Proof.Machine
end

section
/-!
PROOFS. The scheduler of a stratum (spec/06 R135, R150): which access it takes, what comes of it, and the statement
`StratumSchedulesAccesses`; with the requests' own, the statement `CovesAndStrataServe`.
-/
namespace Sys2Proof.Machine

variable {s : State} {c st : Nat} {x : LineAcc}

/-! ### The access chosen -/

/-- The access chosen waits at the stratum, and its bank is free. -/
theorem State.mem_of_coveChoice {mode : Bool} (h : s.coveChoice c st = (some x, mode)) :
    x ∈ (tget [] (s.cliff c).queues st).filter fun y => s.bankFree c y := by
  unfold State.coveChoice at h
  dsimp only at h
  generalize (tget [] (s.cliff c).queues st).filter (fun y => s.bankFree c y) = q at h ⊢
  have hkind : ∀ (m : Bool) (rs ws : List LineAcc), rs ⊆ q → ws ⊆ q →
      (if m = true then (if ws.isEmpty then rs else ws) else if rs.isEmpty then ws else rs) ⊆ q := by
    intro m rs ws hrs hws
    split <;> split <;> assumption
  split at h
  · next y hy => cases h; exact List.mem_of_find?_eq_some hy
  · have hreads : (q.filter fun x => !x.write) ⊆ q := List.filter_sublist.subset
    have hwrites : (q.filter fun x => x.write) ⊆ q := List.filter_sublist.subset
    split at h
    · next y hy => cases h; exact hkind _ _ _ hreads hwrites (List.mem_of_find?_eq_some hy)
    · exact hkind _ _ _ hreads hwrites (List.mem_of_head? (congrArg Prod.fst h))

/-- Where an access of a free bank has waited over 4 µs, the one chosen has too. -/
theorem State.waited_of_coveChoice {mode : Bool} (h : s.coveChoice c st = (some x, mode)) {y : LineAcc}
    (hy : y ∈ (tget [] (s.cliff c).queues st).filter fun y => s.bankFree c y) (hlong : 4 < s.time - y.since) : 4 < s.time - x.since := by
  unfold State.coveChoice at h
  dsimp only at h
  split at h
  · next z hz => cases h; simpa using List.find?_some hz
  · next hnone => exact absurd hlong (by simpa using List.find?_eq_none.mp hnone y hy)

theorem exec_coveSchedule_of_choice {mode : Bool} (hpower : s.unpowered = false) (hfence : s.cliffFenced c = false)
    (hhalt : s.halted (74 + c) = false) (hidle : tget none (s.cliff c).inService st = none) (hrecal : st ∉ (s.cliff c).recal)
    (h : s.coveChoice c st = (some x, mode)) : exec (.coveSchedule c st) s = .next (s.setCliff c { s.cliff c with
      queues := tset [] (s.cliff c).queues st ((tget [] (s.cliff c).queues st).erase x)
      inService := tset none (s.cliff c).inService st (some x)
      writeMode := tset false (s.cliff c).writeMode st mode
      openRows := tset none (s.cliff c).openRows (bankKey st (blockBank x.block)) (some (blockRow x.block)) }) := by
  change execCoveSchedule c st s = _
  simp [execCoveSchedule, hpower, hfence, hhalt, hidle, hrecal, h]

/-! ### An access that ends -/

/-- A stratum that serves nothing. -/
def State.strataFreed (s : State) (c st : Nat) : State :=
  s.setCliff c { s.cliff c with inService := tset none (s.cliff c).inService st none }

theorem exec_stratumAccessDone_of_write (hpower : s.unpowered = false) (hx : tget none (s.cliff c).inService st = some x)
    (hw : x.write = true) (ecc : Ecc) : exec (.stratumAccessDone c st ecc) s = .next (s.strataFreed c st) := by
  change execStratumAccessDone c st ecc s = _
  simp only [execStratumAccessDone, hx, hpower, hw, Bool.false_eq_true, ↓reduceIte]
  rfl

/-- A clean read of a sound block fills its line, and each request that waits for it goes on. -/
theorem exec_stratumAccessDone_of_clean (hpower : s.unpowered = false) (hx : tget none (s.cliff c).inService st = some x)
    (hw : x.write = false) (hbad : c * 0x2000000000 + 256 * x.block ∉ s.badBlocks)
    (hpoison : c * 0x2000000000 + 256 * x.block ∉ s.poisonBlocks) : exec (.stratumAccessDone c st .clean) s
      = .next (x.waiters.foldl (fun t q => t.finishReq c q) ((s.strataFreed c st).fillLine c x false)) := by
  have hb : s.badBlocks.contains (c * 0x2000000000 + 256 * x.block) = false := by simpa using hbad
  have hp : s.poisonBlocks.contains (c * 0x2000000000 + 256 * x.block) = false := by simpa using hpoison
  change execStratumAccessDone c st .clean s = _
  simp only [execStratumAccessDone, hx, hpower, hw, hb, hp, Bool.false_eq_true, ↓reduceIte, Bool.or_false, Bool.and_false, reduceCtorEq,
    beq_iff_eq]
  rfl

theorem State.fillLine_frame (s : State) (c : Nat) (x : LineAcc) (poison : Bool) : { s.fillLine c x poison with pd := s.pd } = s := by
  unfold State.fillLine
  split <;> rfl

theorem State.fillLine_store (s : State) (poison : Bool) (hc : c < 20) (hway : ∀ w, x.way = some w → w < 24) :
    storeFrame [Pd.coveLineState] s (s.fillLine c x poison) := by
  unfold State.fillLine
  split
  · exact .refl _ s
  · next w hw =>
    have hlt := hway w hw
    have hset := coveSet_lt x.block
    exact (storeFrame.refl _ s).wr _ (by simp) (by unfold lineIndex; omega)

/-- The read that waited alone is answered, and the stratum is free. -/
theorem stratumAccessDone_answers {q : CliffReq} (hpower : s.unpowered = false) (hown : q.own = false) (hc : c < 20)
    (hx : tget none (s.cliff c).inService st = some x) (hw : x.write = false) (hway : ∀ w, x.way = some w → w < 24) (hq : x.waiters = [q])
    (hbad : c * 0x2000000000 + 256 * x.block ∉ s.badBlocks) (hpoison : c * 0x2000000000 + 256 * x.block ∉ s.poisonBlocks)
    (hslot : ((s.cliff c).slots.find? fun e => e.1 == q) = some (q, St.ok)) (hwaits : (s.strataFreed c st).reqWaits c q = false) :
    ∃ t, exec (.stratumAccessDone c st .clean) s = .next t ∧ tget none (t.cliff c).inService st = none
      ∧ t.out = s.out ++ [.cliffReply q.user q.tag St.ok (q.data.map fun b => b.getD 0)] ∧ t.mem = s.mem ∧ t.badBlocks = s.badBlocks
      ∧ storeFrame [Pd.coveLineState] s t := by
  have hexec := exec_stratumAccessDone_of_clean hpower hx hw hbad hpoison
  rw [hq, List.foldl_cons, List.foldl_nil] at hexec
  have hframe := (s.strataFreed c st).fillLine_frame c x false
  have hstore : storeFrame [Pd.coveLineState] s ((s.strataFreed c st).fillLine c x false) :=
    (State.fillLine_store (s.strataFreed c st) false hc hway)
  generalize (s.strataFreed c st).fillLine c x false = u at *
  have hcliff : u.cliff c = { s.cliff c with inService := tset none (s.cliff c).inService st none } :=
    (State.cliff_congr (congrArg State.cliffs hframe :) c).trans (s.cliff_setCliff_same c _)
  have hfreed : (s.strataFreed c st).cliff c = u.cliff c := (s.cliff_setCliff_same c _).trans hcliff.symm
  have hidle : u.reqWaits c q = false := (State.reqWaits_congr (by rw [hfreed]) (by rw [hfreed]) q).trans hwaits
  rw [State.finishReq_of_done hown hidle (e := (q, St.ok)) (by rw [hcliff]; exact hslot)] at hexec
  refine ⟨_, hexec, ?_, congrArg (· ++ _) (congrArg State.out hframe :), (congrArg State.mem hframe :), (congrArg State.badBlocks hframe :),
    hstore.trans (.of_pd rfl)⟩
  refine (congrArg (fun k : Cliff => tget none k.inService st) (u.cliff_setCliff_same c _)).trans ?_
  simp only [hcliff, tget_tset_same]

/-! ### The statements -/

theorem stratumSchedulesAccesses : Claims.StratumSchedulesAccesses := by
  refine ⟨?_, ?_, ?_, ?_⟩
  · intro s c st x mode hpower hfence hhalt hidle hrecal hchoice
    obtain ⟨hmem, hfree⟩ := List.mem_filter.mp (State.mem_of_coveChoice hchoice)
    refine ⟨hmem, hfree, fun ⟨y, hy, hyfree, hlong⟩ => State.waited_of_coveChoice hchoice (List.mem_filter.mpr ⟨hy, hyfree⟩) hlong,
      _, exec_coveSchedule_of_choice hpower hfence hhalt hidle hrecal hchoice, rfl, ?_, ?_, ?_, fun d hd => s.cliff_setCliff_ne _ hd⟩
    all_goals simp only [State.cliff_setCliff_same, tget_tset_same]
  · intro s c st x ecc hpower hx hw
    refine ⟨_, exec_stratumAccessDone_of_write hpower hx hw ecc, rfl, ?_⟩
    simp only [State.strataFreed, State.cliff_setCliff_same, tget_tset_same]
  · exact fun s c st x q hpower hown hc hx hw hway hq hbad hpoison hslot hwaits =>
      stratumAccessDone_answers hpower hown hc hx hw hway hq hbad hpoison hslot hwaits
  · intro s c st b
    refine ⟨_, rfl, rfl, ?_⟩
    simp only [State.cliff_setCliff_same, tget_tset_same, and_self]

end Sys2Proof.Machine

open Sys2Proof Sys2Proof.Machine

/-- Settles O29: a Cove answers a write at once and a read from its line or through its stratum, and a stratum takes and ends accesses. -/
theorem covesAndStrataServe : Obligations.CovesAndStrataServe := by
  unfold Obligations.CovesAndStrataServe
  exact ⟨coveServesRequests, stratumSchedulesAccesses⟩
end

section
/-!
PROOFS. Rows and strata that fail, unpinning and Chart walks (spec/06 R148, R155, R157, R158, R162): the statements `WeakRowsAndStrata` and
`UnpinningAndChartWalks`, assembled to `WeakRowsPinsAndCharts`.
-/
namespace Sys2Proof

/-! ### A table mapped -/

/-- Entries of distinct keys, each with a value of its own key, written over a table that lists none of them: a listed key reads as its
own value, any other as before. -/
theorem tget_foldl_tset_map {α : Type} [DecidableEq α] {d : α} {f : Nat → α → α} (hd : ∀ k, f k d = d) {l : Tab α}
    (hl : l.Pairwise fun a b => a.1 < b.1) {k : Nat} {t : Tab α} (ht : tget d t k = d) :
    tget d (l.foldl (fun t e => tset d t e.1 (f e.1 e.2)) t) k = f k (tget d l k) := by
  have hkeys : (l.map fun e => (e.1, f e.1 e.2)).Pairwise fun a b => a.1 < b.1 := List.pairwise_map.mpr hl
  have hwrite := tget_foldl_tset_of_unlisted d hkeys ht
  rw [List.foldl_map] at hwrite
  rw [hwrite]
  clear hwrite hkeys hl
  induction l with
  | nil => exact (hd k).symm
  | cons e l ih =>
    simp only [List.map_cons, tget]
    split
    · next h => rw [h]
    · exact ih

/-- A table in canonical form, mapped by what keeps the value of an unlisted key: every key reads as mapped. -/
theorem tget_tmap {α : Type} [DecidableEq α] {d : α} {f : Nat → α → α} (hd : ∀ k, f k d = d) {t : Tab α} (ht : Tab.wf d t = true)
    (k : Nat) : tget d (tmap d f t) k = f k (tget d t k) :=
  tget_foldl_tset_map hd ((wf_iff d t).mp ht).1 rfl

end Sys2Proof

namespace Sys2Proof.Machine

variable {s : State}

/-! ### Rows and strata -/

theorem exec_softReplacementDone_of_copying {c st b row : Nat} (h : tget none (s.cliff c).copying (bankKey st b) = some row) :
    exec (.softReplacementDone c st b) s = .next ((s.bump Pd.softReplacements).setCliff c { s.cliff c with
      copying := tset none (s.cliff c).copying (bankKey st b) none
      softRows := rowKey st b row :: (s.cliff c).softRows.erase (rowKey st b row)
      usedRows := tset 0 (s.cliff c).usedRows (bankKey st b) (tget 0 (s.cliff c).usedRows (bankKey st b) + 1)
      rowErrors := terase (s.cliff c).rowErrors (rowKey st b row) }) := by
  change execSoftReplacementDone c st b s = _
  simp only [execSoftReplacementDone, h]

theorem State.reg_setCliff (s : State) (c : Nat) (v : Cliff) (k : Nat) : (s.setCliff c v).reg k = s.reg k := rfl

theorem weakRowsAndStrata : Claims.WeakRowsAndStrata := by
  refine ⟨?_, ?_, ?_⟩
  · intro s c st b row h
    refine ⟨_, exec_softReplacementDone_of_copying h, ?_, ?_, ?_, ?_, ?_, (s.bump_store Pd.softReplacements 1).trans (.of_pd rfl), rfl⟩
    all_goals simp only [State.cliff_setCliff_same, State.reg_setCliff, State.bump_reg, tget_tset_same, tget_terase_same, List.mem_cons, true_or]
  · intro s c st hready hfence hrecal
    refine ⟨s.setCliff c { s.cliff c with recal := st :: (s.cliff c).recal }, ?_, s.cliff_setCliff_same c _, rfl⟩
    change execStratumFailure c st s = _
    simp [execStratumFailure, hready, hfence, hrecal]
  · intro s c st hrecal u
    have hheld : (s.cliff c).recal.contains st = true := List.contains_iff_mem.mpr hrecal
    constructor
    · change execStratumRecalDone c st true s = _
      simp only [execStratumRecalDone, hheld, ↓reduceIte]
      rfl
    · change execStratumRecalDone c st false s = _
      simp only [execStratumRecalDone, hheld, Bool.false_eq_true, ↓reduceIte]
      rfl

/-! ### Unpinning (spec/06 R148) -/

/-- An admitted write of a command that names its entry is counted, and its entry does its work. -/
theorem State.receiveOwn_ownWrite {o : Origin} {key offset : Nat} {data : List Byte} {role : Role} {e : EntryInfo} (serve : Serve)
    (h : admitted s (ownWrite o key offset data) role e = true) :
    s.receiveOwn serve (ownWrite o key offset data) = (s.countRequest (ownWrite o key offset data).path).conclude e
      (ownWrite o key offset data) (serve role e (ownWrite o key offset data) (s.countRequest (ownWrite o key offset data).path)) :=
  State.receiveOwn_admitted serve h (by rw [show (ownWrite o key offset data).hdr.opcode = 2 from rfl]; decide)
    (by rw [show (ownWrite o key offset data).hdr.opcode = 2 from rfl]; decide)

theorem exec_unpinTensor_of_admitted {o : Origin} {x : BitVec 16} {role : Role} {e : EntryInfo}
    (h : admitted s (ownWrite o Pd.unpinTensor 0 (natLE 2 x.toNat)) role e = true) :
    let q := ownWrite o Pd.unpinTensor 0 (natLE 2 x.toNat)
    ∃ b, exec (.unpinTensor o x) s
      = .next ({ s.countRequest q.path with unpinning := s.unpinning ++ [x.toNat] }.await q .unpin b) := by
  intro q
  have hvalue : q.value = x.toNat := leNat_natLE x.isLt
  have hserve : serveUnpin role e q (s.countRequest q.path)
      = { state := { s.countRequest q.path with unpinning := s.unpinning ++ [x.toNat] }, wait := some .unpin } := by
    rw [serveUnpin, hvalue, s.countRequest_eq q.path]
  obtain ⟨b, hb⟩ := (s.countRequest q.path).conclude_await e q (x := serveUnpin role e q (s.countRequest q.path)) rfl
  refine ⟨b, ?_⟩
  change Host.Outcome.next (s.receiveOwn serveUnpin q) = _
  rw [State.receiveOwn_ownWrite serveUnpin h, hb, hserve]

theorem unpinLine_zero (x : Nat) : unpinLine x 0 = 0 := by simp [unpinLine, lineHint, bits]

/-- A word of the store, at key `k`, once tensor `x` is unpinned. -/
def unpinWord (x k v : Nat) : Nat := if k / 16777216 = Pd.coveLineState then unpinLine x v else v

/-- The state in which every Cove has unpinned tensor `x`. -/
def State.unpinned (s : State) (x : Nat) (rest : List Nat) : State :=
  { s with unpinning := rest, pd := tmap 0 (unpinWord x) s.pd }

theorem exec_unpinDone_of_waiting {x : Nat} {rest : List Nat} {p : Pending} (h : s.unpinning = x :: rest)
    (hp : (s.gdp.inflight.find? fun (p : Pending) => decide (p.wait = .unpin)) = some p) :
    exec .unpinDone s = .next ((s.unpinned x rest).answer p St.ok) := by
  change execUnpinDone s = _
  simp only [execUnpinDone, h, hp]
  rfl

theorem State.unpinned_rd (hs : s.tablesOk) (x : Nat) (rest : List Nat) (k : Nat) {u : Nat} (hu : u < 16777216) :
    (s.unpinned x rest).rd k u = if k = Pd.coveLineState then unpinLine x (s.rd k u) else s.rd k u := by
  obtain ⟨-, hpd⟩ := hs
  have hzero : ∀ k, unpinWord x k 0 = 0 := fun k => by simp [unpinWord, unpinLine_zero]
  have hkey : pdKey k u / 16777216 = k := by unfold pdKey; omega
  refine (tget_tmap hzero hpd (pdKey k u)).trans ?_
  rw [unpinWord, hkey]
  rfl

/-! ### Chart walks (spec/06 R155, R157) -/

/-- The state in which the tables of a walk are read and the walk is counted. -/
def State.walked (s : State) (p a : Nat) : State :=
  (s.passRead (plainReq .harbour false) (blocksOf (s.walkReads p a))).bump Pd.chartWalks

/-- A translation cache with one more entry, in place of the one that its requester held for the page. -/
def tlbWith (tlb : List TlbEntry) (user : CliffUser) (p : Nat) (m : Mapping) : List TlbEntry :=
  { user := user, part := p, base := m.base, bytes := m.bytes, entry := BitVec.ofNat 64 m.entry }
    :: tlb.filter fun e => !(e.user == user && e.part == p && e.base == m.base && e.bytes == m.bytes)

section
variable {user : CliffUser} {p a : Nat}

theorem exec_chartWalkDone_of_none (h : s.harbourRoom (s.walkReads p a) = true) (hm : s.chartWalk p a = none) :
    exec (.chartWalkDone user p a) s = .next (s.walked p a) := by
  change execChartWalkDone user p a s = _
  simp only [execChartWalkDone, h, hm, Bool.not_true, Bool.false_eq_true, ↓reduceIte]
  rfl

theorem exec_chartWalkDone_of_found {m : Mapping} (h : s.harbourRoom (s.walkReads p a) = true) (hm : s.chartWalk p a = some m) :
    exec (.chartWalkDone user p a) s = .next { s.walked p a with tlb := tlbWith (s.walked p a).tlb user p m } := by
  change execChartWalkDone user p a s = _
  simp only [execChartWalkDone, h, hm, Bool.not_true, Bool.false_eq_true, ↓reduceIte]
  rfl

/-- A walk that found no room waits. -/
theorem exec_chartWalkDone_of_full (h : s.harbourRoom (s.walkReads p a) = false) :
    exec (.chartWalkDone user p a) s = .next (if s.poolFull .harbour then s else s.bump Pd.quotaWaits) := by
  change execChartWalkDone user p a s = _
  simp only [execChartWalkDone, h, Bool.not_false, ↓reduceIte]

/-- A walk counted leaves memory, what is sent, the Charts and the caches. -/
theorem State.walked_spec (s : State) (p a : Nat) : (s.walked p a).reg Pd.chartWalks = (s.reg Pd.chartWalks + 1) % 2 ^ 64
    ∧ (s.walked p a).mem = s.mem ∧ (s.walked p a).out = s.out ∧ (s.walked p a).chartBase = s.chartBase ∧ (s.walked p a).tlb = s.tlb := by
  obtain ⟨hframe, hstore⟩ := covesRead.passRead s (plainReq .harbour false) fun n hn => natCliff_of_mem_blocksOf (ns := s.walkReads p a) hn
  refine ⟨?_, (congrArg State.mem hframe :), (congrArg State.out hframe :), (congrArg State.chartBase hframe :), (congrArg State.tlb hframe :)⟩
  rw [State.walked, State.bump_reg, hstore.reg (by decide)]

theorem mem_tlbWith {tlb : List TlbEntry} {m : Mapping} : ∃ old,
    tlbWith tlb user p m = { user := user, part := p, base := m.base, bytes := m.bytes, entry := BitVec.ofNat 64 m.entry } :: old
      ∧ ∀ x, x ∈ old ↔ x ∈ tlb ∧ ¬ (x.user = user ∧ x.part = p ∧ x.base = m.base ∧ x.bytes = m.bytes) := by
  refine ⟨_, rfl, fun x => ?_⟩
  rw [List.mem_filter, Bool.not_eq_true', ← Bool.not_eq_true]
  simp only [Bool.and_eq_true, beq_iff_eq, and_assoc]

end

/-! ### The statements -/

theorem unpinningAndChartWalks : Claims.UnpinningAndChartWalks := by
  refine ⟨?_, ?_, fun s user p a h => exec_chartWalkDone_of_full h, ?_⟩
  · intro s o x role e q hadmitted
    obtain ⟨b, hexec⟩ := exec_unpinTensor_of_admitted hadmitted
    refine ⟨_, hexec, rfl, s.countRequest_out q.path, ⟨b, ?_⟩, (s.countRequest_store q.path).trans (.of_pd rfl), ?_⟩
    · rw [← s.countRequest_gdp q.path]; rfl
    · rw [s.countRequest_eq q.path]; rfl
  · intro s x rest p hok hfirst hp
    have hrd := fun k u => State.unpinned_rd hok x rest k (u := u)
    have hstraps : (s.unpinned x rest).reg Pd.straps = s.reg Pd.straps := hrd Pd.straps 0 (by decide)
    have hpd : ((s.unpinned x rest).answer p St.ok).pd = (s.unpinned x rest).pd := State.respond_ok_pd _ p.req [] rfl
    obtain ⟨hframe, hkept⟩ := (s.unpinned x rest).answer_answered p St.ok []
    refine ⟨_, exec_unpinDone_of_waiting hfirst hp, (congrArg State.unpinning hframe :), ?_, fun u hu => ?_, fun k u hk hu => ?_, hkept, ?_⟩
    · rw [State.answer_out, reply_congr hstraps]; rfl
    · rw [State.rd_of_pd hpd, hrd _ _ hu, if_pos rfl]
    · rw [State.rd_of_pd hpd, hrd _ _ hu, if_neg (by simpa using hk)]
    · exact congrArg (fun t : State => { t with pd := s.pd, unpinning := s.unpinning }) hframe
  · intro s user p a h
    obtain ⟨hcount, hmem, hout, hbase, htlb⟩ := s.walked_spec p a
    cases hm : s.chartWalk p a with
    | none => exact ⟨_, exec_chartWalkDone_of_none h hm, hcount, hmem, hout, hbase, fun _ => htlb, fun m hm' => by cases hm'⟩
    | some m =>
      have hexec := exec_chartWalkDone_of_found (user := user) h hm
      rw [htlb] at hexec
      refine ⟨_, hexec, hcount, hmem, hout, hbase, fun hm' => absurd hm' (by simp), fun m' hm' => ?_⟩
      obtain rfl : m = m' := Option.some.inj hm'
      exact mem_tlbWith

end Sys2Proof.Machine

open Sys2Proof Sys2Proof.Machine

/-- Settles O30: weak rows and failing strata, the lines of an unpinned tensor, and what a Chart walk counts and caches. -/
theorem weakRowsPinsAndCharts : Obligations.WeakRowsPinsAndCharts := by
  unfold Obligations.WeakRowsPinsAndCharts
  exact ⟨weakRowsAndStrata, unpinningAndChartWalks⟩
end

section
/-!
PROOFS. Bulk copies (spec/06 R163, R164): a START that runs, and the bytes that the end of a copy moves, block by block, as though through a
buffer.
-/
namespace Sys2Proof

/-! ### Entries of other keys -/

section
variable {α : Type} {p : Nat × α → Bool} {k : Nat} (hp : ∀ v, p (k, v) = false)
include hp

theorem filter_terase (t : Tab α) : (terase t k).filter p = t.filter p := by
  rw [terase, List.filter_filter]
  refine List.filter_congr fun e _ => ?_
  cases he : p e with
  | false => rfl
  | true =>
    have hne : e.1 ≠ k := by
      rintro rfl
      rw [hp e.2] at he
      cases he
    simpa using hne

theorem filter_tinsert (t : Tab α) (v : α) : (tinsert t k v).filter p = t.filter p := by
  induction t with
  | nil => simp [tinsert, hp]
  | cons e t ih =>
    simp only [tinsert]
    split
    · exact List.filter_cons_of_neg (by simp [hp])
    · simp only [List.filter_cons, ih]

/-- Entries that no entry of a key is among stay as they are when the key is set. -/
theorem filter_tset [DecidableEq α] (d : α) (t : Tab α) (v : α) : (tset d t k v).filter p = t.filter p := by
  unfold tset
  split
  · exact filter_terase hp t
  · rw [filter_tinsert hp, filter_terase hp]

end

end Sys2Proof

namespace Sys2Proof.Machine

variable {s : State}

/-! ### The fields of an argument -/

/-- A field that stands first in its list. -/
theorem listField_natLE {n v : Nat} (h : v < 256 ^ n) (bs : List Byte) : listField (natLE n v ++ bs) 0 n = v := by
  have htake : (natLE n v ++ bs).take n = natLE n v := List.take_left' (length_natLE n v)
  rw [listField, List.drop_zero, htake, leNat_natLE h]

/-- A field after `k` bytes is the field of what stands after them. -/
theorem listField_append {bs : List Byte} {k : Nat} (h : bs.length = k) (bs' : List Byte) (i n : Nat) :
    listField (bs ++ bs') (k + i) n = listField bs' i n := by
  rw [listField, ← h, List.drop_length_add_append, listField]

/-! ### Counting a request -/

theorem State.retiredRecords_setReg (s : State) {k : Nat} (v : Nat) (hk : k ≠ Pd.retiredList) :
    (s.setReg k v).retiredRecords = s.retiredRecords := by
  have hkey : pdKey k 0 / 16777216 = k := by unfold pdKey; omega
  have hfilter : (s.setReg k v).pd.filter (fun e => e.1 / 16777216 == Pd.retiredList) = s.pd.filter fun e => e.1 / 16777216 == Pd.retiredList :=
    filter_tset (fun _ => by simpa [hkey] using hk) 0 s.pd v
  rw [State.retiredRecords, hfilter, State.retiredRecords]

theorem State.retiredRecords_countRequest (s : State) (q : GdpPath) : (s.countRequest q).retiredRecords = s.retiredRecords := by
  cases q with
  | mailbox => exact s.retiredRecords_setReg _ (by decide)
  | management _ _ _ _ => exact s.retiredRecords_setReg _ (by decide)
  | causeway _ _ _ => exact s.retiredRecords_setReg _ (by decide)
  | testPort => rfl
  | packet _ _ => rfl

theorem State.cliffFenced_countRequest (s : State) (q : GdpPath) (c : Nat) : (s.countRequest q).cliffFenced c = s.cliffFenced c := by
  rw [State.cliffFenced, s.countRequest_reg q (k := Pd.cliffsFenced) (by decide), State.cliffFenced]

theorem State.rangeUsable_countRequest (s : State) (q : GdpPath) (a n : Nat) : (s.countRequest q).rangeUsable a n = s.rangeUsable a n := by
  simp only [State.rangeUsable, s.retiredRecords_countRequest, s.cliffFenced_countRequest]

/-! ### START -/

/-- The argument of a Bulk copy START. -/
def bulkArg (src dst len : BitVec 64) : List Byte := natLE 8 src.toNat ++ natLE 8 dst.toNat ++ natLE 8 len.toNat

theorem bulkArg_fields (src dst len : BitVec 64) : listField (bulkArg src dst len) 0 8 = src.toNat
    ∧ listField (bulkArg src dst len) 8 8 = dst.toNat ∧ listField (bulkArg src dst len) 16 8 = len.toNat := by
  have hlen : ∀ x : BitVec 64, (natLE 8 x.toNat).length = 8 := fun x => length_natLE 8 _
  have hfield : ∀ (x : BitVec 64) bs, listField (natLE 8 x.toNat ++ bs) 0 8 = x.toNat := fun x bs => listField_natLE x.isLt bs
  refine ⟨?_, ?_, ?_⟩
  · rw [bulkArg, List.append_assoc, hfield]
  · rw [bulkArg, List.append_assoc]
    exact (listField_append (hlen src) _ 0 8).trans (hfield dst _)
  · rw [bulkArg, ← List.append_nil (natLE 8 len.toNat)]
    exact (listField_append (k := 16) (by simp [length_natLE]) _ 0 8).trans (hfield len _)

/-- The request that BULK_COPY_START makes. -/
def bulkReq (o : Origin) (src dst len : BitVec 64) : Req := ownWrite o Pd.bulkCopyStart 0 (bulkArg src dst len)

/-- A copy that runs: the state of a START that was accepted. -/
def State.bulkStarted (s : State) (src dst len : Nat) : State :=
  { s.opStart 6 2 ((len + 0x1FFFFF) / 0x200000) with bulk := some (src, dst, len) }

theorem serveBulkCopy_of_usable {role : Role} {e : EntryInfo} {q : Req} {src dst len : BitVec 64} (hdata : q.data = bulkArg src dst len)
    (h0 : len.toNat ≠ 0) (h256 : len.toNat % 256 = 0) (hmax : len.toNat ≤ 0x1000000000) (hsrc : s.rangeUsable src.toNat len.toNat = true)
    (hdst : s.rangeUsable dst.toNat len.toNat = true) (hbusy : s.opBusy 6 = false) (hrestore : s.opActive 4 = false) :
    serveBulkCopy role e q s = acceptedStart (s.bulkStarted src.toNat dst.toNat len.toNat) 6 false := by
  obtain ⟨hfsrc, hfdst, hflen⟩ := bulkArg_fields src dst len
  have hlen : ¬ (len.toNat = 0 ∨ len.toNat % 256 ≠ 0 ∨ 0x1000000000 < len.toNat) := by omega
  simp only [serveBulkCopy, hdata, hfsrc, hfdst, hflen, hlen, hsrc, hdst, hbusy, hrestore, Bool.and_self, Bool.not_true, Bool.false_eq_true,
    ↓reduceIte]
  rfl

theorem bulkCopyStart_not_persistent {e : EntryInfo} (h : entryInfo Pd.bulkCopyStart = some e) : e.persistent = false := by
  have hrow : (entryInfo Pd.bulkCopyStart).map (·.persistent) = some false := by decide +kernel
  rw [h] at hrow
  exact Option.some.inj hrow

theorem State.bulkStarted_op (s : State) (src dst len : Nat) : (s.bulkStarted src dst len).op 6 =
    { state := 2, code := St.ok, run := ((s.op 6).run + 1) % 2 ^ 32, slots := (len + 0x1FFFFF) / 0x200000 } := s.opStart_op 6 2 _

section
variable {o : Origin} {src dst len : BitVec 64} {role : Role} {e : EntryInfo}

theorem exec_bulkCopyStart_of_admitted (h : admitted s (bulkReq o src dst len) role e = true) : exec (.bulkCopyStart o src dst len) s
    = .next ((s.countRequest (bulkReq o src dst len).path).conclude e (bulkReq o src dst len)
        (serveBulkCopy role e (bulkReq o src dst len) (s.countRequest (bulkReq o src dst len).path))) :=
  congrArg Host.Outcome.next (State.receiveOwn_ownWrite serveBulkCopy h)

/-- An accepted START is counted, runs, and is answered with its run's number. -/
theorem exec_bulkCopyStart_of_usable (h : admitted s (bulkReq o src dst len) role e = true)
    (h0 : len.toNat ≠ 0) (h256 : len.toNat % 256 = 0) (hmax : len.toNat ≤ 0x1000000000) (hsrc : s.rangeUsable src.toNat len.toNat = true)
    (hdst : s.rangeUsable dst.toNat len.toNat = true) (hbusy : s.opBusy 6 = false) (hrestore : s.opActive 4 = false) :
    exec (.bulkCopyStart o src dst len) s
      = .next (((s.countRequest (bulkReq o src dst len).path).bulkStarted src.toNat dst.toNat len.toNat).respond (bulkReq o src dst len) St.ok
        (natLE 4 (((s.op 6).run + 1) % 2 ^ 32))) := by
  have hexec := exec_bulkCopyStart_of_admitted h
  have hkey : (bulkReq o src dst len).key = Pd.bulkCopyStart := ownWrite_key o 0 _ (by decide)
  have hdata : (bulkReq o src dst len).data = bulkArg src dst len := rfl
  have hpersistent : e.persistent = false := bulkCopyStart_not_persistent (hkey ▸ entryInfo_of_admitted h)
  generalize bulkReq o src dst len = q at *
  have hbusy' : (s.countRequest q.path).opBusy 6 = false := by simpa only [State.opBusy, State.opActive, s.countRequest_op] using hbusy
  have hrestore' : (s.countRequest q.path).opActive 4 = false := by simpa only [State.opActive, s.countRequest_op] using hrestore
  rw [serveBulkCopy_of_usable hdata h0 h256 hmax (by rw [s.rangeUsable_countRequest, hsrc]) (by rw [s.rangeUsable_countRequest, hdst])
    hbusy' hrestore', State.conclude_respond rfl (.inl hpersistent)] at hexec
  simp only [acceptedStart, Bool.false_eq_true, ↓reduceIte, State.bulkStarted_op, s.countRequest_op] at hexec
  exact hexec

theorem bulkCopyStart_runs (h : admitted s (bulkReq o src dst len) role e = true)
    (h0 : len.toNat ≠ 0) (h256 : len.toNat % 256 = 0) (hmax : len.toNat ≤ 0x1000000000) (hsrc : s.rangeUsable src.toNat len.toNat = true)
    (hdst : s.rangeUsable dst.toNat len.toNat = true) (hbusy : s.opBusy 6 = false) (hrestore : s.opActive 4 = false) :
    ∃ t, exec (.bulkCopyStart o src dst len) s = .next t
      ∧ t.out = s.out ++ reply s (bulkReq o src dst len) St.ok (natLE 4 (((s.op 6).run + 1) % 2 ^ 32))
      ∧ t.bulk = some (src.toNat, dst.toNat, len.toNat) ∧ (t.op 6).state = 2 ∧ (t.op 6).slots = (len.toNat + 0x1FFFFF) / 0x200000
      ∧ storeFrame requestCounters s t ∧ t.mem = s.mem := by
  have hexec := exec_bulkCopyStart_of_usable h h0 h256 hmax hsrc hdst hbusy hrestore
  generalize bulkReq o src dst len = q at hexec ⊢
  have hstore : storeFrame requestCounters s ((s.countRequest q.path).bulkStarted src.toNat dst.toNat len.toNat) :=
    (s.countRequest_store q.path).trans (.of_pd rfl)
  have hout : ((s.countRequest q.path).bulkStarted src.toNat dst.toNat len.toNat).out = s.out := s.countRequest_out q.path
  have hmem : ((s.countRequest q.path).bulkStarted src.toNat dst.toNat len.toNat).mem = s.mem :=
    (congrArg State.mem (s.countRequest_frame q.path) :)
  have hop := (s.countRequest q.path).bulkStarted_op src.toNat dst.toNat len.toNat
  have hbulk : ((s.countRequest q.path).bulkStarted src.toNat dst.toNat len.toNat).bulk = some (src.toNat, dst.toNat, len.toNat) := rfl
  generalize (s.countRequest q.path).bulkStarted src.toNat dst.toNat len.toNat = u at *
  have hframe := u.respond_frame q St.ok (natLE 4 (((s.op 6).run + 1) % 2 ^ 32))
  refine ⟨_, hexec, ?_, (congrArg State.bulk hframe :).trans hbulk, ?_, ?_,
    hstore.trans (.of_pd (State.respond_ok_pd u q _ rfl)), (congrArg State.mem hframe :).trans hmem⟩
  · rw [State.respond_out, hout, reply_congr (hstore.reg (by decide))]
  · rw [State.respond_op, hop]
  · rw [State.respond_op, hop]

end

/-! ### Bytes by native address -/

/-- A native address of a backed byte is its own. -/
theorem nativeOf_of_native {a : Nat} (hn : isNative a = true) (hl : natLocal a < cliffBytes) : nativeOf a = a := by
  have hlocal : a % 0x2000000000 < cliffBytes := hl
  simp only [nativeOf, cliffNative, hn, hlocal, ↓reduceIte, Option.getD_some]

/-- Bytes written in the native view are written at their addresses. -/
theorem State.viewWrite_of_native {a : Nat} {bs : List Byte} (h : ∀ i < bs.length, nativeOf (a + i) = a + i) :
    s.viewWrite a bs = s.putBytes a (enableAll bs) := by
  have hfrom : ∀ (l : List Byte) (k : Nat) (t : State), (∀ i < l.length, nativeOf (a + (k + i)) = a + (k + i)) →
      (l.zipIdx k).foldl (fun t e => t.putBytes (nativeOf (a + e.2)) [some e.1]) t = t.putBytes (a + k) (enableAll l) := by
    intro l
    induction l with
    | nil => exact fun _ _ _ => rfl
    | cons b l ih =>
      intro k t hl
      have hfirst : nativeOf (a + k) = a + k := hl 0 (by simp)
      have hrest : ∀ i < l.length, nativeOf (a + (k + 1 + i)) = a + (k + 1 + i) := fun i hi => by
        have := hl (i + 1) (by simpa using hi)
        rwa [show k + (i + 1) = k + 1 + i by omega] at this
      rw [List.zipIdx_cons, List.foldl_cons, ih (k + 1) _ hrest]
      simp only [hfirst]
      rfl
  exact hfrom bs 0 s (by simpa using h)

/-- A range of native addresses that lies in one Cliff, backed and not fenced. -/
def openRange (s : State) (a n : Nat) : Prop :=
  ∀ i < n, isNative (a + i) = true ∧ natLocal (a + i) < cliffBytes ∧ s.cliffFenced (natCliff (a + i)) = false

theorem openRange_of_cliff {a n : Nat} (hn : isNative a = true) (hl : natLocal a + n ≤ cliffBytes)
    (hf : s.cliffFenced (natCliff a) = false) : openRange s a n := by
  intro i hi
  have hnative : a < 0x028000000000 := of_decide_eq_true hn
  have hcliff : natCliff (a + i) = natCliff a := by unfold natCliff; unfold natLocal cliffBytes at hl; omega
  refine ⟨?_, ?_, hcliff ▸ hf⟩
  · unfold isNative
    unfold natLocal cliffBytes at hl
    exact decide_eq_true (by omega)
  · unfold natLocal cliffBytes at *
    omega

theorem nativeOf_of_openRange {a n i : Nat} (h : openRange s a n) (hi : i < n) : nativeOf (a + i) = a + i := by
  obtain ⟨hn, hl, -⟩ := h i hi
  exact nativeOf_of_native hn hl

theorem State.viewBytes_of_openRange {a n : Nat} (h : openRange s a n) : s.viewBytes a n = s.bytesAt a n :=
  List.map_congr_left fun i hi => by rw [nativeOf_of_openRange h (List.mem_range.mp hi)]; rfl

theorem natCliff_of_mem_viewBlocks {a b : Nat} (h : openRange s a 256) (hb : b ∈ viewBlocks a) : natCliff b < 20 := by
  have hblock : ∀ i < 256, natCliff (nativeOf (a + i) / 256 * 256) < 20 := fun i hi => by
    obtain ⟨hn, -, -⟩ := h i hi
    have hnative : a + i < 0x028000000000 := of_decide_eq_true hn
    rw [nativeOf_of_openRange h hi]
    unfold natCliff
    omega
  rw [viewBlocks, List.mem_eraseDups] at hb
  rcases List.mem_pair.mp hb with rfl | rfl
  · exact hblock 0 (by decide)
  · exact hblock 255 (by decide)

/-! ### One block copied -/

section
variable {t : State} {src dst : Nat}

/-- No part of a block in an open Cliff is fenced: what its reading meets is nothing, or an uncorrectable block. -/
theorem State.copyFault_of_open (hsrc : openRange s src 256) (hdst : openRange s dst 256) :
    s.copyFault src dst = none ∨ s.copyFault src dst = some St.uncorrectable := by
  have hopen : ∀ {a}, openRange s a 256 → ∀ i < 256, s.cliffFenced (natCliff (nativeOf (a + i))) = false := fun h i hi => by
    obtain ⟨-, -, hf⟩ := h i hi
    rw [nativeOf_of_openRange h hi, hf]
  have hfence : [src, src + 255, dst, dst + 255].any (fun a => s.cliffFenced (natCliff (nativeOf a))) = false := by
    simp only [List.any_cons, List.any_nil, Bool.or_false, Bool.or_eq_false_iff]
    exact ⟨hopen hsrc 0 (by decide), hopen hsrc 255 (by decide), hopen hdst 0 (by decide), hopen hdst 255 (by decide)⟩
  rw [State.copyFault, hfence]
  simp only [Bool.false_eq_true, ↓reduceIte]
  split
  · exact .inr rfl
  · exact .inl rfl

/-- A copied block is written whole, poisoned or not, whatever its lines do in the Coves. -/
theorem State.copyBlock_mem (hsrc : openRange s src 256) (hdst : openRange s dst 256) :
    ∃ u : State, u.mem = t.mem ∧ (t.copyBlock s src dst).mem = (u.putBytes dst (enableAll (s.bytesAt src 256))).mem := by
  have hview : ∀ u : State, u.viewWrite dst (s.viewBytes src 256) = u.putBytes dst (enableAll (s.bytesAt src 256)) := fun u => by
    rw [State.viewBytes_of_openRange hsrc]
    exact State.viewWrite_of_native fun i hi => nativeOf_of_openRange hdst (by rwa [State.length_bytesAt] at hi)
  unfold State.copyBlock
  rcases State.copyFault_of_open hsrc hdst with hfault | hfault
  · obtain ⟨-, -, hread⟩ := (covesRead.passRead t (plainReq .harbour false) fun n hn => natCliff_of_mem_viewBlocks hsrc hn).fields
    have hwrite : ∀ u : State, (u.passWrite (plainReq .harbour true) (fun _ => dst % 256 == 0) (viewBlocks dst)).mem = u.mem := fun u => by
      obtain ⟨-, -, hu⟩ := (covesRead.passWrite u (plainReq .harbour true) (fun _ => dst % 256 == 0) fun n hn =>
        natCliff_of_mem_viewBlocks hdst hn).fields
      exact hu
    rw [hfault]
    exact ⟨_, hread, by rw [hwrite, hview]⟩
  · have hpoison : ∀ u : State, ((viewBlocks dst).foldl State.poison u).mem = u.mem := fun u => by
      obtain ⟨-, -, hu⟩ := (covesRead.foldl (f := State.poison) (fun t _ hn => .poison t (natCliff_of_mem_viewBlocks hdst hn)) u).fields
      exact hu
    rw [hfault]
    exact ⟨t, rfl, by dsimp only; rw [if_neg (by decide), hpoison, hview]⟩

/-- The bytes that a copied block leaves: in its destination the source's of before, elsewhere those there were. -/
theorem State.copyBlock_byteAt (hsrc : openRange s src 256) (hdst : openRange s dst 256) (a : Nat) :
    (t.copyBlock s src dst).byteAt a = if dst ≤ a ∧ a < dst + 256 then s.byteAt (src + (a - dst)) else t.byteAt a := by
  obtain ⟨u, hu, hmem⟩ := State.copyBlock_mem (t := t) hsrc hdst
  have hlen : (enableAll (s.bytesAt src 256)).length = 256 := by rw [length_enableAll, State.length_bytesAt]
  rw [State.byteAt_of_mem hmem]
  split
  · next h =>
    obtain ⟨i, rfl⟩ := Nat.exists_eq_add_of_le h.1
    have hi : i < (s.bytesAt src 256).length := by rw [State.length_bytesAt]; omega
    rw [State.byteAt_putBytes _ u dst i (by rwa [length_enableAll]), Nat.add_sub_cancel_left, ← State.getElem_bytesAt s hi]
    simp [enableAll]
  · next h => exact (State.byteAt_putBytes_ne _ u dst a (by omega)).trans (State.byteAt_of_mem hu a)

end

/-! ### A whole copy -/

theorem openRange.sub {a n k m : Nat} (h : openRange s a n) (hk : k + m ≤ n) : openRange s (a + k) m := fun i hi => by
  rw [Nat.add_assoc]
  exact h (k + i) (by omega)

/-- The blocks of a copy, one after another, each read as before the first. -/
def State.copied (s : State) (src dst n : Nat) : State :=
  (List.range n).foldl (fun t i => t.copyBlock s (src + 256 * i) (dst + 256 * i)) s

theorem State.copied_byteAt {src dst n : Nat} (hsrc : openRange s src (256 * n)) (hdst : openRange s dst (256 * n)) (a : Nat) :
    (s.copied src dst n).byteAt a = if dst ≤ a ∧ a < dst + 256 * n then s.byteAt (src + (a - dst)) else s.byteAt a := by
  induction n with
  | zero => rw [if_neg (by omega)]; rfl
  | succ n ih =>
    have hstep : s.copied src dst (n + 1) = (s.copied src dst n).copyBlock s (src + 256 * n) (dst + 256 * n) := by
      rw [State.copied, List.range_succ, List.foldl_append]; rfl
    have hprev := ih (fun i hi => hsrc i (by omega)) (fun i hi => hdst i (by omega))
    rw [hstep, State.copyBlock_byteAt (hsrc.sub (by omega)) (hdst.sub (by omega)), hprev]
    by_cases hlast : dst + 256 * n ≤ a ∧ a < dst + 256 * n + 256
    · rw [if_pos hlast, if_pos (by omega), show src + 256 * n + (a - (dst + 256 * n)) = src + (a - dst) by omega]
    · rw [if_neg hlast]
      by_cases hin : dst ≤ a ∧ a < dst + 256 * n
      · rw [if_pos hin, if_pos (by omega)]
      · rw [if_neg hin, if_neg (by omega)]

/-- BULK_COPY_DONE: the blocks are copied, and the run is DONE. -/
theorem exec_bulkCopyDone_of_bulk {src dst len : Nat} (h : s.bulk = some (src, dst, len)) : ∃ t, exec .bulkCopyDone s = .next t
    ∧ t.bulk = none ∧ (t.op 6).state = 3 ∧ t.mem = (s.copied src dst (len / 256)).mem := by
  have hexec : exec .bulkCopyDone s = execBulkCopyDone s := rfl
  simp only [execBulkCopyDone, h] at hexec
  exact ⟨_, hexec, rfl, congrArg LongOp.state (State.opEnd_op _ 6 3 _), rfl⟩

end Sys2Proof.Machine

open Sys2Proof Sys2Proof.Machine

/-- Settles O31: a copy that starts runs under its number, and one that ends has moved the source's bytes as they were. -/
theorem bulkCopyMovesBytes : Obligations.BulkCopyMovesBytes := by
  unfold Obligations.BulkCopyMovesBytes
  refine ⟨fun s o src dst len role e h h0 h256 hmax hsrc hdst hbusy hrestore => bulkCopyStart_runs h h0 h256 hmax hsrc hdst hbusy hrestore,
    fun s src dst len hbulk h256 hsn hsl hdn hdl hsf hdf => ?_⟩
  have hlen : 256 * (len / 256) = len := by omega
  have hsrc : openRange s src (256 * (len / 256)) := openRange_of_cliff hsn (by rwa [hlen]) hsf
  have hdst : openRange s dst (256 * (len / 256)) := openRange_of_cliff hdn (by rwa [hlen]) hdf
  obtain ⟨t, hexec, hdone, hstate, hmem⟩ := exec_bulkCopyDone_of_bulk hbulk
  refine ⟨t, hexec, hdone, hstate, fun i hi => ?_, fun a ha => ?_⟩
  · rw [State.byteAt_of_mem hmem, State.copied_byteAt hsrc hdst, if_pos (by omega), Nat.add_sub_cancel_left]
  · rw [State.byteAt_of_mem hmem, State.copied_byteAt hsrc hdst, if_neg (by omega)]
end

section
/-!
PROOFS. The end of a Chart rebuild (spec/06 R165): the reads of the tables go through the Coves of the Cliffs that the run's base names, and
no bound is set on the base that a state holds. In a Cliff far above the twenty the words of the lines, numbered on from those of the
twenty, are words of other entries; one of them is CHART_ACTIVE of a partition whose rebuild fails. CHART_REBUILD_BEGIN takes no such base.
-/
namespace Sys2Proof.Machine

variable {s : State}

/-! ### A rebuild that fails -/

/-- Tables whose first entry cannot be read have a fault. -/
theorem State.rebuildRecords_of_unread {base : Nat} (h : s.tableReads base = false) : (s.rebuildRecords base).2 = false := by
  have hrecord : (s.rebuildRecord base (rebuildIndex 0)).2 = true := by
    have hfirst : s.tableReads (base + 8 * rebuildIndex 0) = false := h
    simp only [State.rebuildRecord, hfirst, Bool.not_false, ↓reduceIte]
  have hany : ((List.range 4608).map fun i => s.rebuildRecord base (rebuildIndex i)).any (fun r => r.2) = true :=
    List.any_eq_true.mpr ⟨_, List.mem_map.mpr ⟨0, List.mem_range.mpr (by decide), rfl⟩, hrecord⟩
  simp only [State.rebuildRecords, hany, Bool.true_or, Bool.not_true]

/-- A rebuild that fails leaves of the store what the reads of its tables leave. -/
theorem exec_chartRebuildDone_of_fault {p : Nat} (hp : s.rebuild = some p) (hrun : (s.op 7).state = 2)
    (hfault : (s.rebuildRecords s.rebuildBase).2 = false) : ∃ t, exec .chartRebuildDone s = .next t
      ∧ t.pd = (s.passRead (plainReq .harbour false) (s.tableBlocks s.rebuildBase)).pd := by
  have hexec : exec .chartRebuildDone s = execChartRebuildDone s := rfl
  simp only [execChartRebuildDone, hp, hrun, hfault, Bool.false_eq_true, ↓reduceIte] at hexec
  generalize s.passRead (plainReq .harbour false) (s.tableBlocks s.rebuildBase) = u at *
  generalize (s.rebuildRecords s.rebuildBase).1 = records at *
  exact ⟨_, hexec, rfl⟩

/-- The statement says of a rebuild that fails that reading its tables leaves CHART_ACTIVE of its partition. -/
theorem active_kept_of_claim (h : Claims.ChartRebuildReplacesTheChart) {p : Nat} (hp : s.rebuild = some p) (hrun : (s.op 7).state = 2)
    (hlt : p < 16) (hfault : (s.rebuildRecords s.rebuildBase).2 = false) :
    tget 0 (s.passRead (plainReq .harbour false) (s.tableBlocks s.rebuildBase)).pd (pdKey (Pd.chartActive + p) 0)
      = s.reg (Pd.chartActive + p) := by
  obtain ⟨-, -, hdone⟩ := h
  have hends := hdone s p hp hrun hlt
  simp only [hfault, Bool.false_eq_true, ↓reduceIte] at hends
  obtain ⟨t, hexec, -, -, -, -, -, -, -, hactive⟩ := hends
  obtain ⟨u, hexec', hpd⟩ := exec_chartRebuildDone_of_fault hp hrun hfault
  obtain rfl : t = u := Host.Outcome.next.inj (hexec.symm.trans hexec')
  rw [← hpd]
  exact hactive

/-- Where device memory holds nothing, a base has no second-level tables. -/
theorem State.tableBlocks_of_empty (h : s.mem = []) (base : Nat) : s.tableBlocks base = (List.range 512).map fun i => base + 256 * i := by
  have hbytes : ∀ a, s.bytesAt a 8 = List.replicate 8 0 := fun a => by simp [State.bytesAt, h, tgetMany, tget]
  have hentry : ∀ a, s.tableEntry a = 0 := fun a => by
    rw [State.tableEntry, hbytes]
    exact ite_self 0
  have hvalid : entryValid 0 = false := by decide
  simp [State.tableBlocks, hentry, hvalid]

/-! ### Lines of other Cliffs -/

theorem lineKey_cliff {c d set w set' w' : Nat} (hs : set < 4096) (hw : w < 24) (hs' : set' < 4096) (hw' : w' < 24)
    (h : lineKey c set w = lineKey d set' w') : c = d := by
  unfold lineKey pdKey lineIndex at h
  omega

theorem State.passRead_cons (s : State) (q : CliffReq) (b : Nat) (blocks : List Nat) :
    s.passRead q (b :: blocks) = (s.readBlock (natCliff b) q [] .clean (natLocal b / 256)).passRead q blocks := rfl

/-- Block reads in other Cliffs leave a line's word as it is, where it is no counter of the Coves. -/
theorem State.passRead_keeps_line {c set w : Nat} (q : CliffReq) (hs : set < 4096) (hw : w < 24)
    (hcounter : ∀ k ∈ coveKeys, lineKey c set w ≠ pdKey k 0) {blocks : List Nat} (h : ∀ b ∈ blocks, natCliff b ≠ c) (s : State) :
    tget 0 (s.passRead q blocks).pd (lineKey c set w) = tget 0 s.pd (lineKey c set w) := by
  induction blocks generalizing s with
  | nil => rfl
  | cons b blocks ih =>
    refine (ih (fun x hx => h x (List.mem_cons_of_mem _ hx)) _).trans (coveFrame.readBlock s q [] _ _ ?_)
    rintro (⟨set', w', hs', hw', hline⟩ | ⟨k, hk, hword⟩)
    · exact h b List.mem_cons_self (lineKey_cliff hs hw hs' hw' hline).symm
    · exact hcounter k hk hword

/-! ### The counterexample -/

/-- The number of a Cliff whose first line's word would be CHART_ACTIVE of partition 2. -/
def farCliff : Nat := 40545280

theorem lineKey_farCliff : lineKey farCliff 0 0 = pdKey (Pd.chartActive + 2) 0 := by decide

/-- The address of its last block. -/
def farBase : Nat := farCliff * 0x2000000000 + 0x1FFFFFFF00

/-- A rebuild of partition 2's Chart that runs over tables at that address, whose first block is uncorrectable. -/
def farRebuild : State := { rebuild := some 2, rebuildBase := farBase, badBlocks := [farBase], ops := [(7, { state := 2 })] }

theorem farRebuild_unread : farRebuild.tableReads farBase = false := by decide +kernel

/-- The first block of the tables misses, and its line is the word in question. -/
theorem farRebuild_firstBlock :
    (farRebuild.readBlock (natCliff farBase) (plainReq .harbour false) [] .clean (natLocal farBase / 256)).reg (Pd.chartActive + 2) ≠ 0 := by
  decide +kernel

/-- The other blocks lie in the next Cliff. -/
theorem farRebuild_active : tget 0 (farRebuild.passRead (plainReq .harbour false) (farRebuild.tableBlocks farBase)).pd
    (pdKey (Pd.chartActive + 2) 0) ≠ 0 := by
  have hrest : ∀ b ∈ ((List.range 511).map Nat.succ).map (fun i => farBase + 256 * i), natCliff b ≠ farCliff := by
    intro b hb
    obtain ⟨i, hi, rfl⟩ := List.mem_map.mp hb
    obtain ⟨j, -, rfl⟩ := List.mem_map.mp hi
    unfold natCliff farBase
    omega
  rw [State.tableBlocks_of_empty rfl, List.range_succ_eq_map, List.map_cons, Nat.mul_zero, Nat.add_zero, State.passRead_cons,
    ← lineKey_farCliff, State.passRead_keeps_line _ (by decide) (by decide) (by decide) hrest, lineKey_farCliff]
  exact farRebuild_firstBlock

end Sys2Proof.Machine

open Sys2Proof Sys2Proof.Machine

/-- Refutes O32: in the state `farRebuild` a rebuild fails, and reading its tables has changed CHART_ACTIVE of its partition. -/
theorem not_repairsAndChartRebuilds : ¬ Obligations.RepairsAndChartRebuilds := by
  unfold Obligations.RepairsAndChartRebuilds
  rintro ⟨-, hrebuild⟩
  exact farRebuild_active (active_kept_of_claim hrebuild (s := farRebuild) rfl rfl (by decide)
    (State.rebuildRecords_of_unread farRebuild_unread))
end

section
/-!
PROOFS. Numbers (spec/07 R174, spec/09 R242): what a code of a floating-point format can decode to, that each such value keeps its
spacing and range under `FloatFmt.round`, and that `FloatFmt.encode` gives the code back.
-/
namespace Sys2Proof.Machine

/-! ### Exact sums and products -/

theorem Num.add_comm (x y : Num) : x.add y = y.add x := by
  cases x with
  | nan => cases y <;> rfl
  | inf s => cases y with
    | nan => rfl
    | inf t => cases s <;> cases t <;> rfl
    | fin t n f => rfl
  | fin s m e => cases y with
    | nan => rfl
    | inf t => rfl
    | fin t n f =>
      by_cases hm : m = 0 <;> by_cases hn : n = 0
      · simp [Num.add, hm, hn, Bool.and_comm]
      · simp [Num.add, hm, hn]
      · simp [Num.add, hm, hn]
      · simp [Num.add, hm, hn, min_comm e f, Int.add_comm (alignTo s m e _)]

theorem Num.mul_comm (x y : Num) : x.mul y = y.mul x := by
  cases x with
  | nan => cases y <;> rfl
  | inf s => cases y with
    | nan => rfl
    | inf t => simp [Num.mul, bne_comm (a := s)]
    | fin t n f => simp [Num.mul, bne_comm (a := s)]
  | fin s m e => cases y with
    | nan => rfl
    | inf t => simp [Num.mul, bne_comm (a := s)]
    | fin t n f => simp [Num.mul, bne_comm (a := s), Nat.mul_comm m, Int.add_comm e]

/-- A signed zero adds nothing to a number that is not zero. -/
theorem Num.add_zero {x : Num} (h : x.isZero = false) (s : Bool) (e : Int) : x.add (.fin s 0 e) = x := by
  cases x with
  | nan => rfl
  | inf t => rfl
  | fin t m f =>
    have hm : m ≠ 0 := by simpa [Num.isZero] using h
    simp [Num.add, hm]

/-- A power of two as a factor moves into the exponent. -/
theorem Num.mul_two_pow (s : Bool) (m : Nat) (e : Int) (k : Nat) :
    (Num.fin s m e).mul (.fin false (2 ^ k) (-k)) = .fin s (m * 2 ^ k) (e - k) := by
  simp [Num.mul, Int.sub_eq_add_neg]

theorem Num.inf_mul_two_pow (s : Bool) (k : Nat) (e : Int) : (Num.inf s).mul (.fin false (2 ^ k) e) = .inf s := by simp [Num.mul]

/-! ### Leading ones and shifts -/

theorem log2_two_pow_add {n fr : Nat} (h : fr < 2 ^ n) : (2 ^ n + fr).log2 = n := by
  rw [Nat.log2_eq_iff (by have := Nat.two_pow_pos n; omega), Nat.pow_succ]
  omega

theorem log2_mul_two_pow {m : Nat} (hm : m ≠ 0) (k : Nat) : (m * 2 ^ k).log2 = m.log2 + k := by
  obtain ⟨hlow, hhigh⟩ := (Nat.log2_eq_iff hm).mp rfl
  rw [Nat.log2_eq_iff (Nat.mul_ne_zero hm (Nat.two_pow_pos k).ne'), Nat.pow_add, Nat.add_right_comm, Nat.pow_add]
  exact ⟨Nat.mul_le_mul_right _ hlow, Nat.mul_lt_mul_of_pos_right hhigh (Nat.two_pow_pos k)⟩

/-- A shift by k takes a multiple of 2^k without a remainder, whatever the mode. -/
theorem roundShift_mul_two_pow (mode : Rnd) {m : Nat} (hm : m ≠ 0) (k : Nat) : roundShift mode (m * 2 ^ k) k = m := by
  have hlog : ¬ (m * 2 ^ k).log2 + 40 < k := by rw [log2_mul_two_pow hm k]; omega
  have hpow : ¬ 0 = 2 ^ k := (Nat.two_pow_pos k).ne
  cases mode <;> simp [roundShift, hlog, hpow, Nat.shiftRight_eq_div_pow]

/-! ### What a code decodes to -/

/-- The sign bit of a code. -/
def FloatFmt.signCode (f : FloatFmt) (s : Bool) : Nat := if s then 2 ^ (f.eb + f.fb) else 0

/-- What a code of a format may stand for: a NaN (of which nothing is said here), an infinity, a zero or subnormal number, a normal number. -/
inductive FloatFmt.Codes (f : FloatFmt) : Nat → Num → Prop
  | nan (c : Nat) : f.Codes c .nan
  | inf (s : Bool) (h : f.tops = 0) : f.Codes (f.signCode s + (2 ^ f.eb - 1) * 2 ^ f.fb) (.inf s)
  | small (s : Bool) (fr : Nat) (hfr : fr < 2 ^ f.fb) : f.Codes (f.signCode s + fr) (.fin s fr f.least)
  | normal (s : Bool) (ex fr : Nat) (hex : 1 ≤ ex) (hmax : ex < 2 ^ f.eb) (hfr : fr < 2 ^ f.fb)
      (hinf : f.tops = 0 → ex ≠ 2 ^ f.eb - 1) (hnan : f.tops = 1 → ex = 2 ^ f.eb - 1 → fr ≠ 2 ^ f.fb - 1) :
      f.Codes (f.signCode s + ex * 2 ^ f.fb + fr) (.fin s (2 ^ f.fb + fr) ((ex : Int) - f.bias - f.fb))

/-- A code is its sign, exponent and fraction fields put together. -/
theorem FloatFmt.fields (f : FloatFmt) {c : Nat} (h : c < 2 ^ (1 + f.eb + f.fb)) :
    f.signCode (c.testBit (f.eb + f.fb)) + bits c f.fb f.eb * 2 ^ f.fb + bits c 0 f.fb = c := by
  have hsign : f.signCode (c.testBit (f.eb + f.fb)) = c / 2 ^ (f.eb + f.fb) * 2 ^ (f.eb + f.fb) := by
    rw [Nat.add_assoc, Nat.add_comm, Nat.pow_succ] at h
    have hlt : c / 2 ^ (f.eb + f.fb) < 2 := Nat.div_lt_of_lt_mul h
    rw [Nat.testBit_eq_decide_div_mod_eq, Nat.mod_eq_of_lt hlt, FloatFmt.signCode]
    obtain h0 | h1 := Nat.le_one_iff_eq_zero_or_eq_one.mp (Nat.le_of_lt_succ hlt)
    · simp [h0]
    · simp [h1]
  have hhigh : c / 2 ^ (f.eb + f.fb) = c / 2 ^ f.fb / 2 ^ f.eb := by rw [Nat.div_div_eq_div_mul, ← Nat.pow_add, Nat.add_comm]
  calc _ = (2 ^ f.eb * (c / 2 ^ f.fb / 2 ^ f.eb) + c / 2 ^ f.fb % 2 ^ f.eb) * 2 ^ f.fb + c % 2 ^ f.fb := by
        rw [hsign, hhigh, bits, bits, Nat.shiftRight_eq_div_pow, Nat.shiftRight_zero, Nat.pow_add]; ring
    _ = 2 ^ f.fb * (c / 2 ^ f.fb) + c % 2 ^ f.fb := by rw [Nat.div_add_mod, Nat.mul_comm]
    _ = c := Nat.div_add_mod _ _

theorem FloatFmt.codes_decode (f : FloatFmt) {c : Nat} (h : c < 2 ^ (1 + f.eb + f.fb)) : f.Codes c (f.decode c) := by
  have hc := f.fields h
  have hex : bits c f.fb f.eb < 2 ^ f.eb := Nat.mod_lt _ (Nat.two_pow_pos _)
  have hfr : bits c 0 f.fb < 2 ^ f.fb := Nat.mod_lt _ (Nat.two_pow_pos _)
  generalize hs : c.testBit (f.eb + f.fb) = s, hx : bits c f.fb f.eb = ex, hr : bits c 0 f.fb = fr at hc hex hfr
  simp only [FloatFmt.decode, hs, hx, hr]
  split
  next htop =>
    split
    next h0 =>
      have hinf := FloatFmt.Codes.inf s htop.1
      rwa [← htop.2, ← Nat.add_zero (_ + _), ← h0, hc] at hinf
    next => exact .nan c
  next hinf =>
    split
    next => exact .nan c
    next hnan =>
      split
      next h0 =>
        have hsmall := FloatFmt.Codes.small s fr hfr
        rwa [← Nat.add_zero (f.signCode s), ← Nat.zero_mul (2 ^ f.fb), ← h0, hc] at hsmall
      next h0 =>
        have hnormal := FloatFmt.Codes.normal (f := f) s ex fr (Nat.pos_of_ne_zero h0) hex hfr
          (fun ht he => hinf ⟨ht, he⟩) (fun ht he hf => hnan ⟨ht, he, hf⟩)
        rwa [hc] at hnormal

/-! ### Encoding gives the code back -/

@[simp] theorem FloatFmt.encode_zero (f : FloatFmt) (s : Bool) (e : Int) : f.encode (.fin s 0 e) = f.signCode s := rfl

theorem FloatFmt.encode_small (f : FloatFmt) (s : Bool) {fr : Nat} (h : fr < 2 ^ f.fb) :
    f.encode (.fin s fr f.least) = f.signCode s + fr := by
  by_cases h0 : fr = 0
  · simp [h0]
  · have hlog : fr.log2 < f.fb := (Nat.log2_lt h0).mpr h
    simp [FloatFmt.encode, FloatFmt.signCode, h0, show (fr.log2 : Int) + f.least < f.least + f.fb by omega]

theorem FloatFmt.encode_normal (f : FloatFmt) (s : Bool) {ex fr : Nat} (hex : 1 ≤ ex) (hfr : fr < 2 ^ f.fb) :
    f.encode (.fin s (2 ^ f.fb + fr) ((ex : Int) - f.bias - f.fb)) = f.signCode s + ex * 2 ^ f.fb + fr := by
  have htop : ¬ (ex : Int) - f.bias < f.least + f.fb := by simp only [FloatFmt.least]; omega
  simp [FloatFmt.encode, FloatFmt.signCode, log2_two_pow_add hfr, htop]

theorem FloatFmt.Codes.encode_eq {f : FloatFmt} {c : Nat} {x : Num} (h : f.Codes c x) (hx : x ≠ .nan) : f.encode x = c := by
  cases h with
  | nan => exact absurd rfl hx
  | inf s _ => rfl
  | small s fr hfr => exact f.encode_small s hfr
  | normal s ex fr hex _ hfr _ _ => exact f.encode_normal s hex hfr

/-! ### Rounding keeps the format's values -/

/-- A magnitude m × 2^e in the spacing of a format, and within its range. -/
structure FloatFmt.Holds (f : FloatFmt) (m : Nat) (e : Int) : Prop where
  spacing : max f.least ((m.log2 : Int) + e - f.fb) = e
  inRange : ∀ s, f.beyond (.fin s m e) = false

/-- No magnitude is beyond a format's largest that lies in a lower binade, or in the same one and not above it. -/
theorem FloatFmt.beyond_eq_false {f : FloatFmt} {n m : Nat} {d e : Int} (hlargest : f.largest = .fin false n d) (s : Bool)
    (h : (m.log2 : Int) + e < n.log2 + d ∨ (m.log2 = n.log2 ∧ e = d ∧ m ≤ n)) : f.beyond (.fin s m e) = false := by
  obtain hlt | ⟨hlog, rfl, hle⟩ := h
  · have hne : (m.log2 : Int) + e ≠ n.log2 + d := hlt.ne
    simp [FloatFmt.beyond, Num.top, hlargest, hlt.le, hne]
  · have : ¬ (n : Int) < m := by omega
    simp [FloatFmt.beyond, Num.top, Num.lt, Num.abs, alignTo, hlargest, hlog, hle]

/-- The exponent field of a format's largest finite magnitude. -/
def FloatFmt.maxExp (f : FloatFmt) : Nat := if f.tops = 0 then 2 ^ f.eb - 2 else 2 ^ f.eb - 1

/-- Its fraction. -/
def FloatFmt.maxFrac (f : FloatFmt) : Nat := if f.tops = 1 then 2 ^ f.fb - 2 else 2 ^ f.fb - 1

theorem FloatFmt.largest_eq {f : FloatFmt} (hfb : 1 ≤ f.fb) :
    f.largest = .fin false (2 ^ f.fb + f.maxFrac) ((f.maxExp : Int) - f.bias - f.fb) := by
  have hpow : 2 ≤ 2 ^ f.fb := Nat.le_self_pow (by omega) 2
  have hfrac : 2 ^ f.fb + (2 ^ f.fb - 1) = 2 ^ (f.fb + 1) - 1 := by omega
  have hfrac' : 2 ^ f.fb + (2 ^ f.fb - 2) = 2 ^ (f.fb + 1) - 2 := by omega
  unfold FloatFmt.largest FloatFmt.maxExp FloatFmt.maxFrac
  split
  next h => simp [h, hfrac]
  next h => simp [h, hfrac']
  next h0 h1 => rw [if_neg h0, if_neg h1, hfrac]

theorem FloatFmt.Codes.holds {f : FloatFmt} {c m : Nat} {s : Bool} {e : Int} (heb : 2 ≤ f.eb) (hfb : 1 ≤ f.fb)
    (h : f.Codes c (.fin s m e)) (hm : m ≠ 0) : f.Holds m e := by
  have heb4 : 2 ^ 2 ≤ 2 ^ f.eb := Nat.pow_le_pow_right (by decide) heb
  have hfb2 : 2 ^ 1 ≤ 2 ^ f.fb := Nat.pow_le_pow_right (by decide) hfb
  have hmaxFrac : f.maxFrac < 2 ^ f.fb := by unfold FloatFmt.maxFrac; split <;> omega
  have hmaxExp : 2 ≤ f.maxExp := by unfold FloatFmt.maxExp; split <;> omega
  have hlargest := FloatFmt.largest_eq hfb
  have hlog := log2_two_pow_add hmaxFrac
  cases h with
  | small s fr hfr =>
    have hlow : m.log2 < f.fb := (Nat.log2_lt hm).mpr hfr
    exact ⟨by omega, fun s => beyond_eq_false hlargest s (.inl (by simp only [FloatFmt.least]; omega))⟩
  | normal s ex fr hex hmax hfr hinf hnan =>
    have hle : ex ≤ f.maxExp := by unfold FloatFmt.maxExp; split <;> omega
    have hfrac : ex = f.maxExp → fr ≤ f.maxFrac := by unfold FloatFmt.maxExp FloatFmt.maxFrac; split <;> split <;> omega
    have hlogm := log2_two_pow_add hfr
    refine ⟨by simp only [FloatFmt.least]; omega, fun s => beyond_eq_false hlargest s ?_⟩
    obtain hlt | heq := hle.lt_or_eq
    · exact .inl (by omega)
    · exact .inr ⟨by omega, by omega, Nat.add_le_add_left (hfrac heq) _⟩

/-- A value of a format, written with an exponent lower by k, is rounded to the format's own writing of it. -/
theorem FloatFmt.Holds.roundAt_eq {f : FloatFmt} {m : Nat} {e : Int} (h : f.Holds m e) (hm : m ≠ 0) (s : Bool) (k : Nat) :
    roundAt .near (f.fb + 1) (some f.least) (.fin s (m * 2 ^ k) (e - k)) = .fin s m e := by
  have h0 : m * 2 ^ k ≠ 0 := Nat.mul_ne_zero hm (Nat.two_pow_pos k).ne'
  have he : max f.least (((m * 2 ^ k).log2 : Int) + (e - k) - (f.fb + 1 - 1 : Nat)) = e := by
    rw [log2_mul_two_pow hm k]
    have := h.spacing
    omega
  simp only [roundAt, h0, ↓reduceIte, he]
  split
  next hk =>
    obtain rfl : k = 0 := by omega
    simp
  next hk => rw [show (e - (e - k)).toNat = k by omega, roundShift_mul_two_pow _ hm]

theorem FloatFmt.encode_round_zero (f : FloatFmt) (s : Bool) (e : Int) : f.encode (f.round .near (.fin s 0 e)) = f.signCode s := by
  simp [FloatFmt.round, roundAt, FloatFmt.beyond]

/-- Rounding to a format brings a value of it back to the format's own writing. -/
theorem FloatFmt.Holds.round_eq {f : FloatFmt} {m : Nat} {e : Int} (h : f.Holds m e) (hm : m ≠ 0) (s : Bool) :
    f.round .near (.fin s m e) = .fin s m e := by
  have hround := h.roundAt_eq hm s 0
  simp only [Nat.pow_zero, Nat.mul_one, Nat.cast_zero, Int.sub_zero] at hround
  simp [FloatFmt.round, hround, h.inRange]

/-- The same where the value is written with an exponent lower by k and the format has infinities. -/
theorem FloatFmt.Holds.round_scaled {f : FloatFmt} {m : Nat} {e : Int} (h : f.Holds m e) (hm : m ≠ 0) (htops : f.tops = 0)
    (s : Bool) (k : Nat) : f.round .near (.fin s (m * 2 ^ k) (e - k)) = .fin s m e := by
  simp [FloatFmt.round, htops, h.roundAt_eq hm s k, h.inRange]

theorem FloatFmt.Codes.encode_round {f : FloatFmt} {c : Nat} {x : Num} (heb : 2 ≤ f.eb) (hfb : 1 ≤ f.fb) (h : f.Codes c x)
    (hx : x ≠ .nan) : f.encode (f.round .near x) = c := by
  cases x with
  | nan => exact absurd rfl hx
  | inf s =>
    rw [← h.encode_eq hx]
    cases h with
    | inf _ htops => simp [FloatFmt.round, htops]
  | fin s m e =>
    rw [← h.encode_eq hx]
    by_cases hm : m = 0
    · rw [hm, f.encode_round_zero, f.encode_zero]
    · rw [(h.holds heb hfb hm).round_eq hm]

/-- The formats of Table 07-4 have two exponent bits or more and a fraction. -/
theorem floatFmt_fields {code : Nat} {f : FloatFmt} (h : floatFmt code = some f) : 2 ≤ f.eb ∧ 1 ≤ f.fb := by
  unfold floatFmt at h
  split at h <;> cases h <;> decide

/-- The value of a code of a format of Table 07-4 converts to that code. -/
theorem encode_round_decode {code c : Nat} {f : FloatFmt} (hf : floatFmt code = some f) (hc : c < 2 ^ (1 + f.eb + f.fb))
    (h : f.decode c ≠ .nan) : f.encode (f.round .near (f.decode c)) = c :=
  have ⟨heb, hfb⟩ := floatFmt_fields hf
  (f.codes_decode hc).encode_round heb hfb h

/-! ### FP32 -/

theorem codes_val (x : F32) : fp32.Codes x.toNat (val x) := fp32.codes_decode x.isLt

theorem pat_eq {x : F32} {y : Num} (h : fp32.encode y = x.toNat) : pat y = x := by rw [pat, h, BitVec.ofNat_toNat, BitVec.setWidth_eq]

theorem to32_val {x : F32} (h : val x ≠ .nan) : to32 (val x) = x := pat_eq ((codes_val x).encode_round (by decide) (by decide) h)

theorem fadd_comm (x y : F32) : fadd x y = fadd y x := congrArg to32 (Num.add_comm _ _)

theorem fmul_comm (x y : F32) : fmul x y = fmul y x := congrArg to32 (Num.mul_comm _ _)

theorem fadd_of_zero {x y : F32} {s : Bool} {e : Int} (hy : val y = .fin s 0 e) (h : val x ≠ .nan) (h0 : (val x).isZero = false) :
    fadd x y = x := by
  rw [fadd, hy, Num.add_zero h0, to32_val h]

theorem val_one32 : val one32 = .fin false (2 ^ 23) (-(23 : Nat)) := by decide +kernel

theorem fmul_one32 {x : F32} (h : val x ≠ .nan) : fmul x one32 = x := by
  have hcode := codes_val x
  rw [fmul, val_one32]
  cases hv : val x with
  | nan => exact absurd hv h
  | inf s => rw [Num.inf_mul_two_pow, ← hv, to32_val h]
  | fin s m e =>
    rw [hv] at hcode
    rw [Num.mul_two_pow]
    refine pat_eq ?_
    rw [← hcode.encode_eq (by simp)]
    by_cases hm : m = 0
    · rw [hm, Nat.zero_mul, FloatFmt.encode_round_zero, FloatFmt.encode_zero]
    · rw [(hcode.holds (by decide) (by decide) hm).round_scaled hm rfl]

end Sys2Proof.Machine

open Sys2Proof Sys2Proof.Machine

/-- Settles O36: every value of a code is in its format's own spacing and range, so that rounding leaves it, and `encode` gives its fields
back; 1.0 and a zero leave an FP32 value as it is before the one rounding. -/
theorem numbersSurviveExactArithmetic : Obligations.NumbersSurviveExactArithmetic := by
  unfold Obligations.NumbersSurviveExactArithmetic
  exact ⟨fun _ _ _ hf hc hnan => encode_round_decode hf hc hnan, fun x y => ⟨fadd_comm x y, fmul_comm x y⟩,
    fun x hnan => ⟨fmul_one32 hnan, fun h0 => ⟨fadd_of_zero (s := false) (e := fp32.least) rfl hnan h0,
      fadd_of_zero (s := true) (e := fp32.least) rfl hnan h0⟩⟩⟩
end

section
/-!
PROOFS. Elements written through a descriptor (spec/07 R175, R176, R180, spec/08 R209): the bytes of memory, what their lines do in the
Coves, and counters change; the units and their tasks do not.
-/
namespace Sys2Proof.Machine

variable {s t u : State} {g : Agent} {d : Desc}

/-- From `s` to `t` only memory, the store's counters and the Coves change. -/
def dataWritten (s t : State) : Prop :=
  { t with pd := s.pd, mem := s.mem, cliffs := s.cliffs, badBlocks := s.badBlocks, poisonBlocks := s.poisonBlocks } = s

theorem dataWritten.refl (s : State) : dataWritten s s := rfl

theorem dataWritten.trans (h : dataWritten s t) (h' : dataWritten t u) : dataWritten s u := by
  unfold dataWritten at h h' ⊢
  rw [← h'] at h
  exact h

theorem dataWritten.of_covesRead (h : covesRead s t) : dataWritten s t :=
  (congrArg (fun u : State => { u with mem := s.mem }) h.1 :)

/-- What elements written leave of the array and of the tasks that have ended. -/
theorem dataWritten.headland (h : dataWritten s t) : t.headland = s.headland := (congrArg State.headland h :)

theorem dataWritten.finished (h : dataWritten s t) : t.finished = s.finished := (congrArg State.finished h :)

/-- A write that goes on changes no more than `dataWritten` names. -/
def WritesData (s : State) (r : Except Stop State) : Prop := ∀ u, r = .ok u → dataWritten s u

theorem WritesData.ok (h : dataWritten s t) : WritesData s (.ok t) := fun _ hu => Except.ok.inj hu ▸ h

theorem WritesData.error {x : Stop} : WritesData s (.error x) := fun _ hu => by cases hu

theorem WritesData.ite {p : Prop} [Decidable p] {a b : Except Stop State} (ha : WritesData s a) (hb : WritesData s b) :
    WritesData s (if p then a else b) := by
  split
  · exact ha
  · exact hb

theorem WritesData.after {r : Except Stop State} (h : dataWritten s t) (hr : WritesData t r) : WritesData s r :=
  fun v hv => h.trans (hr v hv)

theorem WritesData.putBits {a lo n v : Nat} : WritesData s (s.putBits g a lo n v) := by
  unfold State.putBits
  split
  · exact .ok rfl
  · exact .ok (.refl s)
  · exact .error

theorem WritesData.unitWrite {a lo n v : Nat} : WritesData s (s.unitWrite g a lo n v) := by
  unfold State.unitWrite
  refine .ite ?_ .putBits
  split
  · exact .error
  · exact .putBits

theorem WritesData.writePieces {l : List (Nat × Nat × Nat)} : ∀ {s : State} {c : Nat}, WritesData s (s.writePieces g l c) := by
  induction l with
  | nil => exact .ok (.refl _)
  | cons e l ih =>
    intro s c
    unfold State.writePieces
    split
    · next he => exact .after (WritesData.unitWrite _ he) ih
    · exact .error

theorem State.countConversion_dataWritten (s : State) (x : Converted) : dataWritten s (s.countConversion x) := by
  have hcount : ∀ (s : State) (k : Nat) (b : Bool), dataWritten s (if b then s.bump k else s) := fun s k b => by
    cases b <;> rfl
  exact (hcount s _ _).trans (hcount _ _ _)

theorem WritesData.writeValue {o : Int} {x : Converted} : WritesData s (s.writeValue g d o x) := by
  unfold State.writeValue
  split
  · exact .error
  · exact .after (s.countConversion_dataWritten x) .writePieces

theorem WritesData.writePlain {l : List (Int × F32)} : ∀ {s : State}, WritesData s (s.writePlain g d l) := by
  induction l with
  | nil => exact .ok (.refl _)
  | cons e l ih =>
    intro s
    unfold State.writePlain
    split
    · next he => exact .after (WritesData.writeValue _ he) ih
    · exact .error

theorem WritesData.writeScaled {e : Nat} {l : List (Nat × Num × Bool)} : ∀ {s : State}, WritesData s (s.writeScaled g d e l) := by
  induction l with
  | nil => exact .ok (.refl _)
  | cons x l ih =>
    intro s
    unfold State.writeScaled
    split
    · next he => exact .after (WritesData.writeValue _ he) ih
    · exact .error

theorem WritesData.writeBlock32 {ws : List (Int × F32)} {b : Nat} : WritesData s (s.writeBlock32 g d ws b) := by
  unfold State.writeBlock32
  split
  · exact .error
  · exact .error
  · dsimp only
    split
    · exact .error
    · next he => exact .after (WritesData.unitWrite _ he) .writeScaled

theorem WritesData.writeBlocks {ws : List (Int × F32)} {l : List Nat} : ∀ {s : State}, WritesData s (s.writeBlocks g d ws l) := by
  induction l with
  | nil => exact .ok (.refl _)
  | cons b l ih =>
    intro s
    unfold State.writeBlocks
    split
    · next he => exact .after (WritesData.writeBlock32 _ he) ih
    · exact .error

theorem WritesData.writeElems {ws : List (Int × F32)} : WritesData s (s.writeElems g d ws) := .ite .writeBlocks .writePlain

theorem State.passElems_dataWritten (s : State) (n part : Nat) (ahead : Bool) (d : Desc) (write : Bool) (os : List Int) :
    dataWritten s (s.passElems n part ahead d write os) :=
  .of_covesRead (.ite (.refl s) (.ite (.passWrite s _ _ State.unitBlocks_cliff) (.passRead s _ State.unitBlocks_cliff)))

theorem WritesData.writeThroughDesc {x : Task} {j : Nat} {ws : List (Int × F32)} : WritesData s (s.writeThroughDesc x j ws) := by
  unfold State.writeThroughDesc
  split
  · exact .error
  · next he => exact .after (WritesData.writeElems _ he) (.ok (State.passElems_dataWritten ..))

/-- A vector's results written leave the array as it is. -/
theorem WritesData.drainVector {a : ArrayTask} {x : InTree} : WritesData s (s.drainVector a x) := by
  unfold State.drainVector
  dsimp only
  split
  · exact .error
  · split
    · exact .error
    · next he => exact .after (WritesData.ite .writeThroughDesc (.ok (.refl s)) _ he) .writeThroughDesc

end Sys2Proof.Machine
end

section
/-!
PROOFS. The cycles of the Headland array (spec/08 R190 to R192, R202 to R209, spec/01 R41): the statements `FrozenArrayOnlyLoads` and
`ArrayConsumesLandsAndDrains`. A cycle is either idle, or held up and counted, or it advances the array; each then loads one shadow row where
one is to be loaded.
-/
namespace Sys2Proof.Machine

variable {s : State} {a : ArrayTask}

/-! ### The edge -/

/-- The state at an edge of the array clock, counted towards the cycles of throttling. -/
def State.arrayTick (s : State) : State :=
  { s with headland := { s.headland with swapped := false }, power := { s.power with cycle := s.power.cycle + 1 } }

theorem State.startRerun_of_none (h : s.headland.rerun = []) : s.startRerun = s := by simp only [State.startRerun, h]

section
variable {feed drain : Bool}

/-- A clocked cycle of an array that holds a task, none waiting to run again. -/
theorem exec_headlandCycle (hrerun : s.headland.rerun = []) (hbusy : s.headland.busy = true) (hclock : s.halted 1 = false) :
    exec (.headlandCycle feed drain) s
      = .next (if s.throttled s.power.cycle then s.arrayTick.countCycle .idle else s.arrayTick.arrayEdge feed drain) := by
  change execHeadlandCycle feed drain s = _
  simp only [execHeadlandCycle, State.startRerun_of_none hrerun, hbusy, hclock, Bool.not_true, Bool.or_self, Bool.false_eq_true, ↓reduceIte]
  rfl

theorem State.arrayEdge_of_swapWait (hdue : s.headland.swapDue = true) (hwait : s.headland.swapAllowed = false) :
    s.arrayEdge feed drain = (({ s with headland := { s.headland with since := s.headland.since + 1 } }).bump Pd.swapWait).loadRow := by
  simp only [State.arrayEdge, hdue, hwait, Bool.not_false, Bool.and_self, ↓reduceIte]
  rfl

theorem State.arrayEdge_of_noFeed (hdue : s.headland.swapDue = false) (hrun : s.headland.running.isSome = true) :
    s.arrayEdge false drain = (s.bump Pd.freezeFeed).loadRow := by
  simp only [State.arrayEdge, hdue, hrun, Bool.false_and, Bool.not_false, Bool.and_self, Bool.false_eq_true, ↓reduceIte]
  rfl

theorem State.arrayEdge_of_noCredit (hdue : s.headland.swapDue = false) (hfeed : s.headland.running.isSome = true → feed = true)
    (hdrain : s.headland.drainDue.isSome = true) : s.arrayEdge feed false = (s.bump Pd.freezeDrain).loadRow := by
  have hfed : (s.headland.running.isSome && !feed) = false := by
    cases hrun : s.headland.running.isSome with
    | false => rfl
    | true => simp [hfeed hrun]
  simp only [State.arrayEdge, hdue, hfed, hdrain, Bool.false_and, Bool.not_false, Bool.and_self, Bool.false_eq_true, ↓reduceIte]
  rfl

/-- With entries at every feed crossing, credits at every drain crossing and no swap withheld, the array advances. -/
theorem State.arrayEdge_of_open (h : s.headland.swapDue = true → s.headland.swapAllowed = true) : s.arrayEdge true true = s.advance := by
  have hswap : (s.headland.swapDue && !s.headland.swapAllowed) = false := by
    cases hdue : s.headland.swapDue with
    | false => rfl
    | true => simp [h hdue]
  simp only [State.arrayEdge, hswap, Bool.not_true, Bool.and_false, Bool.false_eq_true, ↓reduceIte]

end

/-! ### Shadow rows (R203, R207) -/

theorem State.loadRow_of_complete (h : ∀ a tile, s.headland.target = some (a, tile) → a.task.tileRows tile ≤ s.headland.loaded) :
    s.loadRow = s := by
  unfold State.loadRow
  split
  · rfl
  · next a tile ht => exact if_pos (h a tile ht)

theorem ArrayTask.suppress_zero (a : ArrayTask) (id : Nat) : a.suppress id 0 = a := by
  unfold ArrayTask.suppress
  split <;> rfl

/-- A row of a tile in the House, read without a suppressed element, joins the shadow set. -/
theorem State.loadRow_of_row {tile : Nat} {r : List (List Num)} (htarget : s.headland.target = some (a, tile))
    (hrow : s.headland.loaded < a.task.tileRows tile) (hstage : a.task.headOp.stage = false) (hfailed : (s.unitPort 0).failed = none)
    (hpending : s.cliffPending 0 = false)
    (hcells : s.cellRow a.task (a.task.tileStart tile + a.task.hR * s.headland.loaded)
      (min a.task.hR (a.task.hK - (a.task.tileStart tile + a.task.hR * s.headland.loaded))) 0 a.task.hN = .ok (r, [])) :
    s.loadRow = { s with headland := { s.headland with
      shadowSet := tset [] s.headland.shadowSet s.headland.loaded r, loaded := s.headland.loaded + 1 } } := by
  have hask : s.askRow a.task tile s.headland.loaded = s := by simp only [State.askRow, hstage, Bool.not_false, ↓reduceIte]
  have hstaging : a.task.headStaging = [] := by simp only [Task.headStaging, hstage, Bool.false_eq_true, ↓reduceIte]
  have hstaged : s.stagingOk a.task.agent a.task.headStaging = .ok () := by rw [hstaging]; rfl
  unfold State.loadRow
  rw [htarget]
  dsimp only
  rw [if_neg (Nat.not_le.mpr hrow), hask, hstaged, hfailed]
  dsimp only
  rw [hpending, if_neg Bool.false_ne_true, hstage, if_neg Bool.false_ne_true, hcells]
  dsimp only
  rw [hstaging, List.foldl_nil, ite_self]
  simp only [List.eraseDups_nil, List.length_nil, State.countSuppressed, ↓reduceIte, ArrayTask.suppress_zero, Option.map_id']

/-! ### Frozen cycles (R206 to R208) -/

/-- The array after a cycle in which no vector is consumed, counted, before it loads a row. -/
def State.frozen (s : State) (counter waited : Nat) : State :=
  ({ s.arrayTick with headland := { s.arrayTick.headland with since := s.headland.since + waited } } : State).bump counter

theorem State.frozen_count (s : State) (counter waited : Nat) :
    (s.frozen counter waited).reg counter = (s.reg counter + 1) % 2 ^ 64 ∧ storeFrame [counter] s (s.frozen counter waited) :=
  ⟨State.bump_reg _ _ _, (storeFrame.of_pd rfl).trans (State.bump_store _ _ _)⟩

theorem State.countCycle_idle (s : State) : s.countCycle .idle = (s.bump Pd.throttleIdle).bump Pd.throttleCycles := rfl

theorem State.bump_bump_frame (s : State) (k k' n n' : Nat) : { (s.bump k n).bump k' n' with pd := s.pd } = s := by
  obtain ⟨d, h⟩ := s.bump_eq k n
  rw [h]
  rfl

theorem frozenArrayOnlyLoads : Claims.FrozenArrayOnlyLoads := by
  intro s feed drain hrerun hbusy hclock h tick kept held
  have hexec := exec_headlandCycle (feed := feed) (drain := drain) hrerun hbusy hclock
  refine ⟨fun hidle => ?_, fun hidle => ?_⟩
  · rw [hidle, if_pos rfl, State.countCycle_idle] at hexec
    have hfirst : storeFrame [Pd.throttleIdle] s (s.arrayTick.bump Pd.throttleIdle) := (storeFrame.of_pd rfl).trans (State.bump_store _ _ _)
    have hsecond := (s.arrayTick.bump Pd.throttleIdle).bump_store Pd.throttleCycles 1
    refine ⟨_, hexec, ?_, ?_, (hfirst.mono (by simp)).trans (hsecond.mono (by simp)), State.bump_bump_frame ..⟩
    · exact (hsecond.reg (by decide)).trans (State.bump_reg _ _ _)
    · rw [State.bump_reg, hfirst.reg (by decide)]
  · rw [hidle, if_neg Bool.false_ne_true] at hexec
    have hheld : ∀ counter waited, exec (.headlandCycle feed drain) s = .next (s.frozen counter waited).loadRow → held counter waited := by
      intro counter waited hfrozen
      obtain ⟨hcount, hstore⟩ := s.frozen_count counter waited
      refine ⟨fun hfull => ?_, fun a tile r htarget hrow hstage hfailed hpending hcells => ?_⟩
      · rw [State.loadRow_of_complete (s := s.frozen counter waited) hfull] at hfrozen
        exact ⟨_, hfrozen, hcount, hstore, rfl⟩
      · rw [State.loadRow_of_row (s := s.frozen counter waited) htarget hrow hstage hfailed hpending hcells] at hfrozen
        exact ⟨_, hfrozen, hcount, hstore, ⟨rfl, rfl, rfl, rfl, rfl, rfl, rfl, rfl⟩, rfl, rfl⟩
    refine ⟨fun hdue hwait => ?_, fun hdue hrun hfeed => ?_, fun hdue hfeed hresult hcredit => ?_⟩
    · exact hheld _ _ (hexec.trans (congrArg _ (State.arrayEdge_of_swapWait (s := s.arrayTick) hdue hwait)))
    · subst hfeed
      exact hheld _ _ (hexec.trans (congrArg _ (State.arrayEdge_of_noFeed (s := s.arrayTick) hdue hrun)))
    · subst hcredit
      exact hheld _ _ (hexec.trans (congrArg _ (State.arrayEdge_of_noCredit (s := s.arrayTick) hdue hfeed hresult)))

/-! ### Results that land (R191) -/

/-- A column's value landed in a slot: the first tile's as it is, a later tile's added to what the column holds. -/
def landValue (first : Bool) (slot : Nat) (acc : Tab F32) (e : F32 × Nat) : Tab F32 :=
  tset 0 acc (slot * 1024 + e.2) (if first then e.1 else fadd (tget 0 acc (slot * 1024 + e.2)) e.1)

theorem landResults_eq (acc : Tab F32) (x : InTree) : landResults acc x = x.sums.zipIdx.foldl (landValue x.first x.slot) acc := rfl

section
variable {first : Bool} {slot : Nat}

theorem tget_landValue_ne (acc : Tab F32) (y : F32) {n i : Nat} (h : i ≠ n) :
    tget 0 (landValue first slot acc (y, n)) (slot * 1024 + i) = tget 0 acc (slot * 1024 + i) :=
  tget_tset_ne _ _ _ (by dsimp only; omega)

/-- Values from column n on do not land in a column before it. -/
theorem tget_foldl_landValue_of_before (l : List F32) : ∀ (acc : Tab F32) {n i : Nat}, i < n →
    tget 0 ((l.zipIdx n).foldl (landValue first slot) acc) (slot * 1024 + i) = tget 0 acc (slot * 1024 + i) := by
  induction l with
  | nil => exact fun _ _ _ _ => rfl
  | cons y l ih =>
    intro acc n i hi
    rw [List.zipIdx_cons, List.foldl_cons, ih _ (by omega), tget_landValue_ne _ _ (by omega)]

/-- Values from column n on land once each. -/
theorem tget_foldl_landValue (l : List F32) : ∀ (acc : Tab F32) (n : Nat) {j : Nat} {y : F32}, l[j]? = some y →
    tget 0 ((l.zipIdx n).foldl (landValue first slot) acc) (slot * 1024 + (n + j))
      = if first then y else fadd (tget 0 acc (slot * 1024 + (n + j))) y := by
  induction l with
  | nil => intro _ _ _ _ h; simp at h
  | cons x l ih =>
    intro acc n j y h
    rw [List.zipIdx_cons, List.foldl_cons]
    cases j with
    | zero =>
      obtain rfl : x = y := by simpa using h
      rw [tget_foldl_landValue_of_before l _ (by omega), Nat.add_zero, landValue, tget_tset_same]
    | succ j => rw [show n + (j + 1) = n + 1 + j by omega, ih _ _ (by simpa using h), tget_landValue_ne _ _ (by omega)]

end

theorem tget_landResults (acc : Tab F32) (x : InTree) {j : Nat} {y : F32} (h : x.sums[j]? = some y) :
    tget 0 (landResults acc x) (x.slot * 1024 + j) = if x.first then y else fadd (tget 0 acc (x.slot * 1024 + j)) y := by
  have hat := tget_foldl_landValue (first := x.first) (slot := x.slot) x.sums acc 0 h
  rwa [Nat.zero_add] at hat

/-! ### Advancing cycles (R190, R191, R204) -/

/-- The array once a swap that is due has taken place. -/
def Headland.streaming (h : Headland) : Headland := if h.swapDue then h.swap else h

theorem Headland.stepTrees_of_empty {h : Headland} (ht : h.trees = []) : h.stepTrees = h := by
  obtain ⟨⟩ := h
  subst ht
  rfl

theorem Headland.drainDue_of_empty {h : Headland} (ht : h.trees = []) : h.drainDue = none := by rw [Headland.drainDue, ht, List.find?_nil]

theorem Headland.target_of_noTask {h : Headland} (hr : h.running = none) : h.target = none := by rw [Headland.target, hr]

theorem Headland.swapDue_of_noTask {h : Headland} (hr : h.running = none) : h.swapDue = false := by rw [Headland.swapDue, hr]

theorem Headland.swapDue_of_task {h : Headland} (hr : h.running = some a) : h.swapDue = !a.active := by rw [Headland.swapDue, hr]

/-- A vector's column sums as they enter the trees, 18 cycles from their drain (R191). -/
def ArrayTask.entering (a : ArrayTask) (sums : List F32) : InTree :=
  { left := 18, id := a.id, slot := a.vector, first := a.tile % max 1 a.task.tiles == 0
    last := a.tile % max 1 a.task.tiles + 1 == a.task.tiles, vector := 2048 * (a.tile / max 1 a.task.tiles) + a.vector, sums := sums }

/-- The array after one more vector of a pass that has others left. -/
def Headland.streamed (h : Headland) (a : ArrayTask) (sums : List F32) : Headland :=
  { h with trees := h.trees ++ [a.entering sums], since := h.since + 1, running := some { a with begun := true, vector := a.vector + 1 } }

theorem Headland.consumed_of_more {h : Headland} {sums : List F32} (hmore : a.vector + 1 < a.task.vectorsIn (a.tile / max 1 a.task.tiles)) :
    h.consumed a sums = h.streamed a sums := if_pos hmore

section
variable {sums : List F32}

theorem State.advance_of_vector (htrees : s.headland.trees = []) (hrun : s.headland.streaming.running = some a)
    (hsums : ({ s with headland := s.headland.streaming } : State).vectorSums a = .ok sums) :
    s.advance
      = (({ s with headland := s.headland.streaming.stepTrees.consumed a sums } : State).bump Pd.activeCycles).loadRow := by
  unfold Headland.streaming at hrun hsums ⊢
  simp only [State.advance, Headland.drainDue_of_empty htrees, hrun, hsums]
  rfl

theorem Headland.streaming_trees (h : Headland) : h.streaming.trees = h.trees := by
  unfold Headland.streaming
  split <;> rfl

/-- A cycle in which a vector is consumed that is not the last of its pass, and no shadow row is to be loaded. -/
theorem exec_headlandCycle_of_vector {h : Headland} (hrerun : s.headland.rerun = []) (hclock : s.halted 1 = false)
    (hidle : s.throttled s.power.cycle = false) (hbusy : s.headland.running.isSome = true)
    (hswap : s.headland.swapDue = true → s.headland.swapAllowed = true) (htrees : s.headland.trees = [])
    (hstream : s.arrayTick.headland.streaming = h) (hrun : h.running = some a)
    (hsums : ({ s.arrayTick with headland := h } : State).vectorSums a = .ok sums)
    (hmore : a.vector + 1 < a.task.vectorsIn (a.tile / max 1 a.task.tiles))
    (hfull : ∀ b tile, (h.streamed a sums).target = some (b, tile) → b.task.tileRows tile ≤ h.loaded) :
    exec (.headlandCycle true true) s
      = .next (({ s.arrayTick with headland := h.streamed a sums } : State).bump Pd.activeCycles) := by
  subst hstream
  have hempty : s.arrayTick.headland.streaming.trees = [] := (Headland.streaming_trees _).trans htrees
  rw [exec_headlandCycle hrerun (by rw [Headland.busy, hbusy, Bool.true_or]) hclock, hidle, if_neg Bool.false_ne_true,
    State.arrayEdge_of_open (s := s.arrayTick) hswap, State.advance_of_vector (s := s.arrayTick) htrees hrun hsums,
    Headland.stepTrees_of_empty hempty, Headland.consumed_of_more hmore, State.loadRow_of_complete hfull]

end

/-- Where the running tile is active and the shadow set holds all that is asked of it, it still does after the next vector. -/
theorem Headland.target_streamed {h : Headland} {sums : List F32} (hrun : h.running = some a) (hactive : a.active = true)
    (hfull : ∀ b tile, h.target = some (b, tile) → b.task.tileRows tile ≤ h.loaded) :
    ∀ b tile, (h.streamed a sums).target = some (b, tile) → b.task.tileRows tile ≤ h.loaded := by
  intro b tile htarget
  simp only [Headland.target, hrun, hactive, Bool.not_true, Bool.false_eq_true, ↓reduceIte] at hfull
  simp only [Headland.target, Headland.streamed, hactive, Bool.not_true, Bool.false_eq_true, ↓reduceIte] at htarget
  split at htarget
  · next hlast =>
    cases htarget
    exact hfull a _ (if_pos hlast)
  · next hlast => exact hfull b tile ((if_neg hlast).trans htarget)

/-! ### Cycles of the drain (R208, R209) -/

/-- The array after an advancing cycle without a vector. -/
def State.tailed (s : State) : State :=
  ({ s with headland := { s.headland.stepTrees with since := s.headland.since + 1 } } : State).bump Pd.tailCycles

theorem State.tailed_running (s : State) : s.tailed.headland.running = s.headland.running := rfl

/-- Without a task that streams, no shadow row is to be loaded. -/
theorem State.loadRow_of_noTask (hrun : s.headland.running = none) : s.loadRow = s := by
  refine State.loadRow_of_complete fun b tile h => ?_
  rw [Headland.target_of_noTask hrun] at h
  cases h

theorem State.advance_of_noResult (hdue : s.headland.drainDue = none) (hrun : s.headland.running = none) : s.advance = s.tailed := by
  rw [← State.loadRow_of_noTask (s.tailed_running.trans hrun)]
  simp only [State.advance, hdue, Headland.swapDue_of_noTask hrun, hrun, Bool.false_eq_true, ↓reduceIte]
  rfl

theorem State.advance_of_result {x : InTree} {u : State} (hdue : s.headland.drainDue = some x) (hfind : s.headland.find x.id = some a)
    (hdrain : s.drainVector a x = .ok u) (hrun : (u.drained a).headland.running = none) : s.advance = (u.drained a).tailed := by
  rw [← State.loadRow_of_noTask ((State.tailed_running _).trans hrun)]
  simp only [State.advance, hdue, hfind, hdrain, Headland.swapDue_of_noTask hrun, hrun, Bool.false_eq_true, ↓reduceIte]
  rfl

/-- A vector of a draining task that is not its last is counted, while no task streams. -/
theorem State.drained_of_more (hrun : s.headland.running = none) (hdraining : s.headland.draining = [a])
    (hmore : a.drained + 1 < a.task.hM) :
    s.drained a = { s with headland := { s.headland with draining := [{ a with drained := a.drained + 1 }] } } := by
  simp only [State.drained, hmore, hrun, hdraining, List.map_cons, List.map_nil, Bool.false_eq_true, ↓reduceIte]

section
variable (hrerun : s.headland.rerun = []) (hclock : s.halted 1 = false) (hidle : s.throttled s.power.cycle = false)
  (hrun : s.headland.running = none)
include hrerun hclock hidle hrun

theorem exec_headlandCycle_of_noTask (hdraining : s.headland.draining ≠ []) :
    exec (.headlandCycle true true) s = .next s.arrayTick.advance := by
  have hbusy : s.headland.busy = true := by simp [Headland.busy, hdraining]
  rw [exec_headlandCycle hrerun hbusy hclock, hidle, if_neg Bool.false_ne_true, State.arrayEdge_of_open]
  exact fun hdue => absurd hdue (ne_true_of_eq_false (Headland.swapDue_of_noTask (h := s.arrayTick.headland) hrun))

/-- No task streams and one vector's sums are in the trees, not yet due: they move on. -/
theorem exec_headlandCycle_of_waiting {x : InTree} (hdraining : s.headland.draining ≠ []) (htrees : s.headland.trees = [x])
    (hleft : x.left ≠ 1) : exec (.headlandCycle true true) s = .next s.arrayTick.tailed := by
  have hdue : s.arrayTick.headland.drainDue = none := by
    rw [Headland.drainDue, show s.arrayTick.headland.trees = [x] from htrees]
    simp [hleft]
  rw [exec_headlandCycle_of_noTask hrerun hclock hidle hrun hdraining, State.advance_of_noResult hdue hrun]

/-- The sums of a last tile are due: the drain writes the vector's results, and counts it as drained. -/
theorem exec_headlandCycle_of_due {x : InTree} {u : State} (htrees : s.headland.trees = [x]) (hleft : x.left = 1) (hlast : x.last = true)
    (hdraining : s.headland.draining = [a]) (hid : a.id = x.id) (hmore : a.drained + 1 < a.task.hM)
    (hwritten : s.arrayTick.drainVector a x = .ok u) :
    exec (.headlandCycle true true) s = .next (State.tailed
      { u with headland := { s.arrayTick.headland with draining := [{ a with drained := a.drained + 1 }] } }) := by
  have hdue : s.arrayTick.headland.drainDue = some x := by
    rw [Headland.drainDue, show s.arrayTick.headland.trees = [x] from htrees]
    simp [hleft, hlast]
  have hfind : s.arrayTick.headland.find x.id = some a := by
    rw [Headland.find, show s.arrayTick.headland.running = none from hrun, show s.arrayTick.headland.draining = [a] from hdraining]
    simp [hid]
  have hhead : u.headland = s.arrayTick.headland := (WritesData.drainVector _ hwritten).headland
  have hdrained := State.drained_of_more (s := u) (a := a) (by rw [hhead]; exact hrun) (by rw [hhead]; exact hdraining) hmore
  rw [exec_headlandCycle_of_noTask hrerun hclock hidle hrun (by simp [hdraining]),
    State.advance_of_result hdue hfind hwritten (by rw [hdrained, hhead]; exact hrun), hdrained, hhead]

end

/-- Sums 16 cycles old land in their slot. -/
theorem Headland.stepTrees_acc_of_landing {h : Headland} {x : InTree} (ht : h.trees = [x]) (hleft : x.left = 3) :
    h.stepTrees.acc = landResults h.acc { x with left := 2 } := by
  simp [Headland.stepTrees, ht, hleft]

/-- Sums that the drain has taken leave the trees. -/
theorem Headland.stepTrees_trees_of_due {h : Headland} {x : InTree} (ht : h.trees = [x]) (hleft : x.left = 1) (hlast : x.last = true) :
    h.stepTrees.trees = [] := by
  simp [Headland.stepTrees, ht, hleft, hlast]

/-! ### The statement -/

theorem arrayConsumesLandsAndDrains : Claims.ArrayConsumesLandsAndDrains := by
  intro s hrerun hclock hidle h tick
  refine ⟨?_, ?_, ?_⟩
  · intro a sums hrun hactive htrees hfull hsums hmore
    have hdue : s.arrayTick.headland.swapDue = false := by
      rw [Headland.swapDue_of_task (h := s.arrayTick.headland) hrun, hactive]; rfl
    have hstream : s.arrayTick.headland.streaming = s.arrayTick.headland := by rw [Headland.streaming, hdue, if_neg Bool.false_ne_true]
    refine ⟨_, exec_headlandCycle_of_vector hrerun hclock hidle (Option.isSome_of_eq_some hrun)
      (fun hswap => absurd hswap (ne_true_of_eq_false hdue)) htrees hstream hrun hsums hmore
      (Headland.target_streamed (h := s.arrayTick.headland) hrun hactive hfull), rfl, ?_, rfl, rfl, rfl, State.bump_reg _ _ _,
      (storeFrame.of_pd rfl).trans (State.bump_store _ _ _), rfl⟩
    show ((h.trees ++ [a.entering sums]).map _) = _
    rw [htrees]
    rfl
  · intro a sums hrun hactive hswap htrees hlast hshadow hmore hsums
    have hdue : s.arrayTick.headland.swapDue = true := by
      rw [Headland.swapDue_of_task (h := s.arrayTick.headland) hrun, hactive]; rfl
    have hstream : s.arrayTick.headland.streaming = s.arrayTick.headland.swap := by rw [Headland.streaming, hdue, if_pos rfl]
    have hfirst : s.arrayTick.headland.swap.running = some { a with active := true, vector := 0 } := congrArg (Option.map _) hrun
    have hnone : s.arrayTick.headland.swap.target = none := by
      have hshadow' : s.arrayTick.headland.swap.shadow = none := hshadow
      simp only [Headland.target, hfirst, hshadow', hlast, Nat.lt_irrefl, Bool.not_true, Bool.false_eq_true, ↓reduceIte, Option.map_none]
    exact ⟨_, exec_headlandCycle_of_vector hrerun hclock hidle (Option.isSome_of_eq_some hrun) (fun _ => hswap) htrees hstream hfirst hsums hmore
      (Headland.target_streamed hfirst rfl fun b tile ht => by rw [hnone] at ht; cases ht), rfl, rfl, rfl, rfl, rfl, rfl, State.bump_reg _ _ _⟩
  · intro x hrun hdraining htrees
    refine ⟨fun hleft j y hy _ _ => ?_, fun a u hleft hlast hdrain hid hmore hwritten => ?_⟩
    · refine ⟨_, exec_headlandCycle_of_waiting hrerun hclock hidle hrun hdraining htrees (by omega), ?_, rfl, State.bump_reg _ _ _, rfl, rfl⟩
      have hacc : s.arrayTick.tailed.headland.acc = landResults h.acc { x with left := 2 } :=
        Headland.stepTrees_acc_of_landing (h := s.arrayTick.headland) htrees hleft
      rw [hacc]
      exact tget_landResults h.acc { x with left := 2 } hy
    · exact ⟨_, exec_headlandCycle_of_due hrerun hclock hidle hrun htrees hleft hlast hdrain hid hmore hwritten, rfl,
        Headland.stepTrees_trees_of_due htrees hleft hlast, rfl, (WritesData.drainVector _ hwritten).finished⟩

end Sys2Proof.Machine
end

section
/-!
PROOFS. Columns of the Headland that fail (spec/08 R216, R217, Tables 08-7 and 08-9): the statement `FailedColumnsAreReplaced`, and with the
cycles of the array the obligation `HeadlandArray`.
-/
namespace Sys2Proof.Machine

variable {s : State} {p check j : Nat}

/-! ### Fences announced (spec/15 R408) -/

/-- The recorder changes its own state, and the store's count of overruns. -/
theorem State.record_eq (s : State) (g : Nat) (c : BitVec 16) (uk un : Nat) (d : List Byte) :
    ∃ pd strand, s.record g c uk un d = { s with pd := pd, strand := strand } := by
  unfold State.record
  split <;> exact ⟨_, _, rfl⟩

theorem State.announceFence_eq (s : State) (code : BitVec 16) (kind unit : Nat) (failure : List Byte) :
    ∃ pd strand, s.announceFence code kind unit failure = { s with pd := pd, strand := strand, out := s.out ++ [.msix 5] } := by
  obtain ⟨pd, strand, h⟩ := s.record_eq 0x01 code kind unit failure
  rw [State.announceFence, h]
  exact ⟨_, _, rfl⟩

theorem State.vector_store (s : State) (keys : List Nat) (v : Nat) : storeFrame keys s (s.vector v) := .of_pd rfl

/-- The announcement of a fence counts it, and the recorder may count an overrun. -/
theorem State.announceFence_store (s : State) (code : BitVec 16) (kind unit : Nat) (failure : List Byte) :
    storeFrame [Pd.overruns, Pd.fencedSinceReady] s (s.announceFence code kind unit failure) := by
  have hrecord := (s.record_store 0x01 code kind unit failure).mono (keys' := [Pd.overruns, Pd.fencedSinceReady]) (by simp)
  exact (hrecord.trans (State.vector_store _ _ 5)).setReg _ (by simp)

/-- With a place in the recorder's queue the announcement is noted whole. -/
theorem State.announceFence_of_room (h : s.strand.queue.length < 256) (code : BitVec 16) (kind unit : Nat) (failure : List Byte) :
    s.announceFence code kind unit failure = { s.setReg Pd.fencedSinceReady ((s.reg Pd.fencedSinceReady + 1) % 2 ^ 32) with
      strand := { s.strand with queue := s.strand.queue ++ [occurrence s 0x01 code kind unit failure] }, out := s.out ++ [.msix 5] } := by
  rw [State.announceFence, s.record_queue _ _ _ _ _ h]
  rfl

/-! ### A failed column fenced, counted and noted -/

/-- One unit of an entry written, and any unit of that entry read. -/
theorem State.rd_wr_unit (s : State) (k p v i : Nat) : (s.wr k p v).rd k i = if i = p then v else s.rd k i := by
  have hkey : pdKey k i = pdKey k p ↔ i = p := by unfold pdKey; omega
  simp only [State.rd_wr, hkey]

/-- A column's failure noted with a record: the record stored, the fence announced (PD 0x4020.10). -/
def State.failureNoted (s : State) (record : List Byte) (code : BitVec 16) (p : Nat) : State :=
  (s.setReg Pd.lastColumnFailure (leNat record)).announceFence code 1 p record

theorem State.failureNoted_store (s : State) (record : List Byte) (code : BitVec 16) (p : Nat) :
    storeFrame [Pd.lastColumnFailure, Pd.overruns, Pd.fencedSinceReady] s (s.failureNoted record code p) :=
  ((storeFrame.refl _ s).setReg _ (by simp)).trans ((State.announceFence_store _ _ _ _ _).mono (by simp))

theorem State.failureNoted_frame (s : State) (record : List Byte) (code : BitVec 16) (p : Nat) :
    { s.failureNoted record code p with pd := s.pd, strand := s.strand, out := s.out } = s := by
  obtain ⟨pd, strand, h⟩ := (s.setReg Pd.lastColumnFailure (leNat record)).announceFence_eq code 1 p record
  rw [State.failureNoted, h]
  rfl

/-- The record of a column's failure. -/
def State.columnRecord (s : State) (j p check outcome : Nat) : List Byte :=
  natLE 2 j ++ natLE 2 p ++ natLE 1 check ++ natLE 1 outcome ++ [0, 0] ++ natLE 8 s.time

theorem State.noteColumn_eq (s : State) (j p check outcome : Nat) : s.noteColumn j p check outcome
    = s.failureNoted (s.columnRecord j p check outcome) (if outcome = 2 then St.columnLost else St.fenced) p := rfl

theorem State.noteColumn_store (s : State) (j p check outcome : Nat) :
    storeFrame [Pd.lastColumnFailure, Pd.overruns, Pd.fencedSinceReady] s (s.noteColumn j p check outcome) := by
  rw [State.noteColumn_eq]
  exact s.failureNoted_store _ _ p

theorem State.noteColumn_frame (s : State) (j p check outcome : Nat) :
    { s.noteColumn j p check outcome with pd := s.pd, strand := s.strand, out := s.out } = s := by
  rw [State.noteColumn_eq]
  exact s.failureNoted_frame _ _ p

/-- The column fenced and its failure counted. -/
def State.columnFenced (s : State) (p : Nat) : State := (s.wr Pd.columnState p 3).bump Pd.columnFailures

theorem State.columnFenced_store (s : State) (hp : p < 16777216) : storeFrame [Pd.columnState, Pd.columnFailures] s (s.columnFenced p) :=
  ((storeFrame.refl _ s).wr 3 (by simp) hp).setReg _ (by simp)

theorem State.columnFenced_columnState (s : State) (p : Nat) {i : Nat} (hi : i < 16777216) :
    (s.columnFenced p).rd Pd.columnState i = if i = p then 3 else s.rd Pd.columnState i := by
  rw [State.columnFenced, (State.bump_store _ _ _) _ _ (by decide) hi, State.rd_wr_unit]

theorem State.columnFenced_count (s : State) (hp : p < 16777216) :
    (s.columnFenced p).reg Pd.columnFailures = (s.reg Pd.columnFailures + 1) % 2 ^ 64 := by
  have hfence := (storeFrame.refl [Pd.columnState] s).wr 3 (List.mem_singleton_self _) hp
  rw [State.columnFenced, State.bump_reg, hfence.reg (by decide)]

/-- Column p fenced, its failure noted as logical column j's: what the store, the recorder and the host then hold. -/
structure ColumnNoted (s : State) (p : Nat) (record : List Byte) (code : BitVec 16) (t : State) : Prop where
  columnState : ∀ i, i < 16777216 → t.rd Pd.columnState i = if i = p then 3 else s.rd Pd.columnState i
  failures : t.reg Pd.columnFailures = (s.reg Pd.columnFailures + 1) % 2 ^ 64
  last : t.reg Pd.lastColumnFailure = leNat record
  fences : t.reg Pd.fencedSinceReady = (s.reg Pd.fencedSinceReady + 1) % 2 ^ 32
  queue : t.strand.queue = s.strand.queue ++ [occurrence s 0x01 code 1 p record]
  out : t.out = s.out ++ [Output.msix 5]
  store : storeFrame [Pd.columnState, Pd.columnFailures, Pd.lastColumnFailure, Pd.fencedSinceReady] s t
  frame : { t with pd := s.pd, strand := s.strand, out := s.out } = s

theorem State.columnFenced_noted (hp : p < 1040) (hq : s.strand.queue.length < 256) (record : List Byte) (code : BitVec 16) :
    ColumnNoted s p record code ((s.columnFenced p).failureNoted record code p) := by
  have hp' : p < 16777216 := by omega
  have hfence := s.columnFenced_store hp'
  have hlast := (hfence.mono (keys' := [Pd.columnState, Pd.columnFailures, Pd.lastColumnFailure]) (by simp)).setReg
    (leNat record) (k := Pd.lastColumnFailure) (by simp)
  have hstore := (s.columnFenced p).failureNoted_store record code p
  have hframe := (s.columnFenced p).failureNoted_frame record code p
  have hnote : (s.columnFenced p).failureNoted record code p = _ :=
    State.announceFence_of_room (s := (s.columnFenced p).setReg Pd.lastColumnFailure (leNat record)) hq code 1 p record
  refine ⟨fun i hi => ?_, ?_, ?_, ?_, ?_, ?_, ?_, (congrArg (fun u : State => { u with pd := s.pd }) hframe :)⟩
  · rw [hstore _ _ (by decide) hi, s.columnFenced_columnState p hi]
  · rw [hstore.reg (by decide), s.columnFenced_count hp']
  · rw [hnote]
    exact (State.reg_setReg_ne _ (by decide)).trans (State.reg_setReg_same _ _ _)
  · rw [hnote]
    refine (State.reg_setReg_same _ _ _).trans ?_
    rw [hlast.reg (by decide)]
  · rw [hnote]; rfl
  · rw [hnote]; rfl
  · rw [hnote]
    exact ((hlast.mono (by simp)).setReg _ (by simp)).trans (.of_pd rfl)

theorem State.noteColumn_columnFenced (s : State) (j p check outcome : Nat) : (s.columnFenced p).noteColumn j p check outcome
    = (s.columnFenced p).failureNoted (s.columnRecord j p check outcome) (if outcome = 2 then St.columnLost else St.fenced) p := rfl

/-! ### What follows from the failure (R216, R217) -/

/-- The pool has no column that backs a logical one, so such a column's fence leaves it. -/
theorem State.poolColumns_columnFenced (hstate : s.rd Pd.columnState p = 0) : (s.columnFenced p).poolColumns = s.poolColumns := by
  refine List.filter_congr fun i hi => ?_
  rw [s.columnFenced_columnState p (by have := List.mem_range.mp hi; omega)]
  split
  · next h => rw [h, hstate]; rfl
  · rfl

/-- Logical column j failed and to be replaced: its tasks are marked, and those that have ended are to run again. -/
def State.columnReplaced (t : State) (j : Nat) : State :=
  { (t.takeFinished fun x => decide (j < x.hN)).2 with headland := { t.headland.mark j with
      failed := t.headland.failed ++ [j], rerun := t.headland.rerun ++ (t.takeFinished fun x => decide (j < x.hN)).1 } }

theorem Headland.mark_running (h : Headland) (j : Nat) :
    (h.mark j).running = h.running.map fun a => { a with affected := a.affected || decide (j < a.task.hN) } := by
  refine congrArg (Option.map · h.running) (funext fun a => ?_)
  split
  · next hj => simp [hj]
  · next hj => simp [hj]

section
variable (hready : s.isReady = true) (hstate : s.rd Pd.columnState p = 0) (hj : s.logicalOf p = some j)
include hready hstate hj

/-- A column that backs logical column j fails. -/
theorem exec_columnFailure_of_backing : exec (.columnFailure p check) s = .next
    (if s.headland.failed.length < s.poolColumns.length then ((s.columnFenced p).noteColumn j p check 1).columnReplaced j
      else ((s.columnFenced p).noteColumn j p check 2).loseColumn j) := by
  change execColumnFailure p check s = _
  rw [← State.poolColumns_columnFenced hstate]
  simp only [execColumnFailure, hready, hstate, hj, show decide (2 ≤ 0) = false from rfl, Bool.not_true, Bool.or_self, Bool.false_eq_true,
    Nat.zero_ne_one, ↓reduceIte, apply_ite Host.Outcome.next]
  rfl

end

/-- A column of the pool fails: it leaves the pool (Table 08-7). -/
theorem exec_columnFailure_of_pool (hready : s.isReady = true) (hstate : s.rd Pd.columnState p = 1) :
    exec (.columnFailure p check) s = .next
      (((s.columnFenced p).setReg Pd.poolFree ((s.columnFenced p).reg Pd.poolFree - 1)).noteColumn 0xFFFF p check 0) := by
  change execColumnFailure p check s = _
  simp only [execColumnFailure, hready, hstate, show decide (2 ≤ 1) = false from rfl, Bool.not_true, Bool.or_self, Bool.false_eq_true, ↓reduceIte]
  rfl

theorem Headland.of_not_busy {h : Headland} (hb : h.busy = false) : h.running = none ∧ h.draining = [] := by
  simpa [Headland.busy] using hb

/-- A logical column lost with no task in the array, ended or waiting: its entry of the map becomes vacant, and that is all. -/
theorem State.loseColumn_of_idle (hbusy : s.headland.busy = false) (hshadow : s.headland.shadow = none) (hrerun : s.headland.rerun = [])
    (hfinished : s.finished = []) : s.loseColumn j = s.wr Pd.columnMap j 0x8000 := by
  obtain ⟨hrun, hdraining⟩ := Headland.of_not_busy hbusy
  have hnone : s.headland.tasksOn j = [] := by simp [Headland.tasksOn, hrun, hdraining, hshadow]
  have hended : { s with finished := [] } = s := by rw [← hfinished]
  have hwaiting : ∀ t : State, t.headland.rerun = [] → { t with headland := { t.headland with rerun := [] } } = t := fun t ht => by rw [← ht]
  simp only [State.loseColumn, State.takeFinished, hnone, hfinished, List.filter_nil, hended, State.spoil, List.foldl_nil, State.wr_headland,
    hrerun]
  exact hwaiting (s.wr Pd.columnMap j 0x8000) hrerun

theorem State.columnVacant_of_entry (h : s.rd Pd.columnMap j = 0x8000) : s.columnVacant j = true := by
  rw [State.columnVacant, State.columnEntry, h, ite_self]
  decide

/-! ### COLUMN_REMAP -/

/-- Physical column p of the pool backs logical column j from now on. -/
def State.columnBacked (s : State) (j p : Nat) : State :=
  ((s.wr Pd.columnState p 0).wr Pd.columnMap j (0x4000 + p)).setReg Pd.poolFree
    (((s.wr Pd.columnState p 0).wr Pd.columnMap j (0x4000 + p)).reg Pd.poolFree - 1)

theorem State.remapColumn_of_pool {pool : List Nat} (h : s.poolColumns = p :: pool) : s.remapColumn j = s.columnBacked j p := by
  unfold State.remapColumn
  rw [h]
  rfl

/-- One failed logical column, no task in the array, and the pool's lowest column p. -/
theorem exec_columnRemap_of_one {pool : List Nat} (hbusy : s.headland.busy = false) (hshadow : s.headland.shadow = none)
    (hfailed : s.headland.failed = [j]) (hpool : s.poolColumns = p :: pool) :
    exec .columnRemap s = .next (({ s with headland := { s.headland with failed := [] } } : State).columnBacked j p) := by
  change execColumnRemap s = _
  rw [← State.remapColumn_of_pool (s := { s with headland := { s.headland with failed := [] } }) hpool]
  simp only [execColumnRemap, hbusy, hshadow, hfailed, List.foldl_cons, List.foldl_nil, Option.isSome_none, Bool.or_self, Bool.false_eq_true,
    ↓reduceIte]

section
variable (hp : p < 16777216) (hj : j < 16777216)

include hp hj in
theorem State.columnBacked_units : storeFrame [Pd.columnState, Pd.columnMap] s ((s.wr Pd.columnState p 0).wr Pd.columnMap j (0x4000 + p)) :=
  ((storeFrame.refl _ s).wr 0 (by simp) hp).wr _ (by simp) hj

include hp hj in
theorem State.columnBacked_store : storeFrame [Pd.columnState, Pd.columnMap, Pd.poolFree] s (s.columnBacked j p) :=
  ((State.columnBacked_units hp hj).mono (by simp)).setReg _ (by simp)

include hp hj in
theorem State.columnBacked_poolFree : (s.columnBacked j p).reg Pd.poolFree = s.reg Pd.poolFree - 1 := by
  rw [State.columnBacked, State.reg_setReg_same, (State.columnBacked_units hp hj).reg (by decide)]

include hj in
theorem State.columnBacked_columnState {i : Nat} (hi : i < 16777216) :
    (s.columnBacked j p).rd Pd.columnState i = if i = p then 0 else s.rd Pd.columnState i := by
  rw [State.columnBacked, State.setReg, State.rd_wr_ne _ (by decide) (by decide) hi, State.rd_wr_ne _ (by decide) hj hi,
    State.rd_wr_unit]

include hp in
theorem State.columnBacked_columnMap {i : Nat} (hi : i < 16777216) :
    (s.columnBacked j p).rd Pd.columnMap i = if i = j then 0x4000 + p else s.rd Pd.columnMap i := by
  rw [State.columnBacked, State.setReg, State.rd_wr_ne _ (by decide) (by decide) hi, State.rd_wr_unit,
    State.rd_wr_ne _ (by decide) hp hi]

end

/-! ### The statements -/

theorem failedColumnsAreReplaced : Claims.FailedColumnsAreReplaced := by
  refine ⟨?_, ?_, ?_⟩
  · intro s p check j hp hready hstate hj hq rec_ noted
    have hnoted : ∀ t outcome code, ColumnNoted s p (rec_ outcome) code t → noted t outcome code := fun t outcome code h =>
      ⟨(h.columnState p (by omega)).trans (if_pos rfl), h.failures, h.last, h.fences, h.queue, h.out⟩
    have hexec := exec_columnFailure_of_backing (check := check) hready hstate hj
    refine ⟨fun hpool => ?_, fun hpool hbusy hshadow hrerun hfinished hj' => ?_⟩
    · have h : ColumnNoted s p (rec_ 1) St.fenced _ := State.columnFenced_noted hp hq _ _
      rw [if_pos hpool, State.noteColumn_columnFenced] at hexec
      change exec _ _ = .next (State.columnReplaced ((s.columnFenced p).failureNoted (rec_ 1) St.fenced p) j) at hexec
      generalize (s.columnFenced p).failureNoted (rec_ 1) St.fenced p = t at h hexec
      have hhead : t.headland = s.headland := (congrArg State.headland h.frame :)
      have hended : t.finished = s.finished := (congrArg State.finished h.frame :)
      refine ⟨_, hexec, hnoted t 1 _ h, h.store, fun i hi hi' => (h.columnState i (by omega)).trans (if_neg hi), ?_, ?_, ⟨?_, ?_⟩, ?_⟩
      · rw [← hhead]; rfl
      · rw [← hhead]; exact t.headland.mark_running j
      · rw [← hhead, ← hended]; rfl
      · rw [← hended]; rfl
      · exact (congrArg (fun u : State => { u with headland := s.headland, finished := s.finished }) h.frame :)
    · have h : ColumnNoted s p (rec_ 2) St.columnLost _ := State.columnFenced_noted hp hq _ _
      rw [if_neg (Nat.not_lt.mpr hpool), State.noteColumn_columnFenced] at hexec
      change exec _ _ = .next (State.loseColumn ((s.columnFenced p).failureNoted (rec_ 2) St.columnLost p) j) at hexec
      generalize (s.columnFenced p).failureNoted (rec_ 2) St.columnLost p = t at h hexec
      have hhead : t.headland = s.headland := (congrArg State.headland h.frame :)
      have hended : t.finished = s.finished := (congrArg State.finished h.frame :)
      rw [State.loseColumn_of_idle (hhead ▸ hbusy) (hhead ▸ hshadow) (hhead ▸ hrerun) (hended ▸ hfinished)] at hexec
      have hstore : storeFrame [Pd.columnMap] t (t.wr Pd.columnMap j 0x8000) := (storeFrame.refl _ t).wr _ (by simp) (by omega)
      obtain ⟨hcol, hcount, hlast, hfences, hqueue, hout⟩ := hnoted t 2 _ h
      refine ⟨_, hexec, ⟨(hstore _ _ (by decide) (by omega)).trans hcol, (hstore.reg (by decide)).trans hcount,
        (hstore.reg (by decide)).trans hlast, (hstore.reg (by decide)).trans hfences, hqueue, hout⟩, t.rd_wr_same _ _ _,
        State.columnVacant_of_entry (t.rd_wr_same _ _ _), congrArg Headland.failed hhead, (congrArg State.mem h.frame :)⟩
  · intro s p check hp hready hstate
    have hexec := exec_columnFailure_of_pool (check := check) hready hstate
    have hp' : p < 16777216 := by omega
    have hstore := ((s.columnFenced p).setReg Pd.poolFree ((s.columnFenced p).reg Pd.poolFree - 1)).noteColumn_store 0xFFFF p check 0
    have hframe := ((s.columnFenced p).setReg Pd.poolFree ((s.columnFenced p).reg Pd.poolFree - 1)).noteColumn_frame 0xFFFF p check 0
    refine ⟨_, hexec, ?_, ?_, (congrArg State.headland hframe :), (congrArg State.mem hframe :)⟩
    · rw [hstore _ _ (by decide) hp', State.setReg, State.rd_wr_ne _ (by decide) (by decide) hp', s.columnFenced_columnState p hp', if_pos rfl]
    · rw [hstore.reg (by decide), State.reg_setReg_same, (s.columnFenced_store hp').reg (by decide)]
  · intro s j p pool hbusy hshadow hfailed hj hpool
    have hp : p < 1040 := List.mem_range.mp (List.mem_of_mem_filter (hpool ▸ List.mem_cons_self : p ∈ s.poolColumns))
    have hexec := exec_columnRemap_of_one hbusy hshadow hfailed hpool
    have hj' : j < 16777216 := by omega
    have hp' : p < 16777216 := by omega
    exact ⟨_, hexec, (State.columnBacked_columnState hj' hp').trans (if_pos rfl), (State.columnBacked_columnMap hp' hj').trans (if_pos rfl),
      State.columnBacked_poolFree hp' hj', rfl, State.columnBacked_store hp' hj',
      fun i hi hi' => (State.columnBacked_columnState hj' hi').trans (if_neg hi),
      fun i hi hi' => (State.columnBacked_columnMap hp' hi').trans (if_neg hi), rfl⟩

end Sys2Proof.Machine

open Sys2Proof Sys2Proof.Machine

/-- Settles O33: a frozen cycle counts and loads, an advancing one consumes, lands and drains, and a failed column is replaced while the pool
lasts. -/
theorem headlandArray : Obligations.HeadlandArray := by
  unfold Obligations.HeadlandArray
  exact ⟨frozenArrayOnlyLoads, arrayConsumesLandsAndDrains, failedColumnsAreReplaced⟩
end

section
/-!
PROOFS. Micro-programs and the Harbour's reference units (spec/10 R282 to R292, spec/09 R257): a BLOB's bytes written and read back, the
commands' own writes answered, a slot set in every named engine, and the statement `MicroProgramsAndReferences` assembled from them.
-/
namespace Sys2Proof

/-! ### Fields and bytes of a word -/

/-- A number with a field replaced: what stands above the field, the field, what stands below. -/
theorem setBits_eq (v lo n x : Nat) :
    setBits v lo n x = 2 ^ lo * (2 ^ n * (v / 2 ^ lo / 2 ^ n) + x % 2 ^ n) + v % 2 ^ lo := by
  have hlow : 2 ^ lo * (v / 2 ^ lo) + v % 2 ^ lo = v := Nat.div_add_mod v (2 ^ lo)
  have hfield : 2 ^ n * (v / 2 ^ lo / 2 ^ n) + v / 2 ^ lo % 2 ^ n = v / 2 ^ lo := Nat.div_add_mod _ _
  have hsplit : 2 ^ lo * (2 ^ n * (v / 2 ^ lo / 2 ^ n)) + 2 ^ lo * (v / 2 ^ lo % 2 ^ n) = 2 ^ lo * (v / 2 ^ lo) := by
    rw [← Nat.mul_add, hfield]
  rw [setBits, Nat.shiftRight_eq_div_pow, Nat.shiftLeft_eq, Nat.shiftLeft_eq, Nat.mul_comm (v / 2 ^ lo % 2 ^ n), Nat.mul_comm (x % 2 ^ n),
    Nat.mul_add]
  omega

theorem testBit_setBits (v lo n x j : Nat) :
    (setBits v lo n x).testBit j = if lo ≤ j ∧ j < lo + n then x.testBit (j - lo) else v.testBit j := by
  have hlow : v % 2 ^ lo < 2 ^ lo := Nat.mod_lt _ (Nat.two_pow_pos lo)
  have hfield : x % 2 ^ n < 2 ^ n := Nat.mod_lt _ (Nat.two_pow_pos n)
  rw [setBits_eq, Nat.testBit_two_pow_mul_add _ hlow, Nat.testBit_two_pow_mul_add _ hfield]
  by_cases hlo : j < lo
  · rw [if_pos hlo, if_neg (by omega), Nat.testBit_mod_two_pow, decide_eq_true hlo, Bool.true_and]
  by_cases hn : j - lo < n
  · rw [if_neg hlo, if_pos hn, if_pos (by omega), Nat.testBit_mod_two_pow, decide_eq_true hn, Bool.true_and]
  · rw [if_neg hlo, if_neg hn, if_neg (by omega), Nat.testBit_div_two_pow, Nat.testBit_div_two_pow]
    congr 1
    omega

theorem testBit_bits (v lo n j : Nat) : (bits v lo n).testBit j = (decide (j < n) && v.testBit (lo + j)) := by
  rw [bits, Nat.testBit_mod_two_pow, Nat.testBit_shiftRight]

/-- A byte of a word reads as it was last set, and setting it leaves every other byte alone. -/
theorem byteField_setByteField (v i j : Nat) (b : Byte) :
    byteField (setByteField v j 1 b.toNat) i 1 = if i = j then b.toNat else byteField v i 1 := by
  have hb : b.toNat < 2 ^ 8 := b.isLt
  refine Nat.eq_of_testBit_eq fun l => ?_
  rw [byteField, testBit_bits, setByteField, testBit_setBits]
  by_cases hl : l < 8
  · by_cases hij : i = j
    · rw [if_pos hij, if_pos (by omega), hij, Nat.add_sub_cancel_left, decide_eq_true (by omega), Bool.true_and]
    · rw [if_neg hij, if_neg (by omega), byteField, testBit_bits]
  · rw [decide_eq_false (by omega), Bool.false_and]
    split
    · exact (Nat.testBit_lt_two_pow (hb.trans_le (Nat.pow_le_pow_right (by decide) (by omega)))).symm
    · rw [byteField, testBit_bits, decide_eq_false (by omega), Bool.false_and]

/-- The number that the low `n` bytes of a number spell. -/
theorem leNat_natLE_mod (n v : Nat) : leNat (natLE n v) = v % 256 ^ n := by
  induction n generalizing v with
  | zero => rw [natLE, leNat, Nat.pow_zero, Nat.mod_one]
  | succ n ih =>
    rw [natLE, leNat, ih, Nat.pow_succ' (m := 256), Nat.mod_mul, BitVec.toNat_ofNat]

end Sys2Proof

namespace Sys2Proof.Machine

variable {s : State}

/-! ### Bytes of a BLOB -/

/-- Byte `i` of a BLOB kept in units of `unit` bytes. -/
def State.blobByte (s : State) (k unit i : Nat) : Byte := BitVec.ofNat 8 (byteField (s.rd k (i / unit)) (i % unit) 1)

theorem State.rdBytes_eq_map_blobByte (s : State) (k unit off n : Nat) :
    s.rdBytes k unit off n = (List.range n).map fun i => s.blobByte k unit (off + i) := rfl

theorem State.rdBytes_congr {t : State} {k unit off n : Nat} (h : ∀ i < n, t.rd k ((off + i) / unit) = s.rd k ((off + i) / unit)) :
    t.rdBytes k unit off n = s.rdBytes k unit off n :=
  List.map_congr_left fun i hi => by rw [h i (List.mem_range.mp hi)]

theorem pdKey_inj {k u u' : Nat} : pdKey k u = pdKey k u' ↔ u = u' := by unfold pdKey; omega

/-- One byte written into a BLOB. -/
def State.wrByte (s : State) (k unit off : Nat) (b : Byte) : State :=
  s.wr k (off / unit) (setByteField (s.rd k (off / unit)) (off % unit) 1 b.toNat)

theorem State.wrBytes_cons (s : State) (k unit off : Nat) (b : Byte) (bs : List Byte) :
    s.wrBytes k unit off (b :: bs) = (s.wrByte k unit off b).wrBytes k unit (off + 1) bs := rfl

theorem State.blobByte_wrByte (s : State) (k unit off i : Nat) (b : Byte) :
    (s.wrByte k unit off b).blobByte k unit i = if i = off then b else s.blobByte k unit i := by
  unfold State.blobByte State.wrByte
  rw [State.rd_wr]
  by_cases hunit : i / unit = off / unit
  · have hplace : i % unit = off % unit ↔ i = off :=
      ⟨fun h => by rw [← Nat.div_add_mod i unit, ← Nat.div_add_mod off unit, hunit, h], fun h => h ▸ rfl⟩
    rw [if_pos (pdKey_inj.mpr hunit), byteField_setByteField, hunit]
    simp only [hplace]
    split
    · exact BitVec.ofNat_toNat 8 b
    · rfl
  · have hne : i ≠ off := fun h => hunit (h ▸ rfl)
    rw [if_neg (pdKey_inj.not.mpr hunit), if_neg hne]

/-- A BLOB's bytes read as they were last written, and writing them leaves every other byte of it alone. -/
theorem State.blobByte_wrBytes (s : State) (k unit off i : Nat) (bs : List Byte) : (s.wrBytes k unit off bs).blobByte k unit i
    = if off ≤ i ∧ i < off + bs.length then bs.getD (i - off) 0 else s.blobByte k unit i := by
  induction bs generalizing s off with
  | nil => rw [State.wrBytes, if_neg (by simp)]
  | cons b bs ih =>
    rw [State.wrBytes_cons, ih, s.blobByte_wrByte, List.length_cons]
    by_cases hi : i = off
    · subst hi
      rw [if_neg (by omega), if_pos rfl, if_pos (by omega), Nat.sub_self, List.getD_cons_zero]
    by_cases hin : off + 1 ≤ i ∧ i < off + 1 + bs.length
    · rw [if_pos hin, if_pos (by omega), show i - off = i - (off + 1) + 1 by omega, List.getD_cons_succ]
    · rw [if_neg hin, if_neg hi, if_neg (by omega)]

theorem State.wrBytes_frame (s : State) (k unit off : Nat) (bs : List Byte) : { s.wrBytes k unit off bs with pd := s.pd } = s := by
  induction bs generalizing s off with
  | nil => rfl
  | cons b bs ih => exact congrArg (fun t : State => { t with pd := s.pd }) (ih (s.wrByte k unit off b) (off + 1))

theorem State.wrBytes_store (s : State) {k unit off : Nat} {bs : List Byte} (h : off + bs.length ≤ 16777216) :
    storeFrame [k] s (s.wrBytes k unit off bs) := by
  induction bs generalizing s off with
  | nil => exact .refl _ s
  | cons b bs ih =>
    rw [List.length_cons] at h
    have hunit : off / unit < 16777216 := Nat.lt_of_le_of_lt (Nat.div_le_self off unit) (by omega)
    exact ((storeFrame.refl _ s).wr _ List.mem_cons_self hunit).trans (ih (s.wrByte k unit off b) (by omega))

/-! ### The commands' own writes -/

/-- The entries that the commands of micro-programs and of the reference units write. -/
def checkAndSlotEntries : List Nat :=
  [Pd.mpLoad, Pd.mpUnload, Pd.sfnCheckFunction, Pd.sfnCheckInput, Pd.genCheckKey, Pd.genCheckCounter]

theorem checkAndSlotEntries_not_persistent : ∀ k ∈ checkAndSlotEntries, (entryInfo k).all (fun e => !e.persistent) = true := by decide +kernel

/-- An admitted write of one of them is counted, its entry does its work, and the response follows at once. -/
theorem State.receiveOwn_checkOrSlotEntry {serve : Serve} {q : Req} {role : Role} {e : EntryInfo} (h : admitted s q role e = true)
    (hop : q.hdr.opcode = 2) (hkey : q.key ∈ checkAndSlotEntries) {t : State} {c : BitVec 16}
    (hserve : serve role e q (s.countRequest q.path) = { state := t, status := c }) : s.receiveOwn serve q = t.respond q c [] := by
  have hpersistent := checkAndSlotEntries_not_persistent q.key hkey
  rw [entryInfo_of_admitted h, Option.all_some, Bool.not_eq_true'] at hpersistent
  rw [State.receiveOwn_admitted serve h (by rw [hop]; decide) (by rw [hop]; decide), hserve,
    State.conclude_respond rfl (.inl hpersistent)]

theorem ownWrite_opcode (o : Origin) (key offset : Nat) (data : List Byte) : (ownWrite o key offset data).hdr.opcode = 2 := rfl

theorem ownWrite_offset (o : Origin) (key : Nat) {offset : Nat} (data : List Byte) (h : offset < 2 ^ 32) :
    (ownWrite o key offset data).offset = offset := Nat.mod_eq_of_lt h

/-- What is sent in answer where nothing has been sent, and the straps have not changed, since `s`. -/
theorem State.respond_out_of_kept {u : State} {keys : List Nat} (hout : u.out = s.out) (hstore : storeFrame keys s u)
    (hstraps : Pd.straps ∉ keys) (q : Req) (c : BitVec 16) (b : List Byte) : (u.respond q c b).out = s.out ++ reply s q c b := by
  rw [State.respond_out, hout, reply_congr (hstore.reg hstraps)]

/-! ### The reference units -/

/-- A write that has changed the store alone, once it is answered OK. -/
theorem State.respond_ok_of_store {u : State} {keys : List Nat} (hframe : { u with pd := s.pd } = s) (hstore : storeFrame keys s u)
    (hstraps : Pd.straps ∉ keys) (q : Req) : (u.respond q St.ok []).out = s.out ++ reply s q St.ok []
      ∧ storeFrame keys s (u.respond q St.ok []) ∧ answered q.path s (u.respond q St.ok []) := by
  have hu : u = { s with pd := u.pd } := (congrArg (fun t : State => { t with pd := u.pd }) hframe :)
  have hans : answered q.path s u := by rw [hu]; exact answered_of_pd q.path s u.pd
  have hpd : (u.respond q St.ok []).pd = u.pd := State.respond_ok_pd u q [] rfl
  have hout : u.out = s.out := (congrArg State.out hframe :)
  exact ⟨State.respond_out_of_kept hout hstore hstraps q St.ok [], hstore.trans (.of_pd hpd),
    hans.trans (State.respond_answered u q St.ok [])⟩

theorem State.keptValue_frame (s : State) (q : Req) (v : Nat) : { s.keptValue q v with pd := s.pd } = s := s.countRequest_frame q.path

theorem State.respond_ok_reg (s : State) (q : Req) (k : Nat) : (s.respond q St.ok []).reg k = s.reg k :=
  State.rd_of_pd (State.respond_ok_pd s q [] rfl) k 0

theorem serveSfnCheck_input {role : Role} {e : EntryInfo} {q : Req} (h : q.key = Pd.sfnCheckInput) :
    serveSfnCheck role e q s = { state := s.setReg q.key q.value } :=
  if_neg fun hf => absurd (h.symm.trans hf.1) (by decide)

/-- A function and its modifiers are kept where Table 10-1 has them, and refused where it does not. -/
theorem serveSfnCheck_function {role : Role} {e : EntryInfo} {q : Req} (h : q.key = Pd.sfnCheckFunction) :
    serveSfnCheck role e q s = if q.value % 256 ≤ 5 ∧ sfnModsOk (q.value % 256) (q.value / 256) = true
      then { state := s.setReg q.key q.value } else refuse s St.invalidValue := by
  unfold serveSfnCheck
  by_cases hok : q.value % 256 ≤ 5 ∧ sfnModsOk (q.value % 256) (q.value / 256) = true
  · rw [if_pos hok, if_neg (by simp [hok])]
  · have hbad : (decide (q.value % 256 ≤ 5) && sfnModsOk (q.value % 256) (q.value / 256)) = false := by
      rwa [← Bool.not_eq_true, Bool.and_eq_true, decide_eq_true_iff]
    rw [if_neg hok, hbad, if_pos ⟨h, rfl⟩]

theorem serveGenCheck_key {role : Role} {e : EntryInfo} {q : Req} (h : q.key = Pd.genCheckKey) :
    serveGenCheck role e q s = { state := s.setReg q.key q.value } := by
  rw [serveGenCheck, if_pos h, h]

theorem serveGenCheck_counter {role : Role} {e : EntryInfo} {q : Req} (h : q.key = Pd.genCheckCounter) :
    serveGenCheck role e q s = { state := s.wrBytes Pd.genCheckCounter 16 q.offset q.data } := by
  rw [serveGenCheck, if_neg (by rw [h]; decide)]

/-- The state in which a write into GEN_CHECK_COUNTER is counted and has its bytes in place, before any answer. -/
def State.keptCounter (s : State) (q : Req) : State := (s.countRequest q.path).wrBytes Pd.genCheckCounter 16 q.offset q.data

section
variable {q : Req} {role : Role} {e : EntryInfo} (h : admitted s q role e = true) (hop : q.hdr.opcode = 2)
include h hop

theorem State.receiveOwn_sfnCheck_input (hkey : q.key = Pd.sfnCheckInput) :
    s.receiveOwn serveSfnCheck q = (s.keptValue q q.value).respond q St.ok [] :=
  State.receiveOwn_checkOrSlotEntry h hop (by rw [hkey]; decide) (serveSfnCheck_input hkey)

theorem State.receiveOwn_sfnCheck_function (hkey : q.key = Pd.sfnCheckFunction)
    (hok : q.value % 256 ≤ 5 ∧ sfnModsOk (q.value % 256) (q.value / 256) = true) :
    s.receiveOwn serveSfnCheck q = (s.keptValue q q.value).respond q St.ok [] :=
  State.receiveOwn_checkOrSlotEntry h hop (by rw [hkey]; decide) ((serveSfnCheck_function hkey).trans (if_pos hok))

theorem State.receiveOwn_sfnCheck_refused (hkey : q.key = Pd.sfnCheckFunction)
    (hbad : ¬ (q.value % 256 ≤ 5 ∧ sfnModsOk (q.value % 256) (q.value / 256) = true)) :
    s.receiveOwn serveSfnCheck q = (s.countRequest q.path).respond q St.invalidValue [] :=
  State.receiveOwn_checkOrSlotEntry h hop (by rw [hkey]; decide) ((serveSfnCheck_function hkey).trans (if_neg hbad))

theorem State.receiveOwn_genCheck_key (hkey : q.key = Pd.genCheckKey) :
    s.receiveOwn serveGenCheck q = (s.keptValue q q.value).respond q St.ok [] :=
  State.receiveOwn_checkOrSlotEntry h hop (by rw [hkey]; decide) (serveGenCheck_key hkey)

theorem State.receiveOwn_genCheck_counter (hkey : q.key = Pd.genCheckCounter) :
    s.receiveOwn serveGenCheck q = (s.keptCounter q).respond q St.ok [] :=
  State.receiveOwn_checkOrSlotEntry h hop (by rw [hkey]; decide) (serveGenCheck_counter hkey)

end

/-- A value kept and answered OK. -/
theorem State.keptValue_answered_ok (s : State) {q : Req} (hkey : q.key ∈ checkAndSlotEntries) {t : State}
    (ht : t = (s.keptValue q q.value).respond q St.ok []) : t.out = s.out ++ reply s q St.ok [] ∧ t.reg q.key = q.value
      ∧ storeFrame (q.key :: requestCounters) s t ∧ answered q.path s t := by
  have hstraps : Pd.straps ∉ q.key :: requestCounters := (by decide : ∀ k ∈ checkAndSlotEntries, Pd.straps ∉ k :: requestCounters) q.key hkey
  obtain ⟨hout, hstore, hans⟩ := State.respond_ok_of_store (s.keptValue_frame q q.value) (s.keptValue_store q q.value) hstraps q
  subst ht
  exact ⟨hout, (State.respond_ok_reg _ q _).trans (s.keptValue_reg q q.value), hstore, hans⟩

theorem State.keptCounter_frame (s : State) (q : Req) : { s.keptCounter q with pd := s.pd } = s :=
  (congrArg (fun t : State => { t with pd := s.pd }) ((s.countRequest q.path).wrBytes_frame _ 16 q.offset q.data)).trans
    (s.countRequest_frame q.path)

theorem State.keptCounter_store {q : Req} (h : q.offset + q.data.length ≤ 16) :
    storeFrame (Pd.genCheckCounter :: requestCounters) s (s.keptCounter q) :=
  ((s.countRequest_store q.path).mono fun _ hk => List.mem_cons_of_mem _ hk).trans
    (((s.countRequest q.path).wrBytes_store (by omega)).mono fun _ hk => List.mem_append_left requestCounters hk)

/-- The counter's 16 bytes: those written, and for the rest what it held. -/
theorem State.keptCounter_bytes (s : State) (q : Req) :
    (s.keptCounter q).rdBytes Pd.genCheckCounter 16 0 16 = (List.range 16).map fun i =>
      if q.offset ≤ i ∧ i < q.offset + q.data.length then q.data.getD (i - q.offset) 0
      else (s.rdBytes Pd.genCheckCounter 16 0 16).getD i 0 := by
  rw [State.rdBytes_eq_map_blobByte]
  refine List.map_congr_left fun i hi => ?_
  have hi' : i < 16 := List.mem_range.mp hi
  have hheld : (s.countRequest q.path).blobByte Pd.genCheckCounter 16 i = (s.rdBytes Pd.genCheckCounter 16 0 16).getD i 0 := by
    rw [State.blobByte, s.countRequest_rd q.path (by decide) (by omega), State.rdBytes_eq_map_blobByte]
    simp [State.blobByte, List.getD, hi']
  rw [Nat.zero_add, State.keptCounter, State.blobByte_wrBytes, hheld]

theorem referenceUnitsKeepTheirInputs : Claims.ReferenceUnitsKeepTheirInputs := by
  intro s o role e
  refine ⟨fun x => ?_, fun x => ?_, fun b => ?_, fun off b => ?_⟩
  · intro q h
    have hexec : exec (.sfnCheck o true x) s = .next (s.receiveOwn serveSfnCheck q) := rfl
    have hop : q.hdr.opcode = 2 := ownWrite_opcode o _ 0 _
    have hkey : q.key = Pd.sfnCheckInput := ownWrite_key o 0 _ (by decide)
    have hvalue : q.value = x.toNat := leNat_natLE x.isLt
    clear_value q
    obtain ⟨hout, hreg, hstore, hans⟩ := s.keptValue_answered_ok (hkey ▸ by decide) (State.receiveOwn_sfnCheck_input h hop hkey)
    rw [hkey] at hreg hstore
    rw [hvalue] at hreg
    refine ⟨_, hexec, hout, hreg, ?_, hstore, hans⟩
    rw [State.sfnResult, hreg, hstore.reg (k := Pd.sfnCheckFunction) (by decide), BitVec.ofNat_toNat, BitVec.setWidth_eq]
  · intro q f h
    have hexec : exec (.sfnCheck o false x) s = .next (s.receiveOwn serveSfnCheck q) := rfl
    have hop : q.hdr.opcode = 2 := ownWrite_opcode o _ 0 _
    have hkey : q.key = Pd.sfnCheckFunction := ownWrite_key o 0 _ (by decide)
    have hvalue : q.value = f := leNat_natLE_mod 2 x.toNat
    clear_value q f
    subst hvalue
    refine ⟨_, hexec, ?_⟩
    by_cases hok : q.value % 256 ≤ 5 ∧ sfnModsOk (q.value % 256) (q.value / 256) = true
    · obtain ⟨hout, hreg, hstore, -⟩ := s.keptValue_answered_ok (hkey ▸ by decide) (State.receiveOwn_sfnCheck_function h hop hkey hok)
      rw [hkey] at hreg hstore
      refine ⟨fun _ _ => ⟨hout, hreg, hstore⟩, fun hbad => ?_⟩
      obtain ⟨hcode, hmods⟩ := hok
      rcases hbad with hbad | hbad
      · exact absurd hcode (Nat.not_le.mpr hbad)
      · exact absurd hmods (by rw [hbad]; decide)
    · rw [State.receiveOwn_sfnCheck_refused h hop hkey hok]
      refine ⟨fun h5 hmods => absurd ⟨h5, hmods⟩ hok, fun _ => ⟨?_, ?_⟩⟩
      · exact State.respond_out_of_kept (s.countRequest_out q.path) (s.countRequest_store q.path) (by decide) q _ _
      · exact (s.respond_countRequest_store q.path q _ _).reg (by decide)
  · intro q h
    have hexec : exec (.genCheck o true 0 b) s = .next (s.receiveOwn serveGenCheck q) := rfl
    have hop : q.hdr.opcode = 2 := ownWrite_opcode o _ 0 _
    have hkey : q.key = Pd.genCheckKey := ownWrite_key o 0 _ (by decide)
    have hvalue : q.value = leNat b := rfl
    clear_value q
    obtain ⟨hout, hreg, hstore, hans⟩ := s.keptValue_answered_ok (hkey ▸ by decide) (State.receiveOwn_genCheck_key h hop hkey)
    rw [hkey] at hreg hstore
    exact ⟨_, hexec, hout, hreg.trans hvalue, hstore, hans⟩
  · intro q c hlen h
    have hexec : exec (.genCheck o false off b) s = .next (s.receiveOwn serveGenCheck q) := rfl
    have hop : q.hdr.opcode = 2 := ownWrite_opcode o _ off _
    have hkey : q.key = Pd.genCheckCounter := ownWrite_key o off _ (by decide)
    have hoffset : q.offset = off := ownWrite_offset o _ b (by omega)
    have hdata : q.data = b := rfl
    have hheld := s.keptCounter_bytes q
    rw [hoffset, hdata] at hheld
    clear_value q
    obtain ⟨hout, hstore, hans⟩ :=
      State.respond_ok_of_store (s.keptCounter_frame q) (State.keptCounter_store (by rwa [hoffset, hdata])) (by decide) q
    have hbytes : ((s.keptCounter q).respond q St.ok []).rdBytes Pd.genCheckCounter 16 0 16 = (List.range 16).map c :=
      (State.rdBytes_congr fun i _ => State.rd_of_pd (State.respond_ok_pd _ q [] rfl) _ _).trans hheld
    rw [State.receiveOwn_genCheck_counter h hop hkey] at hexec
    refine ⟨_, hexec, hout, hbytes, ?_, hstore, hans⟩
    rw [State.genResult, hbytes]

/-! ### A slot of the named engines -/

/-- A slot of engine `n` set, its coefficient cache emptied. -/
def State.setEngineSlot (s : State) (slot : Nat) (m : Option MicroProgram) (n : Nat) : State :=
  { s with programs := tset none s.programs (32 * n + slot) m }.setEngine n { s.engine n with segments := [] }

theorem State.setSlot_eq_foldl (s : State) (slot : Nat) (m : Option MicroProgram) :
    s.setSlot slot m = s.namedEngines.foldl (fun s n => s.setEngineSlot slot m n) s := rfl

section
variable {slot : Nat} {m : Option MicroProgram}

theorem State.setEngineSlot_program (hslot : slot < 32) (i n : Nat) {k : Nat} (hk : k < 32) :
    (s.setEngineSlot slot m i).program n k = if n = i ∧ k = slot then m else s.program n k := by
  have hplace : 32 * n + k = 32 * i + slot ↔ n = i ∧ k = slot := by omega
  refine (tget_tset none s.programs (32 * i + slot) (32 * n + k) m).trans ?_
  simp only [hplace, State.program]

theorem State.setEngineSlot_engine (i n : Nat) :
    (s.setEngineSlot slot m i).engine n = if n = i then { s.engine n with segments := [] } else s.engine n := by
  refine (tget_tset {} s.engines i n { s.engine i with segments := [] }).trans ?_
  split
  · next h => rw [h]
  · rfl

/-- Each engine of the list has the micro-program in the slot, and every other slot what it held. -/
theorem State.foldl_setEngineSlot_program (hslot : slot < 32) (l : List Nat) (s : State) (n : Nat) {k : Nat} (hk : k < 32) :
    (l.foldl (fun s i => s.setEngineSlot slot m i) s).program n k = if n ∈ l ∧ k = slot then m else s.program n k := by
  induction l generalizing s with
  | nil => simp
  | cons i l ih =>
    rw [List.foldl_cons, ih, State.setEngineSlot_program hslot i n hk]
    by_cases hkeep : k = slot
    · by_cases hl : n ∈ l
      · rw [if_pos ⟨hl, hkeep⟩, if_pos ⟨List.mem_cons_of_mem _ hl, hkeep⟩]
      · simp [hl, hkeep]
    · simp [hkeep]

/-- Each engine of the list has an empty coefficient cache, and every other engine is as it was. -/
theorem State.foldl_setEngineSlot_engine (l : List Nat) (s : State) (n : Nat) :
    (l.foldl (fun s i => s.setEngineSlot slot m i) s).engine n = if n ∈ l then { s.engine n with segments := [] } else s.engine n := by
  induction l generalizing s with
  | nil => simp
  | cons i l ih =>
    rw [List.foldl_cons, ih, State.setEngineSlot_engine]
    by_cases hi : n = i
    · simp [hi]
    · simp [hi]

theorem State.foldl_setEngineSlot_frame (l : List Nat) (s : State) :
    { l.foldl (fun s i => s.setEngineSlot slot m i) s with programs := s.programs, engines := s.engines } = s := by
  induction l generalizing s with
  | nil => rfl
  | cons i l ih =>
    exact congrArg (fun t : State => { t with programs := s.programs, engines := s.engines }) (ih (s.setEngineSlot slot m i))

end

/-- A slot set changes the programs and the engines alone. -/
theorem State.setSlot_frame (s : State) (slot : Nat) (m : Option MicroProgram) :
    { s.setSlot slot m with programs := s.programs, engines := s.engines } = s := by
  rw [s.setSlot_eq_foldl]; exact State.foldl_setEngineSlot_frame s.namedEngines s

theorem State.setSlot_program (s : State) {slot : Nat} (hslot : slot < 32) (m : Option MicroProgram) (n : Nat) {k : Nat} (hk : k < 32) :
    (s.setSlot slot m).program n k = if n ∈ s.namedEngines ∧ k = slot then m else s.program n k := by
  rw [s.setSlot_eq_foldl, State.foldl_setEngineSlot_program hslot s.namedEngines s n hk]

theorem State.setSlot_engine (s : State) (slot : Nat) (m : Option MicroProgram) (n : Nat) :
    (s.setSlot slot m).engine n = if n ∈ s.namedEngines then { s.engine n with segments := [] } else s.engine n := by
  rw [s.setSlot_eq_foldl, State.foldl_setEngineSlot_engine]

/-! ### MP_LOAD and MP_UNLOAD -/

theorem State.namedEngines_countRequest (s : State) (p : GdpPath) : (s.countRequest p).namedEngines = s.namedEngines := by
  simp only [State.namedEngines, State.engineFenced, s.countRequest_reg p (k := Pd.mpEngines) (by decide),
    s.countRequest_reg p (k := Pd.enginesFenced) (by decide)]

theorem State.slotInUse_countRequest (s : State) (p : GdpPath) (slot : Nat) : (s.countRequest p).slotInUse slot = s.slotInUse slot := by
  rw [State.slotInUse, s.namedEngines_countRequest, s.countRequest_eq p]
  rfl

/-- The image that MP_LOAD loads. -/
def State.mpImageBytes (s : State) : Image := s.rdBytes Pd.mpImage 2048 0 2048

theorem State.mpImageBytes_countRequest (s : State) (p : GdpPath) : (s.countRequest p).mpImageBytes = s.mpImageBytes :=
  State.rdBytes_congr fun i hi => s.countRequest_rd p (by decide) (by omega)

/-- The state in which an image is loaded into a slot and measured, before any answer. -/
def State.mpLoaded (s : State) (slot : Nat) : State :=
  ((s.setSlot slot (some { image := s.mpImageBytes, bounds := clampBounds s.mpImageBytes })).setMpError St.ok 0 0).extend 5
    (shake256 (s.mpImageBytes ++ natLE 8 (s.reg Pd.mpEngines) ++ natLE 1 slot))

section
variable {role : Role} {e : EntryInfo} {q : Req} (hslot : q.value < 32)
include hslot

theorem serveMpLoad_busy (h : s.slotInUse q.value = true) : serveMpLoad role e q s = refuse s St.busy := by
  rw [serveMpLoad, if_neg (by omega), if_pos h]

theorem serveMpLoad_fault {check place : Nat} (h : s.slotInUse q.value = false) (hf : loadFault s.mpImageBytes = some (check, place)) :
    serveMpLoad role e q s = refuse (s.setMpError St.microprogramInvalid check place) St.microprogramInvalid := by
  rw [State.mpImageBytes] at hf
  rw [serveMpLoad, if_neg (by omega), if_neg (by rw [h]; decide)]
  simp only [hf]

theorem serveMpLoad_ok (h : s.slotInUse q.value = false) (hf : loadFault s.mpImageBytes = none) :
    serveMpLoad role e q s = { state := s.mpLoaded q.value } := by
  rw [State.mpImageBytes] at hf
  rw [serveMpLoad, if_neg (by omega), if_neg (by rw [h]; decide)]
  simp only [hf]
  rfl

theorem serveMpUnload_ok (h : s.slotInUse q.value = false) : serveMpUnload role e q s = { state := s.setSlot q.value none } := by
  rw [serveMpUnload, if_neg (by omega), if_neg (by rw [h]; decide)]

end

theorem State.setMpError_reg (s : State) (c : BitVec 16) (check place : Nat) : (s.setMpError c check place).reg Pd.mpLastError
    = leNat (codeBytes c ++ [BitVec.ofNat 8 check, BitVec.ofNat 8 place, 0, 0, 0, 0]) := s.reg_setReg_same _ _

section
variable {q : Req} {role : Role} {e : EntryInfo} (h : admitted s q role e = true) (hop : q.hdr.opcode = 2) (hslot : q.value < 32)
include h hop hslot

theorem State.receiveOwn_mpLoad_busy (hkey : q.key = Pd.mpLoad) (hused : s.slotInUse q.value = true) :
    s.receiveOwn serveMpLoad q = (s.countRequest q.path).respond q St.busy [] :=
  State.receiveOwn_checkOrSlotEntry h hop (by rw [hkey]; decide) (serveMpLoad_busy hslot (by rw [s.slotInUse_countRequest, hused]))

theorem State.receiveOwn_mpLoad_fault (hkey : q.key = Pd.mpLoad) (hfree : s.slotInUse q.value = false) {check place : Nat}
    (hf : loadFault s.mpImageBytes = some (check, place)) : s.receiveOwn serveMpLoad q
      = ((s.countRequest q.path).setMpError St.microprogramInvalid check place).respond q St.microprogramInvalid [] :=
  State.receiveOwn_checkOrSlotEntry h hop (by rw [hkey]; decide) (serveMpLoad_fault hslot (by rw [s.slotInUse_countRequest, hfree])
    (by rw [s.mpImageBytes_countRequest, hf]))

theorem State.receiveOwn_mpLoad_ok (hkey : q.key = Pd.mpLoad) (hfree : s.slotInUse q.value = false)
    (hf : loadFault s.mpImageBytes = none) :
    s.receiveOwn serveMpLoad q = ((s.countRequest q.path).mpLoaded q.value).respond q St.ok [] :=
  State.receiveOwn_checkOrSlotEntry h hop (by rw [hkey]; decide) (serveMpLoad_ok hslot (by rw [s.slotInUse_countRequest, hfree])
    (by rw [s.mpImageBytes_countRequest, hf]))

theorem State.receiveOwn_mpUnload_ok (hkey : q.key = Pd.mpUnload) (hfree : s.slotInUse q.value = false) :
    s.receiveOwn serveMpUnload q = ((s.countRequest q.path).setSlot q.value none).respond q St.ok [] :=
  State.receiveOwn_checkOrSlotEntry h hop (by rw [hkey]; decide) (serveMpUnload_ok hslot (by rw [s.slotInUse_countRequest, hfree]))

end

/-- What the programs and the engines hold once a slot is set, in any state with the programs and engines of that one. -/
theorem State.slotSet_of_setSlot {t : State} {p : GdpPath} {slot : Nat} {m : Option MicroProgram} (hslot : slot < 32)
    (hprograms : t.programs = ((s.countRequest p).setSlot slot m).programs)
    (hengines : t.engines = ((s.countRequest p).setSlot slot m).engines) :
    (∀ n ∈ s.namedEngines, t.program n slot = m ∧ t.engine n = { s.engine n with segments := [] })
      ∧ ∀ k n, (n ∉ s.namedEngines ∨ k ≠ slot) → k < 32 → t.program n k = s.program n k := by
  have hprogram : ∀ n k, k < 32 → t.program n k = if n ∈ s.namedEngines ∧ k = slot then m else s.program n k := fun n k hk => by
    rw [← s.namedEngines_countRequest p, State.program, hprograms]
    refine ((s.countRequest p).setSlot_program hslot m n hk).trans ?_
    rw [s.countRequest_eq p, State.program, State.program]
  refine ⟨fun n hn => ⟨(hprogram n slot hslot).trans (if_pos ⟨hn, rfl⟩), ?_⟩, fun k n hout hk => ?_⟩
  · rw [← s.namedEngines_countRequest p] at hn
    rw [State.engine, hengines]
    refine (((s.countRequest p).setSlot_engine slot m n).trans (if_pos hn)).trans ?_
    rw [s.countRequest_eq p]; rfl
  · exact (hprogram n k hk).trans (if_neg (by tauto))

/-- A load changes the store, the programs, the engines and the measurements alone. -/
theorem State.mpLoaded_frame (s : State) (slot : Nat) :
    { s.mpLoaded slot with pd := s.pd, programs := s.programs, engines := s.engines, security := s.security } = s :=
  congrArg (fun t : State => { t with pd := s.pd, security := s.security })
    (s.setSlot_frame slot (some { image := s.mpImageBytes, bounds := clampBounds s.mpImageBytes }))

theorem State.mpLoaded_store (s : State) (slot : Nat) : storeFrame [Pd.mpLastError] s (s.mpLoaded slot) := by
  have hset : storeFrame [Pd.mpLastError] s (s.setSlot slot (some { image := s.mpImageBytes, bounds := clampBounds s.mpImageBytes })) :=
    .of_pd (congrArg State.pd (s.setSlot_frame slot _) :)
  exact (hset.setReg (leNat (codeBytes St.ok ++ [BitVec.ofNat 8 0, BitVec.ofNat 8 0, 0, 0, 0, 0])) List.mem_cons_self).trans (.of_pd rfl)

/-- A load that succeeds clears MP_LAST_ERROR. -/
theorem State.mpLoaded_mpLastError (s : State) (slot : Nat) : (s.mpLoaded slot).reg Pd.mpLastError = 0 := by
  have hzero : leNat (codeBytes St.ok ++ [BitVec.ofNat 8 0, BitVec.ofNat 8 0, 0, 0, 0, 0]) = 0 := by decide
  exact (State.rd_of_pd rfl Pd.mpLastError 0).trans ((State.setMpError_reg _ St.ok 0 0).trans hzero)

/-- What an extension leaves in the registers depends on the registers alone. -/
theorem State.extend_measure_congr {t : State} (h : t.security = s.security) (i digest : Nat) :
    (t.extend i digest).security.measure = (s.extend i digest).security.measure := by
  rw [State.extend, State.extend, h]

/-- What a load measures is what it finds before the request is counted. -/
theorem State.mpLoaded_measure (s : State) (p : GdpPath) (slot : Nat) : ((s.countRequest p).mpLoaded slot).security.measure
    = (s.extend 5 (shake256 (s.mpImageBytes ++ natLE 8 (s.reg Pd.mpEngines) ++ natLE 1 slot))).security.measure := by
  have hset := (s.countRequest p).setSlot_frame slot (some { image := s.mpImageBytes, bounds := clampBounds s.mpImageBytes })
  rw [State.mpLoaded, s.mpImageBytes_countRequest, s.countRequest_reg p (k := Pd.mpEngines) (by decide)]
  exact State.extend_measure_congr ((congrArg State.security hset :).trans (congrArg State.security (s.countRequest_frame p) :)) 5 _

/-- An answer after the count, and the store's entries changed in between, touches neither programs nor engines nor measurements. -/
theorem State.respond_after_store {u : State} (h : { u with pd := s.pd } = s) (q : Req) (c : BitVec 16) :
    (u.respond q c []).programs = s.programs ∧ (u.respond q c []).engines = s.engines ∧ (u.respond q c []).security = s.security := by
  have hframe := u.respond_frame q c []
  exact ⟨((congrArg State.programs hframe :).trans (congrArg State.programs h :)), ((congrArg State.engines hframe :).trans
    (congrArg State.engines h :)), ((congrArg State.security hframe :).trans (congrArg State.security h :))⟩

/-- An image that fails a check: recorded and refused. -/
theorem State.mpFault_answered {q : Req} {check place : Nat} {t : State}
    (ht : t = ((s.countRequest q.path).setMpError St.microprogramInvalid check place).respond q St.microprogramInvalid []) :
    t.out = s.out ++ reply s q St.microprogramInvalid [] ∧ t.programs = s.programs ∧ t.engines = s.engines ∧ t.security = s.security
      ∧ t.reg Pd.mpLastError
          = leNat (codeBytes St.microprogramInvalid ++ [BitVec.ofNat 8 check, BitVec.ofNat 8 place, 0, 0, 0, 0]) := by
  have hrecorded : { (s.countRequest q.path).setMpError St.microprogramInvalid check place with pd := s.pd } = s :=
    s.countRequest_frame q.path
  have hstore : storeFrame (Pd.mpLastError :: requestCounters) s ((s.countRequest q.path).setMpError St.microprogramInvalid check place) :=
    ((s.countRequest_store q.path).mono fun _ hk => List.mem_cons_of_mem _ hk).setReg _ List.mem_cons_self
  have herror := (s.countRequest q.path).setMpError_reg St.microprogramInvalid check place
  generalize (s.countRequest q.path).setMpError St.microprogramInvalid check place = u at *
  obtain ⟨hprograms, hengines, hsecurity⟩ := State.respond_after_store hrecorded q St.microprogramInvalid
  have hkept : (u.respond q St.microprogramInvalid []).reg Pd.mpLastError = u.reg Pd.mpLastError :=
    (u.respond_store q St.microprogramInvalid []).reg (by decide)
  have hout : u.out = s.out := (congrArg State.out hrecorded :)
  subst ht
  exact ⟨State.respond_out_of_kept hout hstore (by decide) q St.microprogramInvalid [], hprograms, hengines, hsecurity, hkept.trans herror⟩

/-- A load into a free slot, of an image that passes every check. -/
theorem State.mpLoaded_answered {q : Req} {t : State} (hslot : q.value < 32)
    (ht : t = ((s.countRequest q.path).mpLoaded q.value).respond q St.ok []) :
    t.out = s.out ++ reply s q St.ok []
      ∧ (∀ n ∈ s.namedEngines, t.program n q.value = some { image := s.mpImageBytes, bounds := clampBounds s.mpImageBytes }
          ∧ t.engine n = { s.engine n with segments := [] })
      ∧ (∀ k n, (n ∉ s.namedEngines ∨ k ≠ q.value) → k < 32 → t.program n k = s.program n k)
      ∧ t.reg Pd.mpLastError = 0
      ∧ t.security.measure
          = (s.extend 5 (shake256 (s.mpImageBytes ++ natLE 8 (s.reg Pd.mpEngines) ++ natLE 1 q.value))).security.measure
      ∧ storeFrame (Pd.mpLastError :: requestCounters) s t ∧ t.mem = s.mem := by
  have hloaded := (s.countRequest q.path).mpLoaded_frame q.value
  have hcount := s.countRequest_frame q.path
  have hstore : storeFrame (Pd.mpLastError :: requestCounters) s ((s.countRequest q.path).mpLoaded q.value) :=
    ((s.countRequest_store q.path).mono fun _ hk => List.mem_cons_of_mem _ hk).trans
      (((s.countRequest q.path).mpLoaded_store q.value).mono fun _ hk => List.mem_append_left requestCounters hk)
  have hout : ((s.countRequest q.path).mpLoaded q.value).out = s.out :=
    (congrArg State.out hloaded :).trans (congrArg State.out hcount :)
  have hmem : ((s.countRequest q.path).mpLoaded q.value).mem = s.mem :=
    (congrArg State.mem hloaded :).trans (congrArg State.mem hcount :)
  have hprograms : ((s.countRequest q.path).mpLoaded q.value).programs = ((s.countRequest q.path).setSlot q.value
      (some { image := s.mpImageBytes, bounds := clampBounds s.mpImageBytes })).programs := by
    rw [← s.mpImageBytes_countRequest q.path]; rfl
  have hengines : ((s.countRequest q.path).mpLoaded q.value).engines = ((s.countRequest q.path).setSlot q.value
      (some { image := s.mpImageBytes, bounds := clampBounds s.mpImageBytes })).engines := by
    rw [← s.mpImageBytes_countRequest q.path]; rfl
  have hmeasure := s.mpLoaded_measure q.path q.value
  have herror := (s.countRequest q.path).mpLoaded_mpLastError q.value
  generalize (s.countRequest q.path).mpLoaded q.value = u at *
  have hframe := u.respond_frame q St.ok []
  have hpd : (u.respond q St.ok []).pd = u.pd := State.respond_ok_pd u q [] rfl
  subst ht
  obtain ⟨hnamed, hothers⟩ := State.slotSet_of_setSlot (t := u.respond q St.ok []) hslot ((congrArg State.programs hframe :).trans hprograms)
    ((congrArg State.engines hframe :).trans hengines)
  exact ⟨State.respond_out_of_kept hout hstore (by decide) q St.ok [], hnamed, hothers, (State.rd_of_pd hpd _ _).trans herror,
    (congrArg (fun t : State => t.security.measure) hframe :).trans hmeasure, hstore.trans (.of_pd hpd), (congrArg State.mem hframe :).trans hmem⟩

/-- A slot that is not in use, emptied. -/
theorem State.mpUnloaded_answered {q : Req} {t : State} (hslot : q.value < 32)
    (ht : t = ((s.countRequest q.path).setSlot q.value none).respond q St.ok []) :
    t.out = s.out ++ reply s q St.ok []
      ∧ (∀ n ∈ s.namedEngines, t.program n q.value = none ∧ t.engine n = { s.engine n with segments := [] })
      ∧ (∀ k n, (n ∉ s.namedEngines ∨ k ≠ q.value) → k < 32 → t.program n k = s.program n k)
      ∧ storeFrame requestCounters s t ∧ t.security = s.security ∧ t.mem = s.mem := by
  have hset := (s.countRequest q.path).setSlot_frame q.value none
  have hcount := s.countRequest_frame q.path
  have hslotSet := fun (t : State) => State.slotSet_of_setSlot (s := s) (t := t) (p := q.path) (m := none) hslot
  have hstore : storeFrame requestCounters s ((s.countRequest q.path).setSlot q.value none) :=
    (s.countRequest_store q.path).trans (.of_pd (congrArg State.pd hset :))
  have hout : ((s.countRequest q.path).setSlot q.value none).out = s.out := (congrArg State.out hset :).trans (congrArg State.out hcount :)
  have hsecurity : ((s.countRequest q.path).setSlot q.value none).security = s.security :=
    (congrArg State.security hset :).trans (congrArg State.security hcount :)
  have hmem : ((s.countRequest q.path).setSlot q.value none).mem = s.mem := (congrArg State.mem hset :).trans (congrArg State.mem hcount :)
  generalize (s.countRequest q.path).setSlot q.value none = u at *
  have hframe := u.respond_frame q St.ok []
  have hpd : (u.respond q St.ok []).pd = u.pd := State.respond_ok_pd u q [] rfl
  subst ht
  obtain ⟨hnamed, hothers⟩ := hslotSet _ (congrArg State.programs hframe :) (congrArg State.engines hframe :)
  exact ⟨State.respond_out_of_kept hout hstore (by decide) q St.ok [], hnamed, hothers, hstore.trans (.of_pd hpd),
    (congrArg State.security hframe :).trans hsecurity, (congrArg State.mem hframe :).trans hmem⟩

theorem microProgramsLoadAndUnload : Claims.MicroProgramsLoadAndUnload := by
  intro s o slot role e hslot load unload image others
  refine ⟨fun h => ?_, fun h hfree => ?_⟩
  · have hexec : exec (.mpLoad o slot) s = .next (s.receiveOwn serveMpLoad load) := rfl
    have hop : load.hdr.opcode = 2 := ownWrite_opcode o _ 0 _
    have hkey : load.key = Pd.mpLoad := ownWrite_key o 0 _ (by decide)
    have hvalue : load.value = slot.toNat := leNat_natLE slot.isLt
    have hslot' : load.value < 32 := hvalue ▸ hslot
    clear_value load
    refine ⟨fun hused => ?_, fun check place hfree hf => ?_, fun hfree hf => ?_⟩
    · rw [State.receiveOwn_mpLoad_busy h hop hslot' hkey (hvalue ▸ hused)] at hexec
      have hout := State.respond_out_of_kept (s.countRequest_out load.path) (s.countRequest_store load.path) (by decide) load St.busy []
      exact ⟨_, hexec, hout, State.respond_after_store (s.countRequest_frame load.path) load St.busy⟩
    · exact ⟨_, hexec, State.mpFault_answered (State.receiveOwn_mpLoad_fault h hop hslot' hkey (hvalue ▸ hfree) hf)⟩
    · obtain ⟨hout, hnamed, hothers, herror, hmeasure, hstore, hmem⟩ :=
        State.mpLoaded_answered hslot' (State.receiveOwn_mpLoad_ok h hop hslot' hkey (hvalue ▸ hfree) hf)
      rw [hvalue] at hnamed hothers hmeasure
      refine ⟨_, hexec, hout, fun n hn => ?_, hothers, herror, hmeasure, hstore, hmem⟩
      obtain ⟨hprogram, hengine⟩ := hnamed n hn
      exact ⟨hprogram, by rw [hengine], by rw [hengine]⟩
  · have hexec : exec (.mpUnload o slot) s = .next (s.receiveOwn serveMpUnload unload) := rfl
    have hop : unload.hdr.opcode = 2 := ownWrite_opcode o _ 0 _
    have hkey : unload.key = Pd.mpUnload := ownWrite_key o 0 _ (by decide)
    have hvalue : unload.value = slot.toNat := leNat_natLE slot.isLt
    have hslot' : unload.value < 32 := hvalue ▸ hslot
    clear_value unload
    obtain ⟨hout, hnamed, hothers, hstore, hsecurity, hmem⟩ :=
      State.mpUnloaded_answered hslot' (State.receiveOwn_mpUnload_ok h hop hslot' hkey (hvalue ▸ hfree))
    rw [hvalue] at hnamed hothers
    refine ⟨_, hexec, hout, fun n hn => ?_, hothers, hstore, hsecurity, hmem⟩
    obtain ⟨hprogram, hengine⟩ := hnamed n hn
    exact ⟨hprogram, by rw [hengine]⟩

end Sys2Proof.Machine

open Sys2Proof Sys2Proof.Machine

/-- Settles O35: MP_LOAD and MP_UNLOAD by their answers and by what a slot set leaves, the reference units by the value or the bytes that an
admitted write keeps. -/
theorem microProgramsAndReferences : Obligations.MicroProgramsAndReferences := by
  unfold Obligations.MicroProgramsAndReferences
  exact ⟨microProgramsLoadAndUnload, referenceUnitsKeepTheirInputs⟩
end

section
/-!
PROOFS. Sync counters whose line the host does not hold (spec/11 R302 to R307): what a state word replaced leaves, the sticky flags, and the
statement `CounterValuesSaturate` assembled from them.
-/
namespace Sys2Proof.Machine

/-! ### Mirrors told of a change (spec/04 R105) -/

/-- Mirrors have been told: the host link, what is sent, the Causeway and MIRROR_COALESCED may differ, and nothing else. -/
def mirrorsTold (s t : State) : Prop :=
  { t with pd := s.pd, host := s.host, out := s.out, causeway := s.causeway } = s ∧ storeFrame [Pd.mirrorCoalesced] s t

theorem mirrorsTold.refl (s : State) : mirrorsTold s s := ⟨rfl, .refl _ s⟩

theorem mirrorsTold.trans {s t u : State} (h : mirrorsTold s t) (h' : mirrorsTold t u) : mirrorsTold s u := by
  obtain ⟨hst, hstore⟩ := h
  obtain ⟨htu, hstore'⟩ := h'
  have := congrArg (fun x : State => { x with pd := s.pd, host := s.host, out := s.out, causeway := s.causeway }) htu
  exact ⟨this.trans hst, hstore.trans hstore'⟩

theorem mirrorsTold.foldl {α : Type} {f : State → α → State} (hf : ∀ s a, mirrorsTold s (f s a)) (l : List α) (s : State) :
    mirrorsTold s (l.foldl f s) := by
  induction l generalizing s with
  | nil => exact .refl s
  | cons a l ih => exact (hf s a).trans (ih (f s a))

theorem State.setMirror_told (s : State) (i : Nat) (m : MirrorState) : mirrorsTold s (s.setMirror i m) := ⟨rfl, .of_pd rfl⟩

/-- A transfer begun changes nothing but the Causeway's state. -/
theorem State.sendTransfer_causewayOnly (s : State) (d : Nat) (purpose : TransferFor) (ks : List Packet) :
    causewayOnly s (s.sendTransfer d purpose ks).1 := by
  unfold State.sendTransfer
  split
  · exact .refl s
  · exact s.queueTransfer_causewayOnly d purpose ks

theorem mirrorsTold.of_causeway {s t : State} (h : causewayOnly s t) : mirrorsTold s t := by
  rw [h.eq]
  exact ⟨rfl, .of_pd rfl⟩

theorem State.writeMirror_told (s : State) (i : Nat) : mirrorsTold s (s.writeMirror i) := by
  unfold State.writeMirror
  dsimp only
  split
  · exact ⟨rfl, .of_pd rfl⟩
  · split
    · exact (mirrorsTold.of_causeway (s.sendTransfer_causewayOnly _ _ _)).trans (State.setMirror_told _ i _)
    · exact s.setMirror_told i _

theorem State.tryMirror_told (s : State) (i : Nat) : mirrorsTold s (s.tryMirror i) := by
  unfold State.tryMirror
  dsimp only
  split
  · exact s.setMirror_told i _
  · split
    · exact s.setMirror_told i _
    · exact s.writeMirror_told i

theorem State.mirrorChange_told (s : State) (c : Nat) (reached : Bool) : mirrorsTold s (s.mirrorChange c reached) := by
  refine mirrorsTold.foldl (fun s e => ?_) _ s
  dsimp only
  split
  · exact mirrorsTold.trans ⟨s.bump_frame _ _, s.bump_store _ _⟩ (State.setMirror_told _ _ _)
  · exact s.tryMirror_told _

/-- Where no mirror is enabled there is none to tell. -/
theorem State.mirrorChange_of_disabled {s : State} (hwf : Tab.wf 0 s.pd = true)
    (hoff : ∀ i, i < 16777216 → mirrorEnabled (s.rd Pd.mirrorTable i) = false) (c : Nat) (reached : Bool) : s.mirrorChange c reached = s := by
  unfold State.mirrorChange
  rw [List.filter_eq_nil_iff.mpr, List.foldl_nil]
  intro e he hkept
  simp only [Bool.and_eq_true, beq_iff_eq] at hkept
  obtain ⟨⟨⟨hkey, henabled⟩, -⟩, -⟩ := hkept
  have hplace : pdKey Pd.mirrorTable (e.1 % 16777216) = e.1 := by
    unfold pdKey
    rw [← hkey]
    omega
  have hread : s.rd Pd.mirrorTable (e.1 % 16777216) = e.2 := by
    rw [State.rd, hplace]
    exact tget_of_mem 0 ((wf_iff 0 s.pd).mp hwf).1 he
  have hdisabled := hoff (e.1 % 16777216) (Nat.mod_lt _ (by decide))
  rw [hread, henabled] at hdisabled
  exact absurd hdisabled (by decide)

/-! ### A state word replaced -/

section
variable {s : State} {c : Nat}

theorem State.askBack_of_free (hheld : s.ctrHeld c = false) : s.askBack (counterLine c) = s :=
  if_neg (by rw [show s.host.filter.contains (counterLine c) = false from hheld, Bool.false_and]; decide)

/-- Counter c's word stored, and the sequencers told. -/
def State.wordStored (s : State) (c w : Nat) : State := (s.wr Pd.counterState c w).reportCounter c

theorem State.setCounter_of_free (hheld : s.ctrHeld c = false) (w : Nat) (reached : Bool) : s.setCounter c w reached
    = if w = s.ctr c then s else if (s.wordStored c w).ctrFenced c then s.wordStored c w
      else (s.wordStored c w).mirrorChange c reached := by
  have hfree : (s.wr Pd.counterState c w).askBack (counterLine c) = s.wr Pd.counterState c w :=
    State.askBack_of_free (s := s.wr Pd.counterState c w) hheld
  unfold State.setCounter
  rw [hfree]
  rfl

/-- What a state word replaced leaves of the state: sequencers and mirrors hear of it. -/
def counterReplaced (s t : State) : Prop :=
  { t with pd := s.pd, heads := s.heads, spec := s.spec, host := s.host, out := s.out, causeway := s.causeway } = s

/-- A counter's word replaced: it reads as written, every other counter keeps its own, and only the counters and MIRROR_COALESCED change
in the store. -/
theorem State.setCounter_spec (hheld : s.ctrHeld c = false) (hc : c < 16777216) (w : Nat) (reached : Bool) :
    let t := s.setCounter c w reached
    t.ctr c = w ∧ (∀ d, d ≠ c → d < 16777216 → t.ctr d = s.ctr d) ∧ storeFrame [Pd.counterState, Pd.mirrorCoalesced] s t
      ∧ counterReplaced s t := by
  intro t
  have hstored : storeFrame [Pd.counterState, Pd.mirrorCoalesced] s (s.wordStored c w) := (storeFrame.refl _ s).wr w (by decide) hc
  have hother : ∀ d, d ≠ c → (s.wordStored c w).ctr d = s.ctr d := fun d hd => (s.rd_wr _ _ _ _ _).trans (if_neg (pdKey_inj.not.mpr hd))
  have hword : (s.wordStored c w).ctr c = w := s.rd_wr_same _ _ _
  have ht : t = s.setCounter c w reached := rfl
  clear_value t
  rw [State.setCounter_of_free hheld] at ht
  split at ht
  · next hsame => rw [ht]; exact ⟨hsame.symm, fun _ _ _ => rfl, .refl _ s, rfl⟩
  split at ht
  · rw [ht]; exact ⟨hword, fun d hd _ => hother d hd, hstored, rfl⟩
  · obtain ⟨hframe, htold⟩ := (s.wordStored c w).mirrorChange_told c reached
    rw [← ht] at hframe htold
    have hctr : ∀ d, d < 16777216 → t.ctr d = (s.wordStored c w).ctr d := fun d hd => htold _ d (by decide) hd
    refine ⟨(hctr c hc).trans hword, fun d hd hlt => (hctr d hlt).trans (hother d hd), hstored.trans (htold.mono (by decide)), ?_⟩
    exact congrArg (fun u : State => { u with pd := s.pd, heads := s.heads, spec := s.spec }) hframe

/-- Where no mirror is enabled nothing but the word itself changes, and what the sequencers keep. -/
theorem State.setCounter_quiet (hheld : s.ctrHeld c = false) (hc : c < 16777216) (hwf : Tab.wf 0 s.pd = true)
    (hoff : ∀ i, i < 16777216 → mirrorEnabled (s.rd Pd.mirrorTable i) = false) (w : Nat) (reached : Bool) :
    storeFrame [Pd.counterState] s (s.setCounter c w reached)
      ∧ { s.setCounter c w reached with pd := s.pd, heads := s.heads, spec := s.spec } = s := by
  have hstored : storeFrame [Pd.counterState] s (s.wordStored c w) := (storeFrame.refl _ s).wr w (by decide) hc
  have hquiet : (s.wordStored c w).mirrorChange c reached = s.wordStored c w :=
    State.mirrorChange_of_disabled (wf_tset _ w hwf) (fun i hi => by rw [hstored _ i (by decide) hi]; exact hoff i hi) c reached
  rw [State.setCounter_of_free hheld, hquiet, ite_self]
  split
  · exact ⟨.refl _ s, rfl⟩
  · exact ⟨hstored, rfl⟩

/-- A word replaced is within `counterFrame`. -/
theorem State.setCounter_counterFrame (hheld : s.ctrHeld c = false) (hc : c < 131072) (w : Nat) (reached : Bool) (keys : List Nat) :
    counterFrame keys c s (s.setCounter c w reached) := by
  have hlt : c < 16777216 := by omega
  obtain ⟨-, hother, -, hframe⟩ := State.setCounter_spec hheld hlt w reached
  refine ⟨fun d hd hd' => hother d hd (by omega), (congrArg State.mem hframe :), fun htables hoff => ?_⟩
  obtain ⟨hstore, hquiet⟩ := State.setCounter_quiet hheld hlt htables.2 hoff w reached
  exact ⟨hstore.mono (by simp), congrArg (fun u : State => { u with strand := s.strand, refusedCtr := s.refusedCtr }) hquiet⟩

end

/-! ### Sticky flags (R304) -/

/-- The flag of counter c in a register of flags. -/
def State.flag (s : State) (key c : Nat) : Bool := (s.rd key (c / 8)).testBit (c % 8)

/-- A bit added to a number that lacks it. -/
theorem testBit_add_two_pow_of_clear {b i : Nat} (h : b.testBit i = false) (j : Nat) :
    (b + 2 ^ i).testBit j = (b.testBit j || decide (i = j)) := by
  have hbit : (b >>> i) % 2 ^ 1 = 0 := by
    rw [Nat.testBit_eq_decide_div_mod_eq, decide_eq_false_iff_not] at h
    rw [Nat.shiftRight_eq_div_pow]
    omega
  have hset : b + 2 ^ i = setBits b i 1 1 := by
    rw [setBits, hbit, Nat.zero_shiftLeft, Nat.shiftLeft_eq]
    omega
  rw [hset, testBit_setBits]
  by_cases hj : i = j
  · rw [if_pos (by omega), decide_eq_true hj, Bool.or_true, hj, Nat.sub_self]
    rfl
  · rw [if_neg (by omega), decide_eq_false hj, Bool.or_false]

theorem State.record_rd (s : State) (g : Nat) (code : BitVec 16) (uk un : Nat) (d : List Byte) {key u : Nat} (hk : key ≠ Pd.overruns)
    (hu : u < 16777216) : (s.record g code uk un d).rd key u = s.rd key u := s.record_store g code uk un d key u (by simpa using hk) hu

/-- A sticky flag set stays set, every other flag stays as it is, and the first time an occurrence joins the recorder. -/
theorem State.stickyFlag_spec (s : State) {key : Nat} (hk : key ≠ Pd.overruns) (code : BitVec 16) (src : CtrSource) {c : Nat}
    (hc : c < 131072) (op : CtrOp) :
    let u := s.stickyFlag key code src c op
    u.flag key c = true ∧ (∀ d, d ≠ c → d < 131072 → u.flag key d = s.flag key d)
      ∧ (s.strand.queue.length < 256 → u.strand.queue = s.strand.queue ++
          if s.flag key c then [] else [occurrence s 0x05 code 7 c (refusedRecord src c op 0 code)])
      ∧ storeFrame [key, Pd.overruns] s u ∧ { u with pd := s.pd, strand := s.strand } = s := by
  intro u
  have hu : u = s.stickyFlag key code src c op := rfl
  unfold State.stickyFlag at hu
  dsimp only at hu
  split at hu
  · next hset =>
    have hset : s.flag key c = true := hset
    rw [hu, hset]
    exact ⟨rfl, fun _ _ _ => rfl, fun _ => (List.append_nil _).symm, .refl _ s, rfl⟩
  · next hclear =>
    rw [Bool.not_eq_true] at hclear
    have hplace : c / 8 < 16777216 := by omega
    have hread : ∀ d, d < 131072 → u.flag key d = (s.flag key d || decide (d = c)) := by
      intro d hd
      rw [hu, State.flag, State.record_rd _ _ _ _ _ _ hk (by omega), State.rd_wr]
      by_cases hbyte : d / 8 = c / 8
      · rw [if_pos (by rw [hbyte]), testBit_add_two_pow_of_clear hclear, State.flag, hbyte]
        congr 1
        exact decide_eq_decide.mpr (by omega)
      · rw [if_neg (pdKey_inj.not.mpr hbyte), decide_eq_false (fun h => hbyte (by rw [h])), Bool.or_false, State.flag]
    have hclear : s.flag key c = false := hclear
    refine ⟨?_, fun d hd hlt => ?_, fun hroom => ?_, ?_, ?_⟩
    · rw [hread c hc, decide_eq_true rfl, Bool.or_true]
    · rw [hread d hlt, decide_eq_false hd, Bool.or_false]
    · rw [hclear, hu, State.record_queue (s.wr key _ _) _ _ _ _ _ hroom]
      rfl
    · rw [hu]
      exact ((storeFrame.refl _ s).wr _ (by simp) hplace).trans ((State.record_store _ _ _ _ _ _).mono (by simp))
    · rw [hu]
      exact congrArg (fun v : State => { v with pd := s.pd, strand := s.strand }) (State.record_frame _ _ _ _ _ _)

/-! ### An operation that may saturate -/

/-- Counter c's value replaced, with the operation's sticky flag set where it has saturated. -/
def State.valueChanged (s : State) (src : CtrSource) (c v key : Nat) (sat : Bool) (code : BitVec 16) (op : CtrOp) : State :=
  if sat then (s.setValue c v).stickyFlag key code src c op else s.setValue c v

section
variable {s : State} {src : CtrSource} {c : Nat}

theorem State.valueChanged_exact (v key : Nat) (code : BitVec 16) (op : CtrOp) :
    s.valueChanged src c v key false code op = s.setValue c v := if_neg (by decide)

theorem State.valueChanged_saturated (v key : Nat) (code : BitVec 16) (op : CtrOp) :
    s.valueChanged src c v key true code op = (s.setValue c v).stickyFlag key code src c op := if_pos rfl

/-- A value replaced: the counter's word has it, and what else changes is the counter's own. -/
theorem State.setValue_spec (hheld : s.ctrHeld c = false) (hc : c < 131072) (v : Nat) :
    (s.setValue c v).ctr c = withValue (s.ctr c) v ∧ storeFrame [Pd.counterState, Pd.mirrorCoalesced] s (s.setValue c v)
      ∧ counterReplaced s (s.setValue c v) ∧ ∀ keys, counterFrame keys c s (s.setValue c v) := by
  obtain ⟨hword, -, hstore, hreplaced⟩ :=
    State.setCounter_spec hheld (show c < 16777216 by omega) (withValue (s.ctr c) v) (Machine.reaches (s.ctr c) v)
  exact ⟨hword, hstore, hreplaced, State.setCounter_counterFrame hheld hc _ _⟩

theorem counterReplaced.strand {t : State} (h : counterReplaced s t) : t.strand = s.strand := (congrArg State.strand h :)

theorem counterReplaced.time {t : State} (h : counterReplaced s t) : t.time = s.time := (congrArg State.time h :)

/-- The sticky flags after an operation on counter c, and the occurrence of one that has just been set. -/
def flagsAfter (s : State) (src : CtrSource) (c : Nat) (u : State) (key : Nat) (sat : Bool) (code : BitVec 16) (op : CtrOp) : Prop :=
  u.flag key c = (s.flag key c || sat) ∧ (∀ d, d ≠ c → d < 131072 → u.flag key d = s.flag key d)
    ∧ (s.strand.queue.length < 256 → u.strand.queue = s.strand.queue ++
        if sat && !s.flag key c then [occurrence s 0x05 code 7 c (refusedRecord src c op 0 code)] else [])

/-- The entries of sticky flags: none of what a counter's change writes besides. -/
def flagKeys : List Nat := [Pd.saturatedFlags, Pd.underflowFlags]

theorem flagKeys_apart {key : Nat} (hk : key ∈ flagKeys) :
    key ≠ Pd.overruns ∧ Pd.counterState ∉ [key, Pd.overruns] ∧ key ∉ [Pd.counterState, Pd.mirrorCoalesced] := by
  simp only [flagKeys, List.mem_cons, List.not_mem_nil, or_false] at hk
  rcases hk with rfl | rfl <;> decide

theorem State.setValue_flag (hheld : s.ctrHeld c = false) (hc : c < 131072) (v : Nat) {key : Nat} (hk : key ∈ flagKeys) {d : Nat}
    (hd : d < 131072) : (s.setValue c v).flag key d = s.flag key d := by
  obtain ⟨-, hstore, -, -⟩ := State.setValue_spec hheld hc v
  obtain ⟨-, -, hkey⟩ := flagKeys_apart hk
  rw [State.flag, State.flag, hstore key (d / 8) hkey (by omega)]

theorem State.valueChanged_ctr (hc : c < 131072) (v : Nat) {key : Nat} (hk : key ∈ flagKeys) (sat : Bool)
    (code : BitVec 16) (op : CtrOp) {d : Nat} (hd : d < 131072) :
    (s.valueChanged src c v key sat code op).ctr d = (s.setValue c v).ctr d := by
  obtain ⟨hover, hcounter, -⟩ := flagKeys_apart hk
  cases sat with
  | false => rw [State.valueChanged_exact]
  | true =>
    rw [State.valueChanged_saturated]
    obtain ⟨-, -, -, hsticky, -⟩ := (s.setValue c v).stickyFlag_spec hover code src hc op
    exact hsticky _ d hcounter (by omega)

theorem State.valueChanged_flags (hheld : s.ctrHeld c = false) (hc : c < 131072) (v : Nat) {key : Nat} (hk : key ∈ flagKeys) (sat : Bool)
    (code : BitVec 16) (op : CtrOp) : flagsAfter s src c (s.valueChanged src c v key sat code op) key sat code op := by
  obtain ⟨-, -, hreplaced, -⟩ := State.setValue_spec hheld hc v
  obtain ⟨hover, -, -⟩ := flagKeys_apart hk
  have hflag : ∀ d, d < 131072 → (s.setValue c v).flag key d = s.flag key d := fun d hd => State.setValue_flag hheld hc v hk hd
  cases sat with
  | false =>
    rw [State.valueChanged_exact]
    refine ⟨?_, fun d _ hd => hflag d hd, fun _ => ?_⟩
    · rw [Bool.or_false]; exact hflag c hc
    · rw [Bool.false_and, if_neg (by decide), List.append_nil]
      exact congrArg Strand.queue hreplaced.strand
  | true =>
    rw [State.valueChanged_saturated]
    obtain ⟨hset, hkept, hqueue, -, -⟩ := (s.setValue c v).stickyFlag_spec hover code src hc op
    refine ⟨?_, fun d hd hlt => (hkept d hd hlt).trans (hflag d hlt), fun hroom => ?_⟩
    · rw [Bool.or_true]; exact hset
    · rw [hreplaced.strand, hflag c hc, occurrence, hreplaced.time] at hqueue
      refine (hqueue hroom).trans (congrArg _ ?_)
      cases s.flag key c <;> rfl

theorem State.valueChanged_counterFrame (hheld : s.ctrHeld c = false) (hc : c < 131072) (v : Nat) {key : Nat} (hk : key ∈ flagKeys) (sat : Bool)
    (code : BitVec 16) (op : CtrOp) : counterFrame [key, Pd.overruns] c s (s.valueChanged src c v key sat code op) := by
  obtain ⟨-, -, -, hframe⟩ := State.setValue_spec hheld hc v
  obtain ⟨hover, -, -⟩ := flagKeys_apart hk
  cases sat with
  | false =>
    rw [State.valueChanged_exact]
    exact hframe _
  | true =>
    have hctr := fun d hd => State.valueChanged_ctr (s := s) (src := src) hc v hk true code op (d := d) hd
    rw [State.valueChanged_saturated] at hctr ⊢
    obtain ⟨hothers, hmem, hquiet⟩ := hframe [key, Pd.overruns]
    obtain ⟨-, -, -, hsticky, hrest⟩ := (s.setValue c v).stickyFlag_spec hover code src hc op
    refine ⟨fun d hd hlt => (hctr d hlt).trans (hothers d hd hlt),
      (congrArg State.mem hrest :).trans hmem, fun htables hoff => ?_⟩
    obtain ⟨hwrites, hquiet⟩ := hquiet htables hoff
    have := congrArg (fun x : State => { x with
      pd := s.pd, heads := s.heads, spec := s.spec, strand := s.strand, refusedCtr := s.refusedCtr }) hrest
    exact ⟨hwrites.trans (hsticky.mono fun _ h => List.mem_cons_of_mem _ h), this.trans hquiet⟩

/-- All that an operation that may saturate changes. -/
theorem State.valueChanged_changes (hheld : s.ctrHeld c = false) (hc : c < 131072) (v : Nat) {key : Nat} (hk : key ∈ flagKeys) (sat : Bool)
    (code : BitVec 16) (op : CtrOp) :
    let u := s.valueChanged src c v key sat code op
    u.ctr c = withValue (s.ctr c) v ∧ flagsAfter s src c u key sat code op ∧ counterFrame [key, Pd.overruns] c s u := by
  obtain ⟨hword, -, -, -⟩ := State.setValue_spec hheld hc v
  exact ⟨(State.valueChanged_ctr hc v hk sat code op hc).trans hword, State.valueChanged_flags hheld hc v hk sat code op,
    State.valueChanged_counterFrame hheld hc v hk sat code op⟩

/-! ### The operations -/

theorem State.ctrOp_of_free (hheld : s.ctrHeld c = false) (op tag operand : Nat) : s.ctrOp src op tag c operand
    = s.ctrDo { src := src, op := op, tag := tag, counter := c, operand := operand } :=
  if_neg (by rw [hheld]; decide)

/-- A source that may use a counter's operations meets no refusal where the counter can be reached and is in the state they need. -/
theorem State.ctrRefusal_of_mayOperate (hfence : s.ctrFenced c = false) {want : Nat} (hstate : ctrState (s.ctr c) = want) (hwant : want ≠ 3)
    (hmay : mayOperate src (s.ctr c)) : s.ctrRefusal src c want = none := by
  have hchecks : ∀ alien : Bool, alien = false → (if s.ctrFenced c then some St.fenced else if alien then some St.misuse
      else if ctrState (s.ctr c) = 3 then some St.broken else if ctrState (s.ctr c) ≠ want then some St.misuse else none) = none := by
    intro alien halien
    rw [hfence, halien, hstate, if_neg (by decide), if_neg (by decide), if_neg hwant, if_neg (not_not_intro rfl)]
  cases src with
  | task u p => exact hchecks _ (bne_eq_false_iff_eq.mpr hmay)
  | host => exact hchecks _ rfl
  | remote p => exact hchecks _ rfl
  | dictionary => exact hmay.elim

theorem not_dictionary_of_mayOperate {w : Nat} (hmay : mayOperate src w) : (src != .dictionary) = true := by
  cases src with
  | dictionary => exact hmay.elim
  | task u p => rfl
  | host => rfl
  | remote p => rfl

variable (hwork : s.working = true) (hc : c < 131072) (hmay : mayOperate src (s.ctr c))
include hwork hc hmay

theorem reachesBank_and_not_dictionary : (s.reachesBank c && src != .dictionary) = true := by
  rw [State.reachesBank, hwork, decide_eq_true hc, not_dictionary_of_mayOperate hmay]
  rfl

variable (hheld : s.ctrHeld c = false) (x : BitVec 32)
include hheld

theorem exec_counterAdd_of_free : exec (.counterAdd src c x) s = .next (s.ctrAdd src c x.toNat).settle := by
  change execCounterAdd src c x s = _
  rw [execCounterAdd, if_pos (reachesBank_and_not_dictionary hwork hc hmay), State.ctrOp_of_free hheld, State.ctrDo]
  exact congrArg (fun n => Host.Outcome.next (s.ctrAdd src c n).settle) (Nat.mod_eq_of_lt x.isLt)

theorem exec_counterSubtract_of_free : exec (.counterSubtract src c x) s = .next (s.ctrSubtract src c x.toNat).settle := by
  change execCounterSubtract src c x s = _
  rw [execCounterSubtract, if_pos (reachesBank_and_not_dictionary hwork hc hmay), State.ctrOp_of_free hheld, State.ctrDo]
  exact congrArg (fun n => Host.Outcome.next (s.ctrSubtract src c n).settle) (Nat.mod_eq_of_lt x.isLt)

theorem exec_counterSet_of_free : exec (.counterSet src c x) s = .next (s.ctrSet src c x.toNat).settle := by
  change execCounterSet src c x s = _
  rw [execCounterSet, if_pos (reachesBank_and_not_dictionary hwork hc hmay), State.ctrOp_of_free hheld, State.ctrDo]
  exact congrArg (fun n => Host.Outcome.next (s.ctrSet src c n).settle) (Nat.mod_eq_of_lt x.isLt)

end

section
variable {s : State} {src : CtrSource} {c : Nat}

theorem State.ctrAdd_of_taken (h : s.ctrRefusal src c 1 = none) (n : Nat) : s.ctrAdd src c n
    = s.valueChanged src c (min (ctrValue (s.ctr c) + n) (2 ^ 32 - 1)) Pd.saturatedFlags (decide (2 ^ 32 ≤ ctrValue (s.ctr c) + n))
        St.saturated .add := by
  rw [State.ctrAdd, h, State.valueChanged]
  exact ite_congr (decide_eq_true_eq).symm (fun _ => rfl) fun _ => rfl

theorem State.ctrSubtract_of_taken (h : s.ctrRefusal src c 1 = none) (n : Nat) : s.ctrSubtract src c n
    = s.valueChanged src c (ctrValue (s.ctr c) - n) Pd.underflowFlags (decide (ctrValue (s.ctr c) < n)) St.underflow .subtract := by
  rw [State.ctrSubtract, h, State.valueChanged]
  exact ite_congr (decide_eq_true_eq).symm (fun _ => rfl) fun _ => rfl

theorem State.ctrSet_of_taken (h : s.ctrRefusal src c 1 = none) (n : Nat) : s.ctrSet src c n = s.setValue c n := by
  rw [State.ctrSet, h]

end

end Sys2Proof.Machine

open Sys2Proof Sys2Proof.Machine

/-- Settles O37: ADD and SUBTRACT replace the value and, where they saturate, set a sticky flag; SET replaces the value alone. -/
theorem counterValuesSaturate : Obligations.CounterValuesSaturate := by
  unfold Obligations.CounterValuesSaturate
  intro s src c x hwork hc hheld hfence hstate hmay v flags
  have htaken := State.ctrRefusal_of_mayOperate hfence hstate (by decide) hmay
  refine ⟨⟨_, (exec_counterAdd_of_free hwork hc hmay hheld x).trans (by rw [State.ctrAdd_of_taken htaken]), ?_⟩,
    ⟨_, (exec_counterSubtract_of_free hwork hc hmay hheld x).trans (by rw [State.ctrSubtract_of_taken htaken]), ?_⟩,
    ⟨_, (exec_counterSet_of_free hwork hc hmay hheld x).trans (by rw [State.ctrSet_of_taken htaken]), ?_⟩⟩
  · exact State.valueChanged_changes hheld hc _ (by decide) _ _ _
  · exact State.valueChanged_changes hheld hc _ (by decide) _ _ _
  · obtain ⟨hword, -, hreplaced, hframe⟩ := State.setValue_spec hheld hc x.toNat
    exact ⟨hword, hreplaced.strand, hframe []⟩
end

section
/-!
PROOFS. Refused counter operations (spec/11 R305): they are counted. The statements that a refusal changes no counter speak of a counter of
every number, and a number beyond the 131,072 counters names another word of the dictionary's store.
-/
namespace Sys2Proof.Machine

/-- The number at which a counter's word would be MISUSE_COUNT. -/
def misuseNumber : Nat := (Pd.misuseCount - Pd.counterState) * 16777216

theorem State.ctr_misuseNumber (s : State) : s.ctr misuseNumber = s.reg Pd.misuseCount := rfl

/-- A refusal that is counted does not leave the counter of every number alone. -/
theorem refusal_changes_misuseNumber {s u : State} (hcount : u.reg Pd.misuseCount = (s.reg Pd.misuseCount + 1) % 2 ^ 64) :
    ¬ ∀ d, u.ctr d = s.ctr d := by
  intro hctr
  have hkept := hctr misuseNumber
  rw [State.ctr_misuseNumber, State.ctr_misuseNumber, hcount] at hkept
  omega

/-- A READY module whose counter 0 is a barrier of two participants, at round 0, with no arrival. -/
def emptyBarrier : State := { pd := [(pdKey Pd.counterState 0, barrierWord 0 0 0 2 0), (pdKey Pd.ready 0, 1)] }

end Sys2Proof.Machine

open Sys2Proof Sys2Proof.Machine

/-- Refutes O38: an arrival at `emptyBarrier` for round 2 is refused and counted, and the count is the word of `misuseNumber`. -/
theorem not_barriersCountRounds : ¬ Obligations.BarriersCountRounds := by
  unfold Obligations.BarriersCountRounds
  intro h
  obtain ⟨u, -, -, -, -, -, -, hrefused⟩ := h emptyBarrier (.remote 1) 0 2 (by decide) (by decide) (by decide) (by decide) (by decide)
    (by decide) (by decide) trivial (by decide) (by decide)
  obtain ⟨hctr, hcount, -⟩ := hrefused (by decide)
  exact refusal_changes_misuseNumber hcount hctr

/-- Refutes O39: the host's INIT of counter 0 of `emptyBarrier` is refused and counted, and the count is the word of `misuseNumber`. -/
theorem not_countersAreInitialisedOrRefuse : ¬ Obligations.CountersAreInitialisedOrRefuse := by
  unfold Obligations.CountersAreInitialisedOrRefuse
  rintro ⟨-, -, hrefused⟩
  obtain ⟨-, -, -, -, hinit⟩ := hrefused emptyBarrier .host 0 0 0 0 (by decide) (by decide) (by decide) (by decide)
  obtain ⟨u, -, hctr, -, -, -, hcount, -⟩ := hinit (.inl rfl)
  exact refusal_changes_misuseNumber (hcount rfl) hctr
end

section
/-!
PROOFS. Task lists (spec/11 R293, R294, Table 11-1): fields of a word written and read back, a list record stored, what a dictionary write of one
record comes to, and the statement `TaskListsAreControlled` assembled from them.
-/
namespace Sys2Proof

/-! ### Fields of a word -/

/-- A field reads as it was last set. -/
theorem bits_setBits_same (v lo n x : Nat) : bits (setBits v lo n x) lo n = x % 2 ^ n := by
  refine Nat.eq_of_testBit_eq fun j => ?_
  rw [testBit_bits, testBit_setBits, Nat.testBit_mod_two_pow]
  by_cases hj : j < n
  · rw [if_pos (by omega), Nat.add_sub_cancel_left]
  · rw [decide_eq_false hj, Bool.false_and, Bool.false_and]

/-- Setting a field leaves the bits outside it alone. -/
theorem bits_setBits_apart {lo n lo' n' : Nat} (h : lo + n ≤ lo' ∨ lo' + n' ≤ lo) (v x : Nat) :
    bits (setBits v lo' n' x) lo n = bits v lo n := by
  refine Nat.eq_of_testBit_eq fun j => ?_
  rw [testBit_bits, testBit_bits, testBit_setBits]
  by_cases hj : j < n
  · rw [if_neg (by omega)]
  · rw [decide_eq_false hj, Bool.false_and, Bool.false_and]

/-- A field set twice is as it was set last. -/
theorem setBits_setBits_same (v lo n x y : Nat) : setBits (setBits v lo n x) lo n y = setBits v lo n y := by
  refine Nat.eq_of_testBit_eq fun j => ?_
  rw [testBit_setBits, testBit_setBits, testBit_setBits]
  split <;> rfl

/-- A field set to what it holds. -/
theorem setBits_bits (v lo n : Nat) : setBits v lo n (bits v lo n) = v := by
  refine Nat.eq_of_testBit_eq fun j => ?_
  rw [testBit_setBits]
  split
  · next h => rw [testBit_bits, decide_eq_true (by omega), Bool.true_and, Nat.add_sub_cancel' h.1]
  · rfl

/-- The bits of a number that bytes spell. -/
theorem testBit_leNat (bs : List Byte) (j : Nat) : (leNat bs).testBit j = (bs.getD (j / 8) 0).toNat.testBit (j % 8) := by
  induction bs generalizing j with
  | nil => rw [leNat, List.getD_nil]; exact (Nat.zero_testBit _).trans (Nat.zero_testBit _).symm
  | cons b bs ih =>
    rw [leNat, Nat.add_comm, show 256 = 2 ^ 8 from rfl, Nat.testBit_two_pow_mul_add _ b.isLt]
    by_cases hj : j < 8
    · rw [if_pos hj, Nat.div_eq_of_lt hj, Nat.mod_eq_of_lt hj, List.getD_cons_zero]
    · rw [if_neg hj, ih, show j / 8 = (j - 8) / 8 + 1 by omega, show (j - 8) % 8 = j % 8 by omega, List.getD_cons_succ]

end Sys2Proof

namespace Sys2Proof.Machine

/-! ### A list record -/

/-- The bits of a list record that are not reserved, SPEC_OPEN apart (Table 11-1): BASE, COMPLETION, and LENGTH to STATE. -/
def listBit (j : Nat) : Bool := decide (j < 44 ∨ 64 ≤ j ∧ j < 108 ∨ 128 ≤ j ∧ j < 176)

theorem testBit_listClean (w j : Nat) : (listClean w).testBit j = (listBit j && w.testBit j) := by
  have hbase : bits w 0 44 < 2 ^ 64 := (Nat.mod_lt _ (by decide)).trans (by decide : 2 ^ 44 < 2 ^ 64)
  have hcompletion : bits w 64 44 < 2 ^ 64 := (Nat.mod_lt _ (by decide)).trans (by decide : 2 ^ 44 < 2 ^ 64)
  have hsplit : listClean w = 2 ^ 64 * (2 ^ 64 * byteField w 16 6 + bits w 64 44) + bits w 0 44 := by unfold listClean; omega
  rw [hsplit, Nat.testBit_two_pow_mul_add _ hbase, Nat.testBit_two_pow_mul_add _ hcompletion, byteField, testBit_bits, testBit_bits,
    testBit_bits, listBit]
  by_cases hlow : j < 64
  · rw [if_pos hlow, Nat.zero_add]
    exact congrArg (· && w.testBit j) (decide_eq_decide.mpr (by omega))
  by_cases hmid : j - 64 < 64
  · rw [if_neg hlow, if_pos hmid, show 64 + (j - 64) = j by omega]
    exact congrArg (· && w.testBit j) (decide_eq_decide.mpr (by omega))
  · rw [if_neg hlow, if_neg hmid, show 8 * 16 + (j - 64 - 64) = j by omega]
    exact congrArg (· && w.testBit j) (decide_eq_decide.mpr (by omega))

theorem listState_listClean (w : Nat) : listState (listClean w) = listState w := by
  refine Nat.eq_of_testBit_eq fun j => ?_
  rw [listState, listState, byteField, byteField, testBit_bits, testBit_bits, testBit_listClean, listBit]
  by_cases hj : j < 8 * 1
  · rw [decide_eq_true (show 8 * 21 + j < 44 ∨ 64 ≤ 8 * 21 + j ∧ 8 * 21 + j < 108 ∨ 128 ≤ 8 * 21 + j ∧ 8 * 21 + j < 176 by omega),
      Bool.true_and]
  · rw [decide_eq_false hj, Bool.false_and, Bool.false_and]

/-! ### A write of one record -/

/-- The bits of a record after a write: the bytes written, and the old ones besides. -/
theorem testBit_overlay (size i old off : Nat) (bytes : List Byte) {j : Nat} (hj : j / 8 < size) :
    (overlay size i old off bytes).testBit j = if off ≤ size * i + j / 8 ∧ size * i + j / 8 < off + bytes.length
      then (bytes.getD (size * i + j / 8 - off) 0).toNat.testBit (j % 8) else old.testBit j := by
  unfold overlay
  rw [testBit_leNat, List.getD_eq_getElem _ _ (by simpa using hj), List.getElem_map, List.getElem_range]
  dsimp only
  split
  · rfl
  · rw [BitVec.toNat_ofNat, Nat.testBit_mod_two_pow, byteField, testBit_bits, Nat.div_add_mod, decide_eq_true (Nat.mod_lt j (by decide)),
      Bool.true_and]
    exact Bool.true_and _

/-- A whole record written. -/
theorem overlay_whole (k old : Nat) {bytes : List Byte} (h : bytes.length = 32) : overlay 32 k old (32 * k) bytes = leNat bytes := by
  unfold overlay
  refine congrArg leNat (List.ext_getElem (by simp [h]) fun j hj hj' => ?_)
  rw [List.getElem_map, List.getElem_range]
  dsimp only
  rw [if_pos (by omega), Nat.add_sub_cancel_left, List.getD_eq_getElem _ _ hj']

/-- STATE written to a clean record. -/
theorem listClean_overlay_state {w : Nat} (hw : listClean w = w) (k : Nat) (b : Byte) :
    listClean (overlay 32 k w (32 * k + 21) [b]) = setByteField w 21 1 b.toNat := by
  refine Nat.eq_of_testBit_eq fun j => ?_
  have hclean : w.testBit j = (listBit j && w.testBit j) := by rw [← testBit_listClean, hw]
  rw [testBit_listClean, setByteField, testBit_setBits]
  by_cases hstate : 8 * 21 ≤ j ∧ j < 8 * 21 + 8 * 1
  · have hbyte : j / 8 = 21 := by omega
    rw [if_pos hstate, testBit_overlay 32 k w _ _ (by omega), hbyte, if_pos (by simp), Nat.sub_self, List.getD_cons_zero, listBit,
      decide_eq_true (by omega), Bool.true_and]
    exact congrArg b.toNat.testBit (by omega)
  · rw [if_neg hstate, hclean]
    cases hbit : listBit j with
    | false => rw [Bool.false_and, Bool.false_and]
    | true =>
      have hj : j < 176 := by have := of_decide_eq_true hbit; omega
      rw [testBit_overlay 32 k w _ _ (by omega), if_neg (by simp; omega)]

/-! ### Fields of a record with another STATE -/

theorem listState_setState (w : Nat) (b : Byte) : listState (setByteField w 21 1 b.toNat) = b.toNat :=
  (byteField_setByteField w 21 21 b).trans (if_pos rfl)

theorem listStartable_setState (w b : Nat) : listStartable (setByteField w 21 1 b) = listStartable w := by
  have hfield : ∀ lo n, lo + n ≤ 168 → bits (setByteField w 21 1 b) lo n = bits w lo n := fun lo n h =>
    bits_setBits_apart (.inl h) w b
  unfold listStartable listBase listCompletion listLength listCursor byteField
  rw [hfield 0 44 (by decide), hfield 64 44 (by decide), hfield _ _ (by decide : 8 * 16 + 8 * 2 ≤ 168),
    hfield _ _ (by decide : 8 * 18 + 8 * 2 ≤ 168)]

theorem listChanged_setState (w b : Nat) : listChanged w (setByteField w 21 1 b) = false := by
  unfold listChanged setByteField
  rw [setBits_setBits_same]
  exact bne_self_eq_false _

/-! ### Which writes are refused (R294) -/

theorem listRefusal_of_stopped {old new : Nat} (hold : listState old = 0) (hnew : listState new = 0) : listRefusal old new = none := by
  simp [listRefusal, hold, hnew]

theorem listRefusal_of_running {old new : Nat} (hold : listState old = 1) (hnew : listState new = 0) :
    listRefusal old new = if listChanged old new = true then some St.busy else none := by
  simp [listRefusal, hold, hnew]

theorem listRefusal_of_start {w : Nat} (hw : listState w = 0 ∨ listState w = 3) :
    listRefusal w (setByteField w 21 1 1) = if listStartable w = true then none else some St.invalidValue := by
  have hnew : listState (setByteField w 21 1 1) = 1 := listState_setState w 1
  simp only [listRefusal, hnew, listStartable_setState, listChanged_setState]
  rcases hw with hw | hw <;> cases listStartable w <;> simp [hw]

/-! ### A list record stored -/

theorem listKey_div {p : Nat} (hp : p < 16) (u : Nat) : listKey u p / 16 = u := by unfold listKey; omega

theorem listKey_mod {p : Nat} (hp : p < 16) (u : Nat) : listKey u p % 16 = p := by unfold listKey; omega

/-- `t` is `s` with other entries `keys` of the store, in which of the lists list p of unit u alone is another: it has the record `w`. -/
def listWritten (keys : List Nat) (s t : State) (u p w : Nat) : Prop :=
  t.listRec u p = w ∧ (∀ v q, v < 66 → q < 16 → (v ≠ u ∨ q ≠ p) → t.listRec v q = s.listRec v q) ∧ storeFrame keys s t
    ∧ { t with pd := s.pd } = s

section
variable {keys : List Nat} {s t : State} {u p w : Nat}

theorem listWritten.setListRec (h : listWritten keys s t u p w) (hkey : Pd.taskLists ∈ keys) (hu : u < 66) (hp : p < 16) (w' : Nat) :
    listWritten keys s (t.setListRec u p w') u p w' := by
  obtain ⟨-, hothers, hstore, hframe⟩ := h
  refine ⟨t.rd_wr_same _ _ _, fun v q hv hq hne => ?_, hstore.wr w' hkey (by unfold listKey; omega), hframe⟩
  have hkeys : listKey v q ≠ listKey u p := by unfold listKey; omega
  exact ((t.rd_wr _ _ _ _ _).trans (if_neg (pdKey_inj.not.mpr hkeys))).trans (hothers v q hv hq hne)

theorem listWritten.setListState (h : listWritten keys s t u p w) (hkey : Pd.taskLists ∈ keys) (hu : u < 66) (hp : p < 16) (n : Nat) :
    listWritten keys s (t.setListState u p n) u p (setByteField w 21 1 n) := by
  have hw := h.1
  have hset := h.setListRec hkey hu hp (setByteField (t.listRec u p) 21 1 n)
  rw [hw] at hset
  rw [State.setListState, hw]
  exact hset

/-- An entry besides the lists written. -/
theorem listWritten.wr (h : listWritten keys s t u p w) {key i : Nat} (hkey : key ∈ keys) (hne : Pd.taskLists ≠ key) (hi : i < 16777216)
    (hu : u < 66) (hp : p < 16) (x : Nat) : listWritten keys s (t.wr key i x) u p w := by
  obtain ⟨hrec, hothers, hstore, hframe⟩ := h
  have hlists : ∀ v q, v < 66 → q < 16 → (t.wr key i x).listRec v q = t.listRec v q := fun v q hv hq =>
    t.rd_wr_ne hne hi (by unfold listKey; omega)
  exact ⟨(hlists u p hu hp).trans hrec, fun v q hv hq hvq => (hlists v q hv hq).trans (hothers v q hv hq hvq), hstore.wr x hkey hi, hframe⟩

theorem State.listRunning_congr (h : { t with pd := s.pd } = s) (u p : Nat) : t.listRunning u p = s.listRunning u p :=
  (congrArg (fun x : State => x.listRunning u p) h :)

/-- A list told to stop is STOPPING while a task of it runs, else STOPPED. -/
theorem listWritten.stop (h : listWritten keys s t u p w) (hkey : Pd.taskLists ∈ keys) (hu : u < 66) (hp : p < 16) :
    listWritten keys s ((t.setListState u p 2).stopIfDone u p) u p (setByteField w 21 1 (if s.listRunning u p then 2 else 0)) := by
  have htold := h.setListState hkey hu hp 2
  generalize t.setListState u p 2 = t' at htold ⊢
  have ⟨hrec, _, _, hframe⟩ := htold
  have hstopping : listState (t'.listRec u p) = 2 := by rw [hrec]; exact listState_setState w 2
  unfold State.stopIfDone
  rw [hstopping, State.listRunning_congr hframe]
  cases hrunning : s.listRunning u p with
  | true =>
    rw [if_neg (by simp)]
    exact htold
  | false =>
    rw [if_pos ⟨rfl, rfl⟩]
    have hstopped := htold.setListState hkey hu hp 0
    rw [setByteField, setByteField, setBits_setBits_same] at hstopped
    exact hstopped

end

/-! ### What a write does with a record -/

/-- A partition that is PREEMPTED becomes NORMAL. -/
def State.leavePreempted (s : State) (p : Nat) : State :=
  if byteField (s.rd Pd.partitionState p) 0 1 = 2 then s.wr Pd.partitionState p 0 else s

theorem listWritten.leavePreempted {keys : List Nat} {s t : State} {u p w : Nat} (h : listWritten keys s t u p w)
    (hkey : Pd.partitionState ∈ keys) (hu : u < 66) (hp : p < 16) : listWritten keys s (t.leavePreempted p) u p w := by
  unfold State.leavePreempted
  split
  · exact h.wr hkey (by decide) (by omega) hu hp 0
  · exact h

theorem State.leavePreempted_state (s : State) (p : Nat) : if byteField (s.rd Pd.partitionState p) 0 1 = 2
    then (s.leavePreempted p).rd Pd.partitionState p = 0 else (s.leavePreempted p).rd Pd.partitionState p = s.rd Pd.partitionState p := by
  unfold State.leavePreempted
  split
  · exact s.rd_wr_same _ _ _
  · rfl

section
variable {s : State} {u p : Nat}

/-- A record stored while its list is stopped loses its head. -/
theorem State.putList_of_stopped (hp : p < 16) (hold : listState (s.listRec u p) = 0) {w : Nat} (hw : listState w = 0) :
    s.putList (listKey u p) w true = (s.setHead (listKey u p) none).setListRec u p w := by
  have hsame : setByteField w 21 1 0 = w := by
    have hzero : bits w (8 * 21) (8 * 1) = 0 := hw
    rw [setByteField, ← hzero, setBits_bits]
  unfold State.putList
  rw [listKey_div hp, listKey_mod hp]
  dsimp only
  simp [hold, hw, hsame]

/-- A list started; its partition leaves PREEMPTED. -/
theorem State.putList_of_start (hp : p < 16) (hold : listState (s.listRec u p) ≠ 1) {w : Nat} (hw : listState w = 1) :
    s.putList (listKey u p) w false = (s.setListState u p 1).leavePreempted p := by
  unfold State.putList State.leavePreempted
  rw [listKey_div hp, listKey_mod hp]
  dsimp only
  simp [hold, hw]

theorem State.putList_of_stop (hp : p < 16) (hold : listState (s.listRec u p) = 1) {w : Nat} (hw : listState w = 0) :
    s.putList (listKey u p) w false = (s.setListState u p 2).stopIfDone u p := by
  unfold State.putList
  rw [listKey_div hp, listKey_mod hp]
  dsimp only
  simp [hold, hw]

end

/-! ### A write of one record served -/

/-- A write within one record covers that record. -/
theorem covered_of_within {size k off n : Nat} (hlow : size * k ≤ off) (hn : 0 < n) (hhigh : off + n ≤ size * k + size) :
    covered size off n = [k] := by
  have hfirst : off / size = k := Nat.div_eq_of_lt_le (by rw [Nat.mul_comm]; exact hlow) (by rw [Nat.succ_mul, Nat.mul_comm]; omega)
  have hlast : (off + n - 1) / size = k := Nat.div_eq_of_lt_le (by rw [Nat.mul_comm]; omega) (by rw [Nat.succ_mul, Nat.mul_comm]; omega)
  rw [covered, hfirst, hlast, Nat.add_sub_cancel_left]
  rfl

/-- A dictionary write within one record: the record put, or the write refused. -/
theorem serveTaskLists_of_one {q : Req} {k : Nat} (hlow : 32 * k ≤ q.offset) (hn : 0 < q.data.length)
    (hhigh : q.offset + q.data.length ≤ 32 * k + 32) (role : Role) (e : EntryInfo) (s : State) : serveTaskLists role e q s =
      match listRefusal (s.rd Pd.taskLists k) (listClean (overlay 32 k (s.rd Pd.taskLists k) q.offset q.data)) with
      | some c => refuse s c
      | none => { state := s.putList k (listClean (overlay 32 k (s.rd Pd.taskLists k) q.offset q.data))
                            (writesRecord k q.offset q.data.length) } := by
  unfold serveTaskLists
  rw [covered_of_within hlow hn hhigh, List.map_singleton]
  dsimp only
  generalize listClean (overlay 32 k (s.rd Pd.taskLists k) q.offset q.data) = new
  generalize s.rd Pd.taskLists k = old
  rw [List.filterMap_cons, List.filterMap_nil, List.foldl_cons, List.foldl_nil]
  cases listRefusal old new with
  | none => exact if_neg (by decide)
  | some c =>
    dsimp only
    split
    · next hinvalid =>
      rw [List.contains_cons, List.contains_nil, Bool.or_false, beq_iff_eq] at hinvalid
      rw [hinvalid]
    · rfl

/-! ### Answers to a write of lists -/

section
variable {keys : List Nat} {s t : State} {u p w : Nat}

theorem State.countRequest_listWritten (s : State) (path : GdpPath) (hkeys : ∀ k ∈ requestCounters, k ∈ keys) (hu : u < 66) (hp : p < 16) :
    listWritten keys s (s.countRequest path) u p (s.listRec u p) := by
  have hlists : ∀ v q, v < 66 → q < 16 → (s.countRequest path).listRec v q = s.listRec v q := fun v q hv hq =>
    s.countRequest_rd path (by decide) (by unfold listKey; omega)
  exact ⟨hlists u p hu hp, fun v q hv hq _ => hlists v q hv hq, (s.countRequest_store path).mono hkeys, s.countRequest_frame path⟩

/-- A list written, answered OK. -/
theorem listWritten.respond_ok (h : listWritten keys s t u p w) (hstraps : Pd.straps ∉ keys) (q : Req) :
    (t.respond q St.ok []).out = s.out ++ reply s q St.ok [] ∧ (t.respond q St.ok []).listRec u p = w
      ∧ (∀ v r, v < 66 → r < 16 → (v ≠ u ∨ r ≠ p) → (t.respond q St.ok []).listRec v r = s.listRec v r)
      ∧ storeFrame keys s (t.respond q St.ok []) ∧ answered q.path s (t.respond q St.ok []) := by
  obtain ⟨hrec, hothers, hstore, hframe⟩ := h
  obtain ⟨hout, hstore', hans⟩ := State.respond_ok_of_store hframe hstore hstraps q
  have hpd : (t.respond q St.ok []).pd = t.pd := State.respond_ok_pd t q [] rfl
  exact ⟨hout, (State.rd_of_pd hpd _ _).trans hrec, fun v r hv hr hne => (State.rd_of_pd hpd _ _).trans (hothers v r hv hr hne), hstore', hans⟩

/-- A write of lists refused: counted and answered, and no list changes. -/
theorem State.respond_refused_lists (s : State) (q : Req) (c : BitVec 16) (hu : u < 66) (hp : p < 16) :
    ((s.countRequest q.path).respond q c []).out = s.out ++ reply s q c []
      ∧ ((s.countRequest q.path).respond q c []).listRec u p = s.listRec u p
      ∧ ((s.countRequest q.path).respond q c []).heads = s.heads := by
  refine ⟨?_, s.respond_countRequest_store q.path q c [] _ _ (by decide) (by unfold listKey; omega), ?_⟩
  · rw [State.respond_out, s.countRequest_out, s.reply_countRequest]
  · have hanswer := (congrArg State.heads ((s.countRequest q.path).respond_frame q c []) :)
    exact hanswer.trans (congrArg State.heads (s.countRequest_frame q.path) :)

theorem taskLists_not_persistent {e : EntryInfo} (h : entryInfo Pd.taskLists = some e) : e.persistent = false := by
  have hrow : (entryInfo Pd.taskLists).map (·.persistent) = some false := by decide +kernel
  rw [h] at hrow
  exact Option.some.inj hrow

/-- An admitted write of lists is counted, its records are put or refused, and the response follows at once. -/
theorem State.receiveOwn_taskLists {o : Origin} {off : Nat} {data : List Byte} {role : Role} {e : EntryInfo}
    (h : admitted s (ownWrite o Pd.taskLists off data) role e = true) {v : State} {c : BitVec 16}
    (hserve : serveTaskLists role e (ownWrite o Pd.taskLists off data) (s.countRequest o.path) = { state := v, status := c }) :
    s.receiveOwn serveTaskLists (ownWrite o Pd.taskLists off data) = v.respond (ownWrite o Pd.taskLists off data) c [] := by
  have hentry := entryInfo_of_admitted h
  rw [ownWrite_key o off data (by decide)] at hentry
  rw [State.receiveOwn_ownWrite _ h]
  change State.conclude _ _ _ (serveTaskLists role e (ownWrite o Pd.taskLists off data) (s.countRequest o.path)) = _
  rw [hserve, State.conclude_respond rfl (.inl (taskLists_not_persistent hentry))]

end

/-! ### The three writes -/

section
variable {s : State} {o : Origin} {u p : Nat} {role : Role} {e : EntryInfo} (hu : u < 66) (hp : p < 16)
include hu hp

/-- A write within the record of list p of unit u: what the entry does with it. -/
theorem serve_ownWrite_list {off : Nat} {data : List Byte} (hlow : 32 * listKey u p ≤ off) (hn : 0 < data.length)
    (hhigh : off + data.length ≤ 32 * listKey u p + 32) : serveTaskLists role e (ownWrite o Pd.taskLists off data) (s.countRequest o.path) =
      match listRefusal (s.listRec u p) (listClean (overlay 32 (listKey u p) (s.listRec u p) off data)) with
      | some c => refuse (s.countRequest o.path) c
      | none => { state := (s.countRequest o.path).putList (listKey u p)
                            (listClean (overlay 32 (listKey u p) (s.listRec u p) off data)) (writesRecord (listKey u p) off data.length) } := by
  have hkey : listKey u p < 1056 := by unfold listKey; omega
  have hoffset : (ownWrite o Pd.taskLists off data).offset = off := ownWrite_offset o Pd.taskLists data (by omega)
  have hdata : (ownWrite o Pd.taskLists off data).data = data := rfl
  have hrec : (s.countRequest o.path).rd Pd.taskLists (listKey u p) = s.listRec u p := s.countRequest_rd o.path (by decide) (by omega)
  rw [serveTaskLists_of_one (k := listKey u p) (by rw [hoffset]; exact hlow) (by rw [hdata]; exact hn) (by rw [hoffset, hdata]; exact hhigh),
    hoffset, hdata, hrec]

/-- STATE of list p of unit u written. -/
theorem serve_writeState (hclean : listClean (s.listRec u p) = s.listRec u p) (b : Byte) :
    serveTaskLists role e (ownWrite o Pd.taskLists (32 * listKey u p + 21) [b]) (s.countRequest o.path) =
      match listRefusal (s.listRec u p) (setByteField (s.listRec u p) 21 1 b.toNat) with
      | some c => refuse (s.countRequest o.path) c
      | none => { state := (s.countRequest o.path).putList (listKey u p) (setByteField (s.listRec u p) 21 1 b.toNat) false } := by
  have hbefore : writesRecord (listKey u p) (32 * listKey u p + 21) [b].length = false := by simp [writesRecord]
  rw [serve_ownWrite_list hu hp (by omega) (by simp) (by simp), listClean_overlay_state hclean, hbefore]

theorem State.countRequest_listRec (path : GdpPath) : (s.countRequest path).listRec u p = s.listRec u p :=
  s.countRequest_rd path (by decide) (by unfold listKey; omega)

/-- TASK_LIST_WRITE of a stopped list. -/
theorem taskListWrite_stores {bytes : List Byte} (hlen : bytes.length = 32)
    (h : admitted s (ownWrite o Pd.taskLists (32 * listKey u p) bytes) role e = true) (hstate : byteField (leNat bytes) 21 1 = 0)
    (hold : listState (s.listRec u p) = 0) :
    ∃ t, exec (.taskListWrite o (32 * listKey u p) bytes) s = .next t
      ∧ t.out = s.out ++ reply s (ownWrite o Pd.taskLists (32 * listKey u p) bytes) St.ok []
      ∧ t.listRec u p = listClean (leNat bytes) ∧ (∀ v q, v < 66 → q < 16 → (v ≠ u ∨ q ≠ p) → t.listRec v q = s.listRec v q)
      ∧ storeFrame (Pd.taskLists :: requestCounters) s t ∧ answered o.path s { t with heads := s.heads } := by
  have hnew : listState (listClean (leNat bytes)) = 0 := (listState_listClean _).trans hstate
  have hwhole : writesRecord (listKey u p) (32 * listKey u p) bytes.length = true := by simp [writesRecord, hlen]
  have hserve := serve_ownWrite_list (s := s) (o := o) (role := role) (e := e) hu hp (data := bytes) (Nat.le_refl _) (by omega) (by omega)
  rw [overlay_whole _ _ hlen, listRefusal_of_stopped hold hnew, hwhole] at hserve
  dsimp only at hserve
  rw [State.putList_of_stopped hp (by rw [State.countRequest_listRec hu hp]; exact hold) hnew] at hserve
  -- the head is gone first: of the state without it, the write changes the list alone
  let s' : State := s.setHead (listKey u p) none
  have hcounted : (s.countRequest o.path).setHead (listKey u p) none = s'.countRequest o.path := by cases o.path <;> rfl
  rw [hcounted] at hserve
  have hwritten := (s'.countRequest_listWritten (keys := Pd.taskLists :: requestCounters) o.path (fun _ hk => .tail _ hk) hu hp).setListRec
    (.head _) hu hp (listClean (leNat bytes))
  obtain ⟨hout, hrec, hothers, hstore, hframe, hcauseway⟩ := hwritten.respond_ok (by decide)
    (ownWrite o Pd.taskLists (32 * listKey u p) bytes)
  exact ⟨_, congrArg Host.Outcome.next (State.receiveOwn_taskLists h hserve), hout, hrec, hothers, hstore,
    congrArg (fun x : State => { x with heads := s.heads }) hframe, hcauseway⟩

/-- TASK_LIST_WRITE of a running list that changes more than STATE. -/
theorem taskListWrite_busy {bytes : List Byte} (hlen : bytes.length = 32)
    (h : admitted s (ownWrite o Pd.taskLists (32 * listKey u p) bytes) role e = true) (hstate : byteField (leNat bytes) 21 1 = 0)
    (hold : listState (s.listRec u p) = 1) (hchanged : listChanged (s.listRec u p) (listClean (leNat bytes)) = true) :
    ∃ t, exec (.taskListWrite o (32 * listKey u p) bytes) s = .next t
      ∧ t.out = s.out ++ reply s (ownWrite o Pd.taskLists (32 * listKey u p) bytes) St.busy [] ∧ t.listRec u p = s.listRec u p
      ∧ t.heads = s.heads := by
  have hnew : listState (listClean (leNat bytes)) = 0 := (listState_listClean _).trans hstate
  have hserve := serve_ownWrite_list (s := s) (o := o) (role := role) (e := e) hu hp (data := bytes) (Nat.le_refl _) (by omega) (by omega)
  rw [overlay_whole _ _ hlen, listRefusal_of_running hold hnew, if_pos hchanged] at hserve
  exact ⟨_, congrArg Host.Outcome.next (State.receiveOwn_taskLists h hserve), State.respond_refused_lists s _ _ hu hp⟩

/-- TASK_LIST_START of a list with a valid record. -/
theorem taskListStart_runs (hclean : listClean (s.listRec u p) = s.listRec u p)
    (h : admitted s (ownWrite o Pd.taskLists (32 * listKey u p + 21) [1]) role e = true)
    (hold : listState (s.listRec u p) = 0 ∨ listState (s.listRec u p) = 3) (hvalid : listStartable (s.listRec u p) = true) :
    ∃ t, exec (.taskListStart o u p) s = .next t
      ∧ t.out = s.out ++ reply s (ownWrite o Pd.taskLists (32 * listKey u p + 21) [1]) St.ok []
      ∧ t.listRec u p = setByteField (s.listRec u p) 21 1 1
      ∧ (∀ v q, v < 66 → q < 16 → (v ≠ u ∨ q ≠ p) → t.listRec v q = s.listRec v q)
      ∧ (if byteField (s.rd Pd.partitionState p) 0 1 = 2 then t.rd Pd.partitionState p = 0
          else t.rd Pd.partitionState p = s.rd Pd.partitionState p)
      ∧ storeFrame (Pd.taskLists :: Pd.partitionState :: requestCounters) s t ∧ answered o.path s t := by
  have hserve := serve_writeState (s := s) (o := o) (role := role) (e := e) hu hp hclean 1
  rw [show (1 : Byte).toNat = 1 from rfl, listRefusal_of_start hold, if_pos hvalid] at hserve
  dsimp only at hserve
  have hnew : listState (setByteField (s.listRec u p) 21 1 1) = 1 := listState_setState _ 1
  rw [State.putList_of_start hp (by rw [State.countRequest_listRec hu hp]; omega) hnew] at hserve
  have hwritten := (s.countRequest_listWritten (keys := Pd.taskLists :: Pd.partitionState :: requestCounters) o.path
    (fun _ hk => .tail _ (.tail _ hk)) hu hp).setListState (.head _) hu hp 1
  have hpart : ((s.countRequest o.path).setListState u p 1).rd Pd.partitionState p = s.rd Pd.partitionState p :=
    (State.rd_wr_ne _ (by decide) (by unfold listKey; omega) (by omega)).trans (s.countRequest_rd o.path (by decide) (by omega))
  generalize (s.countRequest o.path).setListState u p 1 = v at hserve hwritten hpart
  obtain ⟨hout, hrec, hothers, hstore, hans⟩ := (hwritten.leavePreempted (by decide) hu hp).respond_ok (by decide)
    (ownWrite o Pd.taskLists (32 * listKey u p + 21) [1])
  refine ⟨_, congrArg Host.Outcome.next (State.receiveOwn_taskLists h hserve), hout, hrec, hothers, ?_, hstore, hans⟩
  rw [State.rd_of_pd (State.respond_ok_pd _ _ [] rfl), ← hpart]
  exact v.leavePreempted_state p

/-- TASK_LIST_START of a list with another record. -/
theorem taskListStart_invalid (hclean : listClean (s.listRec u p) = s.listRec u p)
    (h : admitted s (ownWrite o Pd.taskLists (32 * listKey u p + 21) [1]) role e = true)
    (hold : listState (s.listRec u p) = 0 ∨ listState (s.listRec u p) = 3) (hinvalid : listStartable (s.listRec u p) = false) :
    ∃ t, exec (.taskListStart o u p) s = .next t
      ∧ t.out = s.out ++ reply s (ownWrite o Pd.taskLists (32 * listKey u p + 21) [1]) St.invalidValue []
      ∧ t.listRec u p = s.listRec u p := by
  have hserve := serve_writeState (s := s) (o := o) (role := role) (e := e) hu hp hclean 1
  rw [show (1 : Byte).toNat = 1 from rfl, listRefusal_of_start hold, if_neg (by rw [hinvalid]; decide)] at hserve
  obtain ⟨hout, hrec, -⟩ := State.respond_refused_lists s (ownWrite o Pd.taskLists (32 * listKey u p + 21) [1]) St.invalidValue hu hp
  exact ⟨_, congrArg Host.Outcome.next (State.receiveOwn_taskLists h hserve), hout, hrec⟩

/-- TASK_LIST_STOP of a running list. -/
theorem taskListStop_stops (hclean : listClean (s.listRec u p) = s.listRec u p)
    (h : admitted s (ownWrite o Pd.taskLists (32 * listKey u p + 21) [0]) role e = true) (hold : listState (s.listRec u p) = 1) :
    ∃ t, exec (.taskListStop o u p) s = .next t
      ∧ t.out = s.out ++ reply s (ownWrite o Pd.taskLists (32 * listKey u p + 21) [0]) St.ok []
      ∧ t.listRec u p = setByteField (s.listRec u p) 21 1 (if s.listRunning u p then 2 else 0)
      ∧ (∀ v q, v < 66 → q < 16 → (v ≠ u ∨ q ≠ p) → t.listRec v q = s.listRec v q)
      ∧ storeFrame (Pd.taskLists :: requestCounters) s t ∧ answered o.path s t := by
  have hnew : listState (setByteField (s.listRec u p) 21 1 0) = 0 := listState_setState _ 0
  have hserve := serve_writeState (s := s) (o := o) (role := role) (e := e) hu hp hclean 0
  rw [show (0 : Byte).toNat = 0 from rfl, listRefusal_of_running hold hnew, listChanged_setState, if_neg (by decide)] at hserve
  dsimp only at hserve
  rw [State.putList_of_stop hp (by rw [State.countRequest_listRec hu hp]; exact hold) hnew] at hserve
  have hwritten := (s.countRequest_listWritten (keys := Pd.taskLists :: requestCounters) o.path (fun _ hk => .tail _ hk) hu hp).stop
    (.head _) hu hp
  exact ⟨_, congrArg Host.Outcome.next (State.receiveOwn_taskLists h hserve), hwritten.respond_ok (by decide) _⟩

end

end Sys2Proof.Machine

open Sys2Proof Sys2Proof.Machine

/-- Settles O40: each write stays within the record of its list, which is stored, started or stopped, or the write refused. -/
theorem taskListsAreControlled : Obligations.TaskListsAreControlled := by
  unfold Obligations.TaskListsAreControlled
  intro s o u p role e hu hp hclean w write start stop
  refine ⟨fun bytes hlen h hstate => ⟨fun hold => taskListWrite_stores hu hp hlen h hstate hold,
    fun hold hchanged => taskListWrite_busy hu hp hlen h hstate hold hchanged⟩, fun h hold => ⟨fun hvalid => ?_, fun hinvalid => ?_⟩,
    fun h hold => taskListStop_stops hu hp hclean h hold⟩
  · exact taskListStart_runs hu hp hclean h hold hvalid
  · exact taskListStart_invalid hu hp hclean h hold hinvalid
end

section
/-!
PROOFS. Heads of task lists (spec/11 R293 to R299): what reading a record leaves, which list releases its head, what each unit does with the
task, and the statement `HeadsAreReadAndReleased` assembled from them.
-/
namespace Sys2Proof

/-- A key set to what it holds, in a table in canonical form. -/
theorem tset_tget {α : Type} [DecidableEq α] (d : α) (k : Nat) {t : Tab α} (ht : Tab.wf d t = true) : tset d t k (tget d t k) = t := by
  obtain ⟨hsorted, hvalues⟩ := (wf_iff d t).mp ht
  clear ht
  induction t with
  | nil => exact if_pos rfl
  | cons e t ih =>
    rw [List.pairwise_cons] at hsorted
    obtain ⟨hfirst, hrest⟩ := hsorted
    have hunlisted : k ≤ e.1 → ∀ x ∈ t, (x.1 != k) = true := fun h x hx => bne_iff_ne.mpr (by have := hfirst x hx; omega)
    rcases Nat.lt_trichotomy k e.1 with hlt | heq | hgt
    · have hnone : tget d t k = d := by
        have herased := tget_terase_same d t k
        rwa [terase, List.filter_eq_self.mpr (hunlisted (by omega))] at herased
      rw [tget, if_neg (by omega), hnone, tset, if_pos rfl, terase, List.filter_eq_self.mpr]
      intro x hx
      rcases List.mem_cons.mp hx with rfl | hx
      · exact bne_iff_ne.mpr (by omega)
      · exact hunlisted (by omega) x hx
    · have herase : terase (e :: t) k = t := by
        rw [terase, List.filter_cons_of_neg (by simp [heq]), List.filter_eq_self.mpr (hunlisted (by omega))]
      rw [tget, if_pos heq.symm, tset, if_neg (hvalues e List.mem_cons_self), herase, heq]
      cases t with
      | nil => rfl
      | cons x t => exact if_pos (hfirst x List.mem_cons_self)
    · have hstep : ∀ v, tset d (e :: t) k v = e :: tset d t k v := fun v => by
        have herase : terase (e :: t) k = e :: terase t k := List.filter_cons_of_pos (bne_iff_ne.mpr (by omega))
        unfold tset
        rw [herase]
        split
        · rfl
        · exact if_neg (by omega)
      rw [tget, if_neg (by omega), hstep, ih hrest fun x hx => hvalues x (.tail _ hx)]

end Sys2Proof

namespace Sys2Proof.Machine

/-! ### Reads in the Coves, seen by the sequencers -/

section
variable {s t : State} (h : covesRead s t)
include h

theorem covesRead.heads : t.heads = s.heads := (congrArg State.heads h.1 :)

theorem covesRead.listRec {u p : Nat} (hu : u < 66) (hp : p < 16) : t.listRec u p = s.listRec u p :=
  h.2 _ _ (by decide) (by unfold listKey; omega)

theorem covesRead.guardWord (r : List Byte) (i : Nat) : t.ctr (guardCounter r i) = s.ctr (guardCounter r i) :=
  h.2 _ _ (by decide) (Nat.lt_trans (Nat.mod_lt _ (by decide)) (by decide : 2 ^ 17 < 16777216))

theorem covesRead.guardNow (r : List Byte) (pass i : Nat) : t.guardNow r pass i = s.guardNow r pass i := by
  rw [State.guardNow, State.guardNow, h.guardWord]

theorem covesRead.ctrFenced (c : Nat) : t.ctrFenced c = s.ctrFenced c := by
  have hfenced : t.reg Pd.islandFenced = s.reg Pd.islandFenced := h.2.reg (by decide)
  rw [State.ctrFenced, State.ctrFenced, State.islandFenced, State.islandFenced, hfenced]

theorem covesRead.guardLost (r : List Byte) (i : Nat) : t.guardLost r i = s.guardLost r i := by
  rw [State.guardLost, State.guardLost, h.ctrFenced, h.guardWord]

theorem covesRead.guardFault (r : List Byte) : t.guardFault r = s.guardFault r := by
  unfold State.guardFault
  simp only [h.guardLost, h.guardWord]

end

/-! ### A head read (R295, R297) -/

/-- The head that a record that passes its checks becomes. -/
def State.freshHead (s : State) (r : List Byte) (pass : Nat) : Head :=
  { record := r
    latched := (List.range (recGuards r)).map fun i => guardKind r i != 3 && s.guardNow r pass i
    taken := List.replicate (recGuards r) false }

section
variable {s : State} {u p : Nat}

theorem State.newHead_of_valid {r : List Byte} (hrecord : recordOk r u p = true) (hspec : s.specFault (s.headTask u p r) = none)
    (hguard : s.guardFault r = none) :
    s.newHead u p r = s.setHead (listKey u p) (some (s.freshHead r (listPass (s.listRec u p)))) := by
  unfold State.newHead
  dsimp only
  rw [hrecord, hspec, hguard, if_neg (by decide)]
  rfl

theorem State.loadHead_of_read {r : List Byte} (hread : s.unitBytes (agentOf u p) false
      (listBase (s.listRec u p) + 1024 * listCursor (s.listRec u p)) 1024 = .ok (some r)) :
    s.loadHead u p
      = (s.passBytes (agentOf u p) false (listBase (s.listRec u p) + 1024 * listCursor (s.listRec u p)) 1024).newHead u p r := by
  unfold State.loadHead
  simp only [hread, Option.getD_some]

theorem exec_headLoad_of_running (hwork : s.working = true) (hu : u < 66) (hp : p < 16) (hrun : listState (s.listRec u p) = 1)
    (hnone : s.headOf (listKey u p) = none) : exec (.headLoad u p) s = .next (s.loadHead u p).settle := by
  change execHeadLoad u p s = _
  rw [execHeadLoad, if_pos (by simp [hwork, hu, hp, hrun]), hnone]

theorem exec_headLoad_of_stopped (hrun : listState (s.listRec u p) ≠ 1) : exec (.headLoad u p) s = .next s :=
  if_neg (by simp [hrun])

end

theorem headIsReadAtCursor : Claims.HeadIsReadAtCursor := by
  refine ⟨?_, fun s u p hrun => exec_headLoad_of_stopped hrun⟩
  intro s u p r hwork hu hp hrun hnone a c hread hrecord hspec hguard
  have hcoves : covesRead s c := s.passBytes_read _ _ _
  have hloaded : s.loadHead u p = c.setHead (listKey u p) (some (c.freshHead r (listPass (c.listRec u p)))) :=
    (State.loadHead_of_read hread).trans (State.newHead_of_valid hrecord hspec ((hcoves.guardFault r).trans hguard))
  have hhead : c.freshHead r (listPass (c.listRec u p)) = s.freshHead r (listPass (s.listRec u p)) := by
    simp only [State.freshHead, hcoves.guardNow, hcoves.listRec hu hp]
  have hexec : exec (.headLoad u p) s = .next (c.setHead (listKey u p) (some (s.freshHead r (listPass (s.listRec u p))))).settle := by
    rw [exec_headLoad_of_running hwork hu hp hrun hnone, hloaded, hhead]
  clear_value c
  refine ⟨_, hexec, rfl, hcoves, fun k hk => ?_, _, c.headOf_setHead_same _ _, rfl, rfl, rfl⟩
  rw [c.headOf_setHead_ne _ hk, State.headOf, State.headOf, hcoves.heads]

/-! ### Which list releases its head (R295) -/

section
variable {s : State} {u p : Nat} {h : Head}

theorem Head.open_of_latched (hlatched : ∀ i, i < recGuards h.record → guardKind h.record i ≠ 3 ∧ h.latched.getD i false = true) :
    h.open = true := by
  unfold Head.open
  rw [List.all_eq_true]
  intro i hi
  rw [(hlatched i (List.mem_range.mp hi)).2, Bool.or_true, Bool.true_or]

theorem Head.free_of_latched (hlatched : ∀ i, i < recGuards h.record → guardKind h.record i ≠ 3 ∧ h.latched.getD i false = true) :
    h.free = true := by
  unfold Head.free
  rw [Head.open_of_latched hlatched, Bool.true_and, List.all_eq_true]
  intro i hi
  rw [bne_iff_ne.mpr (hlatched i (List.mem_range.mp hi)).1, Bool.true_or]

/-- A head without CONSUME guards takes nothing. -/
theorem State.takeGuards_of_none (s : State) {is : List Nat} (hkind : ∀ i ∈ is, guardKind h.record i ≠ 3) : s.takeGuards h is = (s, h) := by
  induction is with
  | nil => rfl
  | cons i is ih => exact (if_pos (.inl (hkind i List.mem_cons_self))).trans (ih fun j hj => hkind j (.tail _ hj))

/-- A task that is not speculative, released by its list. -/
theorem State.releaseHead_of_released (hspec : recSpeculative h.record = false) (htaken : (s.unitRelease (s.headTask u p h.record)).2 = true) :
    s.releaseHead u p h = (s.unitRelease (s.headTask u p h.record)).1.headTaken u p := by
  have hordinary : (s.headTask u p h.record).speculative = false := hspec
  unfold State.releaseHead
  dsimp only
  rw [hordinary, if_pos (by decide), if_pos htaken]

/-- The one head that a unit's lists have is released, if its guards let it. -/
theorem State.releaseFrom_of_sole (hwf : Tab.wf none s.heads = true) (hhead : s.headOf (listKey u p) = some h)
    (hrun : listState (s.listRec u p) = 1) (hrebuild : s.rebuild ≠ some p) (hspec : recSpeculative h.record = false)
    (hlatched : ∀ i, i < recGuards h.record → guardKind h.record i ≠ 3 ∧ h.latched.getD i false = true)
    {ps : List Nat} (hp : p ∈ ps) (hnone : ∀ q ∈ ps, q ≠ p → s.headOf (listKey u q) = none) :
    State.releaseFrom u ps s = s.releaseHead u p h := by
  induction ps with
  | nil => exact absurd hp List.not_mem_nil
  | cons q ps ih =>
    by_cases hq : q = p
    · subst hq
      have hguards := State.takeGuards_of_none (h := h) s (is := List.range (recGuards h.record)) fun i hi => (hlatched i (List.mem_range.mp hi)).1
      have hsame : s.setHead (listKey u q) (some h) = s := by
        have hheads : tset none s.heads (listKey u q) (some h) = s.heads := by
          have hkept := tset_tget none (listKey u q) hwf
          rwa [show tget none s.heads (listKey u q) = some h from hhead] at hkept
        rw [State.setHead, hheads]
      have hready : (listState (s.listRec u q) != 1 || s.rebuild == some q || !h.open || !s.specFree u h) = false := by
        have hrooms : s.specFree u h = true := by rw [State.specFree, hspec]; rfl
        rw [hrun, beq_eq_false_iff_ne.mpr hrebuild, Head.open_of_latched hlatched, hrooms]
        rfl
      unfold State.releaseFrom
      rw [hhead]
      dsimp only
      rw [hready, if_neg (by decide), hguards]
      dsimp only
      rw [hsame, Head.free_of_latched hlatched, if_pos rfl]
    · have hlater : p ∈ ps := (List.mem_cons.mp hp).resolve_left fun h => hq h.symm
      unfold State.releaseFrom
      rw [hnone q List.mem_cons_self hq]
      exact ih hlater fun q' hq' => hnone q' (.tail _ hq')

/-- A sequencer looks at each of its unit's lists. -/
theorem State.mem_partOrder (s : State) (u : Nat) {q : Nat} : q ∈ s.partOrder u ↔ q < 16 := by
  unfold State.partOrder
  generalize tget 15 s.lastPart u = last
  rw [List.mem_map]
  constructor
  · rintro ⟨k, -, rfl⟩
    exact Nat.mod_lt _ (by decide)
  · intro hq
    exact ⟨(q + 15 * (last + 1)) % 16, List.mem_range.mpr (Nat.mod_lt _ (by decide)), by omega⟩

end

/-! ### A list that has released its head (R293, R295) -/

/-- The record of a list that moves on: to its next record, or to its first with the next PASS. -/
def nextRecord (w : Nat) : Nat :=
  if listCursor w + 1 < listLength w then setByteField w 18 2 (listCursor w + 1)
  else setByteField (setByteField w 18 2 0) 20 1 ((listPass w + 1) % 256)

theorem listCursor_nextRecord (w : Nat) : listCursor (nextRecord w) = if listCursor w + 1 < listLength w then listCursor w + 1 else 0 := by
  have hlength : listLength w < 2 ^ 16 := Nat.mod_lt _ (by decide)
  unfold nextRecord
  split
  · exact (bits_setBits_same ..).trans (Nat.mod_eq_of_lt (by omega))
  · exact (bits_setBits_apart (.inl (by decide)) ..).trans (bits_setBits_same ..)

theorem listPass_nextRecord (w : Nat) :
    listPass (nextRecord w) = if listCursor w + 1 < listLength w then listPass w else (listPass w + 1) % 256 := by
  unfold nextRecord
  split
  · exact bits_setBits_apart (.inr (by decide)) ..
  · exact (bits_setBits_same ..).trans (Nat.mod_mod _ _)

theorem listState_nextRecord (w : Nat) : listState (nextRecord w) = listState w := by
  unfold nextRecord
  split
  · exact bits_setBits_apart (.inr (by decide)) ..
  · exact (bits_setBits_apart (.inr (by decide)) ..).trans (bits_setBits_apart (.inr (by decide)) ..)

/-- What a unit leaves of `s` when it takes a task: the lists, the counts and memory, besides which the Estuary counts its group's step. -/
def taskPlaced (s v : State) : Prop :=
  storeFrame (Pd.groupTable :: coveKeys) s v ∧ v.heads = s.heads ∧ v.lastPart = s.lastPart ∧ v.mem = s.mem

/-- `x` is `s` after list p of unit u has released its head. -/
def headReleased (s x : State) (u p : Nat) : Prop :=
  x.headOf (listKey u p) = none ∧ x.listRec u p = nextRecord (s.listRec u p)
    ∧ x.reg Pd.tasksReleased = (s.reg Pd.tasksReleased + 1) % 2 ^ 64 ∧ tget 15 x.lastPart u = p ∧ x.mem = s.mem

section
variable {s v : State} {u p : Nat}

theorem taskPlaced.of_coves (h : covesRead s v) : taskPlaced s v :=
  ⟨h.2.mono fun _ hk => .tail _ hk, h.heads, (congrArg State.lastPart h.1 :), h.fields.2.2⟩

theorem taskPlaced.headTaken (h : taskPlaced s v) (hu : u < 66) (hp : p < 16) : headReleased s (v.headTaken u p) u p := by
  obtain ⟨hstore, -, -, hmem⟩ := h
  have hkey : listKey u p < 16777216 := by unfold listKey; omega
  have hlist : v.listRec u p = s.listRec u p := hstore _ _ (by decide) hkey
  have hcount : v.reg Pd.tasksReleased = s.reg Pd.tasksReleased := hstore.reg (by decide)
  let d := (v.setHead (listKey u p) none).setListRec u p (nextRecord (v.listRec u p))
  have hadvance : storeFrame [Pd.taskLists] v d := storeFrame.wr (.of_pd rfl) _ List.mem_cons_self hkey
  have hbump : storeFrame [Pd.tasksReleased] d (d.bump Pd.tasksReleased) := d.bump_store _ _
  refine ⟨tget_tset_same none v.heads _ none, ?_, ?_, tget_tset_same .., hmem⟩
  · calc (d.bump Pd.tasksReleased).listRec u p
        _ = d.listRec u p := hbump _ _ (by decide) hkey
        _ = nextRecord (v.listRec u p) := State.rd_wr_same _ _ _ _
        _ = nextRecord (s.listRec u p) := by rw [hlist]
  · exact (d.bump_reg _ _).trans (by rw [hadvance.reg (by decide), hcount])

/-- The statement's account of a released head. -/
theorem headReleased.spec {x : State} (h : headReleased s x u p) (hrun : listState (s.listRec u p) = 1) :
    x.headOf (listKey u p) = none
      ∧ listCursor (x.listRec u p) = (if listCursor (s.listRec u p) + 1 < listLength (s.listRec u p) then listCursor (s.listRec u p) + 1 else 0)
      ∧ listPass (x.listRec u p)
        = (if listCursor (s.listRec u p) + 1 < listLength (s.listRec u p) then listPass (s.listRec u p) else (listPass (s.listRec u p) + 1) % 256)
      ∧ listState (x.listRec u p) = 1 ∧ x.reg Pd.tasksReleased = (s.reg Pd.tasksReleased + 1) % 2 ^ 64 ∧ tget 15 x.lastPart u = p ∧ x.mem = s.mem := by
  obtain ⟨hhead, hlist, hcount, hlast, hmem⟩ := h
  rw [hlist]
  exact ⟨hhead, listCursor_nextRecord _, listPass_nextRecord _, (listState_nextRecord _).trans hrun, hcount, hlast, hmem⟩

end

/-! ### What each unit does with the task (R293) -/

/-- The Headland with its first task of this list. -/
def State.headlandTakes (s : State) (t : Task) (a : ArrayTask) : State := (s.passDescs t).headPlace a

/-- An engine with the task. -/
def State.engineTakes (s : State) (t : Task) (a : EngineTask) : State :=
  { (s.passDescs t).setEngine (t.unit - 1) { s.engine (t.unit - 1) with running := some { a with draw := s.fresh } } with fresh := s.fresh + 1 }

/-- The Estuary with the task as its last, its group's next step counted. -/
def State.estuaryTakes (s : State) (t : Task) (ds : List Desc) (step : Nat) : State :=
  let place : EstGroup := { part := t.part, descs := ds }
  let c := ((s.wr Pd.groupTable t.estGroup (setByteField (s.groupRec t.estGroup) 72 4 ((step + 1) % 2 ^ 32))).passDescs t).setEstGroup t.estGroup place
  { c with estuary := { c.estuary with tasks := c.estuary.tasks ++ [{ task := t, group := t.estGroup, step := step, sent := false, place := place }] } }

section
variable {s : State} {t : Task}

theorem State.unitRelease_headland {a : ArrayTask} (hunit : t.unit = 0) (hprepare : s.headPrepare t = .ok a) (hswapped : s.headland.swapped = false) :
    s.unitRelease t = (s.headlandTakes t a, true) := by
  rw [State.unitRelease, if_pos hunit, State.headRelease, hprepare]
  dsimp only
  rw [if_neg (by simp [hswapped])]
  rfl

theorem State.unitRelease_engine {a : EngineTask} (hunit : 1 ≤ t.unit ∧ t.unit ≤ 64) (hprepare : s.tidePrepare t = .ok a) :
    s.unitRelease t = (s.engineTakes t a, true) := by
  rw [State.unitRelease, if_neg (by omega), if_neg (by omega), State.tideRelease, hprepare]
  rfl

theorem State.unitRelease_estuary {t' : Task} {ds : List Desc} {step : Nat} (hunit : t.unit = 65) (hprepare : s.estPrepare t = .ok (t', ds, step)) :
    s.unitRelease t = (s.estuaryTakes t' ds step, true) := by
  rw [State.unitRelease, if_neg (by omega), if_pos hunit, State.estRelease, hprepare]
  rfl

/-- What keeps the store, the heads and memory of a state that a unit left keeps what it left of the lists. -/
theorem taskPlaced.of_same {s v w : State} (h : taskPlaced s v) (hpd : w.pd = v.pd) (hheads : w.heads = v.heads) (hlast : w.lastPart = v.lastPart)
    (hmem : w.mem = v.mem) : taskPlaced s w :=
  ⟨h.1.trans (.of_pd hpd), hheads.trans h.2.1, hlast.trans h.2.2.1, hmem.trans h.2.2.2⟩

theorem taskPlaced.trans {s v w : State} (h : taskPlaced s v) (h' : taskPlaced v w) : taskPlaced s w :=
  ⟨h.1.trans h'.1, h'.2.1.trans h.2.1, h'.2.2.1.trans h.2.2.1, h'.2.2.2.trans h.2.2.2⟩

theorem taskPlaced.wr (s : State) {k i : Nat} (hk : k ∈ Pd.groupTable :: coveKeys) (hi : i < 16777216) (x : Nat) : taskPlaced s (s.wr k i x) :=
  ⟨storeFrame.wr (.refl _ s) x hk hi, rfl, rfl, rfl⟩

theorem State.headlandTakes_placed (s : State) (t : Task) (a : ArrayTask) : taskPlaced s (s.headlandTakes t a) := by
  have hcoves := taskPlaced.of_coves (s.passDescs_read t)
  unfold State.headlandTakes State.headPlace
  generalize s.passDescs t = c at hcoves ⊢
  dsimp only
  split
  · exact hcoves.of_same rfl rfl rfl rfl
  · exact hcoves.of_same rfl rfl rfl rfl

theorem State.engineTakes_placed (s : State) (t : Task) (a : EngineTask) : taskPlaced s (s.engineTakes t a) := by
  have hcoves := taskPlaced.of_coves (s.passDescs_read t)
  unfold State.engineTakes
  generalize s.passDescs t = c at hcoves ⊢
  exact hcoves.of_same rfl rfl rfl rfl

theorem State.estuaryTakes_placed (s : State) (t : Task) (ds : List Desc) (step : Nat) (hgroup : t.estGroup < 64) :
    taskPlaced s (s.estuaryTakes t ds step) := by
  unfold State.estuaryTakes
  have hcounted : taskPlaced s (s.wr Pd.groupTable t.estGroup (setByteField (s.groupRec t.estGroup) 72 4 ((step + 1) % 2 ^ 32))) :=
    taskPlaced.wr s List.mem_cons_self (by omega) _
  generalize s.wr Pd.groupTable t.estGroup (setByteField (s.groupRec t.estGroup) 72 4 ((step + 1) % 2 ^ 32)) = d at hcounted ⊢
  have hplaced := hcounted.trans (taskPlaced.of_coves (d.passDescs_read t))
  generalize d.passDescs t = c at hplaced ⊢
  exact hplaced.of_same rfl rfl rfl rfl

theorem State.headlandTakes_headland (s : State) (t : Task) (a : ArrayTask) (hidle : s.headland.running = none) :
    (s.headlandTakes t a).headland.running = some a ∧ (s.headlandTakes t a).headland.loaded = 0 := by
  have hkept : (s.passDescs t).headland = s.headland := (congrArg State.headland (s.passDescs_read t).1 :)
  unfold State.headlandTakes State.headPlace
  generalize s.passDescs t = c at hkept ⊢
  have hempty : c.headland.running.isNone = true := by rw [hkept, hidle]; rfl
  rw [if_pos hempty]
  exact ⟨rfl, rfl⟩

theorem State.engineTakes_engine (s : State) (t : Task) (a : EngineTask) :
    (s.engineTakes t a).engine (t.unit - 1) = { s.engine (t.unit - 1) with running := some { a with draw := s.fresh } } := by
  unfold State.engineTakes
  generalize s.passDescs t = c
  exact c.engine_setEngine_same (t.unit - 1) { s.engine (t.unit - 1) with running := some { a with draw := s.fresh } }

theorem State.estuaryTakes_tasks (s : State) (t : Task) (ds : List Desc) (step : Nat) :
    (s.estuaryTakes t ds step).estuary.tasks = s.estuary.tasks
      ++ [{ task := t, group := t.estGroup, step := step, sent := false, place := { part := t.part, descs := ds } }] := by
  unfold State.estuaryTakes
  have hcounted := s.wr_estuary Pd.groupTable t.estGroup (setByteField (s.groupRec t.estGroup) 72 4 ((step + 1) % 2 ^ 32))
  generalize s.wr Pd.groupTable t.estGroup (setByteField (s.groupRec t.estGroup) 72 4 ((step + 1) % 2 ^ 32)) = d at hcounted ⊢
  have hkept : (d.passDescs t).estuary = s.estuary := (congrArg State.estuary (d.passDescs_read t).1 :).trans hcounted
  generalize d.passDescs t = c at hkept ⊢
  rw [← hkept]
  rfl

/-- The Estuary's checks leave a task its group, one of the 64. -/
theorem State.estPrepare_group {t' : Task} {ds : List Desc} {step : Nat} (h : s.estPrepare t = .ok (t', ds, step)) :
    t.estGroup < 64 ∧ t'.estGroup = t.estGroup := by
  unfold State.estPrepare at h
  dsimp only at h
  by_cases hgroup : 64 ≤ t.estGroup
  · rw [if_pos hgroup] at h
    exact nomatch h
  rw [if_neg hgroup] at h
  refine ⟨by omega, ?_⟩
  split at h
  · exact nomatch h
  split at h
  · exact nomatch h
  split at h
  · exact nomatch h
  split at h
  · exact nomatch h
  · exact nomatch h
  · split at h
    · exact nomatch h
    split at h
    · exact nomatch h
    obtain ⟨rfl, -, -⟩ : _ ∧ _ ∧ _ := by simpa using h
    rfl

end

/-! ### The release of the one head that can be released (R293, R295) -/

theorem exec_taskRelease_of_sole {s : State} {u p : Nat} {h : Head} (hwork : s.working = true) (hpower : s.reg Pd.powerState = 0) (hu : u < 66)
    (hp : p < 16) (hquiet : s.settle = s) (hwf : Tab.wf none s.heads = true) (haccepts : s.unitAccepts u = true) (hwaiting : s.specOf u = [])
    (hreruns : tget [] s.reruns u = []) (hhead : s.headOf (listKey u p) = some h) (hrun : listState (s.listRec u p) = 1)
    (hrebuild : s.rebuild ≠ some p) (hnone : ∀ q, q < 16 → q ≠ p → s.headOf (listKey u q) = none) (hspec : recSpeculative h.record = false)
    (hlatched : ∀ i, i < recGuards h.record → guardKind h.record i ≠ 3 ∧ h.latched.getD i false = true) {v : State}
    (htaken : s.unitRelease (s.headTask u p h.record) = (v, true)) :
    exec (.taskRelease u) s = .next (v.headTaken u p).settle := by
  have hready : (s.specWaiting u || !s.unitAccepts u) = false := by
    rw [State.specWaiting, hwaiting, haccepts]
    rfl
  have hrelease : s.releaseHead u p h = v.headTaken u p := by
    rw [State.releaseHead_of_released hspec (by rw [htaken]), htaken]
  have hfrom : State.releaseFrom u (s.partOrder u) s = v.headTaken u p :=
    (State.releaseFrom_of_sole hwf hhead hrun hrebuild hspec hlatched ((s.mem_partOrder u).mpr hp)
      fun q hq => hnone q ((s.mem_partOrder u).mp hq)).trans hrelease
  have hnext : s.releaseNext u = v.headTaken u p := by
    rw [State.releaseNext, hready, if_neg (by decide), hreruns]
    exact (if_pos hpower).trans hfrom
  change execTaskRelease u s = _
  rw [execTaskRelease, if_pos (by simp [hwork, hu]), hquiet, hnext]

/-- What a list does when it has released its head leaves the units. -/
theorem State.headTaken_units (v : State) (u p : Nat) : (v.headTaken u p).headland = v.headland
    ∧ (∀ i, (v.headTaken u p).engine i = v.engine i) ∧ (v.headTaken u p).estuary = v.estuary :=
  ⟨rfl, fun _ => rfl, rfl⟩

theorem satisfiedHeadIsReleased : Claims.SatisfiedHeadIsReleased := by
  intro s u p h hwork hpower hu hp hquiet hwf haccepts hwaiting hreruns hhead _ hrun hrebuild hnone hspec hlatched w t taken
  have hexec : ∀ v, s.unitRelease t = (v, true) → exec (.taskRelease u) s = .next (v.headTaken u p).settle := fun v htaken =>
    exec_taskRelease_of_sole hwork hpower hu hp hquiet hwf haccepts hwaiting hreruns hhead hrun hrebuild hnone hspec hlatched htaken
  have hreleased : ∀ v, taskPlaced s v → taken (v.headTaken u p) := fun v hv => (hv.headTaken hu hp).spec hrun
  refine ⟨fun a hunit hprepare hidle hswapped => ?_, fun a hlow hhigh hprepare => ?_, fun t' ds step hunit hprepare => ?_⟩
  · obtain ⟨hunits, -, -⟩ := (s.headlandTakes t a).headTaken_units u p
    refine ⟨_, hexec _ (State.unitRelease_headland hunit hprepare hswapped), hreleased _ (s.headlandTakes_placed t a), ?_⟩
    rw [hunits]
    exact s.headlandTakes_headland t a hidle
  · obtain ⟨-, hunits, -⟩ := (s.engineTakes t a).headTaken_units u p
    refine ⟨_, hexec _ (State.unitRelease_engine ⟨hlow, hhigh⟩ hprepare), hreleased _ (s.engineTakes_placed t a), ?_⟩
    rw [hunits]
    exact s.engineTakes_engine t a
  · obtain ⟨-, -, hunits⟩ := (s.estuaryTakes t' ds step).headTaken_units u p
    obtain ⟨hgroup, hsame⟩ := State.estPrepare_group hprepare
    refine ⟨_, hexec _ (State.unitRelease_estuary hunit hprepare), hreleased _ (s.estuaryTakes_placed t' ds step (hsame ▸ hgroup)), ?_⟩
    rw [hunits, s.estuaryTakes_tasks, hsame]

end Sys2Proof.Machine

open Sys2Proof Sys2Proof.Machine

/-- Settles O41: a head read is the record that passed its checks with the guards that hold, and the one head of a unit's lists is released
to the unit, whose checks alone can refuse it. -/
theorem headsAreReadAndReleased : Obligations.HeadsAreReadAndReleased :=
  ⟨headIsReadAtCursor, satisfiedHeadIsReleased⟩

end

section
/-!
PROOFS. PARTITION_RESET (spec/11 R315) and the counters. What follows a reset also ends handovers whose outgoing owner is fenced (R117), and of
the rooms with a handover under way `tablesOk` says nothing: one of a number beyond the 1,536 rooms has another word of the dictionary's store.
-/
namespace Sys2Proof.Machine

/-- The number at which a room's owner word would be the word of counter 0. -/
def strayRoom : Nat := (Pd.counterState - Pd.roomOwner) * 16777216

/-- A booted module without tasks: engine 0 is fenced, counter 0 is a counter of partition 0 whose TARGET is 2^16, and a handover of
`strayRoom` waits for its marker. -/
def strayHandover : State :=
  { pd := [(pdKey Pd.enginesFenced 0, 1), (pdKey Pd.counterState 0, 2 ^ 24 + 2)]
    rooms := [(strayRoom, { newWord := some 0, marker := true })]
    power := { step := 3 } }

/-- The catalogue's row of PARTITION_RESET. -/
def partitionResetRow : EntryInfo := ⟨0x503001, 1, 0, 4, 4, 0, 4, 0, false, 1, false, 0, 1⟩

/-- PARTITION_RESET of partition 1, from the mailbox. -/
def resetWrite : Req := ownWrite ⟨.mailbox, 0⟩ Pd.partitionReset 0 [1]

theorem exec_partitionReset (s : State) (o : Origin) (b : BitVec 8) :
    exec (.partitionReset o b) s = .next (s.receiveOwn servePartReset (ownWrite o Pd.partitionReset 0 [b])) := rfl

theorem strayHandover_tablesOk : strayHandover.tablesOk := ⟨rfl, by decide +kernel⟩

theorem strayHandover_admits : admitted strayHandover resetWrite .host partitionResetRow = true := by decide +kernel

theorem strayHandover_partTasks : strayHandover.partTasks 1 = false := by decide +kernel

theorem strayHandover_ctr : strayHandover.ctr 0 = 2 ^ 24 + 2 ∧ ctrPart (strayHandover.ctr 0) = 0 := by decide +kernel

/-- The reset's handover gives counter 0 the word of a room handed over for the first time. -/
theorem strayHandover_reset : (strayHandover.receiveOwn servePartReset resetWrite).ctr 0 = 2 ^ 32 := by decide +kernel

end Sys2Proof.Machine

open Sys2Proof Sys2Proof.Machine

/-- Refutes O42: in `strayHandover` the reset of partition 1 changes counter 0, which is partition 0's. -/
theorem not_tasksEndAndPartitionsAreWithdrawn : ¬ Obligations.TasksEndAndPartitionsAreWithdrawn := by
  unfold Obligations.TasksEndAndPartitionsAreWithdrawn
  rintro ⟨-, -, -, hreset⟩
  obtain ⟨hpartition, -⟩ := hreset strayHandover ⟨.mailbox, 0⟩ 1 .host partitionResetRow strayHandover_tablesOk strayHandover_admits
    strayHandover_partTasks rfl rfl rfl
  obtain ⟨t, hexec, -, -, hctr, -⟩ := hpartition (by decide) rfl
  rw [exec_partitionReset] at hexec
  injection hexec with hstate
  change strayHandover.receiveOwn servePartReset resetWrite = t at hstate
  obtain ⟨hword, hpart⟩ := strayHandover_ctr
  have hother : ¬ (ctrPart (strayHandover.ctr 0) = (1 : BitVec 8).toNat ∧ ctrState (strayHandover.ctr 0) ≠ 0) := by
    rw [hpart]
    exact fun h => absurd h.1 (by decide)
  have hkept : t.ctr 0 = 2 ^ 24 + 2 := ((hctr 0 (by decide)).trans (if_neg hother)).trans hword
  rw [← hstate, strayHandover_reset] at hkept
  omega
end
